-- ==== Sys2Proof/Word.lean ====
section
/-! DEFINITION. The word and number types of the part, and the two plainest operations on a table of fixed length. -/

namespace Sys2Proof

/-- A character on a position link, and a byte of a frame (R171, R185). -/
abbrev Byte := BitVec 8

/-- P0 to P5. -/
abbrev Position := Fin 6

/-- L0 to L15. -/
abbrev Line := Fin 16

/-- E0 to E31. -/
abbrev Element := Fin 32

/-- route 0 to route 47. -/
abbrev Route := Fin 48

/-- band 0 to band 11. -/
abbrev Band := Fin 12

/-- filter 0 to filter 7; 7 is the bypass. -/
abbrev FilterNo := Fin 8

/-- select 0 to select 3 of a line. -/
abbrev Select := Fin 4

/-- A set of bands, as R185 numbers its sixteen bits: bit b carries band b. -/
abbrev BandSet := BitVec 16

/-- A set of fault kinds, as R185 numbers its sixteen bits: bit b carries fault kind b + 1. -/
abbrev KindSet := BitVec 16

/-- A setting of the 256 relay bits of R136; 1 closes the relay. -/
abbrev Image := BitVec 256

/-- A timer: none while stopped, and while running the interval in milliseconds it was started with (R21). -/
abbrev Timer := Option Nat

/-- The six positions in position order. -/
def allPositions : List Position := [0, 1, 2, 3, 4, 5]

/-- The table `v` with entry `i` replaced whole by `x`. -/
def put {α : Type} {n : Nat} (v : Vector α n) (i : Fin n) (x : α) : Vector α n :=
  v.set i.val x i.isLt

/-- Every entry of the table `v` replaced by `f` of its index and itself. -/
def mapFin {α β : Type} {n : Nat} (f : Fin n → α → β) (v : Vector α n) : Vector β n :=
  ⟨(List.zipWith f (List.finRange n) v.toList).toArray, by simp⟩

end Sys2Proof
end

