-- ==== Sys2Proof/Syntax.lean ====
section
/-! DEFINITION. The commands of the part: one constructor per row of spec/opcode_table.json, in the table's order.
A command names one whole step of the part (spec/95_what_each_step_holds.md). A request row carries the port whose
oldest receive slot holds the request: the request's own fields are the bytes of the frame in that slot (R177), which
the receiver's characters put there. -/

namespace Sys2Proof

/-- What ends a frame in error: a framing error, or a character with a bad length or a bad check (R174). -/
inductive FrameFault where
  | framing
  | character (c : Byte)
  deriving DecidableEq, Repr

/-- The blocks that each take a position's absence as an event of their own (R35, R72, R110). -/
inductive AbsenceTaker where
  | bandDecoder
  | lineAllocator
  | transmitInterlock
  deriving DecidableEq, Repr

/-- The blocks that each take a position's return as an event of their own (R73, R110). -/
inductive ReturnTaker where
  | lineAllocator
  | transmitInterlock
  deriving DecidableEq, Repr

/-- The result of a save write, or of its notice (R192). -/
inductive SaveResult where
  | ok
  | failed
  deriving DecidableEq, Repr

/-- The commands of the part. -/
inductive Instr where
  -- requests, each taken from the oldest receive slot of port `p`
  | poll (p : Position)
  | freq (p : Position)
  | claimWait (p : Position)
  | claimNow (p : Position)
  | claimTake (p : Position)
  | release (p : Position)
  | cancel (p : Position)
  | followOn (p : Position)
  | followOff (p : Position)
  | step (p : Position)
  | query (p : Position)
  | tableRead (p : Position)
  | bandWrite (p : Position)
  | feedLineWrite (p : Position)
  | elementWrite (p : Position)
  | routeWrite (p : Position)
  | ringWrite (p : Position)
  | stationPolicyWrite (p : Position)
  | positionSettingsWrite (p : Position)
  | faultConfigurationWrite (p : Position)
  | save (p : Position)
  | faultRead (p : Position)
  | faultClear (p : Position)
  | restartRequest (p : Position)
  | unknownRequestKind (p : Position)
  -- events of the position links; `c` is the character taken
  | frameArrival (p : Position) (c : Byte)
  | frameError (p : Position) (e : FrameFault)
  | gapExpiry (p : Position)
  | skippingStart (p : Position)
  | frameSent (p : Position)
  | divisorChange (p : Position)
  | linkSilenceExpiry (p : Position)
  | absence (b : AbsenceTaker) (p : Position)
  | positionReturn (b : ReturnTaker) (p : Position)
  -- events of the hard lines and timers; `on` says whether the new raw level is the asserted one
  | pttLevelChange (p : Position) (on : Bool)
  | rfSenseLevelChange (p : Position) (on : Bool)
  | pttOn (p : Position)
  | pttOff (p : Position)
  | rfOn (p : Position)
  | rfOff (p : Position)
  | hangExpiry (p : Position)
  | tailExpiry (p : Position)
  | staleExpiry (p : Position)
  | lockLevelChange (on : Bool)
  | lockDebounceExpiry
  | restartNLevelChange (on : Bool)
  | restartPin
  | powerOn
  -- events of the relay chain
  | verifyTimerExpiry
  | changeShiftEnd
  | changeCompletion
  | verifyEnd
  | resyncFillEnd
  | resyncPass
  | mismatch (bit : Nat)
  -- events of the store and of the fault log
  | saveWriteEnd (r : SaveResult)
  | occurrence
  -- rows the table adds at its end
  | goodCharacter (p : Position) (c : Byte)
  | restartNDebouncedRelease
  | powerLoss
  deriving DecidableEq, Repr

end Sys2Proof
end

