-- ==== Sys2Proof/Decode.lean ====
section
/-! DEFINITION. Reading a command from a table word. No row of spec/opcode_table.json gives bits (every row's "fields" is
empty and none has a fixed pattern): a command of this block is an event, not a word. So no word spells one. -/

namespace Sys2Proof

/-- The command that a word spells by the opcode table's bits: none, since no row of the table gives bits. -/
def decodeTableWord (_nbits _w : Nat) : Option Instr := none

end Sys2Proof
end

