-- ==== Sys2Proof/Config.lean ====
section
/-! DEFINITION. The fixed sizes of the Bentica 616 (spec/00_scope.md, Capacities), and the free values of the model. -/

namespace Sys2Proof.Config

/-- Frames a port's outgoing queue holds (R181). -/
def queueFrames : Nat := 8

/-- A notice is queued only while the outgoing queue holds fewer frames than this (R181). -/
def noticeLimit : Nat := 6

/-- Receive slots of a port (R175). -/
def receiveSlots : Nat := 2

/-- Frames a port reckons for the reply to a QUERY, the most a reply can take (R177). -/
def maxReplyFrames : Nat := 4

/-- Data bytes a part of a multi-part reply carries (R178). -/
def partBytes : Nat := 30

/-- Samples of RXD_n in one bit time (R172). -/
def bitSamples : Nat := 16

/-- The sample after a falling edge at which a start bit is confirmed (R172). -/
def confirmSamples : Nat := 8

/-- The greatest f10 count a report stores (R28); it decodes to no band (R30). -/
def maxF10 : Nat := 6000000

/-- The greatest band edge in f100 (R5). -/
def maxEdge : Nat := 600000

/-- The greatest mode half-width W, in 100 Hz units (R28). -/
def maxWidth : Nat := 30

/-- Passes an arbiter run makes at most (R101). -/
def arbiterPasses : Nat := 7

/-- Bits of the relay image (R136). -/
def imageBits : Nat := 256

/-- Where an occurrence counter stays (R161). -/
def counterTop : Nat := 255

/-- A free value: whether a position's port is confirming a start bit (R172) at a moment at which R198 asks, which the line decides and
no command tells. The number is the count of that port's questions before this one, so that each question has an answer of its own
(assumption 26). -/
opaque startBit : Position → Nat → Bool

/-- A free value: the bytes of the nonvolatile image's format marker, a fixed value that the manual does not give (R190; assumption 6). -/
opaque formatMarker : List Byte

/-- A free value: the bytes of the format version that this part writes (R190; assumption 6). -/
opaque formatVersion : List Byte

/-- A free value: which format versions beside its own this part reads (R193; assumption 6). -/
opaque readsVersion : List Byte → Bool

/-- A free value: what stands in the sum's place where a write of the nonvolatile image has not finished, of which R190 says only that it
does not match. The number counts the writes begun before this one (assumption 19). -/
opaque unfinishedSum : Nat → BitVec 16

end Sys2Proof.Config
end

