-- ==== Sys2Proof/Machine/Types.lean ====
section
/-! DEFINITION. The kinds of data the blocks of the part hold: the records of each chapter as plain structures, and its
named values as inductive types in the order the manual first lists them (which is also their code on a link, R185). -/

namespace Sys2Proof.Machine

/-! ## Station table (chapter 1) -/

/-- MAIN or AUX (00_scope, Terms). -/
inductive PortKind where
  | main
  | aux
  deriving DecidableEq, Repr

/-- MAIN or RX (section 1.3). -/
inductive LineKind where
  | main
  | rx
  deriving DecidableEq, Repr

/-- OFF, ADVISE or BLOCK (section 1.8). -/
inductive HarmonicPolicy where
  | off
  | advise
  | block
  deriving DecidableEq, Repr

/-- OFF or KEYED (section 1.8). -/
inductive LockMode where
  | off
  | keyed
  deriving DecidableEq, Repr

/-- MINOR, MAJOR or FATAL (section 1.10). -/
inductive Severity where
  | minor
  | major
  | fatal
  deriving DecidableEq, Repr

/-- ALARM_A or ALARM_B (section 1.10). -/
inductive AlarmLine where
  | a
  | b
  deriving DecidableEq, Repr

/-- The eleven fault kinds, in their numbering from 1 (section 8.1). -/
inductive FaultKind where
  | ungrantedRf
  | hotSwitch
  | chainMismatch
  | linkSilent
  | storeFault
  | linkFrame
  | linkOverrun
  | freqStale
  | oobPtt
  | harmonicTx
  | noticeDrop
  deriving DecidableEq, Repr

/-- A band entry (section 1.2). The label is its characters, none for no label. -/
structure BandEntry where
  lower : Nat
  upper : Nat
  filter : FilterNo
  label : List Byte
  enabled : Bool
  deriving DecidableEq, Repr

/-- A feed line entry (section 1.3). -/
structure LineEntry where
  kind : LineKind
  ports : Nat
  reserved : Option Position
  enabled : Bool
  deriving DecidableEq, Repr

/-- An element entry (section 1.4). -/
structure ElementEntry where
  line : Line
  select : Select
  bands : BandSet
  enabled : Bool
  deriving DecidableEq, Repr

/-- A route entry with its computed band set (section 1.5, R14). -/
structure RouteEntry where
  line : Line
  elements : List Element
  label : List Byte
  enabled : Bool
  bands : BandSet
  deriving DecidableEq, Repr

/-- The station policy: its fourteen fields in table order, in the units they are carried in (section 1.8). -/
structure Policy where
  tDeb : Nat
  tSettle : Nat
  tTail : Nat
  tHang : Nat
  tStale : Nat
  tLink : Nat
  tVerify : Nat
  k : Nat
  c : Nat
  nMax : Nat
  gBase : Nat
  harmonic : HarmonicPolicy
  chainLength : Nat
  lockMode : LockMode
  deriving DecidableEq, Repr

/-- A position's settings (section 1.9). -/
structure Settings where
  priority : Nat
  protect : Bool
  divisor : Nat
  eighths : Nat
  deriving DecidableEq, Repr

/-- A fault kind's configuration (section 1.10). -/
structure FaultConfig where
  detectMask : Bool
  reportMask : Bool
  severity : Severity
  routing : AlarmLine
  deriving DecidableEq, Repr

/-- The station table: eight subjects (section 1.1). The ring of (p, b, kind) is entry 24 p + 2 b + kind of `rings`. -/
structure Table where
  bands : Vector BandEntry 12
  lines : Vector LineEntry 16
  elements : Vector ElementEntry 32
  routes : Vector RouteEntry 48
  rings : Vector (List Route) 144
  policy : Policy
  settings : Vector Settings 6
  faults : Vector FaultConfig 11
  deriving DecidableEq, Repr

/-! ## Station Table and Store (chapters 1 and 10) -/

/-- STARTING, READY or RESTARTING (R194). -/
inductive ReadyState where
  | starting
  | ready
  | restarting
  deriving DecidableEq, Repr

/-- The nonvolatile image (R190): the bytes of its format marker and of its format version, its table, and its stored sum. The last field
is the model's own: the count of the writes begun, the argument of the free value Config.unfinishedSum (assumption 19). -/
structure NvImage where
  marker : List Byte
  version : List Byte
  table : Table
  sum : BitVec 16
  writes : Nat
  deriving DecidableEq, Repr

/-- What STS holds beside the working table: the image, the save in progress with its snapshot and requester, the ready
state, and the debounced LOCK and RESTART_N inputs (R24, R190 to R196). Levels are `true` when asserted. -/
structure Store where
  nv : NvImage
  saving : Bool
  snapshot : Option Table
  requester : Option Position
  ready : ReadyState
  lockRaw : Bool
  lock : Bool
  lockTimer : Timer
  restartRaw : Bool
  restart : Bool
  restartTimer : Timer
  deriving DecidableEq, Repr

/-! ## Band Decoder (chapter 2) -/

/-- A frequency record, and the values carried by the last BAND notice (section 2.1, R39). -/
structure FreqRecord where
  rx : Option Nat
  tx : Option Nat
  width : Nat
  band : Option Band
  outOfBand : Bool
  stale : Bool
  candidate : Option Band
  count : Nat
  staleTimer : Timer
  sentBand : Option Band
  sentOutOfBand : Bool
  sentStale : Bool
  deriving DecidableEq, Repr

/-! ## Line Allocator (chapters 3 and 4) -/

/-- PENDING, MAKING, CONNECTED or BREAKING (section 3.1). -/
inductive HolderState where
  | pending
  | making
  | connected
  | breaking
  deriving DecidableEq, Repr

/-- A holder record (section 3.1). -/
structure Holder where
  pos : Position
  line : Line
  route : Route
  kind : PortKind
  state : HolderState
  latched : Bool
  breakRequested : Bool
  reroute : Option Route
  deriving DecidableEq, Repr

/-- The manner of a claim (section 3.4). -/
inductive Manner where
  | wait
  | now
  | take
  deriving DecidableEq, Repr

/-- A wait entry (section 3.3); its manner is `wait` or `take`. -/
structure WaitEntry where
  pos : Position
  route : Route
  manner : Manner
  move : Bool
  priority : Nat
  deriving DecidableEq, Repr

/-- FREE, CLEARING, SETTING or HELD (R48). -/
inductive LineState where
  | free
  | clearing
  | setting
  | held
  deriving DecidableEq, Repr

/-- What the allocator keeps for one position and one port kind beside its records and entries: the follow state of
section 4.1 and the absence loss of R72. -/
structure Standing where
  follow : Bool
  due : Bool
  reclaim : Option Line
  loss : Option Line
  deriving DecidableEq, Repr

/-- A position's standing on each port kind. -/
structure Standings where
  main : Standing
  aux : Standing
  deriving DecidableEq, Repr

/-- The Line Allocator's state: holder records in order of creation, the wait list of each line, and the standings. -/
structure Allocator where
  records : List Holder
  lists : Vector (List WaitEntry) 16
  standings : Vector Standings 6
  deriving DecidableEq, Repr

/-- The reasons for LOST (R71). -/
inductive LostReason where
  | taken
  | absent
  | safe
  | restart
  | releasedByFollow
  deriving DecidableEq, Repr

/-! ## Transmit Interlock (chapter 5) -/

/-- The five transmit states (section 5.1). -/
inductive TxState where
  | idle
  | waiting
  | granted
  | hang
  | revoked
  deriving DecidableEq, Repr

/-- The reasons of R102, in the order of their codes in R185. -/
inductive WaiterReason where
  | safe
  | absent
  | noBand
  | noCover
  | noLine
  | outOfBand
  | switching
  | limit
  | bandBusy
  | harmonic
  deriving DecidableEq, Repr

/-- The causes of revocation (R107). -/
inductive RevocationCause where
  | band
  | taken
  | safe
  | absent
  | restart
  deriving DecidableEq, Repr

/-- A transmit record (section 5.1) with the raw levels of its two inputs; levels are `true` when asserted. -/
structure TxRecord where
  state : TxState
  ptt : Bool
  rf : Bool
  pttRaw : Bool
  rfRaw : Bool
  pttTimer : Timer
  rfTimer : Timer
  hangTimer : Timer
  tailTimer : Timer
  skipHang : Bool
  reason : Option WaiterReason
  lastRevocation : Option RevocationCause
  deriving DecidableEq, Repr

/-! ## Relay Chain Driver (chapter 7) -/

/-- CHANGE, VERIFY or RESYNC. -/
inductive OpKind where
  | change
  | verify
  | resync
  deriving DecidableEq, Repr

/-- The purposes of operations (section 7.2). -/
inductive Purpose where
  | ordinary
  | startUp
  | refresh
  | restart
  | retry
  | unknown
  | exit
  deriving DecidableEq, Repr

/-- The phases of operations (section 7.2). -/
inductive Phase where
  | shifting
  | settling
  | filling
  | checking
  deriving DecidableEq, Repr

/-- An operation record (section 7.2); `changeSet` is zero for a VERIFY or a RESYNC. -/
structure Operation where
  kind : OpKind
  purpose : Purpose
  phase : Phase
  image : Image
  changeSet : Image
  length : Nat
  deriving DecidableEq, Repr

/-- An attempt record (section 7.2). -/
structure Attempt where
  kind : OpKind
  repeatDue : Bool
  deriving DecidableEq, Repr

/-- A filter record (R139); its state is SETTLED when `image` equals `current`. -/
structure FilterRecord where
  current : Option FilterNo
  target : Option FilterNo
  image : Option FilterNo
  deriving DecidableEq, Repr

/-- What the Relay Chain Driver holds (section 7.2). `content` is none while UNKNOWN; `settleTimer` runs the settle interval
of a CHANGE; `lengthDue` is the marking of R149 that waits for the end of the operation in flight. -/
structure Chain where
  latched : Image
  content : Option Image
  pending : Image
  op : Option Operation
  attempt : Option Attempt
  settleTimer : Timer
  verifyTimer : Timer
  refreshDue : Bool
  restartHold : Bool
  exitRequest : Bool
  heldForEntry : Bool
  lengthDue : Bool
  filters : Vector FilterRecord 6
  deriving DecidableEq, Repr

/-! ## Fault Log and Safe-State Control (chapter 8) -/

/-- What raised an UNGRANTED_RF (R156). -/
inductive RfCause where
  | rfOn
  | tail
  deriving DecidableEq, Repr

/-- What raised a HOT_SWITCH (R156). -/
inductive HotCause where
  | rfOn
  | start
  deriving DecidableEq, Repr

/-- The store phase of a STORE_FAULT (R156). -/
inductive StorePhase where
  | load
  | write
  deriving DecidableEq, Repr

/-- The subkinds of LINK_FRAME, in the order R156 lists them. -/
inductive FrameSubkind where
  | framing
  | gap
  | check
  | length
  deriving DecidableEq, Repr

/-- The detail of an occurrence (R156). -/
inductive Detail where
  | none
  | rf (c : RfCause)
  | hot (c : HotCause) (bit : Nat)
  | chain (bit : Nat) (kind : OpKind) (second : Bool)
  | store (phase : StorePhase)
  | frame (s : FrameSubkind)
  | harmonic (receiver : Position) (n : Nat)
  | dropped (kind : Byte)
  deriving DecidableEq, Repr

/-- An occurrence handed to the Fault Log (R156). -/
structure Occurrence where
  kind : FaultKind
  pos : Option Position
  line : Option Line
  band : Option Band
  detail : Detail
  deriving DecidableEq, Repr

/-- A first record of the log (R159). -/
structure LogRecord where
  occ : Occurrence
  severity : Severity
  stamp : BitVec 32
  deriving DecidableEq, Repr

/-- What the Fault Log holds (section 8, introduction). -/
structure FaultLog where
  firstSerious : Option LogRecord
  firstMinor : Option LogRecord
  nextSerious : KindSet
  nextMinor : KindSet
  counters : Vector Nat 11
  alarmA : Bool
  alarmB : Bool
  clock : BitVec 32
  safe : Bool
  exitPending : Bool
  exitSpoiled : Bool
  deriving DecidableEq, Repr

/-- What has been handed to the Fault Log and not yet taken, in the order it was handed (R156, R167). -/
inductive LogEvent where
  | occurred (o : Occurrence)
  | exitResult (passed : Bool)
  deriving DecidableEq, Repr

/-! ## Position Link Ports (chapter 9) -/

/-- A frame: its kind byte and its payload (R173). -/
structure Frame where
  kind : Byte
  payload : List Byte
  deriving DecidableEq, Repr

/-- The frame receiver's states (R173, R176). `body` and `check` carry L and the characters stored so far; `skipping` carries
none while its length character is awaited, and then how many characters are still to be discarded. -/
inductive Receiver where
  | hunting
  | length
  | body (len : Nat) (stored : List Byte)
  | check (len : Nat) (stored : List Byte)
  | skipping (left : Option Nat)
  deriving DecidableEq, Repr

/-- A port. HOLD_n is asserted when both slots are full, so it is not stored. `sending` says that the transmitter is inside
a frame. `waitingDivisor` is a divisor not yet applied, and `divisorWait` how many queued frames must go out before it may be
(R198). `startBit` says that a start bit is being confirmed (R172), as the port last found when R198 asked, and `looks` counts these
questions (assumption 26). -/
structure Link where
  receiver : Receiver
  slots : List Frame
  queue : List Frame
  sending : Bool
  present : Bool
  silenceTimer : Timer
  noticeLost : Bool
  divisor : Nat × Nat
  waitingDivisor : Option (Nat × Nat)
  divisorWait : Nat
  startBit : Bool
  looks : Nat
  deriving DecidableEq, Repr

/-- An absence or a return that a port has handed on and a block has not yet taken. -/
inductive Handed where
  | absence (b : AbsenceTaker) (p : Position)
  | positionReturn (b : ReturnTaker) (p : Position)
  deriving DecidableEq, Repr

/-- A notice (R187, R132). -/
inductive Notice where
  | granted (kind : PortKind) (line : Line) (route : Route)
  | lost (kind : PortKind) (line : Line) (reason : LostReason)
  | band (b : Option Band) (outOfBand stale : Bool)
  | harmonic (transmitter receiver : Position) (n margin : Nat)
  | fault (kind : FaultKind) (severity : Severity)
  | safe (entered : Bool)
  | saveDone (r : SaveResult)
  | noRoute (kind : PortKind) (b : Band)
  deriving DecidableEq, Repr

/-- The reply codes (R185). -/
inductive Code where
  | ok
  | queued
  | adjusted
  | busy
  | unavailable
  | outranked
  | reserved
  | conflict
  | emptyRing
  | locked
  | invalid
  | badIndex
  | badRequest
  | safe
  | notReady
  deriving DecidableEq, Repr

end Sys2Proof.Machine
end

