-- ==== Sys2Proof/Machine/Factory.lean ====
section
/-! DEFINITION. The factory table (R25) and the values each record holds at power-on. -/

namespace Sys2Proof.Machine

/-- A label's characters from their codes. -/
def labelOf (codes : List Nat) : List Byte := codes.map (BitVec.ofNat 8)

/-- An enabled factory band. -/
def factoryBand (lower upper : Nat) (f : FilterNo) (label : List Nat) : BandEntry :=
  { lower := lower, upper := upper, filter := f, label := labelOf label, enabled := true }

/-- Band 10 and band 11 of the factory table: disabled, both edges 0, filter 7, no label. -/
def unusedBand : BandEntry := { lower := 0, upper := 0, filter := 7, label := [], enabled := false }

/-- The band table of R25. The labels are "160 m", "80 m", "40 m", "30 m", "20 m", "17 m", "15 m", "12 m", "10 m", "6 m". -/
def factoryBands : Vector BandEntry 12 :=
  #v[factoryBand 18000 20000 0 [0x31, 0x36, 0x30, 0x20, 0x6D],
     factoryBand 35000 40000 1 [0x38, 0x30, 0x20, 0x6D],
     factoryBand 70000 73000 2 [0x34, 0x30, 0x20, 0x6D],
     factoryBand 101000 101500 7 [0x33, 0x30, 0x20, 0x6D],
     factoryBand 140000 143500 3 [0x32, 0x30, 0x20, 0x6D],
     factoryBand 180680 181680 7 [0x31, 0x37, 0x20, 0x6D],
     factoryBand 210000 214500 4 [0x31, 0x35, 0x20, 0x6D],
     factoryBand 248900 249900 7 [0x31, 0x32, 0x20, 0x6D],
     factoryBand 280000 297000 5 [0x31, 0x30, 0x20, 0x6D],
     factoryBand 500000 540000 6 [0x36, 0x20, 0x6D],
     unusedBand, unusedBand]

/-- The default station policy (section 1.8). -/
def factoryPolicy : Policy :=
  { tDeb := 4, tSettle := 15, tTail := 10, tHang := 30, tStale := 10, tLink := 5, tVerify := 2, k := 2, c := 2,
    nMax := 3, gBase := 10, harmonic := .advise, chainLength := 26, lockMode := .keyed }

/-- The default settings of a position (section 1.9). -/
def factorySettings : Settings := { priority := 1, protect := true, divisor := 26, eighths := 5 }

/-- A factory fault configuration: both masks clear (R23). -/
def factoryFault (sev : Severity) (out : AlarmLine) : FaultConfig :=
  { detectMask := false, reportMask := false, severity := sev, routing := out }

/-- The factory fault configurations, kinds 1 to 11 (section 1.10). -/
def factoryFaults : Vector FaultConfig 11 :=
  #v[factoryFault .fatal .a, factoryFault .fatal .a, factoryFault .fatal .a,
     factoryFault .major .b, factoryFault .major .b,
     factoryFault .minor .b, factoryFault .minor .b, factoryFault .minor .b,
     factoryFault .minor .b, factoryFault .minor .b, factoryFault .minor .b]

/-- The factory table (R25). -/
def factoryTable : Table :=
  { bands := factoryBands
    lines := Vector.replicate 16 { kind := .main, ports := 1, reserved := none, enabled := false }
    elements := Vector.replicate 32 { line := 0, select := 0, bands := 0, enabled := false }
    routes := Vector.replicate 48 { line := 0, elements := [0], label := [], enabled := false, bands := 0 }
    rings := Vector.replicate 144 []
    policy := factoryPolicy
    settings := Vector.replicate 6 factorySettings
    faults := factoryFaults }

/-- A frequency record after power-on and RESTART (R40). -/
def clearFreq : FreqRecord :=
  { rx := none, tx := none, width := 0, band := none, outOfBand := false, stale := false, candidate := none, count := 0,
    staleTimer := none, sentBand := none, sentOutOfBand := false, sentStale := false }

/-- A standing after power-on and RESTART (R76, R92). -/
def clearStanding : Standing := { follow := false, due := false, reclaim := none, loss := none }

/-- The allocator at power-on (R76). -/
def clearAllocator : Allocator :=
  { records := [], lists := Vector.replicate 16 [],
    standings := Vector.replicate 6 { main := clearStanding, aux := clearStanding } }

/-- A transmit record at power-on (R118). -/
def clearTx : TxRecord :=
  { state := .idle, ptt := false, rf := false, pttRaw := false, rfRaw := false, pttTimer := none, rfTimer := none,
    hangTimer := none, tailTimer := none, skipHang := false, reason := none, lastRevocation := none }

/-- The driver at power-on (R154). -/
def clearChain : Chain :=
  { latched := 0, content := none, pending := 0, op := none, attempt := none, settleTimer := none, verifyTimer := none,
    refreshDue := true, restartHold := false, exitRequest := false, heldForEntry := false, lengthDue := false,
    filters := Vector.replicate 6 { current := none, target := none, image := none } }

/-- The fault log at power-on (R170). -/
def clearLog : FaultLog :=
  { firstSerious := none, firstMinor := none, nextSerious := 0, nextMinor := 0, counters := Vector.replicate 11 0,
    alarmA := false, alarmB := false, clock := 0, safe := false, exitPending := false, exitSpoiled := false }

/-- A port at power-on with the given divisor (R189). -/
def clearLink (divisor : Nat × Nat) : Link :=
  { receiver := .hunting, slots := [], queue := [], sending := false, present := false, silenceTimer := none,
    noticeLost := false, divisor := divisor, waitingDivisor := none, divisorWait := 0, startBit := false, looks := 0 }

/-- A nonvolatile image without a marker or a version, whose sum does not match: it fails the tests of R193 (assumption 1). -/
def blankImage : NvImage := { marker := [], version := [], table := factoryTable, sum := 0, writes := 0 }

/-- The store at power-on (R24, R25, R193): no save, STARTING, the debounced LOCK counted as asserted. -/
def clearStore : Store :=
  { nv := blankImage, saving := false, snapshot := none, requester := none, ready := .starting, lockRaw := false,
    lock := true, lockTimer := none, restartRaw := false, restart := false, restartTimer := none }

end Sys2Proof.Machine
end

