-- ==== Sys2Proof/Machine/State.lean ====
section
/-! DEFINITION. The whole state of the part, the reasons a step can stop, and the state at reset. -/

namespace Sys2Proof.Machine

/-- The state of the part. Pins: the raw input levels stand in `tx` and `store`, ALARM_A and ALARM_B in `log`; INHIBIT_n and
HOLD_n are functions of the transmit state and of the slots (R94, R175), and the chain port of the operation in flight. -/
structure State where
  /-- the commands that are waiting, first in, first out -/
  pending : List Instr
  /-- power is applied and the load event of R193 has been taken -/
  powered : Bool
  /-- the working table (R1) -/
  table : Table
  /-- the Station Table and Store's other state -/
  store : Store
  /-- the Band Decoder's frequency records (section 2.1) -/
  freq : Vector FreqRecord 6
  /-- the Line Allocator's state (chapters 3 and 4) -/
  alloc : Allocator
  /-- the transmit records (section 5.1) -/
  tx : Vector TxRecord 6
  /-- the waiting set, oldest first (R99) -/
  waiting : List Position
  /-- the pairs (T, R) whose advisory flag is set, in the order of R127 (R126) -/
  advisory : List (Position × Position)
  /-- the Relay Chain Driver's state (section 7.2) -/
  chain : Chain
  /-- the Fault Log's state (chapter 8) -/
  log : FaultLog
  /-- what has been handed to the Fault Log and not yet taken (R156) -/
  inbox : List LogEvent
  /-- absences and returns handed on and not yet taken (R183, R184) -/
  handed : List Handed
  /-- the six ports (chapter 9) -/
  links : Vector Link 6
  deriving DecidableEq, Repr

/-- The part has no fault that stops it: every fault of the manual is an occurrence that the Fault Log takes (chapter 8),
which is an effect on the state. So no constructor is needed. -/
inductive Fault where
  deriving DecidableEq, Repr

/-- Why a command has no next state. -/
inductive Refusal where
  /-- Raised by `exec` for a command without a meaning. No command of this model is without one, so nothing raises it. Safe. -/
  | notModelled (mnemonic : String)
  deriving DecidableEq, Repr

/-- The state at reset: every chapter's power-on value, before the load event of R193 that the command POWER_ON is. The
nonvolatile image, whose content the spec does not give before the first SAVE, is blank (assumption 1). -/
def State.reset : State :=
  { pending := []
    powered := false
    table := factoryTable
    store := clearStore
    freq := Vector.replicate 6 clearFreq
    alloc := clearAllocator
    tx := Vector.replicate 6 clearTx
    waiting := []
    advisory := []
    chain := clearChain
    log := clearLog
    inbox := []
    handed := []
    links := Vector.replicate 6 (clearLink (26, 5)) }

end Sys2Proof.Machine
end

