-- ==== Sys2Proof/Machine/Ops.lean ====
section
/-! DEFINITION. The named operations over the state: reading and updating one record of one block, handing an occurrence to
the Fault Log, queueing frames, replies and notices, and the timers. -/

namespace Sys2Proof.Machine

/-! ## Reading one record -/

/-- Position `p`'s port. -/
def State.link (s : State) (p : Position) : Link := s.links.get p

/-- Position `p`'s transmit record. -/
def State.txOf (s : State) (p : Position) : TxRecord := s.tx.get p

/-- Position `p`'s frequency record. -/
def State.freqOf (s : State) (p : Position) : FreqRecord := s.freq.get p

/-- Position `p`'s filter record. -/
def State.filterOf (s : State) (p : Position) : FilterRecord := s.chain.filters.get p

/-- Position `p`'s settings. -/
def State.settingsOf (s : State) (p : Position) : Settings := s.table.settings.get p

/-- The station policy. -/
def State.policy (s : State) : Policy := s.table.policy

/-- Position `p` is PRESENT (R183). -/
def State.present (s : State) (p : Position) : Bool := (s.link p).present

/-- The part of a position's standings for one port kind. -/
def Standings.on (x : Standings) : PortKind → Standing
  | .main => x.main
  | .aux => x.aux

/-- Standings with the part for one port kind replaced. -/
def Standings.setOn (x : Standings) (k : PortKind) (y : Standing) : Standings :=
  match k with
  | .main => { x with main := y }
  | .aux => { x with aux := y }

/-- Position `p`'s standing of kind `k`. -/
def State.standing (s : State) (p : Position) (k : PortKind) : Standing := (s.alloc.standings.get p).on k

/-- The index of a fault kind in the fault configuration and the counters: its number less 1. -/
def FaultKind.index : FaultKind → Fin 11
  | .ungrantedRf => 0 | .hotSwitch => 1 | .chainMismatch => 2 | .linkSilent => 3 | .storeFault => 4 | .linkFrame => 5
  | .linkOverrun => 6 | .freqStale => 7 | .oobPtt => 8 | .harmonicTx => 9 | .noticeDrop => 10

/-- The configuration of a fault kind. -/
def State.faultConfig (s : State) (k : FaultKind) : FaultConfig := s.table.faults.get k.index

/-! ## Updating one record -/

/-- Position `p`'s port changed by `f`. -/
def State.mapLink (s : State) (p : Position) (f : Link → Link) : State :=
  { s with links := put s.links p (f (s.link p)) }

/-- Position `p`'s transmit record changed by `f`. -/
def State.mapTx (s : State) (p : Position) (f : TxRecord → TxRecord) : State :=
  { s with tx := put s.tx p (f (s.txOf p)) }

/-- Position `p`'s frequency record changed by `f`. -/
def State.mapFreq (s : State) (p : Position) (f : FreqRecord → FreqRecord) : State :=
  { s with freq := put s.freq p (f (s.freqOf p)) }

/-- The driver's state changed by `f`. -/
def State.mapChain (s : State) (f : Chain → Chain) : State := { s with chain := f s.chain }

/-- Position `p`'s filter record changed by `f`. -/
def State.mapFilter (s : State) (p : Position) (f : FilterRecord → FilterRecord) : State :=
  s.mapChain fun c => { c with filters := put c.filters p (f (s.filterOf p)) }

/-- The allocator's state changed by `f`. -/
def State.mapAlloc (s : State) (f : Allocator → Allocator) : State := { s with alloc := f s.alloc }

/-- Position `p`'s standing of kind `k` changed by `f`. -/
def State.mapStanding (s : State) (p : Position) (k : PortKind) (f : Standing → Standing) : State :=
  s.mapAlloc fun a => { a with standings := put a.standings p ((a.standings.get p).setOn k (f (s.standing p k))) }

/-- The fault log changed by `f`. -/
def State.mapLog (s : State) (f : FaultLog → FaultLog) : State := { s with log := f s.log }

/-- The store changed by `f`. -/
def State.mapStore (s : State) (f : Store → Store) : State := { s with store := f s.store }

/-- The working table changed by `f`. -/
def State.mapTable (s : State) (f : Table → Table) : State := { s with table := f s.table }

/-! ## Occurrences -/

/-- An occurrence handed to the Fault Log, behind those handed before it (R156). -/
def raise (o : Occurrence) (s : State) : State := { s with inbox := s.inbox ++ [.occurred o] }

/-- An exit result handed to the Fault Log, behind what was handed before it (R148, R167). -/
def raiseExit (passed : Bool) (s : State) : State := { s with inbox := s.inbox ++ [.exitResult passed] }

/-! ## Numbers as bytes -/

/-- A number as `n` whole bytes, most significant byte first (R185). -/
def bigEndian : Nat → Nat → List Byte
  | 0, _ => []
  | n + 1, v => bigEndian n (v / 256) ++ [BitVec.ofNat 8 v]

/-- The number that bytes spell, most significant byte first (R185). -/
def ofBigEndian (bs : List Byte) : Nat := bs.foldl (fun acc b => acc * 256 + b.toNat) 0

/-- A number as one byte. -/
def byte (n : Nat) : Byte := BitVec.ofNat 8 n

/-- A flag as one byte: 0 clear, 1 set (R185). -/
def flag (b : Bool) : Byte := if b then 1 else 0

/-- The byte of an optional value that is none (R185). -/
def noneByte : Byte := 0xFF

/-- An optional number as one byte (R185). -/
def optByte : Option Nat → Byte
  | some n => byte n
  | none => noneByte

/-! ## Codes of the enumerated values (R185) -/

def PortKind.code : PortKind → Nat
  | .main => 0 | .aux => 1

def LineKind.code : LineKind → Nat
  | .main => 0 | .rx => 1

def HarmonicPolicy.code : HarmonicPolicy → Nat
  | .off => 0 | .advise => 1 | .block => 2

def LockMode.code : LockMode → Nat
  | .off => 0 | .keyed => 1

def Severity.code : Severity → Nat
  | .minor => 0 | .major => 1 | .fatal => 2

def AlarmLine.code : AlarmLine → Nat
  | .a => 0 | .b => 1

/-- The number of a fault kind (section 8.1). -/
def FaultKind.number (k : FaultKind) : Nat := k.index.val + 1

def HolderState.code : HolderState → Nat
  | .pending => 0 | .making => 1 | .connected => 2 | .breaking => 3

def Manner.code : Manner → Nat
  | .wait => 0 | .now => 1 | .take => 2

def LineState.code : LineState → Nat
  | .free => 0 | .clearing => 1 | .setting => 2 | .held => 3

def LostReason.code : LostReason → Nat
  | .taken => 0 | .absent => 1 | .safe => 2 | .restart => 3 | .releasedByFollow => 4

def TxState.code : TxState → Nat
  | .idle => 0 | .waiting => 1 | .granted => 2 | .hang => 3 | .revoked => 4

def WaiterReason.code : WaiterReason → Nat
  | .safe => 0 | .absent => 1 | .noBand => 2 | .noCover => 3 | .noLine => 4 | .outOfBand => 5 | .switching => 6
  | .limit => 7 | .bandBusy => 8 | .harmonic => 9

def RevocationCause.code : RevocationCause → Nat
  | .band => 0 | .taken => 1 | .safe => 2 | .absent => 3 | .restart => 4

def OpKind.code : OpKind → Nat
  | .change => 0 | .verify => 1 | .resync => 2

/-- The place of a purpose in its kind's list (section 7.2). -/
def Purpose.code : Purpose → Nat
  | .ordinary => 0 | .startUp => 1 | .refresh => 2 | .restart => 3 | .retry => 0 | .unknown => 1 | .exit => 2

/-- The place of a phase in its kind's list (section 7.2). -/
def Phase.code : Phase → Nat
  | .shifting => 0 | .settling => 1 | .filling => 0 | .checking => 1

def saveResultCode : SaveResult → Nat
  | .ok => 0 | .failed => 1

def Code.byte : Code → Byte
  | .ok => 0 | .queued => 1 | .adjusted => 2 | .busy => 16 | .unavailable => 17 | .outranked => 18 | .reserved => 19
  | .conflict => 20 | .emptyRing => 21 | .locked => 22 | .invalid => 23 | .badIndex => 24 | .badRequest => 25
  | .safe => 26 | .notReady => 27

/-! ## Frames -/

/-- The characters a frame goes out as: start byte, length, kind, payload, and the check byte that brings the 8-bit sum of
the characters after the start byte to 0 (R185). -/
def Frame.characters (f : Frame) : List Byte :=
  let counted := byte (f.payload.length + 1) :: f.kind :: f.payload
  0xC3 :: counted ++ [- counted.foldl (· + ·) 0]

/-- The frame of a notice (R187). -/
def Notice.frame : Notice → Frame
  | .granted k l r => { kind := 0x41, payload := [byte k.code, byte l.val, byte r.val] }
  | .lost k l why => { kind := 0x42, payload := [byte k.code, byte l.val, byte why.code] }
  | .band b o st => { kind := 0x43, payload := [optByte (b.map (·.val)), flag o, flag st] }
  | .harmonic t r n m => { kind := 0x44, payload := [byte t.val, byte r.val, byte n] ++ bigEndian 2 m }
  | .fault k sev => { kind := 0x45, payload := [byte k.number, byte sev.code] }
  | .safe entered => { kind := 0x46, payload := [if entered then 0 else 1] }
  | .saveDone r => { kind := 0x47, payload := [byte (saveResultCode r)] }
  | .noRoute k b => { kind := 0x48, payload := [byte k.code, byte b.val] }

/-- A frame joins the tail of a port's outgoing queue; the transmitter is then sending (R181). -/
def sendFrame (p : Position) (f : Frame) (s : State) : State :=
  s.mapLink p fun x => { x with queue := x.queue ++ [f], sending := true }

/-- The reply of one frame: request kind plus 0x80, the code, the data (R178). -/
def reply (p : Position) (request : Byte) (c : Code) (data : List Byte) (s : State) : State :=
  sendFrame p { kind := request + 0x80, payload := c.byte :: data } s

/-- The data of a multi-part reply split in order, every part but the last carrying 30 bytes; the list of parts is bounded
by the fuel, 4 parts at most (R178). -/
def splitParts : Nat → List Byte → List (List Byte)
  | 0, _ => []
  | n + 1, bs => if bs.length ≤ Config.partBytes then [bs]
                 else bs.take Config.partBytes :: splitParts n (bs.drop Config.partBytes)

/-- The frames of a multi-part reply: each carries the code, its part byte and its data (R178). -/
def partFrames (request : Byte) (c : Code) (data : List Byte) : List Frame :=
  let parts := splitParts Config.maxReplyFrames data
  parts.mapIdx fun i bs =>
    { kind := request + 0x80, payload := c.byte :: byte ((i + 1) * 16 + parts.length) :: bs }

/-- A multi-part reply: its frames are queued together, in order (R178). -/
def replyParts (p : Position) (request : Byte) (c : Code) (data : List Byte) (s : State) : State :=
  (partFrames request c data).foldl (fun t f => sendFrame p f t) s

/-- A notice handed to a position: nothing while it is ABSENT (R182); queued while the queue holds fewer than 6 frames; dropped
otherwise, which sets the notice-lost flag and raises NOTICE_DROP, but for a FAULT notice (R163, R181). -/
def notify (p : Position) (n : Notice) (s : State) : State :=
  if s.present p then
    if (s.link p).queue.length < Config.noticeLimit then sendFrame p n.frame s
    else
      let t := s.mapLink p fun x => { x with noticeLost := true }
      match n with
      | .fault _ _ => t
      | _ => raise { kind := .noticeDrop, pos := some p, line := none, band := none, detail := .dropped n.frame.kind } t
  else s

/-- A notice to every PRESENT position, in position order (R163, R164, R168). -/
def notifyAll (n : Notice) (s : State) : State := allPositions.foldl (fun t p => notify p n t) s

/-- Notices handed to their ports in order. -/
def notifyEach (ns : List (Position × Notice)) (s : State) : State := ns.foldl (fun t x => notify x.1 x.2 t) s

/-! ## The rate of a port (R198) -/

/-- R198's conditions for a waiting divisor, but for the start bit: the frames it waits for have gone, the receiver is in HUNTING, and
the transmitter is between frames or holds none. -/
def Link.divisorDue (x : Link) : Bool :=
  x.waitingDivisor.isSome && x.divisorWait = 0 && x.receiver = .hunting && !x.sending

/-- A waiting divisor is to be applied now: it is due, and no start bit is being confirmed (R198). -/
def Link.divisorReady (x : Link) : Bool := x.divisorDue && !x.startBit

/-- The end of an event of the port: a divisor that is ready is applied to both directions, so that the change falls at the first moment
that R198 allows, and a queued frame then starts, or goes on, at the rate in use (R181). -/
def Link.settleRate (x : Link) : Link :=
  { x with
    divisor := if x.divisorReady then x.waitingDivisor.getD x.divisor else x.divisor
    waitingDivisor := if x.divisorReady then none else x.waitingDivisor
    sending := x.sending || !x.queue.isEmpty }

/-- Where a divisor is due, the port looks whether a start bit is being confirmed, which is a free value (assumption 26). -/
def Link.look (bit : Nat → Bool) (x : Link) : Link :=
  { x with
    startBit := if x.divisorDue then bit x.looks else x.startBit
    looks := if x.divisorDue then x.looks + 1 else x.looks }

/-- The end of an event of position `p`'s port in which a start bit may be being confirmed (R198). -/
def Link.revise (p : Position) (x : Link) : Link := (x.look (Config.startBit p)).settleRate

/-- The end of an event of a port with which the confirming of a start bit has ended (R172, R198). -/
def Link.reviseClear (x : Link) : Link := { x with startBit := false }.settleRate

/-! ## Intervals of the station policy, in milliseconds (section 1.8) -/

def Policy.debMs (q : Policy) : Nat := q.tDeb
def Policy.settleMs (q : Policy) : Nat := q.tSettle
def Policy.tailMs (q : Policy) : Nat := q.tTail
def Policy.hangMs (q : Policy) : Nat := q.tHang * 10
def Policy.staleMs (q : Policy) : Nat := q.tStale * 1000
def Policy.linkMs (q : Policy) : Nat := q.tLink * 1000
def Policy.verifyMs (q : Policy) : Nat := q.tVerify * 1000

/-- A debounce timer after its input's raw level changes: started with t_deb where raw and debounced differ, stopped where
they agree (R93, R24). -/
def debounce (raw debounced : Bool) (q : Policy) : Timer := if raw = debounced then none else some q.debMs

end Sys2Proof.Machine
end

