-- ==== Sys2Proof/Machine/Flags.lean ====
section
/-! DEFINITION. The conditions and indications the manual derives from the state: the lock, the transmit and quiet
conditions, line state and switching, coverage and usability, the relay bits of a path, and the settled path. -/

namespace Sys2Proof.Machine

/-! ## Lock, READY, outputs -/

/-- The part is locked (R24). -/
def State.locked (s : State) : Bool := s.policy.lockMode = .keyed && s.store.lock

/-- The part is in safe state (R164). -/
def State.safe (s : State) : Bool := s.log.safe

/-- The ready state is READY (R194). -/
def State.isReady (s : State) : Bool := s.store.ready = .ready

/-- HOLD_n is asserted: both receive slots are full (R175). -/
def Link.hold (x : Link) : Bool := Config.receiveSlots ≤ x.slots.length

/-- GRANTED or HANG. -/
def TxState.onAir : TxState → Bool
  | .granted => true
  | .hang => true
  | _ => false

/-- Position `p` is GRANTED or HANG. -/
def State.onAir (s : State) (p : Position) : Bool := (s.txOf p).state.onAir

/-- The level of INHIBIT_n: asserted in every transmit state but GRANTED and HANG (R94). -/
def State.inhibit (s : State) (p : Position) : Bool := !s.onAir p

/-- The number of positions in GRANTED or HANG (R102). -/
def State.onAirCount (s : State) : Nat := (allPositions.filter s.onAir).length

/-- Some position is GRANTED or HANG (R7). -/
def State.anyOnAir (s : State) : Bool := allPositions.any s.onAir

/-- A position's path is quiet (R106). -/
def State.pathQuiet (s : State) (p : Position) : Bool :=
  let t := s.txOf p
  !t.state.onAir && t.tailTimer.isNone && !t.rf

/-! ## Frequencies (R27) -/

/-- The transmit frequency in f10. -/
def FreqRecord.transmit (r : FreqRecord) : Option Nat := r.tx <|> r.rx

/-- f10 to f100: the last digit is discarded (R27). -/
def f100 (f10 : Nat) : Nat := f10 / 10

/-! ## Lines and routes -/

/-- A route's entry. -/
def State.routeOf (s : State) (r : Route) : RouteEntry := s.table.routes.get r

/-- A line's entry. -/
def State.lineOf (s : State) (l : Line) : LineEntry := s.table.lines.get l

/-- The port kind that a line's kind calls for. -/
def LineKind.port : LineKind → PortKind
  | .main => .main
  | .rx => .aux

/-- The port kind of a line (R41). -/
def State.portOf (s : State) (l : Line) : PortKind := (s.lineOf l).kind.port

/-- A band is in a band set. -/
def BandSet.has (x : BandSet) (b : Band) : Bool := x.getLsbD b.val

/-- A route's band set holds band `b`. -/
def State.covers (s : State) (r : Route) (b : Band) : Bool := BandSet.has (s.routeOf r).bands b

/-- A route is enabled, its line is enabled, and every element it lists is enabled (R52 step 5, R17). -/
def State.routeEnabled (s : State) (r : Route) : Bool :=
  let e := s.routeOf r
  e.enabled && (s.lineOf e.line).enabled && e.elements.all fun x => (s.table.elements.get x).enabled

/-- A ring entry of kind `k` is usable (R17). -/
def State.usable (s : State) (r : Route) (k : PortKind) : Bool :=
  s.routeEnabled r && s.portOf (s.routeOf r).line = k

/-- A line is reserved for a position other than `p` (R9). -/
def State.reservedFrom (s : State) (l : Line) (p : Position) : Bool :=
  match (s.lineOf l).reserved with
  | some q => q ≠ p
  | none => false

/-- The ring of (p, b, kind) in the ring table (section 1.1). -/
def ringIndex (p : Position) (b : Band) (k : PortKind) : Fin 144 :=
  ⟨p.val * 24 + b.val * 2 + k.code, by have := p.isLt; have := b.isLt; cases k <;> simp [PortKind.code] <;> omega⟩

/-- The routes of a ring, entry 0 first. -/
def State.ringOf (s : State) (p : Position) (b : Band) (k : PortKind) : List Route := s.table.rings.get (ringIndex p b k)

/-! ## Holder records and wait lists -/

/-- The records on a line. -/
def State.recordsOn (s : State) (l : Line) : List Holder := s.alloc.records.filter fun r => r.line = l

/-- A position's records of a kind. -/
def State.recordsOf (s : State) (p : Position) (k : PortKind) : List Holder :=
  s.alloc.records.filter fun r => r.pos = p && r.kind = k

/-- The record of `p` on `l`. -/
def State.recordAt (s : State) (p : Position) (l : Line) : Option Holder :=
  s.alloc.records.find? fun r => r.pos = p && r.line = l

/-- The wait list of a line. -/
def State.listOf (s : State) (l : Line) : List WaitEntry := s.alloc.lists.get l

/-- A line's list has a TAKE entry, which is then its head (R50). -/
def hasTake (xs : List WaitEntry) : Bool := xs.any fun e => e.manner = .take

/-- A line is in use by the allocator: a record or a wait entry (R10, R12, R15). -/
def State.lineInUse (s : State) (l : Line) : Bool := !(s.recordsOn l).isEmpty || !(s.listOf l).isEmpty

/-- A line's state (R48). -/
def State.lineState (s : State) (l : Line) : LineState :=
  let rs := s.recordsOn l
  if rs.isEmpty then .free
  else if rs.any fun r => r.state = .breaking || r.state = .pending then .clearing
  else if rs.any fun r => r.state = .making then .setting
  else .held

/-- A position's switching indication (R49). -/
def State.switching (s : State) (p : Position) : Bool :=
  s.alloc.records.any fun r =>
    r.pos = p && (r.state = .making || (r.state = .breaking && r.breakRequested && r.latched))

/-- A record that drives its line's select relays (R47). -/
def HolderState.drives : HolderState → Bool
  | .pending => false
  | _ => true

/-- A record whose crosspoint the composed image closes (R47). -/
def Holder.closes (r : Holder) : Bool :=
  match r.state with
  | .making => true
  | .connected => true
  | .breaking => !r.breakRequested
  | .pending => false

/-! ## Relay bits (R136) -/

def crosspointBit (p : Position) (l : Line) : Nat := p.val * 16 + l.val
def selectBit (l : Line) (x : Select) : Nat := 96 + l.val * 4 + x.val
def filterBit (p : Position) (f : FilterNo) : Nat := 160 + p.val * 8 + f.val

/-- The image with one relay closed. -/
def bitImage (b : Nat) : Image := 1#256 <<< b

/-- A position's sixteen crosspoints. -/
def crosspointMask (p : Position) : Image := 0xFFFF#256 <<< (p.val * 16)

/-- A line's four select relays. -/
def selectMask (l : Line) : Image := 0xF#256 <<< (96 + l.val * 4)

/-- A position's eight filter relays. -/
def filterMask (p : Position) : Image := 0xFF#256 <<< (160 + p.val * 8)

/-- The relays of a position's path (R103). -/
def State.pathMask (s : State) (p : Position) : Image :=
  s.alloc.records.foldl
    (fun im r => if r.pos = p && r.state.drives then im ||| selectMask r.line else im)
    (crosspointMask p ||| filterMask p)

/-- The lowest closed bit of an image. -/
def lowestBit (im : Image) : Nat := ((List.range Config.imageBits).find? fun b => im.getLsbD b).getD 0

/-- The select relays that a route closes on a line (R47). -/
def State.routeSelects (s : State) (r : Route) (l : Line) : Image :=
  (s.routeOf r).elements.foldl
    (fun im x =>
      let e := s.table.elements.get x
      if e.line = l then im ||| bitImage (selectBit l e.select) else im) 0

/-- The allocator's contribution to the composed image: bits 0 to 159 (R47). -/
def State.contribution (s : State) : Image :=
  s.alloc.records.foldl
    (fun im r =>
      let im := if r.closes then im ||| bitImage (crosspointBit r.pos r.line) else im
      if r.state.drives then im ||| s.routeSelects r.route r.line else im) 0

/-- The filter records' contribution: bits 160 to 207 (R138). -/
def State.filterImage (s : State) : Image :=
  allPositions.foldl
    (fun im p =>
      match (s.filterOf p).image with
      | some f => im ||| bitImage (filterBit p f)
      | none => im) 0

/-- The composed image (R138). -/
def State.composed (s : State) : Image := s.contribution ||| s.filterImage

/-- The pending image takes the composed image (R138). -/
def recompose (s : State) : State := s.mapChain fun c => { c with pending := s.composed }

/-! ## The settled path (R103) -/

/-- The filter named by the entry of a position's band. -/
def State.bandFilter (s : State) (p : Position) : Option FilterNo :=
  (s.freqOf p).band.map fun b => (s.table.bands.get b).filter

/-- A filter record is SETTLED (R139). -/
def FilterRecord.settled (f : FilterRecord) : Bool := f.image = f.current

/-- A position's filter is SETTLED on its band's filter (R139). -/
def State.filterSettled (s : State) (p : Position) : Bool :=
  let f := s.filterOf p
  f.settled && f.current.isSome && f.current = s.bandFilter p

/-- The relays of a position's path stand alike in the latched, in-flight and pending images (R103). -/
def State.imagesAgree (s : State) (p : Position) : Bool :=
  let m := s.pathMask p
  let c := s.chain
  c.latched &&& m = c.pending &&& m &&
    match c.op with
    | some o => o.image &&& m = c.latched &&& m
    | none => true

/-- A position's path is settled (R103). -/
def State.pathSettled (s : State) (p : Position) : Bool :=
  !s.switching p && s.filterSettled p && s.imagesAgree p

end Sys2Proof.Machine
end

