-- ==== Sys2Proof/Machine/Chain.lean ====
section
/-! DEFINITION. The Relay Chain Driver's shared operations: the filter move test, starting an operation, the start rule, and the
start-up result (chapter 7). The Transmit Interlock's check at the start event of a CHANGE stands here too (R113). -/

namespace Sys2Proof.Machine

/-! ## HOT_SWITCH at a path (R113) -/

/-- The HOT_SWITCH occurrence of a position: `diff` is where the operation's image differs from the latched image on its
path (R156). -/
def hotSwitch (p : Position) (why : HotCause) (diff : Image) (s : State) : Occurrence :=
  { kind := .hotSwitch, pos := some p, line := none, band := (s.freqOf p).band, detail := .hot why (lowestBit diff) }

/-- The interlock takes the start event of a CHANGE with the given change set: HOT_SWITCH for each position whose debounced RF
sense is on and whose path the change set meets (R113), from P0 to P5, an order that the manual leaves open (assumption 24). -/
def takeStart (changeSet : Image) (s : State) : State :=
  allPositions.foldl
    (fun t p =>
      let diff := changeSet &&& s.pathMask p
      if (s.txOf p).rf && diff ≠ 0 then raise (hotSwitch p .start diff s) t else t) s

/-! ## Filter records (R139, R140) -/

/-- The filter that a position's image filter moves toward (R139): its target, or none while the restart hold is set. -/
def State.movesToward (s : State) (p : Position) : Option FilterNo :=
  if s.chain.restartHold then none else (s.filterOf p).target

/-- The filter move test of a position (R139). -/
def filterMove (p : Position) (s : State) : State :=
  if (s.filterOf p).image ≠ s.movesToward p && s.pathQuiet p then
    recompose (s.mapFilter p fun f => { f with image := s.movesToward p })
  else s

/-- A position's target filter is set, and the filter move test applied (R139). -/
def setTarget (p : Position) (f : Option FilterNo) (s : State) : State :=
  filterMove p (s.mapFilter p fun x => { x with target := f })

/-- The filter move test of all six positions (R140). -/
def filterMoveAll (s : State) : State := allPositions.foldl (fun t p => filterMove p t) s

/-- The one filter whose bit is closed among a position's eight in an image, or none (R140). -/
def latchedFilter (im : Image) (p : Position) : Option FilterNo :=
  match (List.finRange 8).filter fun f => im.getLsbD (filterBit p f) with
  | [f] => some f
  | _ => none

/-- Every current filter is set from the latched image (R140). -/
def refreshFilters (s : State) : State :=
  s.mapChain fun c => { c with filters := mapFin (fun p f => { f with current := latchedFilter c.latched p }) c.filters }

/-! ## Starting an operation (R141) -/

/-- A CHANGE of the pending image starts, with its start event; a repeat that was due is now this CHANGE (R141, R147). -/
def startChange (why : Purpose) (s : State) : State :=
  let diff := s.chain.pending ^^^ s.chain.latched
  takeStart diff <| s.mapChain fun c =>
    { c with
      op := some { kind := .change, purpose := why, phase := .shifting, image := c.pending, changeSet := diff,
                   length := s.policy.chainLength }
      verifyTimer := none
      attempt := c.attempt.map fun x => { x with repeatDue := false } }

/-- A VERIFY of the latched image starts (R144). -/
def startVerify (why : Purpose) (s : State) : State :=
  s.mapChain fun c =>
    { c with
      op := some { kind := .verify, purpose := why, phase := .shifting, image := c.latched, changeSet := 0,
                   length := s.policy.chainLength }
      verifyTimer := none }

/-- A RESYNC of the latched image starts (R145). -/
def startResync (why : Purpose) (s : State) : State :=
  s.mapChain fun c =>
    { c with
      op := some { kind := .resync, purpose := why, phase := .filling, image := c.latched, changeSet := 0,
                   length := s.policy.chainLength }
      verifyTimer := none }

/-- A repeat is due within the open attempt (R147). -/
def Chain.repeatDue (c : Chain) : Bool :=
  match c.attempt with
  | some x => x.repeatDue
  | none => false

/-- The start rule's last line: the verify timer is started if it is stopped and t_verify is above 0; an attempt whose repeat
found no CHANGE to start is closed (R141, R147). -/
def startNothing (s : State) : State :=
  s.mapChain fun c =>
    { c with
      verifyTimer := if c.verifyTimer.isNone && s.policy.tVerify > 0 then some s.policy.verifyMs else c.verifyTimer
      attempt := if c.repeatDue then none else c.attempt }

/-- The start rule (R141): with no operation in flight and the start-up sequence ended, the first line that applies. With the content
UNKNOWN while a repeat is due, as a chain length written during the RETRY leaves it, the attempt stays open and the repeat due, and
another RETRY starts (R147 and R149 leave it open; assumption 25). -/
def startRule (s : State) : State :=
  let c := s.chain
  if c.op.isSome || s.store.ready = .starting || c.heldForEntry then s
  else if s.safe then (if c.exitRequest then startResync .exit s else s)
  else if c.content.isNone then startResync (if c.attempt.isSome then .retry else .unknown) s
  else if c.restartHold && c.pending = 0 then startChange .restart s
  else if c.pending ≠ c.latched then startChange .ordinary s
  else if c.refreshDue then startChange .refresh s
  else startNothing s

/-! ## The end of an operation -/

/-- The chain length was written while the operation ran: its end makes the content UNKNOWN and sets the refresh due (R149). -/
def markLength (s : State) : State :=
  s.mapChain fun c =>
    if c.lengthDue then { c with content := none, refreshDue := true, lengthDue := false } else c

/-- The operation in flight ends; the chain-content record is then as given (R137). -/
def endOperation (content : Option Image) (s : State) : State :=
  markLength (s.mapChain fun c => { c with op := none, settleTimer := none, content := content })

/-- The open attempt is closed (R147). -/
def closeAttempt (s : State) : State := s.mapChain fun c => { c with attempt := none }

/-- The start-up sequence ends: the start-up chain event makes the part READY, whatever its result (R152, R194). -/
def endStartUp (s : State) : State :=
  s.mapStore fun x => if x.ready = .starting then { x with ready := .ready } else x

/-- The restart-chain event: RESTARTING goes to READY (R194). -/
def restartChainEvent (s : State) : State :=
  s.mapStore fun x => if x.ready = .restarting then { x with ready := .ready } else x

/-- The bits of a shift of an image through `boards` boards, in the order in which CHAIN_DATA sends them: the highest chain bit
first and bit 0 last (R136). -/
def shiftBits (im : Image) (boards : Nat) : List Bool := ((List.range (8 * boards)).reverse).map im.getLsbD

/-- The chain bit whose old content the k-th returning bit shows, counting from 0 (R136, R146). -/
def returningBit (boards k : Nat) : Nat := 8 * boards - 1 - k

/-- The operation compares returning bits: SHIFTING of a CHANGE other than START-UP, a VERIFY, or CHECKING (R142, R144, R145). -/
def Operation.compares (o : Operation) : Bool :=
  match o.kind, o.phase with
  | .change, .shifting => o.purpose ≠ .startUp
  | .verify, _ => true
  | .resync, .checking => true
  | _, _ => false

end Sys2Proof.Machine
end

