-- ==== Sys2Proof/Machine/Harmonic.lean ====
section
/-! DEFINITION. The Harmonic Check Unit (chapter 6): the conflict test, protected receivers, and the evaluation of the
advisory flags. -/

namespace Sys2Proof.Machine

/-- The absolute difference of two numbers (R121). -/
def difference (x y : Nat) : Nat := (x - y) + (y - x)

/-- The guard at harmonic n (R121). -/
def guardAt (gBase width n : Nat) : Nat := gBase + n * width

/-- A conflict at harmonic n between f100 of the transmitter and f100 of the receiver (R121). -/
def conflictAt (gBase width ft fr n : Nat) : Bool := difference (n * ft) fr ≤ guardAt gBase width n

/-- The test's result: none for no conflict, else the lowest n from 2 to Nmax with a conflict, and its margin (R122). -/
def harmonicResult (gBase nMax width ft fr : Nat) : Option (Nat × Nat) :=
  match [2, 3, 4, 5].find? fun n => n ≤ nMax && conflictAt gBase width ft fr n with
  | some n => some (n, guardAt gBase width n - difference (n * ft) fr)
  | none => none

/-- The test for transmitter `t` and receiver `r`, from the frequency records as they stand (R120): a transmitter or a receiver
without a frequency gives no conflict. -/
def State.harmonicTest (s : State) (t r : Position) : Option (Nat × Nat) :=
  match (s.freqOf t).transmit, (s.freqOf r).rx with
  | some ft, some fr => harmonicResult s.policy.gBase s.policy.nMax (s.freqOf t).width (f100 ft) (f100 fr)
  | _, _ => none

/-- `r` is a protected receiver with respect to `t` (R123). -/
def State.protectedFrom (s : State) (t r : Position) : Bool :=
  r ≠ t && s.present r && (s.settingsOf r).protect && (s.freqOf r).rx.isSome && !(s.freqOf r).stale && !s.onAir r

/-- Some protected receiver gives a conflict with `t` (R124). -/
def State.harmonicConflict (s : State) (t : Position) : Bool :=
  allPositions.any fun r => s.protectedFrom t r && (s.harmonicTest t r).isSome

/-- The ordered pairs of distinct positions, T in position order and R in position order (R127). -/
def pairs : List (Position × Position) :=
  allPositions.flatMap fun t => (allPositions.filter fun r => r ≠ t).map fun r => (t, r)

/-- The advisory condition of a pair (R126). -/
def State.advisoryHolds (s : State) (x : Position × Position) : Bool :=
  s.policy.harmonic ≠ .off && s.onAir x.1 && s.protectedFrom x.1 x.2 && (s.harmonicTest x.1 x.2).isSome

/-- The line of the MAIN record a transmission runs on: the CONNECTED one, else the BREAKING one, else any (R156, R104). -/
def State.transmitLine (s : State) (p : Position) : Option Line :=
  let rs := s.recordsOf p .main
  ((rs.find? fun r => r.state = .connected) <|> (rs.find? fun r => r.state = .breaking) <|> rs.head?).map (·.line)

/-- An episode begins: HARMONIC to T's port and to R's port, then HARMONIC_TX (R128, R156). -/
def beginEpisode (x : Position × Position) (s : State) : State :=
  match s.harmonicTest x.1 x.2 with
  | some (n, margin) =>
    raise { kind := .harmonicTx, pos := some x.1, line := s.transmitLine x.1, band := (s.freqOf x.1).band,
            detail := .harmonic x.2 n } <|
      notify x.2 (.harmonic x.1 x.2 n margin) <| notify x.1 (.harmonic x.1 x.2 n margin) s
  | none => s

/-- The evaluation of the advisory flags (R127): the flags take the pairs whose condition holds, and an episode begins for each
pair whose flag was clear, in the order of the pairs. -/
def evaluateAdvisories (s : State) : State :=
  let now := pairs.filter s.advisoryHolds
  let fresh := now.filter fun x => !s.advisory.contains x
  fresh.foldl (fun t x => beginEpisode x t) { s with advisory := now }

end Sys2Proof.Machine
end

