-- ==== Sys2Proof/Machine/Interlock.lean ====
section
/-! DEFINITION. The Transmit Interlock's shared operations (chapter 5): the tail, leaving the air, revocation, MAIN release,
the eight conditions, and the arbiter. -/

namespace Sys2Proof.Machine

/-! ## Tail and leaving the air -/

/-- The UNGRANTED_RF occurrence of a position (R112, R156). -/
def ungrantedRf (p : Position) (why : RfCause) (s : State) : Occurrence :=
  { kind := .ungrantedRf, pos := some p, line := none, band := (s.freqOf p).band, detail := .rf why }

/-- The tail timer runs out: UNGRANTED_RF if the debounced RF sense is on (R98, R112). -/
def endTail (p : Position) (s : State) : State :=
  let t := s.mapTx p fun x => { x with tailTimer := none }
  if (s.txOf p).rf then raise (ungrantedRf p .tail s) t else t

/-- The tail timer starts with t_tail; a tail of 0 runs out within the same event (R98). -/
def startTail (p : Position) (s : State) : State :=
  if s.policy.tTail = 0 then endTail p s
  else s.mapTx p fun x => { x with tailTimer := some s.policy.tailMs }

/-- A position's transmit record leaves GRANTED or HANG for `next`: hang timer stopped, skip hang cleared, tail started (R96, R97,
R107, R109). -/
def leaveSlot (p : Position) (next : TxState) (s : State) : State :=
  startTail p (s.mapTx p fun x => { x with state := next, hangTimer := none, skipHang := false })

/-- A position leaves GRANTED or HANG at a PTT_OFF, a hang expiry or a MAIN release, with its leave event to the Harmonic Check Unit
(R115). Whether that event is evaluated before or after the arbiter run of the same event R96, R97, R109 and R115 leave open: the
model evaluates it first (assumption 24). -/
def leaveAir (p : Position) (next : TxState) (s : State) : State := evaluateAdvisories (leaveSlot p next s)

/-- A revocation's own changes (R107): GRANTED goes to REVOKED and HANG to IDLE, with the cause; any other state is unchanged. -/
def withdrawGrant (p : Position) (cause : RevocationCause) (s : State) : State :=
  let go (next : TxState) : State := leaveSlot p next (s.mapTx p fun x => { x with lastRevocation := some cause })
  match (s.txOf p).state with
  | .granted => go .revoked
  | .hang => go .idle
  | _ => s

/-- A revocation (R107), with its leave event where there was a grant to withdraw. -/
def revoke (p : Position) (cause : RevocationCause) (s : State) : State :=
  if s.onAir p then evaluateAdvisories (withdrawGrant p cause s) else s

/-- A leave event for each position that was on the air in `before` (R115). -/
def leaveEvents (before s : State) : State :=
  allPositions.foldl (fun s p => if before.onAir p then evaluateAdvisories s else s) s

/-- The six revocations of one event, in position order, and then their leave events, which find nobody on the air, so that no
episode begins (R111, R119, R129, R135). R111 gives the position order for safe-state entry; for RESTART it is the model's choice
(assumption 24). -/
def revokeAll (cause : RevocationCause) (s : State) : State :=
  leaveEvents s (allPositions.foldl (fun s p => withdrawGrant p cause s) s)

/-! ## The arbiter -/

/-- A position's CONNECTED MAIN record. -/
def State.connectedMain (s : State) (p : Position) : Option Holder :=
  (s.recordsOf p .main).find? fun r => r.state = .connected

/-- Condition 3 of R102: none if it holds, else its reason. -/
def State.lineReason (s : State) (p : Position) : Option WaiterReason :=
  match s.connectedMain p with
  | some r =>
    match (s.freqOf p).band with
    | none => some .noBand
    | some b => if s.covers r.route b then none else some .noCover
  | none =>
    if (s.recordsOf p .main).any fun r => r.state = .pending || r.state = .making then some .switching else some .noLine

/-- Another position in GRANTED or HANG has the band of `p` (R102, condition 7). -/
def State.bandBusy (s : State) (p : Position) : Bool :=
  allPositions.any fun q => s.onAir q && (s.freqOf q).band = (s.freqOf p).band

/-- The judgment of a waiter: none when all eight conditions hold, else the reason of the first that fails (R102). -/
def judge (s : State) (p : Position) : Option WaiterReason :=
  if s.safe then some .safe
  else if !s.present p then some .absent
  else match s.lineReason p with
    | some r => some r
    | none =>
      if (s.freqOf p).outOfBand then some .outOfBand
      else if !s.pathSettled p then some .switching
      else if s.policy.k ≤ s.onAirCount then some .limit
      else if s.bandBusy p then some .bandBusy
      else if s.policy.harmonic = .block && s.harmonicConflict p then some .harmonic
      else none

/-- The waiter goes to GRANTED and leaves the waiting set, and its tail is stopped (R101). -/
def putOnAir (p : Position) (s : State) : State :=
  { s.mapTx p (fun x => { x with state := .granted, tailTimer := none, skipHang := false }) with
    waiting := s.waiting.filter fun q => q ≠ p }

/-- A grant; the Harmonic Check Unit takes the grant event before the scan goes on (R101, R115). -/
def grant (p : Position) (s : State) : State := evaluateAdvisories (putOnAir p s)

/-- One pass of an arbiter run over the given waiters, and whether it granted any (R101). -/
def arbiterPass : List Position → State → State × Bool
  | [], s => (s, false)
  | p :: ps, s =>
    match judge s p with
    | none => ((arbiterPass ps (grant p s)).1, true)
    | some r => arbiterPass ps (s.mapTx p fun x => { x with reason := some r })

/-- Passes from the head while they grant, at most the given number (R101). -/
def arbiterPasses : Nat → State → State
  | 0, s => s
  | n + 1, s =>
    match arbiterPass s.waiting s with
    | (t, true) => arbiterPasses n t
    | (t, false) => t

/-- An arbiter run (R101). -/
def arbiter (s : State) : State := arbiterPasses Config.arbiterPasses s

/-! ## Events from the other blocks -/

/-- A revocation with the arbiter run that follows one that freed a slot (R107). -/
def revokeAndRun (p : Position) (cause : RevocationCause) (s : State) : State :=
  if s.onAir p then arbiter (revoke p cause s) else s

/-- A MAIN release event (R109). In HANG the leave event is evaluated before the arbiter runs (assumption 24). -/
def takeMainRelease (p : Position) (s : State) : State :=
  match (s.txOf p).state with
  | .granted => s.mapTx p fun x => { x with skipHang := true }
  | .hang => arbiter (leaveAir p .idle s)
  | _ => s

/-- What the Line Allocator hands the Transmit Interlock (R49). -/
inductive TxiEvent where
  | connected (p : Position)
  | mainRelease (p : Position)
  | revoke (p : Position)
  | switchingEnded (p : Position)
  deriving DecidableEq, Repr

/-- The interlock takes an event of the Line Allocator (R49, R100, R108, R109). -/
def takeTxiEvent (e : TxiEvent) (s : State) : State :=
  match e with
  | .connected _ => arbiter s
  | .switchingEnded _ => arbiter s
  | .mainRelease p => takeMainRelease p s
  | .revoke p => revokeAndRun p .taken s

/-- The interlock takes events in the order they were handed over. -/
def takeTxiEvents (es : List TxiEvent) (s : State) : State := es.foldl (fun t e => takeTxiEvent e t) s

/-- A report event of the Band Decoder: the arbiter runs and the advisory flags are evaluated (R38, R127). -/
def reportEvent (s : State) : State := evaluateAdvisories (arbiter s)

/-- A policy event of the Station Table and Store (R100, R131). -/
def policyEvent (s : State) : State := evaluateAdvisories (arbiter s)

end Sys2Proof.Machine
end

