-- ==== Sys2Proof/Machine/Allocator.lean ====
section
/-! DEFINITION. The Line Allocator's shared operations (chapters 3 and 4): going BREAKING, removal, admission, the make test,
claims, ring claims, and the closing of one allocator event. An event is worked on a `Work`: the state with the lines
freed so far and what is to be handed on when the allocator's own changes are made. -/

namespace Sys2Proof.Machine

/-- An allocator event in the making: the state, the lines whose removals call for the admission test, the notices, and
the events for the Transmit Interlock, each in order. -/
structure Work where
  s : State
  freed : List Line
  notes : List (Position × Notice)
  events : List TxiEvent
  deriving DecidableEq, Repr

/-- An allocator event begins. -/
def Work.start (s : State) : Work := { s := s, freed := [], notes := [], events := [] }

/-- The state of the work changed by `f`. -/
def Work.map (w : Work) (f : State → State) : Work := { w with s := f w.s }

/-- A notice to be handed on. -/
def Work.note (w : Work) (p : Position) (n : Notice) : Work := { w with notes := w.notes ++ [(p, n)] }

/-- An event to be handed to the interlock. -/
def Work.event (w : Work) (e : TxiEvent) : Work := { w with events := w.events ++ [e] }

/-- A line to be given the admission test. -/
def Work.free (w : Work) (l : Line) : Work := { w with freed := w.freed ++ [l] }

/-! ## Records and wait lists -/

/-- The record of `p` on `l` changed by `f`. -/
def mapRecord (p : Position) (l : Line) (f : Holder → Holder) (s : State) : State :=
  s.mapAlloc fun a => { a with records := a.records.map fun r => if r.pos = p && r.line = l then f r else r }

/-- Every wait list changed by `f` of its line. -/
def mapLists (f : Line → List WaitEntry → List WaitEntry) (s : State) : State :=
  s.mapAlloc fun a => { a with lists := mapFin f a.lists }

/-- The move flags of a position's entries of a kind, after a removal: kept while the position has a record of that kind on
a line other than the entry's (R51). -/
def refreshMoves (p : Position) (k : PortKind) (s : State) : State :=
  mapLists (fun l xs =>
    if s.portOf l = k then
      xs.map fun e => if e.pos = p then { e with move := e.move && (s.recordsOf p k).any fun r => r.line ≠ l } else e
    else xs) s

/-- The record of `p` on `l` is removed (R45): its line is freed for the admission test, and move flags follow. -/
def removeRecord (p : Position) (l : Line) (w : Work) : Work :=
  (w.map fun s =>
    refreshMoves p (s.portOf l) (s.mapAlloc fun a => { a with records := a.records.filter fun r => !(r.pos = p && r.line = l) })).free l

/-- The record of `p` on `l` of the work's state changed by `f`. -/
def Work.mapRecord (w : Work) (p : Position) (l : Line) (f : Holder → Holder) : Work := w.map (Machine.mapRecord p l f)

/-- The standing of a position and kind of the work's state changed by `f`. -/
def Work.mapStanding (w : Work) (p : Position) (k : PortKind) (f : Standing → Standing) : Work :=
  w.map fun s => s.mapStanding p k f

/-- A record whose crosspoint never closed: its flag is clear and the operation in flight does not close it (R45). -/
def neverClosed (r : Holder) (s : State) : Bool :=
  !r.latched &&
    match s.chain.op with
    | some o => !o.image.getLsbD (crosspointBit r.pos r.line)
    | none => true

/-- The record of `p` on `l` in state BREAKING, its reroute cleared, its break requested if the path is quiet (R44). -/
def toBreaking (p : Position) (l : Line) (w : Work) : Work :=
  w.mapRecord p l fun r => { r with state := .breaking, reroute := none, breakRequested := w.s.pathQuiet p }

/-- A MAIN release event, for a MAIN record (R44). -/
def noteRelease (p : Position) (k : PortKind) (w : Work) : Work :=
  match k with
  | .main => w.event (.mainRelease p)
  | .aux => w

/-- A BREAKING record whose crosspoint never closed is removed at once (R45). -/
def dropNeverClosed (r : Holder) (w : Work) : Work := if neverClosed r w.s then removeRecord r.pos r.line w else w

/-- The record of `p` on `l` goes BREAKING (R44, R45): a PENDING record is removed; a MAKING or CONNECTED one goes to BREAKING,
with a MAIN release event if it is MAIN, and is removed at once if its crosspoint never closed; a BREAKING one is
unchanged. -/
def goBreaking (p : Position) (l : Line) (w : Work) : Work :=
  match w.s.recordAt p l with
  | none => w
  | some r =>
    match r.state with
    | .pending => removeRecord p l w
    | .breaking => w
    | .making | .connected => dropNeverClosed r (noteRelease p r.kind (toBreaking p l w))

/-- A position's records of a kind on lines other than `l` go BREAKING (R58, R65). -/
def releaseOthers (p : Position) (k : PortKind) (l : Line) (w : Work) : Work :=
  ((w.s.recordsOf p k).filter fun r => r.line ≠ l).foldl (fun w r => goBreaking p r.line w) w

/-- A position's wait entries of a kind are withdrawn (R51), but for those on the line `keep`. -/
def withdraw (p : Position) (k : PortKind) (keep : Option Line) (w : Work) : Work :=
  w.map fun s => mapLists (fun l xs => if s.portOf l = k && keep ≠ some l then xs.filter fun e => e.pos ≠ p else xs) s

/-- A PENDING record of `p` on the line of route `r` is created (R41). -/
def createRecord (p : Position) (r : Route) (w : Work) : Work :=
  w.map fun s =>
    let l := (s.routeOf r).line
    s.mapAlloc fun a =>
      { a with records := a.records ++ [{ pos := p, line := l, route := r, kind := s.portOf l, state := .pending,
                                          latched := false, breakRequested := false, reroute := none }] }

/-! ## LOST (R71, R197) -/

/-- A LOST notice of a position: handed on if it is PRESENT, stored as its absence loss otherwise (R71, R197). -/
def lose (p : Position) (k : PortKind) (l : Line) (why : LostReason) (w : Work) : Work :=
  if w.s.present p then w.note p (.lost k l why)
  else w.mapStanding p k fun x => { x with loss := some l }

/-! ## Admission (R65, R66) -/

/-- An entry of a line's list is admitted: it leaves the list, its position gets a PENDING record with its route, and under a
set move flag the position's other records of the kind are released (R65). -/
def admitEntry (l : Line) (e : WaitEntry) (w : Work) : Work :=
  let k := w.s.portOf l
  let w := createRecord e.pos e.route (withdraw e.pos k none w)
  if e.move then releaseOthers e.pos k l w else w

/-- Entries of an RX line with route `r`, in list order, until the records equal the splitter ports (R65, R66). -/
def admitSame (l : Line) (r : Route) : List WaitEntry → Work → Work
  | [], w => w
  | e :: es, w =>
    if e.route = r && (w.s.recordsOn l).length < (w.s.lineOf l).ports then admitSame l r es (admitEntry l e w)
    else admitSame l r es w

/-- The route that all of a line's records name (R52, R66). A stored reroute is not named: its record is on its old route until
it is applied (R57). -/
def State.namedRoute (s : State) (l : Line) : Option Route :=
  match s.recordsOn l with
  | [] => none
  | r :: rs => if rs.all fun x => x.route = r.route then some r.route else none

/-- The admission test of a line (R65, R66). -/
def admitLine (l : Line) (w : Work) : Work :=
  match w.s.listOf l with
  | [] => w
  | e :: es =>
    if (w.s.recordsOn l).isEmpty then
      let w := admitEntry l e w
      if w.s.portOf l = .aux then admitSame l e.route es w else w
    else if w.s.portOf l = .aux && e.manner ≠ .take then
      match w.s.namedRoute l with
      | some r => admitSame l r (e :: es) w
      | none => w
    else w

/-- The admission tests of the freed lines, in order, with those that admissions free in turn; the fuel is the number of lines
freed so far and of records that can still be removed. Several lines that one event frees are tested in the order in which it freed
them, at a completion that in which the removed records were created, which the manual leaves open (assumption 24). -/
def admitAll : Nat → Work → Work
  | 0, w => w
  | n + 1, w =>
    match w.freed with
    | [] => w
    | l :: ls => admitAll n (admitLine l { w with freed := ls })

/-- Every admission that the removals so far call for (R45, R65, R66). -/
def admitFreed (w : Work) : Work := admitAll (w.freed.length + w.s.alloc.records.length) w

/-! ## The make test (R42) and the stored reroutes (R57) -/

/-- The conditions of R42 for a PENDING record. -/
def State.mayMake (s : State) (r : Holder) : Bool :=
  !s.safe && (s.recordsOf r.pos r.kind).all (fun x => x.line = r.line) &&
    (s.recordsOn r.line).all (fun x => x.pos = r.pos || x.state ≠ .breaking) && s.pathQuiet r.pos

/-- Every PENDING record is examined under R42. -/
def makeTests (w : Work) : Work :=
  w.map fun s => s.mapAlloc fun a =>
    { a with records := a.records.map fun r =>
        if r.state = .pending && s.mayMake r then { r with state := .making } else r }

/-- An RX line is given the admission test after its route was replaced (R66). -/
def freeIfAux (l : Line) (w : Work) : Work := if w.s.portOf l = .aux then w.free l else w

/-- A record takes its stored reroute and goes to MAKING (R57). -/
def Holder.takeReroute (r : Holder) : Holder :=
  match r.reroute with
  | some x => { r with route := x, reroute := none, state := .making }
  | none => r

/-- A record of another position stands on the record's RX line, whose route may then not be replaced (R57). -/
def State.sharesLine (s : State) (r : Holder) : Bool :=
  s.portOf r.line = .aux && (s.recordsOn r.line).any fun x => x.pos ≠ r.pos

/-- A stored reroute of `p` may be applied: its record is CONNECTED and shares its line with no other listener. One that shares it
keeps its reroute stored, since all records of an RX line name one route (R50, R57; assumption 8). -/
def State.mayReroute (s : State) (p : Position) (r : Holder) : Bool :=
  r.pos = p && r.state = .connected && r.reroute.isSome && !s.sharesLine r

/-- The stored reroutes of a position whose path is quiet are applied, outside safe state (R57, R74); an RX line whose route
was so replaced has the admission test (R66). -/
def applyReroutes (p : Position) (w : Work) : Work :=
  if w.s.safe || !w.s.pathQuiet p then w
  else
    (w.s.alloc.records.filter fun r => w.s.mayReroute p r).foldl
      (fun w r => freeIfAux r.line (w.mapRecord p r.line Holder.takeReroute)) w

/-! ## Claims (R52 to R63) -/

/-- What a claim comes to. -/
inductive ClaimOutcome where
  | ok
  | queued (place : Nat)
  | refused (c : Code)
  deriving DecidableEq, Repr

/-- A line can be had for a route (R52, R55): it is FREE, or an RX line whose records all name the route, with a splitter port
left and no TAKE entry. -/
def State.canBeHad (s : State) (l : Line) (r : Route) : Bool :=
  (s.recordsOn l).isEmpty ||
    (s.portOf l = .aux && s.namedRoute l = some r && (s.recordsOn l).length < (s.lineOf l).ports && !hasTake (s.listOf l))

/-- A position's place in a line's list, counted from 1 (R50). -/
def State.placeIn (s : State) (p : Position) (l : Line) : Nat := ((s.listOf l).findIdx fun e => e.pos = p) + 1

/-- A WAIT entry is placed after every entry of equal or higher priority, and after a TAKE entry (R50). -/
def insertWait (e : WaitEntry) : List WaitEntry → List WaitEntry
  | [] => [e]
  | x :: xs => if x.manner ≠ .take && x.priority < e.priority then e :: x :: xs else x :: insertWait e xs

/-- A new wait entry of a position, with the move flag and the priority of the moment (R51, R59). -/
def newEntry (p : Position) (r : Route) (m : Manner) (s : State) : WaitEntry :=
  let l := (s.routeOf r).line
  { pos := p, route := r, manner := m, move := (s.recordsOf p (s.portOf l)).any fun x => x.line ≠ l,
    priority := (s.settingsOf p).priority }

/-- A WAIT claim of an occupied line (R59, R51): entries in other lists of the kind are withdrawn; an entry already in this list
keeps its place and takes the route; otherwise a new entry is inserted. -/
def enqueueWait (p : Position) (r : Route) (w : Work) : Work :=
  let l := (w.s.routeOf r).line
  let w := withdraw p (w.s.portOf l) (some l) w
  w.map fun s =>
    mapLists (fun i xs =>
      if i ≠ l then xs
      else if xs.any fun e => e.pos = p then xs.map fun e => if e.pos = p then { e with route := r } else e
      else insertWait (newEntry p r .wait s) xs) s

/-- A line is assigned to a position (R58, R63): entries of the kind withdrawn, records on other lines released, the new record
created. -/
def assign (p : Position) (r : Route) (w : Work) : Work :=
  let l := (w.s.routeOf r).line
  let k := w.s.portOf l
  createRecord p r (releaseOthers p k l (withdraw p k none w))

/-- A TAKE's victim that follows on the line's kind keeps the line as its re-claim line (R85). -/
def setReclaim (q : Position) (l : Line) (w : Work) : Work :=
  w.mapStanding q (w.s.portOf l) fun x => if x.follow then { x with reclaim := some l } else x

/-- A TAKE's victim loses its record on the line: its re-claim line is set if it follows on that kind, and it gets a revoke
event and LOST with reason TAKEN (R61, R85). R108 leaves the order of the revoke event and the MAIN release event open: the model
hands the revoke event over first (assumption 24). -/
def takeFrom (l : Line) (q : Position) (w : Work) : Work :=
  lose q (w.s.portOf l) l .taken (goBreaking q l ((setReclaim q l w).event (.revoke q)))

/-- Every record on a line that is not BREAKING is taken from its position (R61, R62), in the order in which the records were
created, which the manual leaves open (assumption 24). -/
def takeLine (l : Line) (w : Work) : Work :=
  ((w.s.recordsOn l).filter fun r => r.state ≠ .breaking).foldl (fun w r => takeFrom l r.pos w) w

/-- The claimant outranks the position of every record on the line (R61). -/
def State.outranks (s : State) (p : Position) (l : Line) : Bool :=
  (s.recordsOn l).all fun r => (s.settingsOf r.pos).priority < (s.settingsOf p).priority

/-- A TAKE of an occupied MAIN line (R61). -/
def takeMain (p : Position) (r : Route) (w : Work) : Work × ClaimOutcome :=
  let l := (w.s.routeOf r).line
  if w.s.outranks p l then (admitFreed (assign p r (takeLine l w)), .ok)
  else (w, .refused .outranked)

/-- The TAKE entry of a position at the head of the list of its route's line (R62). -/
def putTake (p : Position) (r : Route) (w : Work) : Work :=
  w.map fun s => mapLists (fun i xs => if i = (s.routeOf r).line then newEntry p r .take s :: xs else xs) s

/-- A TAKE of an occupied RX line (R62): the claimant is put at the head of the list, and is admitted at once if no record
remains. -/
def takeRx (p : Position) (r : Route) (w : Work) : Work × ClaimOutcome :=
  let l := (w.s.routeOf r).line
  if hasTake (w.s.listOf l) then (w, .refused .busy)
  else if !w.s.outranks p l then (w, .refused .outranked)
  else
    let w := admitFreed (putTake p r (withdraw p .aux none (takeLine l w)))
    (w, if (w.s.recordAt p l).isSome then .ok else .queued 1)

/-- The route of the record of `p` on `l` is replaced, in the given state; an RX line then has the admission test (R57, R66). -/
def replaceRoute (p : Position) (l : Line) (r : Route) (st : HolderState) (w : Work) : Work :=
  admitFreed <| freeIfAux l <| w.mapRecord p l fun x => { x with route := r, reroute := none, state := st }

/-- The claimed route is stored as the reroute of the record of `p` on `l` (R57). -/
def storeReroute (p : Position) (l : Line) (r : Route) (w : Work) : Work :=
  w.mapRecord p l fun x => { x with reroute := some r }

/-- A reroute of the record `h` of `p`, its entries of the kind withdrawn, by the record's state (R57). -/
def rerouteBy (p : Position) (r : Route) (h : Holder) (w : Work) : Work × ClaimOutcome :=
  match h.state with
  | .pending => (replaceRoute p h.line r .pending w, .ok)
  | .making => (replaceRoute p h.line r .making w, .ok)
  | .connected =>
    if w.s.pathQuiet p then (replaceRoute p h.line r .making w, .ok) else (storeReroute p h.line r w, .ok)
  | .breaking => (w, .refused .busy)

/-- A claim of another route on a line where the position has the record `h` (R57). -/
def rerouteRecord (p : Position) (r : Route) (h : Holder) (w : Work) : Work × ClaimOutcome :=
  if h.kind = .aux && (w.s.recordsOn h.line).any (fun x => x.pos ≠ p) then (w, .refused .conflict)
  else rerouteBy p r h (withdraw p h.kind none w)

/-- A claim that passed its tests, by the first rule of R53 to R62 that fits it. -/
def claimRoute (p : Position) (r : Route) (m : Manner) (w : Work) : Work × ClaimOutcome :=
  let l := (w.s.routeOf r).line
  match w.s.recordAt p l with
  | some h =>
    if h.route = r then
      (withdraw p h.kind none (w.mapRecord p l fun x => { x with reroute := none }), .ok)
    else rerouteRecord p r h w
  | none =>
    if w.s.canBeHad l r then (admitFreed (assign p r w), .ok)
    else match m with
      | .wait => let w := enqueueWait p r w; (w, .queued (w.s.placeIn p l))
      | .now => (w, .refused .unavailable)
      | .take => if w.s.portOf l = .main then takeMain p r w else takeRx p r w

/-! ## Ring claims (R79 to R83) -/

/-- The standing routes of a position on a kind (R79). -/
def State.standingRoutes (s : State) (p : Position) (k : PortKind) : List Route :=
  ((s.recordsOf p k).filter fun r => r.state ≠ .breaking).map (fun r => r.reroute.getD r.route) ++
    (List.finRange 16).flatMap fun l =>
      if s.portOf l = k then ((s.listOf l).filter fun e => e.pos = p).map (·.route) else []

/-- A ring claim is needed on a band (R79). -/
def State.claimNeeded (s : State) (p : Position) (k : PortKind) (b : Band) : Bool :=
  s.present p && !((s.standingRoutes p k).any fun r => s.covers r b)

/-- The route's line carries a BREAKING record of `p` (R80). -/
def State.breakingOn (s : State) (p : Position) (l : Line) : Bool :=
  match s.recordAt p l with
  | some h => h.state = .breaking
  | none => false

/-- A shared RX line on which `p` holds another route (R80). -/
def State.sharedOther (s : State) (p : Position) (l : Line) (r : Route) : Bool :=
  match s.recordAt p l with
  | some h => s.portOf l = .aux && h.route ≠ r && (s.recordsOn l).any fun x => x.pos ≠ p
  | none => false

/-- An entry is a candidate, the band test left out (R80, R90). -/
def State.candidateEntry (s : State) (p : Position) (k : PortKind) (r : Route) : Bool :=
  let l := (s.routeOf r).line
  s.usable r k && !s.reservedFrom l p && !s.breakingOn p l && !s.sharedOther p l r

/-- A candidate's line can be had by `p` or carries a record of it (R80, R90). -/
def State.qualifies (s : State) (p : Position) (r : Route) : Bool :=
  let l := (s.routeOf r).line
  s.canBeHad l r || (s.recordAt p l).isSome

/-- What a ring claim comes to (R81). -/
inductive RingOutcome where
  | assigned (r : Route)
  | queued (l : Line) (place : Nat)
  | noRoute
  deriving DecidableEq, Repr

/-- The lines of a position's records of a kind that are not BREAKING. -/
def State.heldLines (s : State) (p : Position) (k : PortKind) : List Line :=
  ((s.recordsOf p k).filter fun r => r.state ≠ .breaking).map (·.line)

/-- LOST with reason RELEASED-BY-FOLLOW for each line of `before`, other than `l`, on which the position no longer has a record
that is not BREAKING (R82). -/
def loseFollowed (p : Position) (k : PortKind) (l : Line) (before : List Line) (w : Work) : Work :=
  (before.filter fun i => i ≠ l && !(w.s.heldLines p k).contains i).foldl (fun w i => lose p k i .releasedByFollow w) w

/-- The follow due and the re-claim line of a position and kind are cleared: a ring claim named a route, or the position is ABSENT
(R81, R87). -/
def settleRing (p : Position) (k : PortKind) (w : Work) : Work :=
  w.mapStanding p k fun x => { x with due := false, reclaim := none }

/-- The follow due of a position and kind is set or cleared (R81, R84, R86). -/
def setDue (p : Position) (k : PortKind) (on : Bool) (w : Work) : Work := w.mapStanding p k fun x => { x with due := on }

/-- The outcome of a ring claim without a candidate: NO-ROUTE to a PRESENT position (R81). -/
def noteNoRoute (p : Position) (k : PortKind) (b : Band) (w : Work) : Work :=
  if w.s.present p then w.note p (.noRoute k b) else w

/-- The ring claim of R81 for position, kind and band; `told` says that it was made unasked, so that a move sends LOST (R82). -/
def ringClaim (p : Position) (k : PortKind) (b : Band) (told : Bool) (w : Work) : Work × RingOutcome :=
  let s := w.s
  let candidates := (s.ringOf p b k).filter fun r => s.candidateEntry p k r && s.covers r b
  match candidates.find? fun r => s.qualifies p r with
  | some r =>
    let before := s.heldLines p k
    let w := (claimRoute p r .now w).1
    let w := if told then loseFollowed p k (s.routeOf r).line before w else w
    (settleRing p k w, .assigned r)
  | none =>
    match candidates with
    | r :: _ =>
      let w := (claimRoute p r .wait w).1
      let l := (s.routeOf r).line
      (settleRing p k w, .queued l (w.s.placeIn p l))
    | [] => (noteNoRoute p k b w, .noRoute)

/-- A ring claim called for unasked: not made before READY; in safe state it sets the follow due instead (R81, R86). -/
def calledClaim (p : Position) (k : PortKind) (b : Band) (w : Work) : Work :=
  if w.s.safe then setDue p k true w
  else if !w.s.isReady then w
  else (ringClaim p k b true w).1

/-- The ring claim of a position on its band as it stands, if the need test finds one needed (R79, R85, R86). -/
def claimIfNeeded (p : Position) (k : PortKind) (w : Work) : Work :=
  match (w.s.freqOf p).band with
  | some b => if w.s.claimNeeded p k b then calledClaim p k b w else w
  | none => w

/-- The re-claim of a position on a kind, when its record on the re-claim line has been removed (R85); in safe state it sets the
follow due instead. -/
def reclaimOne (p : Position) (k : PortKind) (w : Work) : Work :=
  match (w.s.standing p k).reclaim with
  | some l =>
    if (w.s.recordAt p l).isNone then
      let w := w.mapStanding p k fun x => { x with reclaim := none }
      if w.s.safe then setDue p k true w else claimIfNeeded p k w
    else w
  | none => w

/-- Something for each position and kind, in position order, MAIN before AUX (R85, R86). -/
def eachPort (f : Position → PortKind → Work → Work) (w : Work) : Work :=
  allPositions.foldl (fun w p => f p .aux (f p .main w)) w

/-- The re-claims that the removals call for (R85). -/
def reclaims (w : Work) : Work := eachPort reclaimOne w

/-! ## The closing of an allocator event -/

/-- A position has a connected event among the events to be handed on. -/
def Work.connects (w : Work) (p : Position) : Bool := w.events.contains (.connected p)

/-- Switching-ended events for the positions whose indication turned off without a connection (R49). -/
def switchingEnded (before : State) (w : Work) : Work :=
  allPositions.foldl
    (fun w p => if before.switching p && !w.s.switching p && !w.connects p then w.event (.switchingEnded p) else w) w

/-- The allocator's changes are closed: admissions, the make tests, and the contribution handed to the driver (R42, R45, R47). -/
def closeWork (before : State) (w : Work) : Work :=
  switchingEnded before ((makeTests (admitFreed w)).map recompose)

/-- A GRANTED notice. -/
def Notice.isGranted : Notice → Bool
  | .granted _ _ _ => true
  | _ => false

/-- The work's GRANTED notices, in order. -/
def Work.grants (w : Work) : List (Position × Notice) := w.notes.filter fun x => x.2.isGranted

/-- The work's other notices, in order. -/
def Work.losses (w : Work) : List (Position × Notice) := w.notes.filter fun x => !x.2.isGranted

/-- What the work has to hand on (R46 step 7): each GRANTED before the interlock's connected event (R43), the interlock's events,
and then LOST and NO_ROUTE (R63, R82; assumption 7). The events go in the order in which they arose, switching-ended events last,
which the manual leaves open (assumption 24). -/
def handOn (w : Work) : State := notifyEach w.losses (takeTxiEvents w.events (notifyEach w.grants w.s))

/-- One whole allocator event that is not a request: its changes, admissions and re-claims, make tests, contribution, notices,
and the events for the interlock (R46). -/
def allocEvent (f : Work → Work) (s : State) : State :=
  handOn (closeWork s (reclaims (admitFreed (f (Work.start s)))))

/-- The close of a request that the allocator serves: after its changes, the reply; then the interlock's events; then the notices;
then the re-claims its removals call for, as an event of their own (R63, R85). -/
def closeRequest (before : State) (answer : State → State) (w : Work) : State :=
  allocEvent id (handOn ((closeWork before w).map answer))

/-! ## Events of the other blocks -/

/-- The breaks of a position's BREAKING records are requested (R44, R106). -/
def requestBreaks (p : Position) (w : Work) : Work :=
  w.map fun s => s.mapAlloc fun a =>
    { a with records := a.records.map fun r =>
        if r.pos = p && r.state = .breaking then { r with breakRequested := true } else r }

/-- A path-quiet event (R44, R57, R106): the position's breaks are requested, its stored reroutes applied. -/
def allocPathQuiet (p : Position) : State → State :=
  allocEvent fun w =>
    applyReroutes p (requestBreaks p w)

/-- A position's band change on a kind that it follows on (R84). -/
def followBand (p : Position) (k : PortKind) (w : Work) : Work :=
  if (w.s.standing p k).follow then
    match (w.s.freqOf p).band with
    | some b => if w.s.claimNeeded p k b then calledClaim p k b w else setDue p k false w
    | none => setDue p k false w
  else w

/-- A band-change event (R84), MAIN before AUX: for a set follow flag the need test and the ring claim; a claim not needed
clears the follow due. -/
def allocBandChange (p : Position) : State → State :=
  allocEvent fun w => followBand p .aux (followBand p .main w)

/-- The route's relays are latched as a MAKING record needs them (R43): its crosspoint closed, and its line's select relays closed
for exactly the route's elements. -/
def State.latchedAs (s : State) (r : Holder) : Bool :=
  s.chain.latched.getLsbD (crosspointBit r.pos r.line) &&
    s.chain.latched &&& selectMask r.line = s.routeSelects r.route r.line

/-- Removal of the records that satisfy a test, in the order of the records. -/
def removeWhere (t : Holder → Bool) (w : Work) : Work :=
  (w.s.alloc.records.filter t).foldl (fun w r => removeRecord r.pos r.line w) w

/-- The records' crosspoint flags take the latched image's bits (R46). -/
def takeFlags (w : Work) : Work :=
  w.map fun s => s.mapAlloc fun a =>
    { a with records := a.records.map fun r =>
        { r with latched := s.chain.latched.getLsbD (crosspointBit r.pos r.line) } }

/-- A MAKING record is CONNECTED: its position gets GRANTED, and the interlock a connected event (R43, R46). -/
def connectOne (r : Holder) (w : Work) : Work :=
  ((w.mapRecord r.pos r.line fun x => { x with state := .connected }).note r.pos (.granted r.kind r.line r.route)).event
    (.connected r.pos)

/-- Every MAKING record that is latched as it needs is CONNECTED (R43, R46), in the order in which the records were created, which is
then the order of the GRANTED notices of a position with two of them (assumption 24). -/
def connectMade (w : Work) : Work :=
  (w.s.alloc.records.filter fun r => r.state = .making && w.s.latchedAs r).foldl (fun w r => connectOne r w) w

/-- The report of a completion (R46): crosspoint flags, connections, removals, and then the close of the event. -/
def allocCompletion : State → State :=
  allocEvent fun w =>
    removeWhere (fun r => r.state = .breaking && !r.latched) (connectMade (takeFlags w))

/-- The report of an operation's end without a latch (R45, R46). -/
def allocEnd : State → State :=
  allocEvent fun w => removeWhere (fun r => r.state = .breaking && neverClosed r w.s) w

/-- Safe-state entry (R74): every MAKING record goes BREAKING, and its position gets LOST with reason SAFE, in the order in which
the records were created (assumption 24). -/
def allocEntry : State → State :=
  allocEvent fun w =>
    (w.s.alloc.records.filter fun r => r.state = .making).foldl
      (fun w r => lose r.pos r.kind r.line .safe (goBreaking r.pos r.line w)) w

/-- A follow due is taken at safe-state exit (R86). -/
def takeDue (p : Position) (k : PortKind) (w : Work) : Work :=
  if (w.s.standing p k).due then
    claimIfNeeded p k (setDue p k false w)
  else w

/-- Safe-state exit (R74, R86): PENDING records examined, stored reroutes applied, follow dues taken. -/
def allocExit : State → State :=
  allocEvent fun w =>
    eachPort takeDue (admitFreed (allPositions.foldl (fun w p => applyReroutes p w) (makeTests w)))

/-- Every wait entry of a position is removed from its list (R72, R69). -/
def dropEntries (p : Position) (w : Work) : Work := withdraw p .aux none (withdraw p .main none w)

/-- A position's records go BREAKING at its absence, each line so lost stored as the absence loss of its kind (R72). -/
def breakAbsent (p : Position) (w : Work) : Work :=
  (w.s.alloc.records.filter fun r => r.pos = p && r.state ≠ .breaking).foldl
    (fun w r =>
      goBreaking p r.line (w.mapStanding p r.kind fun x => { x with loss := some r.line })) w

/-- An absence (R72, R87). -/
def allocAbsence (p : Position) : State → State :=
  allocEvent fun w =>
    breakAbsent p (dropEntries p (settleRing p .aux (settleRing p .main w)))

/-- A return (R73): LOST with reason ABSENT for each standing absence loss, MAIN before AUX. -/
def allocReturn (p : Position) (s : State) : State :=
  [PortKind.main, PortKind.aux].foldl
    (fun s k =>
      match (s.standing p k).loss with
      | some l => notify p (.lost k l .absent) (s.mapStanding p k fun x => { x with loss := none })
      | none => s) s

/-- The allocator's wait lists, follow states, absence losses and reroutes are cleared (R76, R92). -/
def clearClaims (w : Work) : Work :=
  w.map fun s => s.mapAlloc fun a =>
    { records := a.records.map fun r => { r with reroute := none }
      lists := mapFin (fun _ _ => []) a.lists
      standings := mapFin (fun _ _ => { main := clearStanding, aux := clearStanding }) a.standings }

/-- LOST with reason RESTART, to a PRESENT position (R76). -/
def loseToRestart (r : Holder) (w : Work) : Work :=
  if w.s.present r.pos then w.note r.pos (.lost r.kind r.line .restart) else w

/-- RESTART (R76, R92): wait lists, follow state, absence losses and reroutes cleared, every record sent BREAKING, and LOST with
reason RESTART to PRESENT positions, in the order in which the records were created (assumption 24). -/
def allocRestart : State → State :=
  allocEvent fun w =>
    let w := clearClaims w
    (w.s.alloc.records.filter fun r => r.state ≠ .breaking).foldl (fun w r => loseToRestart r (goBreaking r.pos r.line w)) w

end Sys2Proof.Machine
end

