-- ==== Sys2Proof/Machine/Decoder.lean ====
section
/-! DEFINITION. The Band Decoder (chapter 2): lookup, confirmation, band-change events, BAND notices, and the re-decode. -/

namespace Sys2Proof.Machine

/-- The band a transmit frequency in f10 decodes to, in a band table (R30); the top count decodes to no band. -/
def decodeBand (bands : Vector BandEntry 12) (f10 : Nat) : Option Band :=
  if f10 = Config.maxF10 then none
  else (List.finRange 12).find? fun b =>
    let e := bands.get b
    e.enabled && e.lower ≤ f100 f10 && f100 f10 ≤ e.upper

/-- The run of candidates after one more report of band `c`: the count it then has (R31, R33). -/
def FreqRecord.countOf (r : FreqRecord) (c : Band) : Nat := if r.candidate = some c then r.count + 1 else 1

/-- The record after a report that decodes to band `c`, with confirm count `need` (R31, R33). -/
def FreqRecord.report (r : FreqRecord) (need : Nat) (c : Band) : FreqRecord :=
  if !r.outOfBand && r.band = some c then { r with candidate := none, count := 0 }
  else if need ≤ r.countOf c then { r with band := some c, outOfBand := false, candidate := none, count := 0 }
  else { r with candidate := some c, count := r.countOf c }

/-- The record after a report, by its transmit frequency: unknown (R29), no band (R32), or a band (R31, R33). -/
def FreqRecord.decoded (r : FreqRecord) (bands : Vector BandEntry 12) (need : Nat) : FreqRecord :=
  match r.transmit with
  | none => { r with candidate := none, count := 0 }
  | some f =>
    match decodeBand bands f with
    | none => { r with outOfBand := true, candidate := none, count := 0 }
    | some c => r.report need c

/-- The record after a re-decode against a band table, with no confirm count (R36). -/
def FreqRecord.redecoded (r : FreqRecord) (bands : Vector BandEntry 12) : FreqRecord :=
  let r := { r with candidate := none, count := 0 }
  match r.transmit with
  | some f =>
    match decodeBand bands f with
    | some b => { r with band := some b, outOfBand := false }
    | none => { r with band := none, outOfBand := true }
  | none =>
    match r.band with
    | some b => if (bands.get b).enabled then r else { r with band := none }
    | none => r

/-- What a band-change event does once the interlock has revoked (R37): the arbiter runs, the driver takes the new band's filter as
target, and the allocator makes the ring claims that follow calls for. -/
def bandTaken (p : Position) (s : State) : State :=
  let s := arbiter s
  allocBandChange p (setTarget p (s.bandFilter p) s)

/-- A band-change event of a position (R37). -/
def bandChange (p : Position) (s : State) : State := bandTaken p (revoke p .band s)

/-- The BAND notice of a position, when band or a flag differs from the values last sent; the values last sent are updated when the
notice is handed over, so only while the position is PRESENT (R39). -/
def bandNotice (p : Position) (s : State) : State :=
  let r := s.freqOf p
  if s.present p && !(r.band = r.sentBand && r.outOfBand = r.sentOutOfBand && r.stale = r.sentStale) then
    notify p (.band r.band r.outOfBand r.stale) <|
      s.mapFreq p fun r => { r with sentBand := r.band, sentOutOfBand := r.outOfBand, sentStale := r.stale }
  else s

/-- The band-change event of a position, if its band differs from what it was (R37). -/
def bandChangeFrom (old : Option Band) (p : Position) (s : State) : State :=
  if (s.freqOf p).band = old then s else bandChange p s

/-- The re-decode of the frequency records (R36). -/
def redecodeRecords (s : State) : State := { s with freq := mapFin (fun _ r => r.redecoded s.table.bands) s.freq }

/-- A position's filter target as the rewritten band entry gives it, where the position has a band (R36). -/
def retarget (p : Position) (s : State) : State :=
  if (s.freqOf p).band.isSome then setTarget p (s.bandFilter p) s else s

/-- The re-decode has left a position's band as it was. -/
def bandKept (before : State) (p : Position) (s : State) : Bool := (s.freqOf p).band = (before.freqOf p).band

/-- The revocations of a re-decode's band-change events: all come before any arbiter run, so that a re-decode never revokes a
transmission (R36, R7). -/
def redecodeRevokes (before s : State) : State :=
  allPositions.foldl (fun s p => if bandKept before p s then s else revoke p .band s) s

/-- A position's part of a re-decode: the rest of its band-change event, or the rewritten filter as target (R36). -/
def redecodeOne (before : State) (p : Position) (s : State) : State :=
  if bandKept before p s then retarget p s else bandTaken p s

/-- The BAND notices of a re-decode (R36, R39). -/
def redecodeNotices (s : State) : State := allPositions.foldl (fun s p => bandNotice p s) s

/-- The re-decode of all six positions after a band write (R36): the records, the BAND notices, each position's part, and then one
report event for each. Notices and parts go from P0 to P5, an order that the manual leaves open (assumption 24). -/
def redecode (before : State) (s : State) : State :=
  allPositions.foldl (fun s _ => reportEvent s)
    (allPositions.foldl (fun s p => redecodeOne before p s)
      (redecodeNotices (redecodeRevokes before (redecodeRecords s))))

end Sys2Proof.Machine
end

