-- ==== Sys2Proof/Machine/Cascade.lean ====
section
/-! DEFINITION. What closes a step of the part: RESTART as the blocks take it (R196), the path-quiet events, the watch of RESTART_N
at the end of start-up, and the start rule. -/

namespace Sys2Proof.Machine

/-! ## RESTART (R196) -/

/-- The interlock takes RESTART (R119): grants revoked, waiters to REVOKED, waiting set emptied, reasons and skip-hang flags
cleared, hang timers stopped. Debounced levels, debounce timers and running tails are kept. -/
def interlockRestart (s : State) : State :=
  let s := revokeAll .restart s
  { s with
    waiting := []
    tx := mapFin (fun _ x =>
      { x with state := if x.state = .waiting then .revoked else x.state, reason := none, skipHang := false,
               hangTimer := none }) s.tx }

/-- The driver takes RESTART (R153): targets none, the restart hold outside safe state, and the filter move tests. -/
def chainRestart (s : State) : State :=
  filterMoveAll <| s.mapChain fun c =>
    { c with filters := mapFin (fun _ f => { f with target := none }) c.filters,
             restartHold := c.restartHold || !s.safe }

/-- Position `p`'s port takes RESTART (R188): slots discarded, reception ended, silence timer stopped, position ABSENT. A divisor that
waits stays waiting and is applied as R198 gives, within this event where the receiver's return to HUNTING makes it due. -/
def Link.restart (p : Position) (x : Link) : Link :=
  { x with slots := [], receiver := .hunting, silenceTimer := none, present := false }.revise p

/-- RESTART at every block: the Band Decoder, the interlock, the Harmonic Check Unit, the allocator, the driver, and the ports last
(R188, R196). An absence or a return that has been handed on and not yet taken is still taken afterwards, which the manual leaves open
(assumption 5). -/
def restartBlocks (s : State) : State :=
  let s := interlockRestart { s with freq := mapFin (fun _ _ => clearFreq) s.freq }
  let s := chainRestart (allocRestart { s with advisory := [] })
  { s with links := mapFin (fun p x => x.restart p) s.links }

/-- The ready state at a RESTART (R194): RESTARTING, but in safe state unchanged. -/
def readyRestart (s : State) : State :=
  s.mapStore fun x => { x with ready := if s.safe then x.ready else .restarting }

/-- A RESTART, with the answer to its request handed over before the blocks take it (R196). -/
def restart (answer : State → State) (s : State) : State := restartBlocks (answer (readyRestart s))

/-! ## The close of a step -/

/-- A path-quiet event of a position: the allocator and the driver take it (R106). -/
def pathQuietEvent (p : Position) (s : State) : State := filterMove p (allocPathQuiet p s)

/-- The first position, in position order, whose path the step turned from not quiet to quiet and whose path-quiet event has not
yet been taken (R106). -/
def newlyQuiet (before : State) (done : List Position) (s : State) : Option Position :=
  allPositions.find? fun p => !done.contains p && !before.pathQuiet p && s.pathQuiet p

/-- Path-quiet events, one at a time, until no position is newly quiet: an event may in turn end another position's hang. Each
position has at most one. -/
def quietEvents (before : State) : Nat → List Position → State → State
  | 0, _, s => s
  | n + 1, done, s =>
    match newlyQuiet before done s with
    | some p => quietEvents before n (p :: done) (pathQuietEvent p s)
    | none => s

/-- The path-quiet events that a step calls for (R106). -/
def deliverQuiet (before s : State) : State := quietEvents before allPositions.length [] s

/-- RESTART_N is watched from the start-up chain event on: the level then stands as debounced, and a pin already asserted gives
one RESTART at that moment (R196). -/
def watchPin (before s : State) : State :=
  if before.store.ready = .starting && s.store.ready ≠ .starting then
    let s := s.mapStore fun x => { x with restart := x.restartRaw, restartTimer := none }
    if s.store.restartRaw then restart id s else s
  else s

/-- The close of a step that began in `before`: the watch of RESTART_N, the path-quiet events, and the start rule, so that one
CHANGE carries what the whole step composed (R141, section 11.3). -/
def closeStep (before s : State) : State := startRule (deliverQuiet before (watchPin before s))

/-- A command's outcome: the part takes it while it is powered, and nothing happens otherwise. -/
def whilePowered (body : State → State) (s : State) : Host.Outcome State Fault Refusal :=
  .next (if s.powered then body s else s)

/-- A command whose step is closed by `closeStep`. -/
def wholeStep (body : State → State) (s : State) : Host.Outcome State Fault Refusal :=
  whilePowered (fun s => closeStep s (body s)) s

end Sys2Proof.Machine
end

