-- ==== Sys2Proof/Machine/FaultLog.lean ====
section
/-! DEFINITION. The Fault Log and Safe-State Control (chapter 8): classification, the log, the alarm lines, and entering and
leaving safe state, with what the other blocks do at entry and exit. -/

namespace Sys2Proof.Machine

/-! ## Classification (R157, R158) -/

/-- A CHAIN_MISMATCH marked second. -/
def Detail.second : Detail → Bool
  | .chain _ _ x => x
  | _ => false

/-- The effective severity of an occurrence, by the configuration that holds when the occurrence is taken (R157). A CHAIN_MISMATCH for which
the driver is held for entry (R147) is no exception to it (assumption 27). -/
def effectiveSeverity (o : Occurrence) (s : State) : Severity :=
  match o.kind with
  | .ungrantedRf => .fatal
  | .hotSwitch => .fatal
  | k => if o.detail.second then .fatal else (s.faultConfig k).severity

/-- The detect mask keeps an occurrence from the log (R158): it has no effect on UNGRANTED_RF and HOT_SWITCH. -/
def maskedFromLog (o : Occurrence) (s : State) : Bool :=
  match o.kind with
  | .ungrantedRf => false
  | .hotSwitch => false
  | k => (s.faultConfig k).detectMask

/-- The detect mask drops an occurrence whole (R158): kinds 4 to 11. -/
def dropped (o : Occurrence) (s : State) : Bool := maskedFromLog o s && o.kind ≠ .chainMismatch

/-! ## Logging (R159, R161, R162, R163) -/

/-- A fault kind in a set of kinds (R185). -/
def kindBit (k : FaultKind) : KindSet := 1#16 <<< k.index.val

/-- An occurrence is entered in the log of its class and counted (R159, R161). -/
def logOccurrence (o : Occurrence) (sev : Severity) (l : FaultLog) : FaultLog :=
  let rec_ : LogRecord := { occ := o, severity := sev, stamp := l.clock }
  let l := { l with counters := put l.counters o.kind.index (min Config.counterTop (l.counters.get o.kind.index + 1)) }
  if sev = .minor then
    match l.firstMinor with
    | none => { l with firstMinor := some rec_ }
    | some _ => { l with nextMinor := l.nextMinor ||| kindBit o.kind }
  else
    match l.firstSerious with
    | none => { l with firstSerious := some rec_ }
    | some _ => { l with nextSerious := l.nextSerious ||| kindBit o.kind }

/-- An alarm line is asserted (R162). -/
def assertAlarm (out : AlarmLine) (l : FaultLog) : FaultLog :=
  match out with
  | .a => { l with alarmA := true }
  | .b => { l with alarmB := true }

/-- A serious occurrence whose report mask is clear asserts its alarm line and sends FAULT to every PRESENT position
(R162, R163). -/
def reportFault (o : Occurrence) (sev : Severity) (s : State) : State :=
  if sev ≠ .minor && !(s.faultConfig o.kind).reportMask then
    notifyAll (.fault o.kind sev) (s.mapLog (assertAlarm (s.faultConfig o.kind).routing))
  else s

/-! ## Entering safe state (R164) -/

/-- The interlock takes the entry (R111): every position revoked with cause SAFE, in position order; then the arbiter. -/
def interlockEntry (s : State) : State := arbiter (revokeAll .safe s)

/-- An operation's end without a latch, at the allocator and the interlock (R45, R100). -/
def endWithoutLatch (s : State) : State := arbiter (allocEnd s)

/-- The driver takes the entry (R150): an operation that has not pulsed its latch is abandoned, which ends a start-up sequence with
the result ABANDONED (R152); verify timer stopped, attempt closed, held for entry cleared. -/
def chainEntry (s : State) : State :=
  let s := s.mapChain fun c => { c with verifyTimer := none, attempt := none, heldForEntry := false }
  match s.chain.op with
  | some o =>
    if o.phase = .settling then s
    else endStartUp (endWithoutLatch (endOperation none s))
  | none => s

/-- Safe-state entry (R164): the flag, SAFE "entered" to every PRESENT position, and the three blocks. -/
def enterSafe (s : State) : State :=
  let s := notifyAll (.safe true) (s.mapLog fun l => { l with safe := true })
  allocEntry (chainEntry (interlockEntry s))

/-- A fatal occurrence spoils a pending exit (R167). -/
def spoilExit (s : State) : State := if s.log.exitPending then s.mapLog fun l => { l with exitSpoiled := true } else s

/-- The effect of a fatal occurrence (R164, R167): entry, or in safe state the spoiling of a pending exit. -/
def takeFatal (s : State) : State := if s.safe then spoilExit s else enterSafe (spoilExit s)

/-- An occurrence that its kind's detect mask lets through is logged and reported (R158 to R163). -/
def recordOccurrence (o : Occurrence) (s : State) : State :=
  if maskedFromLog o s then s
  else reportFault o (effectiveSeverity o s) (s.mapLog (logOccurrence o (effectiveSeverity o s)))

/-- The Fault Log takes an occurrence (R156 to R164). -/
def takeOccurrence (o : Occurrence) (s : State) : State :=
  if dropped o s then s
  else if effectiveSeverity o s = .fatal then takeFatal (recordOccurrence o s)
  else recordOccurrence o s

/-! ## Leaving safe state (R167, R168) -/

/-- Safe state ends (R168): the flag, SAFE "left" to every PRESENT position, and the three blocks; the driver's start rule comes at
the close of the step. -/
def leaveSafe (s : State) : State :=
  let s := notifyAll (.safe false) (s.mapLog fun l => { l with safe := false })
  arbiter (allocExit s)

/-- The Fault Log takes an exit result (R167). -/
def takeExitResult (passed : Bool) (s : State) : State :=
  let spoiled := s.log.exitSpoiled
  let s := s.mapLog fun l => { l with exitPending := false }
  if passed then
    if spoiled then s.mapLog fun l => { l with exitSpoiled := false } else leaveSafe s
  else s

/-- Exit results at the head of what waits for the Fault Log are taken; an occurrence handed before a result is taken before it
(R148, R156). -/
def drainResults : Nat → State → State
  | 0, s => s
  | n + 1, s =>
    match s.inbox with
    | .exitResult passed :: rest => drainResults n (takeExitResult passed { s with inbox := rest })
    | _ => s

/-- Every exit result that no waiting occurrence stands before is taken. -/
def drainExit (s : State) : State := drainResults s.inbox.length s

end Sys2Proof.Machine
end

