-- ==== Sys2Proof/Machine/Operands.lean ====
section
/-! DEFINITION. Reading the operands of a request from the bytes of its frame (R185, R186), and the entries of the station
table as bytes in both directions. -/

namespace Sys2Proof.Machine

/-! ## Bytes to values -/

/-- Byte `i` of a payload, 0 past its end. -/
def byteAt (bs : List Byte) (i : Nat) : Nat := (bs.getD i 0).toNat

/-- `n` bytes of a payload from byte `i`. -/
def field (bs : List Byte) (i n : Nat) : List Byte := (bs.drop i).take n

/-- A number below `n`, or none. -/
def below (n v : Nat) : Option (Fin n) := if h : v < n then some ⟨v, h⟩ else none

/-- A flag byte, or none for a byte that is neither 0 nor 1 (R185). A table's `enabled` field, whose values are yes and no, is read and
sent as a flag as well, 1 for yes and 0 for no, which R185 and R186 do not say (assumption 15). -/
def flagOf : Nat → Option Bool
  | 0 => some false
  | 1 => some true
  | _ => none

def portKindOf : Nat → Option PortKind
  | 0 => some .main | 1 => some .aux | _ => none

/-- The port kinds that a MAIN, AUX or BOTH byte names, MAIN first (R185). -/
def portKindsOf : Nat → Option (List PortKind)
  | 0 => some [.main] | 1 => some [.aux] | 2 => some [.main, .aux] | _ => none

def lineKindOf : Nat → Option LineKind
  | 0 => some .main | 1 => some .rx | _ => none

def mannerOf : Nat → Option Manner
  | 0 => some .wait | 1 => some .now | 2 => some .take | _ => none

def harmonicPolicyOf : Nat → Option HarmonicPolicy
  | 0 => some .off | 1 => some .advise | 2 => some .block | _ => none

def lockModeOf : Nat → Option LockMode
  | 0 => some .off | 1 => some .keyed | _ => none

def severityOf : Nat → Option Severity
  | 0 => some .minor | 1 => some .major | 2 => some .fatal | _ => none

def alarmLineOf : Nat → Option AlarmLine
  | 0 => some .a | 1 => some .b | _ => none

/-- The fault kinds in the order of their numbers. -/
def faultKinds : List FaultKind :=
  [.ungrantedRf, .hotSwitch, .chainMismatch, .linkSilent, .storeFault, .linkFrame, .linkOverrun, .freqStale, .oobPtt,
   .harmonicTx, .noticeDrop]

/-- The fault kind with a number from 1 to 11. -/
def faultKindOf (n : Nat) : Option FaultKind := if n = 0 then none else faultKinds[n - 1]?

/-- The severities a kind allows (section 1.10). -/
def FaultKind.allows : FaultKind → Severity → Bool
  | .ungrantedRf, x => x = .fatal
  | .hotSwitch, x => x = .fatal
  | .chainMismatch, x => x ≠ .minor
  | _, _ => true

/-- A label's characters: those before the first 0x00 (R185). -/
def labelChars (bs : List Byte) : List Byte := bs.takeWhile fun c => c ≠ 0

/-- A label as its fixed field of `n` bytes (R185). The bytes after its last character are sent as 0x00, all of them: R185 says only that
those after the first 0x00 are ignored, so their value is the model's choice (assumption 15). -/
def padLabel (n : Nat) (cs : List Byte) : List Byte := (cs ++ List.replicate n 0).take n

/-- Every character is from space to tilde (R5, R13). -/
def labelOk (cs : List Byte) : Bool := cs.all fun c => 0x20 ≤ c.toNat && c.toNat ≤ 0x7E

/-- No value stands twice in a list. -/
def distinct {α : Type} [DecidableEq α] : List α → Bool
  | [] => true
  | x :: xs => !xs.contains x && distinct xs

/-- A value brought into a range (R19, R22). -/
def clamp (lo hi v : Nat) : Nat := max lo (min hi v)

/-! ## Entries from the bytes of a TABLE_WRITE (R186): none where a field is outside its allowed set -/

/-- A band entry, from the bytes after the index. -/
def bandOf (bs : List Byte) : Option BandEntry := do
  let f ← below 8 (byteAt bs 6)
  let on ← flagOf (byteAt bs 13)
  pure { lower := ofBigEndian (field bs 0 3), upper := ofBigEndian (field bs 3 3), filter := f,
         label := labelChars (field bs 7 6), enabled := on }

/-- An optional position: 0xFF is none; `none` for a byte that is neither (R185). -/
def optPositionOf (n : Nat) : Option (Option Position) := if n = 255 then some none else (below 6 n).map some

/-- A feed line entry. -/
def lineEntryOf (bs : List Byte) : Option LineEntry := do
  let k ← lineKindOf (byteAt bs 0)
  let r ← optPositionOf (byteAt bs 2)
  let on ← flagOf (byteAt bs 3)
  pure { kind := k, ports := byteAt bs 1, reserved := r, enabled := on }

/-- An element entry. -/
def elementOf (bs : List Byte) : Option ElementEntry := do
  let l ← below 16 (byteAt bs 0)
  let x ← below 4 (byteAt bs 1)
  let on ← flagOf (byteAt bs 4)
  pure { line := l, select := x, bands := BitVec.ofNat 16 (ofBigEndian (field bs 2 2)), enabled := on }

/-- The elements of a route's four element bytes, unused bytes left out. -/
def elementsOf : List Byte → Option (List Element)
  | [] => some []
  | b :: bs => if b = noneByte then elementsOf bs else do
      let x ← below 32 b.toNat
      let xs ← elementsOf bs
      pure (x :: xs)

/-- A route entry, its band set not yet computed. -/
def routeEntryOf (bs : List Byte) : Option RouteEntry := do
  let l ← below 16 (byteAt bs 0)
  let xs ← elementsOf (field bs 1 4)
  let on ← flagOf (byteAt bs 13)
  pure { line := l, elements := xs, label := labelChars (field bs 5 8), enabled := on, bands := 0 }

/-- The routes of a ring, from its route bytes. -/
def routesOf : List Byte → Option (List Route)
  | [] => some []
  | b :: bs => do
      let r ← below 48 b.toNat
      let rs ← routesOf bs
      pure (r :: rs)

/-- A station policy as carried, before clamping. -/
def policyOf (bs : List Byte) : Option Policy := do
  let h ← harmonicPolicyOf (byteAt bs 11)
  let m ← lockModeOf (byteAt bs 13)
  pure { tDeb := byteAt bs 0, tSettle := byteAt bs 1, tTail := byteAt bs 2, tHang := byteAt bs 3, tStale := byteAt bs 4,
         tLink := byteAt bs 5, tVerify := byteAt bs 6, k := byteAt bs 7, c := byteAt bs 8, nMax := byteAt bs 9,
         gBase := byteAt bs 10, harmonic := h, chainLength := byteAt bs 12, lockMode := m }

/-- A policy with each numeric field clamped into its range (R19). -/
def Policy.clamped (q : Policy) : Policy :=
  { q with tDeb := clamp 1 15 q.tDeb, tSettle := clamp 2 255 q.tSettle, tTail := clamp 0 255 q.tTail,
           tHang := clamp 0 255 q.tHang, tStale := clamp 1 60 q.tStale, tLink := clamp 1 60 q.tLink,
           tVerify := clamp 0 60 q.tVerify, k := clamp 1 6 q.k, c := clamp 1 4 q.c, nMax := clamp 2 5 q.nMax,
           gBase := clamp 0 255 q.gBase, chainLength := clamp 1 32 q.chainLength }

/-- A position's settings as carried, before clamping. -/
def settingsEntryOf (bs : List Byte) : Option Settings := do
  let on ← flagOf (byteAt bs 1)
  pure { priority := byteAt bs 0, protect := on, divisor := ofBigEndian (field bs 2 2), eighths := byteAt bs 4 }

/-- Settings with priority, D and E clamped (R22). -/
def Settings.clamped (x : Settings) : Settings :=
  { x with priority := clamp 0 3 x.priority, divisor := clamp 1 4095 x.divisor, eighths := clamp 0 7 x.eighths }

/-- A fault configuration entry. -/
def faultEntryOf (bs : List Byte) : Option FaultConfig := do
  let d ← flagOf (byteAt bs 0)
  let r ← flagOf (byteAt bs 1)
  let sev ← severityOf (byteAt bs 2)
  let out ← alarmLineOf (byteAt bs 3)
  pure { detectMask := d, reportMask := r, severity := sev, routing := out }

/-! ## Entries as the bytes of a TABLE_READ (R185, R186) -/

def BandEntry.bytes (e : BandEntry) : List Byte :=
  bigEndian 3 e.lower ++ bigEndian 3 e.upper ++ [byte e.filter.val] ++ padLabel 6 e.label ++ [flag e.enabled]

def LineEntry.bytes (e : LineEntry) : List Byte :=
  [byte e.kind.code, byte e.ports, optByte (e.reserved.map (·.val)), flag e.enabled]

def ElementEntry.bytes (e : ElementEntry) : List Byte :=
  [byte e.line.val, byte e.select.val] ++ bigEndian 2 e.bands.toNat ++ [flag e.enabled]

/-- A route entry as a write carries it. -/
def RouteEntry.written (e : RouteEntry) : List Byte :=
  [byte e.line.val] ++ (e.elements.map (fun x => byte x.val) ++ List.replicate 4 noneByte).take 4 ++
    padLabel 8 e.label ++ [flag e.enabled]

/-- A route entry as a read returns it: followed by its band set (R185). -/
def RouteEntry.bytes (e : RouteEntry) : List Byte := e.written ++ bigEndian 2 e.bands.toNat

def ringBytes (rs : List Route) : List Byte := byte rs.length :: rs.map fun r => byte r.val

def Policy.bytes (q : Policy) : List Byte :=
  [q.tDeb, q.tSettle, q.tTail, q.tHang, q.tStale, q.tLink, q.tVerify, q.k, q.c, q.nMax, q.gBase, q.harmonic.code,
   q.chainLength, q.lockMode.code].map byte

def Settings.bytes (x : Settings) : List Byte :=
  [byte x.priority, flag x.protect] ++ bigEndian 2 x.divisor ++ [byte x.eighths]

def FaultConfig.bytes (c : FaultConfig) : List Byte :=
  [flag c.detectMask, flag c.reportMask, byte c.severity.code, byte c.routing.code]

/-! ## The whole table, and the nonvolatile image (R190) -/

/-- Every entry of the eight subjects as TABLE_WRITE carries it (R190). -/
def Table.bytes (t : Table) : List Byte :=
  t.bands.toList.flatMap BandEntry.bytes ++ t.lines.toList.flatMap LineEntry.bytes ++
    t.elements.toList.flatMap ElementEntry.bytes ++ t.routes.toList.flatMap RouteEntry.written ++
    t.rings.toList.flatMap ringBytes ++ t.policy.bytes ++ t.settings.toList.flatMap Settings.bytes ++
    t.faults.toList.flatMap FaultConfig.bytes

/-- The sum of bytes, taken modulo 65,536 (R190). -/
def byteSum (bs : List Byte) : BitVec 16 := BitVec.ofNat 16 (bs.foldl (fun acc b => acc + b.toNat) 0)

/-- The sum over an image: every byte of the marker, the version and the table (R190). -/
def NvImage.total (x : NvImage) : BitVec 16 := byteSum (x.marker ++ x.version ++ x.table.bytes)

/-- The version is one this part reads: the one it writes, or another (R193; assumption 6). -/
def versionRead (v : List Byte) : Bool := v = Config.formatVersion || Config.readsVersion v

/-- The image passes the three tests of R193: marker, version and sum. -/
def NvImage.good (x : NvImage) : Bool := x.sum = x.total && x.marker = Config.formatMarker && versionRead x.version

/-- An image with the sum over it in the sum's place (R192). -/
def NvImage.summed (x : NvImage) : NvImage := { x with sum := x.total }

/-- The image that a save of table `t` writes over the image `x`: the marker, the version, the table and its sum (R190, R192). -/
def NvImage.saved (x : NvImage) (t : Table) : NvImage :=
  NvImage.summed { x with marker := Config.formatMarker, version := Config.formatVersion, table := t }

/-- A sum that does not match: `v`, or another where `v` would match. -/
def otherSum (v total : BitVec 16) : BitVec 16 := if v = total then v + 1 else v

/-- The image from the erase on, until its write has finished: its sum does not match (R190, R192). Which sum stands there is a free
value; that the other parts stay as they were is the model's choice, which nothing can see (assumption 19). -/
def NvImage.unfinished (x : NvImage) : NvImage :=
  { x with sum := otherSum (Config.unfinishedSum x.writes) x.total, writes := x.writes + 1 }

/-- The band set of a list of elements: the intersection of their band sets (R14). -/
def bandSetOf (es : Vector ElementEntry 32) (xs : List Element) : BandSet :=
  xs.foldl (fun acc x => acc &&& (es.get x).bands) 0x0FFF

/-- Every route's band set computed from the element entries (R190). -/
def Table.withBandSets (t : Table) : Table :=
  { t with routes := mapFin (fun _ r => { r with bands := bandSetOf t.elements r.elements }) t.routes }

end Sys2Proof.Machine
end

