-- ==== Sys2Proof/Machine/Query.lean ====
section
/-! DEFINITION. What a QUERY and a FAULT_READ return: the items of the owning chapters in the order of R180, in the common
encoding of R185. -/

namespace Sys2Proof.Machine

/-- A list: its number of members, then the members (R185). -/
def listBytes {α : Type} (f : α → List Byte) (xs : List α) : List Byte := byte xs.length :: xs.flatMap f

/-- An optional number of `n` bytes: every bit set for none (R185). -/
def optBytes (n : Nat) : Option Nat → List Byte
  | some v => bigEndian n v
  | none => List.replicate n noneByte

/-! ## Band Decoder (R27) -/

/-- A band's label, or none as six bytes of 0xFF. -/
def State.bandLabel (s : State) : Option Band → List Byte
  | some b => padLabel 6 (s.table.bands.get b).label
  | none => List.replicate 6 noneByte

/-- The frequency record, with the label beside the position's own band alone: R27 and R117 list the candidate and the station's
on-air bands without one (assumption 11). -/
def State.freqBytes (s : State) (p : Position) : List Byte :=
  let r := s.freqOf p
  optBytes 3 r.rx ++ optBytes 3 r.tx ++ [byte r.width, optByte (r.band.map (·.val))] ++ s.bandLabel r.band ++
    [flag r.outOfBand, flag r.stale, optByte (r.candidate.map (·.val)), byte r.count]

/-! ## Line Allocator (R75, R77) -/

def Holder.bytes (r : Holder) : List Byte :=
  [byte r.pos.val, byte r.route.val, byte r.kind.code, byte r.state.code, flag r.latched, flag r.breakRequested,
   optByte (r.reroute.map (·.val))]

def WaitEntry.bytes (e : WaitEntry) : List Byte :=
  [byte e.pos.val, byte e.route.val, byte e.manner.code, flag e.move, byte e.priority]

/-- The line on which a position waits on a kind. -/
def State.waitsOn (s : State) (p : Position) (k : PortKind) : Option Line :=
  (List.finRange 16).find? fun l => s.portOf l = k && (s.listOf l).any fun e => e.pos = p

/-- The line and place of a position's wait entry of a kind, or none. -/
def State.waitBytes (s : State) (p : Position) (k : PortKind) : List Byte :=
  match s.waitsOn p k with
  | some l => [byte l.val, byte (s.placeIn p l)]
  | none => [noneByte, noneByte]

/-- The allocator's part of a position, its records in the order in which they were created (assumption 11). -/
def State.allocBytes (s : State) (p : Position) : List Byte :=
  let m := s.standing p .main
  let a := s.standing p .aux
  let line (x : Option Line) : Byte := optByte (x.map (·.val))
  listBytes Holder.bytes (s.alloc.records.filter fun r => r.pos = p) ++ s.waitBytes p .main ++ s.waitBytes p .aux ++
    [flag m.follow, flag a.follow, line m.loss, line a.loss, flag (s.switching p)] ++
    [flag m.follow, flag a.follow, flag m.due, flag a.due, line m.reclaim, line a.reclaim]

/-- The allocator's part of a line, its records in the order in which they were created (assumption 11). -/
def State.lineBytes (s : State) (l : Line) : List Byte :=
  (s.lineOf l).bytes ++ [byte (s.lineState l).code] ++ listBytes Holder.bytes (s.recordsOn l) ++
    listBytes WaitEntry.bytes (s.listOf l)

/-! ## Transmit Interlock (R117) -/

/-- A position's place in the waiting set, counted from 1, or none. -/
def State.waitingPlace (s : State) (p : Position) : Option Nat :=
  if s.waiting.contains p then some (s.waiting.findIdx (fun q => q = p) + 1) else none

def State.txBytes (s : State) (p : Position) : List Byte :=
  let t := s.txOf p
  [byte t.state.code, flag (s.inhibit p), flag t.ptt, flag t.rf, flag t.hangTimer.isSome, flag t.tailTimer.isSome,
   flag t.skipHang, optByte (s.waitingPlace p), optByte (t.reason.map WaiterReason.code),
   optByte (t.lastRevocation.map RevocationCause.code), flag (s.pathQuiet p), flag (s.pathSettled p)]

/-- The interlock's part of the station; the positions on the air go from P0 to P5, and their bands stand without their labels
(assumption 11). -/
def State.stationTxBytes (s : State) : List Byte :=
  [byte s.onAirCount, byte s.policy.k] ++
    listBytes (fun p => [byte p.val, optByte ((s.freqOf p).band.map (·.val))]) (allPositions.filter s.onAir) ++
    listBytes (fun p => [byte p.val]) s.waiting

/-! ## Harmonic Check Unit (R133) -/

def pairBytes (x : Position × Position) : List Byte := [byte x.1.val, byte x.2.val]

/-- The results of the test with the queried position as transmitter, one for each protected receiver: receiver, n, margin; then the
set pairs that name the position, in the order of R127, which R133 gives for the station alone (assumption 11). -/
def State.harmonicBytes (s : State) (p : Position) : List Byte :=
  let rs := if (s.freqOf p).transmit.isSome then allPositions.filter fun r => s.protectedFrom p r else []
  listBytes
    (fun r =>
      match s.harmonicTest p r with
      | some (n, m) => [byte r.val, byte n] ++ bigEndian 2 m
      | none => [byte r.val, noneByte, noneByte, noneByte]) rs ++
    listBytes pairBytes (s.advisory.filter fun x => x.1 = p || x.2 = p)

def State.stationHarmonicBytes (s : State) : List Byte :=
  listBytes pairBytes s.advisory ++ [byte s.policy.harmonic.code, byte s.policy.gBase, byte s.policy.nMax]

/-! ## Relay Chain Driver (R155) -/

def State.filterBytes (s : State) (p : Position) : List Byte :=
  let f := s.filterOf p
  let one (x : Option FilterNo) : Byte := optByte (x.map (·.val))
  [one f.current, one f.target, one f.image, if f.settled then 0 else 1]

/-- The driver's part of the station; with no attempt open, flag 0, kind 0xFF and repeat due 0 (assumption 11). -/
def State.chainBytes (s : State) : List Byte :=
  let c := s.chain
  (match c.op with
    | some o => [byte o.kind.code, byte o.purpose.code, byte o.phase.code]
    | none => [noneByte, noneByte, noneByte]) ++
  (match c.attempt with
    | some x => [1, byte x.kind.code, flag x.repeatDue]
    | none => [0, noneByte, 0]) ++
  [flag c.content.isSome, flag (c.pending ≠ c.latched), flag c.refreshDue, flag c.restartHold, flag c.exitRequest,
   flag c.heldForEntry, flag c.verifyTimer.isSome,
   byte (match c.op with
     | some o => o.length
     | none => s.policy.chainLength)]

/-- A board's eight bits of an image (R155), with output j (R136) at bit j of the byte, a place that the manual leaves open (assumption
11). -/
def boardByte (im : Image) (board : Nat) : Byte := (im >>> (board * 8)).setWidth 8

/-- The four board images of R155, one byte each: an image that is none, or UNKNOWN, is sent as 0xFF (R185). -/
def State.boardBytes (s : State) (board : Nat) : List Byte :=
  let opt (x : Option Image) : Byte :=
    match x with
    | some im => boardByte im board
    | none => noneByte
  [boardByte s.chain.latched board, boardByte s.chain.pending board, opt (s.chain.op.map (·.image)), opt s.chain.content]

/-! ## Fault Log (R165, R169, R185) -/

/-- The three detail bytes of a log record (R185, R156). -/
def Detail.bytes : Detail → List Byte
  | .none => [noneByte, noneByte, noneByte]
  | .rf c => [if c = .rfOn then 0 else 1, noneByte, noneByte]
  | .hot c b => [if c = .rfOn then 0 else 1, byte b, noneByte]
  | .chain b k x => [byte b, byte k.code, flag x]
  | .store ph => [if ph = .load then 0 else 1, noneByte, noneByte]
  | .frame x => [match x with
      | .framing => 0
      | .gap => 1
      | .check => 2
      | .length => 3, noneByte, noneByte]
  | .harmonic r n => [byte r.val, byte n, noneByte]
  | .dropped k => [k, noneByte, noneByte]

/-- A first record of the log in its 12 bytes (R185). -/
def logRecordBytes : Option LogRecord → List Byte
  | some r =>
    [byte r.occ.kind.number, byte r.severity.code] ++ bigEndian 4 r.stamp.toNat ++
      [optByte (r.occ.pos.map (·.val)), optByte (r.occ.line.map (·.val)), optByte (r.occ.band.map (·.val))] ++
      r.occ.detail.bytes
  | none => List.replicate 12 noneByte

/-- The 48 data bytes of FAULT_READ (R185). -/
def FaultLog.bytes (l : FaultLog) : List Byte :=
  logRecordBytes l.firstSerious ++ logRecordBytes l.firstMinor ++ bigEndian 2 l.nextSerious.toNat ++
    bigEndian 2 l.nextMinor.toNat ++ l.counters.toList.map byte ++ [flag l.alarmA, flag l.alarmB, flag l.safe,
    flag l.exitPending, flag l.exitSpoiled] ++ bigEndian 4 l.clock.toNat

/-- The Fault Log's part of a station QUERY (R169). -/
def FaultLog.stationBytes (l : FaultLog) : List Byte :=
  let kind (r : Option LogRecord) : Byte := optByte (r.map fun x => x.occ.kind.number)
  [flag l.safe, flag l.exitPending, flag l.exitSpoiled, flag l.alarmA, flag l.alarmB] ++ bigEndian 4 l.clock.toNat ++
    [kind l.firstSerious, kind l.firstMinor]

/-- The first records that name a position: each one's kind, and its class, 0 minor and 1 serious (R169); a list, the first serious
record before the first minor one (assumption 11). -/
def FaultLog.positionBytes (l : FaultLog) (p : Position) : List Byte :=
  let one (r : Option LogRecord) (cls : Byte) : List (List Byte) :=
    match r with
    | some x => if x.occ.pos = some p then [[byte x.occ.kind.number, cls]] else []
    | none => []
  listBytes id (one l.firstSerious 1 ++ one l.firstMinor 0)

/-! ## The four subjects (R180) -/

def State.positionReply (s : State) (p : Position) : List Byte :=
  [if s.present p then 0 else 1, flag (s.link p).noticeLost] ++ s.freqBytes p ++ s.allocBytes p ++ s.txBytes p ++
    s.harmonicBytes p ++ s.filterBytes p ++ s.log.positionBytes p

def State.stationReply (s : State) : List Byte :=
  [flag s.isReady, flag s.locked, flag s.store.saving] ++ s.stationTxBytes ++ s.stationHarmonicBytes ++ s.chainBytes ++
    s.log.stationBytes

end Sys2Proof.Machine
end

