-- ==== Sys2Proof/Machine/Request.lean ====
section
/-! DEFINITION. How a port takes the request of its oldest receive slot, and how it answers (R175, R177, R178). -/

namespace Sys2Proof.Machine

/-! ## Events handed on by the ports (R183, R184) -/

/-- The block and the position that a handed event is for. -/
def Handed.reader : Handed → AbsenceTaker × Position
  | .absence b p => (b, p)
  | .positionReturn .lineAllocator p => (.lineAllocator, p)
  | .positionReturn .transmitInterlock p => (.transmitInterlock, p)

/-- Some block has still to take an absence or a return of a position. -/
def State.awaits (s : State) (p : Position) : Bool := s.handed.any fun h => h.reader.2 = p

/-- The event is the next one its block takes for its position. -/
def State.isNext (s : State) (h : Handed) : Bool := (s.handed.find? fun x => x.reader = h.reader) = some h

/-- A handed event is taken. -/
def dropHanded (h : Handed) (s : State) : State := { s with handed := s.handed.erase h }

/-! ## Taking a request (R175, R177) -/

/-- The oldest slot of a port is freed; where that releases HOLD_n the silence timer starts again with the full t_link (R175). -/
def freeSlot (p : Position) (s : State) : State :=
  s.mapLink p fun x =>
    { x with
      slots := x.slots.drop 1
      silenceTimer := if x.hold && x.present then some s.policy.linkMs else x.silenceTimer }

/-- The port may take a request now: the queue has room for its reply (R177), and no absence or return of the position waits to be
taken (R73, R184; assumption 5). -/
def State.mayTake (s : State) (p : Position) (need : Nat) : Bool :=
  !s.awaits p && (s.link p).queue.length + need ≤ Config.queueFrames

/-- The port takes its oldest request, if it is one of this row's and the reply has room: the block acts and answers, and the
slot is freed (R177). -/
def takeRequest (p : Position) (fits : Frame → Bool) (need : Frame → Nat) (serve : Frame → State → State) (s : State) :
    State :=
  match (s.link p).slots with
  | [] => s
  | f :: _ => if fits f && s.mayTake p (need f) then freeSlot p (serve f s) else s

/-- A request of a kind whose reply takes one frame. -/
def takeSimple (p : Position) (fits : Frame → Bool) (serve : Frame → State → State) (s : State) : State :=
  takeRequest p fits (fun _ => 1) serve s

/-- A reply with a code alone (R185). -/
def answer (p : Position) (f : Frame) (c : Code) (s : State) : State := reply p f.kind c [] s

/-- A refused multi-part request: one frame, part byte 0x11, no data (R178). -/
def refuseParts (p : Position) (f : Frame) (c : Code) (s : State) : State := reply p f.kind c [0x11] s

/-! ## The request kinds (R186) -/

def kindPoll : Byte := 0x01
def kindFreq : Byte := 0x02
def kindClaim : Byte := 0x03
def kindRelease : Byte := 0x04
def kindCancel : Byte := 0x05
def kindFollow : Byte := 0x06
def kindStep : Byte := 0x07
def kindQuery : Byte := 0x08
def kindTableRead : Byte := 0x09
def kindTableWrite : Byte := 0x0A
def kindSave : Byte := 0x0B
def kindFaultRead : Byte := 0x0C
def kindFaultClear : Byte := 0x0D
def kindRestart : Byte := 0x0E

/-- A kind byte from 0x01 to 0x0E (R177). -/
def knownKind (k : Byte) : Bool := 1 ≤ k.toNat && k.toNat ≤ 14

/-- The frame is of a request kind. -/
def isKind (k : Byte) (f : Frame) : Bool := f.kind = k

end Sys2Proof.Machine
end

