-- ==== Sys2Proof/Machine/Frequency.lean ====
section
/-! DEFINITION. The Band Decoder's commands: FREQ and the expiry of a stale timer (chapter 2). -/

namespace Sys2Proof.Machine

/-- The fields of a FREQ request as carried: rx count, mode width, and the tx count of the longer form (R28, R186). -/
structure FreqFields where
  rx : Nat
  width : Nat
  tx : Option Nat
  deriving DecidableEq, Repr

/-- The fields of a payload of one of the two lengths (R186). -/
def freqFieldsOf (bs : List Byte) : Option FreqFields :=
  if bs.length = 5 then some { rx := ofBigEndian (field bs 0 4), width := byteAt bs 4, tx := none }
  else if bs.length = 9 then
    some { rx := ofBigEndian (field bs 0 4), width := byteAt bs 4, tx := some (ofBigEndian (field bs 5 4)) }
  else none

/-- A count as stored: none for 0, lowered to the top count (R28). -/
def storedCount (n : Nat) : Option Nat := if n = 0 then none else some (min n Config.maxF10)

/-- Some field of the report is lowered (R28). -/
def FreqFields.lowered (x : FreqFields) : Bool :=
  Config.maxF10 < x.rx || Config.maxF10 < x.tx.getD 0 || Config.maxWidth < x.width

/-- The record with a report's fields stored, the stale timer started and the stale flag cleared (R28, R34). -/
def FreqRecord.carry (r : FreqRecord) (x : FreqFields) (staleMs : Nat) : FreqRecord :=
  { r with rx := storedCount x.rx, tx := x.tx.bind storedCount, width := min x.width Config.maxWidth, stale := false,
           staleTimer := some staleMs }

/-- The record after an accepted report: its fields stored, then decoded (R28 to R33). -/
def State.reported (s : State) (p : Position) (x : FreqFields) : FreqRecord :=
  ((s.freqOf p).carry x s.policy.staleMs).decoded s.table.bands s.policy.c

/-- FREQ as it is served (R28): the record, the reply, the BAND notice, which comes before any HARMONIC notice (R128), the
band-change event, the report event (R38). -/
def serveFreq (p : Position) (f : Frame) (s : State) : State :=
  match freqFieldsOf f.payload with
  | none => answer p f .badRequest s
  | some x =>
    let t := s.mapFreq p fun _ => s.reported p x
    let t := answer p f (if x.lowered then .adjusted else .ok) t
    reportEvent (bandChangeFrom (s.freqOf p).band p (bandNotice p t))

/-- FREQ (R28). -/
def execFreq (p : Position) : State → Host.Outcome State Fault Refusal :=
  wholeStep (takeSimple p (isKind kindFreq) (serveFreq p))

/-- STALE_EXPIRY (R34). -/
def execStaleExpiry (p : Position) : State → Host.Outcome State Fault Refusal :=
  whilePowered fun s =>
    if (s.freqOf p).staleTimer.isSome then
      reportEvent <| bandNotice p <|
        raise { kind := .freqStale, pos := some p, line := none, band := (s.freqOf p).band, detail := .none } <|
          s.mapFreq p fun r => { r with stale := true, staleTimer := none }
    else s

end Sys2Proof.Machine
end

