-- ==== Sys2Proof/Machine/Lines.lean ====
section
/-! DEFINITION. The Line Allocator's requests: CLAIM in its three manners, RELEASE, CANCEL, FOLLOW and STEP (chapters 3 and 4). -/

namespace Sys2Proof.Machine

/-! ## CLAIM (R52) -/

/-- The manner of a CLAIM's payload, none where the payload is malformed (R52, R186). -/
def claimManner (bs : List Byte) : Option Manner := if bs.length = 2 then mannerOf (byteAt bs 1) else none

/-- The frame is a CLAIM of manner `m`, or a malformed CLAIM, which any manner's row may take (assumption 10). -/
def claimFits (m : Manner) (f : Frame) : Bool :=
  f.kind = kindClaim && (claimManner f.payload = some m || claimManner f.payload = none)

/-- The tests of R52 on a route, from the fifth on: the code of the first that fails. -/
def State.claimRefusal (s : State) (p : Position) (r : Route) : Option Code :=
  let l := (s.routeOf r).line
  if !s.routeEnabled r then some .invalid
  else if s.reservedFrom l p then some .reserved
  else if s.breakingOn p l then some .busy
  else none

/-- The reply to a claim that passed its tests (R185). -/
def answerClaim (p : Position) (f : Frame) : ClaimOutcome → State → State
  | .ok => answer p f .ok
  | .queued n => reply p f.kind .queued [byte n]
  | .refused c => answer p f c

/-- A claim that passed its tests is carried out and closed; once accepted it sets the re-claim line of its kind to none (R63, R85). A
refused one changes nothing but the queue. -/
def serveClaimOf (p : Position) (f : Frame) (r : Route) (m : Manner) (s : State) : State :=
  match claimRoute p r m (Work.start s) with
  | (_, .refused c) => answer p f c s
  | (w, out) =>
    let k := s.portOf (s.routeOf r).line
    closeRequest s (answerClaim p f out) (w.mapStanding p k fun x => { x with reclaim := none })

/-- CLAIM as it is served (R52). -/
def serveClaim (p : Position) (f : Frame) (s : State) : State :=
  match claimManner f.payload with
  | none => answer p f .badRequest s
  | some m =>
    if !s.isReady then answer p f .notReady s
    else if s.safe then answer p f .safe s
    else match below 48 (byteAt f.payload 0) with
      | none => answer p f .badIndex s
      | some r =>
        match s.claimRefusal p r with
        | some c => answer p f c s
        | none => serveClaimOf p f r m s

/-- CLAIM of manner WAIT (R59). -/
def execClaimWait (p : Position) : State → Host.Outcome State Fault Refusal :=
  wholeStep (takeSimple p (claimFits .wait) (serveClaim p))

/-- CLAIM of manner NOW (R60). -/
def execClaimNow (p : Position) : State → Host.Outcome State Fault Refusal :=
  wholeStep (takeSimple p (claimFits .now) (serveClaim p))

/-- CLAIM of manner TAKE (R61, R62). -/
def execClaimTake (p : Position) : State → Host.Outcome State Fault Refusal :=
  wholeStep (takeSimple p (claimFits .take) (serveClaim p))

/-! ## RELEASE and CANCEL (R67, R69) -/

/-- The port kinds of a one-byte payload naming MAIN, AUX or BOTH. -/
def kindsOf : List Byte → Option (List PortKind)
  | [b] => portKindsOf b.toNat
  | _ => none

/-- A position's records of the named kinds are released, in the order of the records (R67). -/
def releaseKinds (p : Position) (ks : List PortKind) (w : Work) : Work :=
  (w.s.alloc.records.filter fun r => r.pos = p && ks.contains r.kind).foldl (fun w r => goBreaking p r.line w) w

/-- RELEASE as it is served (R67). -/
def serveRelease (p : Position) (f : Frame) (s : State) : State :=
  match kindsOf f.payload with
  | none => answer p f .badRequest s
  | some ks => closeRequest s (answer p f .ok) (releaseKinds p ks (Work.start s))

/-- RELEASE (R67). -/
def execRelease (p : Position) : State → Host.Outcome State Fault Refusal :=
  wholeStep (takeSimple p (isKind kindRelease) (serveRelease p))

/-- A position's wait entries of the named kinds leave their lists (R69). -/
def cancelKinds (p : Position) (ks : List PortKind) (s : State) : State :=
  mapLists (fun l xs => if ks.contains (s.portOf l) then xs.filter fun e => e.pos ≠ p else xs) s

/-- CANCEL as it is served (R69). -/
def serveCancel (p : Position) (f : Frame) (s : State) : State :=
  match kindsOf f.payload with
  | none => answer p f .badRequest s
  | some ks => answer p f .ok (cancelKinds p ks s)

/-- CANCEL (R69). -/
def execCancel (p : Position) : State → Host.Outcome State Fault Refusal :=
  whilePowered (takeSimple p (isKind kindCancel) (serveCancel p))

/-! ## FOLLOW (R78) -/

/-- The port kinds and the setting of a FOLLOW, none where the payload is malformed (R78, R186). -/
def followOf : List Byte → Option (List PortKind × Bool)
  | [a, b] =>
    match portKindsOf a.toNat, flagOf b.toNat with
    | some ks, some on => some (ks, on)
    | _, _ => none
  | _ => none

/-- The frame is a FOLLOW with the given setting, or a malformed one (assumption 10). -/
def followFits (on : Bool) (f : Frame) : Bool :=
  f.kind = kindFollow && ((followOf f.payload).map (·.2) = some on || followOf f.payload = none)

/-- The follow state of the named kinds set: the flag as given, the follow due and the re-claim line cleared (R78). -/
def setFollow (p : Position) (ks : List PortKind) (on : Bool) (s : State) : State :=
  ks.foldl (fun s k => s.mapStanding p k fun x => { x with follow := on, due := false, reclaim := none }) s

/-- A kind's three bytes in the reply to a FOLLOW where no ring claim was made: NONE (R78, R185). -/
def followNone : List Byte := [0, noneByte, noneByte]

/-- A kind's three bytes for what its ring claim came to (R78, R185). -/
def RingOutcome.bytes : RingOutcome → List Byte
  | .assigned r => [1, byte r.val, noneByte]
  | .queued l n => [2, byte l.val, byte n]
  | .noRoute => [3, noneByte, noneByte]

/-- One kind of a FOLLOW set on: the ring claim, where one is needed, and the kind's bytes of the reply (R78). -/
def followKind (p : Position) (k : PortKind) (w : Work) : Work × List Byte :=
  match (w.s.freqOf p).band with
  | none => (w, followNone)
  | some b =>
    if w.s.claimNeeded p k b then
      let (w, out) := ringClaim p k b false w
      (w, out.bytes)
    else (w, followNone)

/-- A kind that the FOLLOW may not name: its bytes are then unused (R185; assumption 11). -/
def followPart (p : Position) (k : PortKind) (ks : List PortKind) (w : Work) : Work × List Byte :=
  if ks.contains k then followKind p k w else (w, [noneByte, noneByte, noneByte])

/-- FOLLOW with setting on, once it has passed its tests (R78): flags first, then the ring claims, MAIN before AUX. -/
def serveFollowSet (p : Position) (f : Frame) (ks : List PortKind) (s : State) : State :=
  let (w, m) := followPart p .main ks ((Work.start s).map (setFollow p ks true))
  let (w, a) := followPart p .aux ks w
  closeRequest s (reply p f.kind .ok (m ++ a)) w

/-- FOLLOW with setting on as it is served (R78). -/
def serveFollowOn (p : Position) (f : Frame) (s : State) : State :=
  match followOf f.payload with
  | none => answer p f .badRequest s
  | some (ks, _) =>
    if !s.isReady then answer p f .notReady s
    else if s.safe then answer p f .safe s
    else serveFollowSet p f ks s

/-- FOLLOW with setting on (R78). -/
def execFollowOn (p : Position) : State → Host.Outcome State Fault Refusal :=
  wholeStep (takeSimple p (followFits true) (serveFollowOn p))

/-- The six bytes of the reply to a FOLLOW with setting off: NONE for each named kind (R78). -/
def followOffBytes (ks : List PortKind) : List Byte :=
  [PortKind.main, PortKind.aux].flatMap fun k => if ks.contains k then followNone else [noneByte, noneByte, noneByte]

/-- FOLLOW with setting off as it is served (R78). -/
def serveFollowOff (p : Position) (f : Frame) (s : State) : State :=
  match followOf f.payload with
  | none => answer p f .badRequest s
  | some (ks, _) => reply p f.kind .ok (followOffBytes ks) (setFollow p ks false s)

/-- FOLLOW with setting off (R78). -/
def execFollowOff (p : Position) : State → Host.Outcome State Fault Refusal :=
  whilePowered (takeSimple p (followFits false) (serveFollowOff p))

/-! ## STEP (R88 to R90) -/

/-- The port kind of a STEP and whether it goes FORWARD, none where the payload is malformed (R88, R186). -/
def stepOf : List Byte → Option (PortKind × Bool)
  | [a, b] =>
    match portKindOf a.toNat, flagOf b.toNat with
    | some k, some back => some (k, !back)
    | _, _ => none
  | _ => none

/-- A position's current route of a kind (R89). -/
def State.currentRoute (s : State) (p : Position) (k : PortKind) : Option Route :=
  ((s.recordsOf p k).find? fun r => r.state ≠ .breaking).map fun r => r.reroute.getD r.route

/-- The entries of a ring that a walk visits, in the order it visits them (R89). -/
def walk (ring : List Route) (current : Option Route) (forward : Bool) : List Route :=
  let onward :=
    match current with
    | some r =>
      if ring.contains r then
        let i := ring.findIdx fun x => x = r
        ring.drop (i + 1) ++ ring.take i
      else ring
    | none => ring
  if forward then onward else onward.reverse

/-- An entry visited by a STEP qualifies (R90). -/
def State.stepQualifies (s : State) (p : Position) (k : PortKind) (r : Route) : Bool :=
  s.candidateEntry p k r && s.qualifies p r

/-- A STEP that found its route is carried out as a claim NOW and closed (R90). -/
def serveStepTo (p : Position) (f : Frame) (k : PortKind) (r : Route) (s : State) : State :=
  closeRequest s (reply p f.kind .ok [byte r.val]) (settleRing p k (claimRoute p r .now (Work.start s)).1)

/-- STEP as it is served (R88). -/
def serveStep (p : Position) (f : Frame) (s : State) : State :=
  match stepOf f.payload with
  | none => answer p f .badRequest s
  | some (k, forward) =>
    if !s.isReady then answer p f .notReady s
    else if s.safe then answer p f .safe s
    else match (s.freqOf p).band with
      | none => answer p f .emptyRing s
      | some b =>
        if (s.ringOf p b k).isEmpty then answer p f .emptyRing s
        else match (walk (s.ringOf p b k) (s.currentRoute p k) forward).find? (s.stepQualifies p k) with
          | none => answer p f .busy s
          | some r => serveStepTo p f k r s

/-- STEP (R88). -/
def execStep (p : Position) : State → Host.Outcome State Fault Refusal :=
  wholeStep (takeSimple p (isKind kindStep) (serveStep p))

end Sys2Proof.Machine
end

