-- ==== Sys2Proof/Machine/Port.lean ====
section
/-! DEFINITION. The Position Link Ports' own commands: POLL, QUERY, a request of unknown kind, and the events of the receiver, the
transmitter and the silence timer (chapter 9, R198). -/

namespace Sys2Proof.Machine

/-! ## POLL, QUERY, and a request of unknown kind -/

/-- POLL as it is served (R179). -/
def servePoll (p : Position) (f : Frame) (s : State) : State :=
  if f.payload = [] then reply p f.kind .ok [flag s.isReady, flag s.safe, flag s.locked] s
  else answer p f .badRequest s

/-- POLL (R179). -/
def execPoll (p : Position) : State → Host.Outcome State Fault Refusal :=
  whilePowered (takeSimple p (isKind kindPoll) (servePoll p))

/-- The data of a QUERY of a subject and an index, none for an index or a subject out of range (R180). -/
def State.queryData (s : State) (subject index : Nat) : Option (List Byte) :=
  match subject with
  | 0 => if index = 0 then some s.stationReply else none
  | 1 => (below 6 index).map s.positionReply
  | 2 => (below 16 index).map s.lineBytes
  | 3 => if index < s.policy.chainLength then some (s.boardBytes index) else none
  | _ => none

/-- QUERY as it is served: a QUERY of a position on its own port then clears its notice-lost flag (R180). -/
def serveQuery (p : Position) (f : Frame) (s : State) : State :=
  match f.payload with
  | [a, b] =>
    match s.queryData a.toNat b.toNat with
    | some d =>
      let t := replyParts p f.kind .ok d s
      if a.toNat = 1 && b.toNat = p.val then t.mapLink p fun x => { x with noticeLost := false } else t
    | none => refuseParts p f .badIndex s
  | _ => refuseParts p f .badRequest s

/-- QUERY (R180); the port reckons 4 frames for its reply (R177). -/
def execQuery (p : Position) : State → Host.Outcome State Fault Refusal :=
  whilePowered (takeRequest p (isKind kindQuery) (fun _ => Config.maxReplyFrames) (serveQuery p))

/-- The port's own answer to a valid frame of another kind (R177). -/
def serveUnknown (p : Position) (_f : Frame) (s : State) : State :=
  sendFrame p { kind := 0xFF, payload := [Code.badRequest.byte] } s

/-- UNKNOWN_REQUEST_KIND (R177). -/
def execUnknownRequestKind (p : Position) : State → Host.Outcome State Fault Refusal :=
  whilePowered (takeSimple p (fun f => !knownKind f.kind) (serveUnknown p))

/-! ## The frame receiver (R173, R176) -/

/-- The receiver is inside a frame: LENGTH, BODY or CHECK (R174). -/
def Receiver.inFrame : Receiver → Bool
  | .length => true
  | .body _ _ => true
  | .check _ _ => true
  | _ => false

/-- A length from 1 to 33 (R173). -/
def lengthOk (c : Byte) : Bool := 1 ≤ c.toNat && c.toNat ≤ 33

/-- The 8-bit sum of L, the stored characters and the check character (R173). -/
def frameSum (len : Nat) (stored : List Byte) (c : Byte) : Byte := stored.foldl (· + ·) (byte len) + c

/-- What a good character does to the receiver (R173, R176). -/
inductive Reception where
  /-- the receiver goes to a state and nothing else happens -/
  | goes (r : Receiver)
  /-- a start byte with both slots full -/
  | skips
  /-- the check character of a valid frame -/
  | arrives (f : Frame)
  /-- a frame error of subkind LENGTH or CHECK -/
  | fails (x : FrameSubkind)
  deriving DecidableEq, Repr

/-- The frame of the stored characters: kind, then payload (R173). -/
def frameOf : List Byte → Frame
  | k :: payload => { kind := k, payload := payload }
  | [] => { kind := 0, payload := [] }

/-- The receiver takes a good character (R173, R176). -/
def Link.receive (x : Link) (c : Byte) : Reception :=
  match x.receiver with
  | .hunting => if c = 0xC3 then (if x.hold then .skips else .goes .length) else .goes .hunting
  | .length => if lengthOk c then .goes (.body c.toNat []) else .fails .length
  | .body len stored =>
    let stored := stored ++ [c]
    .goes (if stored.length = len then .check len stored else .body len stored)
  | .check len stored => if frameSum len stored c = 0 then .arrives (frameOf stored) else .fails .check
  | .skipping none => .goes (if lengthOk c then .skipping (some (c.toNat + 1)) else .hunting)
  | .skipping (some n) => .goes (if n ≤ 1 then .hunting else .skipping (some (n - 1)))

/-! ## The line: bits and samples (R171, R172) -/

/-- A character on the line, as the levels of its ten bit times (true is high): a low start bit, the eight data bits least significant
first, no parity, and a high stop bit (R171, R172). -/
def characterLevels (c : Byte) : List Bool := [false] ++ (List.range 8).map c.getLsbD ++ [true]

/-- A frame on the line: its characters back to back, with no idle time between them (R172). -/
def Frame.levels (f : Frame) : List Bool := f.characters.flatMap characterLevels

/-- The level of TXD_n: high while no frame is being sent (R189). While one is, the line goes through the frame's levels, and which of
them it shows at a moment is timing (assumptions 17 and 20). -/
def Link.txd (x : Link) : Option Bool := if x.sending && !x.queue.isEmpty then none else some true

/-- What a receiver makes of the line: a good character, or a framing error (R172). -/
inductive LineEvent where
  | good (c : Byte)
  | framing
  deriving DecidableEq, Repr

/-- A port's sampler, which takes one level at each sixteenth of a bit time (R172). -/
inductive Sampler where
  /-- watching for a falling edge; the level of the last sample -/
  | watching (high : Bool)
  /-- a falling edge has been seen; the samples counted since, the one that showed it among them (assumption 20) -/
  | confirming (n : Nat)
  /-- a start bit is confirmed; the samples since the last reading, and the data bits read so far -/
  | reading (n : Nat) (bits : List Bool)
  /-- a framing error has been met, and the line has not gone high since -/
  | waitingHigh
  deriving DecidableEq, Repr

/-- The byte of eight data bits, least significant first (R171). -/
def bitsByte (bits : List Bool) : Byte := byte (bits.foldr (fun b n => 2 * n + if b then 1 else 0) 0)

/-- The sampler after one more sample, and what it has then received (R172). -/
def Sampler.sample (high : Bool) : Sampler → Sampler × Option LineEvent
  | .watching before => if before && !high then (.confirming 1, none) else (.watching high, none)
  | .confirming n =>
    if n + 1 < Config.confirmSamples then (.confirming (n + 1), none)
    else if high then (.watching high, none)
    else (.reading 0 [], none)
  | .reading n bits =>
    if n + 1 < Config.bitSamples then (.reading (n + 1) bits, none)
    else if bits.length < 8 then (.reading 0 (bits ++ [high]), none)
    else if high then (.watching high, some (.good (bitsByte bits)))
    else (.waitingHigh, some .framing)
  | .waitingHigh => if high then (.watching high, none) else (.waitingHigh, none)

/-- What a run of samples comes to, in order (R172). -/
def Sampler.receive : Sampler → List Bool → List LineEvent
  | _, [] => []
  | x, high :: rest => (x.sample high).2.toList ++ (x.sample high).1.receive rest

/-- The samples of a run of levels: sixteen to each bit time (R172). -/
def samples (levels : List Bool) : List Bool := levels.flatMap (List.replicate Config.bitSamples)

/-- The command that an event of the line is, by what the port's receiver makes of it (R173, R176). -/
def State.lineCommand (s : State) (p : Position) : LineEvent → Instr
  | .framing => .frameError p .framing
  | .good c =>
    match (s.link p).receive c with
    | .goes _ => .goodCharacter p c
    | .skips => .skippingStart p
    | .arrives _ => .frameArrival p c
    | .fails _ => .frameError p (.character c)

/-! ## The receiver's commands (R173, R174, R176) -/

/-- A receiver goes to a state at the end of a character. The sampler has then read a stop bit, so no start bit is being confirmed
(R172), and a divisor that this lets in is applied (R198). After a framing error that is so while the line is still low: the wait for the
line to go high is no state of the receiver's five, and the model counts it to HUNTING (assumption 14). -/
def Link.moveTo (x : Link) (r : Receiver) : Link := { x with receiver := r }.reviseClear

/-- The receiver of position `p`'s port goes to HUNTING at a gap expiry, which may come while a start bit is being confirmed (R174); a
divisor that this lets in is applied (R198). -/
def Link.lapse (p : Position) (x : Link) : Link := { x with receiver := .hunting }.revise p

/-- A LINK_FRAME occurrence (R156, R174). -/
def linkFrame (p : Position) (x : FrameSubkind) : Occurrence :=
  { kind := .linkFrame, pos := some p, line := none, band := none, detail := .frame x }

/-- A frame ends in an error at a character: it is discarded and LINK_FRAME handed to the Fault Log (R174). After
FRAMING the receiver stands in HUNTING from this event on, and the line's going high is no event (assumption 14). -/
def endFrame (p : Position) (x : FrameSubkind) (s : State) : State :=
  raise (linkFrame p x) (s.mapLink p fun l => l.moveTo .hunting)

/-- GOOD_CHARACTER: a character that starts no skip, completes no frame and ends none in error (R173, R176). -/
def execGoodCharacter (p : Position) (c : Byte) : State → Host.Outcome State Fault Refusal :=
  whilePowered fun s =>
    match (s.link p).receive c with
    | .goes r => s.mapLink p fun x => x.moveTo r
    | _ => s

/-- SKIPPING_START: a start byte with both slots full (R176). -/
def execSkippingStart (p : Position) : State → Host.Outcome State Fault Refusal :=
  whilePowered fun s =>
    match (s.link p).receive 0xC3 with
    | .skips =>
      raise { kind := .linkOverrun, pos := some p, line := none, band := none, detail := .none }
        (s.mapLink p fun x => x.moveTo (.skipping none))
    | _ => s

/-- A frame error by a character or a framing error (R173, R174): in SKIPPING a framing error ends the skip, and in HUNTING it is
discarded. In each case the receiver is then in HUNTING, with the line still low (assumption 14). -/
def execFrameError (p : Position) (e : FrameFault) : State → Host.Outcome State Fault Refusal :=
  whilePowered fun s =>
    match e with
    | .character c =>
      match (s.link p).receive c with
      | .fails x => endFrame p x s
      | _ => s
    | .framing =>
      if (s.link p).receiver.inFrame then endFrame p .framing s else s.mapLink p fun x => x.moveTo .hunting

/-- GAP_EXPIRY: the gap timer runs out inside a frame, which ends in error GAP, or in SKIPPING (R174, R176). In HUNTING the gap timer
does not run, and its expiry, which the manual does not give there, leaves the state unchanged (assumption 2). -/
def execGapExpiry (p : Position) : State → Host.Outcome State Fault Refusal :=
  whilePowered fun s =>
    if (s.link p).receiver = .hunting then s
    else
      let t := s.mapLink p fun x => x.lapse p
      if (s.link p).receiver.inFrame then raise (linkFrame p .gap) t else t

/-- The port after a valid frame has gone into a free slot: the silence timer starts, and is stopped where HOLD_n is then asserted; the
position is PRESENT (R175, R183, R184). -/
def Link.arrive (x : Link) (f : Frame) (linkMs : Nat) : Link :=
  let x := { x with slots := x.slots ++ [f], present := true }
  { x.moveTo .hunting with silenceTimer := if x.hold then none else some linkMs }

/-- A position's return is handed on (R184). -/
def handReturn (p : Position) (s : State) : State :=
  { s with handed := s.handed ++ [.positionReturn .lineAllocator p, .positionReturn .transmitInterlock p] }

/-- FRAME_ARRIVAL: the check character of a valid frame, with a slot free (R173, R175, R184). -/
def execFrameArrival (p : Position) (c : Byte) : State → Host.Outcome State Fault Refusal :=
  whilePowered fun s =>
    match (s.link p).receive c with
    | .arrives f =>
      if (s.link p).hold then s
      else
        let t := s.mapLink p fun x => x.arrive f s.policy.linkMs
        if s.present p then t else handReturn p t
    | _ => s

/-! ## The transmitter (R181, R198) -/

/-- The bit rate of both directions of a port at a divisor D and E, 1,024,000 / (D + E/8), in bits per second and rounded to the
nearest (R171). -/
def bitRate (d : Nat × Nat) : Nat :=
  let eighths := 8 * d.1 + d.2
  (8192000 + eighths / 2) / eighths

/-- The head frame of position `p`'s port has been sent: it leaves the queue, a waiting divisor that may now be applied is applied, and
the next frame starts, at the new rate where one was (R181, R198). -/
def Link.frameSent (p : Position) (x : Link) : Link :=
  { x with queue := x.queue.drop 1, divisorWait := x.divisorWait - 1, sending := false }.revise p

/-- FRAME_SENT (R181). -/
def execFrameSent (p : Position) : State → Host.Outcome State Fault Refusal :=
  whilePowered fun s =>
    if (s.link p).sending && !(s.link p).queue.isEmpty then s.mapLink p fun x => x.frameSent p else s

/-- DIVISOR_CHANGE (R198): the first moment, where no other event of the port is that moment. Every other event of the port applies a
divisor that it finds ready, so what stood in the way was a start bit being confirmed, and it has proved a glitch: no start bit is
being confirmed any more (R172; assumptions 14 and 26). -/
def execDivisorChange (p : Position) : State → Host.Outcome State Fault Refusal :=
  whilePowered fun s => if (s.link p).divisorDue then s.mapLink p Link.reviseClear else s

/-! ## Silence (R183) -/

/-- A position's absence is handed to the three blocks (R183). -/
def handAbsence (p : Position) (s : State) : State :=
  { s with handed := s.handed ++ [.absence .bandDecoder p, .absence .lineAllocator p, .absence .transmitInterlock p] }

/-- LINK_SILENCE_EXPIRY (R183). -/
def execLinkSilenceExpiry (p : Position) : State → Host.Outcome State Fault Refusal :=
  whilePowered fun s =>
    if (s.link p).silenceTimer.isSome then
      handAbsence p <|
        raise { kind := .linkSilent, pos := some p, line := none, band := none, detail := .none } <|
          s.mapLink p fun x => { x with silenceTimer := none, slots := [], present := false }
    else s

/-- A waiter stays in the waiting set with reason ABSENT (R110; no arbiter runs for it, assumption 23). -/
def waitAbsent (p : Position) (s : State) : State :=
  if (s.txOf p).state = .waiting then s.mapTx p fun x => { x with reason := some .absent } else s

/-- The absence of a position, at the block that takes it (R35, R72, R110). -/
def takeAbsence (b : AbsenceTaker) (p : Position) (s : State) : State :=
  match b with
  | .bandDecoder => reportEvent (s.mapFreq p fun r => { r with stale := true, staleTimer := none })
  | .lineAllocator => allocAbsence p s
  | .transmitInterlock => revokeAndRun p .absent (waitAbsent p s)

/-- ABSENCE at a block (R35, R72, R110, R183). -/
def execAbsence (b : AbsenceTaker) (p : Position) : State → Host.Outcome State Fault Refusal :=
  wholeStep fun s => if s.isNext (.absence b p) then takeAbsence b p (dropHanded (.absence b p) s) else s

/-- The return of a position, at the block that takes it (R73, R110). -/
def takeReturn (b : ReturnTaker) (p : Position) (s : State) : State :=
  match b with
  | .lineAllocator => allocReturn p s
  | .transmitInterlock => arbiter s

/-- RETURN at a block (R73, R110, R184). -/
def execPositionReturn (b : ReturnTaker) (p : Position) : State → Host.Outcome State Fault Refusal :=
  whilePowered fun s =>
    if s.isNext (.positionReturn b p) then takeReturn b p (dropHanded (.positionReturn b p) s) else s

end Sys2Proof.Machine
end

