-- ==== Sys2Proof/Machine/RelayChain.lean ====
section
/-! DEFINITION. The Relay Chain Driver's commands: the verify timer, the ends of shifts and passes, completion, and mismatch
(chapter 7). -/

namespace Sys2Proof.Machine

/-- The operation in flight is of a kind and in a phase. -/
def State.inPhase (s : State) (k : OpKind) (ph : Phase) : Bool :=
  match s.chain.op with
  | some o => o.kind = k && o.phase = ph
  | none => false

/-- The purpose of the operation in flight. -/
def State.purpose (s : State) : Option Purpose := s.chain.op.map (·.purpose)

/-- An expiry of the verify timer starts a VERIFY: not with the content UNKNOWN, a CHANGE waiting, or held for entry (R144). -/
def State.mayVerify (s : State) : Bool :=
  s.chain.op.isNone && s.chain.content.isSome && s.chain.pending = s.chain.latched && !s.chain.heldForEntry && !s.safe

/-- VERIFY_TIMER_EXPIRY (R144). -/
def execVerifyTimerExpiry : State → Host.Outcome State Fault Refusal :=
  wholeStep fun s =>
    if s.chain.verifyTimer.isSome then
      let t := s.mapChain fun c => { c with verifyTimer := none }
      if t.mayVerify then startVerify .ordinary t else t
    else s

/-- CHANGE_SHIFT_END: all bits have been shifted, the latch is pulsed, and the settle interval starts (R142). -/
def execChangeShiftEnd : State → Host.Outcome State Fault Refusal :=
  whilePowered fun s =>
    if s.inPhase .change .shifting && !s.safe then
      s.mapChain fun c =>
        { c with
          content := c.op.map (·.image)
          op := c.op.map fun o => { o with phase := .settling }
          settleTimer := some s.policy.settleMs }
    else s

/-- The driver's own part of a completion, up to the filter records (R142, steps 1 to 3). -/
def latchChange (s : State) : State :=
  refreshFilters <| endOperation s.chain.content <| s.mapChain fun c =>
    { c with
      latched := (c.op.map (·.image)).getD c.latched
      refreshDue := false
      restartHold := c.restartHold && s.purpose ≠ some .restart }

/-- The START-UP CHANGE is followed by the START-UP VERIFY, or in safe state by the end of the sequence (R152). -/
def afterStartUp (s : State) : State := if s.safe then endStartUp s else startVerify .startUp s

/-- What a completion's purpose calls for after the blocks have taken it (R142, steps 6 to 8, and R152). -/
def afterChange (why : Option Purpose) (s : State) : State :=
  match why with
  | some .restart => filterMoveAll (closeAttempt (restartChainEvent s))
  | some .startUp => afterStartUp (closeAttempt s)
  | _ => closeAttempt s

/-- CHANGE_COMPLETION (R142). -/
def execChangeCompletion : State → Host.Outcome State Fault Refusal :=
  wholeStep fun s =>
    if s.inPhase .change .settling && s.chain.settleTimer.isSome then
      afterChange s.purpose (arbiter (allocCompletion (latchChange s)))
    else s

/-- VERIFY_END (R144, R152). -/
def execVerifyEnd : State → Host.Outcome State Fault Refusal :=
  wholeStep fun s =>
    if s.inPhase .verify .shifting then
      let t := closeAttempt (endWithoutLatch (endOperation (some s.chain.latched) s))
      if s.purpose = some .startUp then endStartUp t else t
    else s

/-- RESYNC_FILL_END (R145). -/
def execResyncFillEnd : State → Host.Outcome State Fault Refusal :=
  whilePowered fun s =>
    if s.inPhase .resync .filling then
      s.mapChain fun c => { c with content := some c.latched, op := c.op.map fun o => { o with phase := .checking } }
    else s

/-- The attempt goes on at a RETRY's pass: a CHANGE's repeat is due, and any other attempt is closed, which ends a start-up sequence
that waited on it (R147, R152). -/
def afterRetry (s : State) : State :=
  if (s.chain.attempt.map (·.kind)) = some .change then
    s.mapChain fun c => { c with attempt := c.attempt.map fun x => { x with repeatDue := true } }
  else endStartUp (closeAttempt s)

/-- The exit request is cleared and its result handed to the Fault Log (R145, R148). -/
def endExit (passed : Bool) (s : State) : State :=
  drainExit (raiseExit passed (s.mapChain fun c => { c with exitRequest := false }))

/-- What a RESYNC's pass calls for by its purpose (R145). -/
def afterResync (why : Option Purpose) (s : State) : State :=
  match why with
  | some .retry => afterRetry s
  | some .exit => endExit true s
  | _ => closeAttempt s

/-- RESYNC_PASS (R145). -/
def execResyncPass : State → Host.Outcome State Fault Refusal :=
  wholeStep fun s =>
    if s.inPhase .resync .checking then
      afterResync s.purpose (endWithoutLatch (endOperation (some s.chain.latched) s))
    else s

/-- The CHAIN_MISMATCH occurrence (R146, R156). -/
def chainMismatch (bit : Nat) (k : OpKind) (second : Bool) : Occurrence :=
  { kind := .chainMismatch, pos := none, line := none, band := none, detail := .chain bit k second }

/-- A mismatch that safe-state entry is to answer: held for entry, or in safe state already the attempt is closed (R147); a start-up
sequence ends with the result FAILED (R152). That the driver stays held where the severity has been lowered before the Fault Log takes
the occurrence, so that no entry comes, is the model's choice (assumption 27). -/
def escalate (s : State) : State :=
  endStartUp (if s.safe then closeAttempt s else s.mapChain fun c => { c with heldForEntry := true })

/-- A first mismatch outside EXIT opens an attempt of the operation's kind, and goes on by the severity configured when the
mismatch is taken (R147; assumption 27). -/
def firstMismatch (k : OpKind) (s : State) : State :=
  let t := s.mapChain fun c => { c with attempt := some { kind := k, repeatDue := false } }
  if (s.faultConfig .chainMismatch).severity = .fatal then escalate t
  else if s.safe then closeAttempt t
  else startResync .retry t

/-- A mismatch of the operation `o`, once the operation has stopped (R146 to R148). -/
def afterMismatch (o : Operation) (second : Bool) (s : State) : State :=
  if o.purpose = .exit then endExit false s
  else if second then escalate s
  else firstMismatch o.kind s

/-- A mismatch of the operation `o` at chain bit `bit` (R146). -/
def takeMismatch (o : Operation) (bit : Nat) (s : State) : State :=
  let second := o.purpose ≠ .exit && s.chain.attempt.isSome
  afterMismatch o second <| endWithoutLatch <| raise (chainMismatch bit o.kind second) <| endOperation none s

/-- MISMATCH: a returning bit of a compared shift differs (R146). -/
def execMismatch (bit : Nat) : State → Host.Outcome State Fault Refusal :=
  wholeStep fun s =>
    match s.chain.op with
    | some o =>
      if o.compares && s.chain.content.isSome && bit < 8 * o.length then takeMismatch o bit s else s
    | none => s

end Sys2Proof.Machine
end

