-- ==== Sys2Proof/Machine/Station.lean ====
section
/-! DEFINITION. The commands of the store and of the fault log: SAVE, FAULT_READ, FAULT_CLEAR, RESTART, the LOCK and RESTART_N pins, the
end of a save, an occurrence, and power (chapters 1, 8 and 10). -/

namespace Sys2Proof.Machine

/-! ## SAVE (R191, R192) -/

/-- The store after an accepted SAVE: the snapshot, the requester, and the image bad until the write has ended well (R191,
R192). -/
def Store.save (x : Store) (t : Table) (p : Position) : Store :=
  { x with saving := true, snapshot := some t, requester := some p, nv := x.nv.unfinished }

/-- SAVE as it is served (R191). -/
def serveSave (p : Position) (f : Frame) (s : State) : State :=
  if f.payload ≠ [] then answer p f .badRequest s
  else if !s.isReady then answer p f .notReady s
  else if s.locked then answer p f .locked s
  else if s.store.saving then answer p f .busy s
  else answer p f .ok (s.mapStore fun x => x.save s.table p)

/-- SAVE (R191). -/
def execSave (p : Position) : State → Host.Outcome State Fault Refusal :=
  whilePowered (takeSimple p (isKind kindSave) (serveSave p))

/-- The store when a save's write has ended (R192). -/
def Store.saveEnd (x : Store) (r : SaveResult) : Store :=
  { x with
    saving := false
    snapshot := none
    requester := none
    nv := match r, x.snapshot with
      | .ok, some t => x.nv.saved t
      | _, _ => x.nv }

/-- STORE_FAULT of a failed save (R192, R156). -/
def raiseSaveFault (r : SaveResult) (who : Option Position) (s : State) : State :=
  match r with
  | .ok => s
  | .failed => raise { kind := .storeFault, pos := who, line := none, band := none, detail := .store .write } s

/-- SAVE_DONE to the requester (R192). -/
def noticeSaved (r : SaveResult) (who : Option Position) (s : State) : State :=
  match who with
  | some p => notify p (.saveDone r) s
  | none => s

/-- SAVE_WRITE_END (R192). -/
def execSaveWriteEnd (r : SaveResult) : State → Host.Outcome State Fault Refusal :=
  whilePowered fun s =>
    if s.store.saving then
      noticeSaved r s.store.requester (raiseSaveFault r s.store.requester (s.mapStore fun x => x.saveEnd r))
    else s

/-! ## FAULT_READ and FAULT_CLEAR (R165, R166) -/

/-- The frames that the reply to a FAULT_READ takes: two, or one where it is refused (R178). -/
def faultReadFrames (f : Frame) : Nat := if f.payload = [] then 2 else 1

/-- FAULT_READ as it is served (R165). -/
def serveFaultRead (p : Position) (f : Frame) (s : State) : State :=
  if f.payload = [] then replyParts p f.kind .ok s.log.bytes s else refuseParts p f .badRequest s

/-- FAULT_READ (R165). -/
def execFaultRead (p : Position) : State → Host.Outcome State Fault Refusal :=
  whilePowered (takeRequest p (isKind kindFaultRead) faultReadFrames (serveFaultRead p))

/-- Some position's debounced RF sense is on (R166). -/
def State.anyRf (s : State) : Bool := allPositions.any fun p => (s.txOf p).rf

/-- The log cleared: first records, next-kind sets, counters, and both alarm lines (R166). -/
def FaultLog.clear (l : FaultLog) : FaultLog :=
  { l with firstSerious := none, firstMinor := none, nextSerious := 0, nextMinor := 0, counters := Vector.replicate 11 0,
           alarmA := false, alarmB := false }

/-- In safe state an accepted FAULT_CLEAR asks for the exit; a request is joined to one that is already pending (R151, R166). -/
def requestExit (s : State) : State :=
  if s.safe then
    (s.mapLog fun l => { l with exitPending := true, exitSpoiled := false }).mapChain fun c =>
      { c with exitRequest := c.exitRequest || !s.log.exitPending }
  else s

/-- FAULT_CLEAR as it is served (R166). -/
def serveFaultClear (p : Position) (f : Frame) (s : State) : State :=
  if f.payload ≠ [] then answer p f .badRequest s
  else if s.locked then answer p f .locked s
  else if s.safe && s.anyRf then answer p f .busy s
  else requestExit (answer p f .ok (s.mapLog FaultLog.clear))

/-- FAULT_CLEAR (R166). -/
def execFaultClear (p : Position) : State → Host.Outcome State Fault Refusal :=
  wholeStep (takeSimple p (isKind kindFaultClear) (serveFaultClear p))

/-- OCCURRENCE: the Fault Log takes what was handed to it first (R156), and then the exit results that no occurrence stands
before. -/
def execOccurrence : State → Host.Outcome State Fault Refusal :=
  wholeStep fun s =>
    match s.inbox with
    | .occurred o :: rest => drainExit (takeOccurrence o { s with inbox := rest })
    | _ => s

/-! ## LOCK (R24) -/

/-- LOCK_LEVEL_CHANGE (R24); a level that has not changed is no event. -/
def execLockLevelChange (on : Bool) (s : State) : Host.Outcome State Fault Refusal :=
  .next <|
    if s.store.lockRaw = on then s
    else s.mapStore fun x =>
      { x with lockRaw := on, lockTimer := if s.powered then debounce on x.lock s.policy else none }

/-- LOCK_DEBOUNCE_EXPIRY (R24). -/
def execLockDebounceExpiry : State → Host.Outcome State Fault Refusal :=
  whilePowered fun s =>
    if s.store.lockTimer.isSome then s.mapStore fun x => { x with lock := x.lockRaw, lockTimer := none } else s

/-! ## RESTART (R196) -/

/-- RESTART as a request, as it is served (R196). -/
def serveRestart (p : Position) (f : Frame) (s : State) : State :=
  if f.payload ≠ [] then answer p f .badRequest s
  else if !s.isReady then answer p f .notReady s
  else if s.locked then answer p f .locked s
  else restart (answer p f .ok) s

/-- RESTART as a request (R196). -/
def execRestartRequest (p : Position) : State → Host.Outcome State Fault Refusal :=
  wholeStep (takeSimple p (isKind kindRestart) (serveRestart p))

/-- RESTART_N is watched: from the start-up chain event on (R196). -/
def State.watchesPin (s : State) : Bool := s.powered && s.store.ready ≠ .starting

/-- RESTART_N_LEVEL_CHANGE (R196, R24); a level that has not changed is no event. -/
def execRestartNLevelChange (on : Bool) (s : State) : Host.Outcome State Fault Refusal :=
  .next <|
    if s.store.restartRaw = on then s
    else s.mapStore fun x =>
      { x with restartRaw := on, restartTimer := if s.watchesPin then debounce on x.restart s.policy else none }

/-- RESTART_PIN: the debounce confirms RESTART_N asserted (R196). -/
def execRestartPin : State → Host.Outcome State Fault Refusal :=
  wholeStep fun s =>
    if s.watchesPin && s.store.restartTimer.isSome && s.store.restartRaw && !s.store.restart then
      restart id (s.mapStore fun x => { x with restart := true, restartTimer := none })
    else s

/-- RESTART_N_DEBOUNCED_RELEASE: the debounce confirms RESTART_N released (R196). -/
def execRestartNDebouncedRelease : State → Host.Outcome State Fault Refusal :=
  whilePowered fun s =>
    if s.watchesPin && s.store.restartTimer.isSome && !s.store.restartRaw && s.store.restart then
      s.mapStore fun x => { x with restart := false, restartTimer := none }
    else s

/-! ## Power (R193, R192) -/

/-- The transmit records at power-on: the raw levels that stand at the pins, and a debounce timer where one is asserted (R118). -/
def txAtPowerOn (q : Policy) (v : Vector TxRecord 6) : Vector TxRecord 6 :=
  mapFin (fun _ x =>
    { clearTx with pttRaw := x.pttRaw, rfRaw := x.rfRaw, pttTimer := debounce x.pttRaw false q,
                   rfTimer := debounce x.rfRaw false q }) v

/-- The table that power-on loads (R193, R25). -/
def loadedTable (x : NvImage) : Table := if x.good then x.table.withBandSets else factoryTable

/-- Every block at its power-on values, with a loaded table (R193): the debounces of LOCK, PTT and RF sense start, and the ports take
the loaded divisors. The count of R198's questions goes on (assumption 26). -/
def powerOnState (t : Table) (s : State) : State :=
  { pending := s.pending
    powered := true
    table := t
    store := { clearStore with nv := s.store.nv, lockRaw := s.store.lockRaw, lockTimer := some t.policy.debMs,
                               restartRaw := s.store.restartRaw }
    freq := Vector.replicate 6 clearFreq
    alloc := clearAllocator
    tx := txAtPowerOn t.policy s.tx
    waiting := []
    advisory := []
    chain := clearChain
    log := clearLog
    inbox := []
    handed := []
    links := mapFin (fun q x => { clearLink (x.divisor, x.eighths) with looks := (s.link q).looks }) t.settings }

/-- STORE_FAULT of a bad image at load (R193, R156). -/
def raiseLoadFault (good : Bool) (s : State) : State :=
  if good then s
  else raise { kind := .storeFault, pos := none, line := none, band := none, detail := .store .load } s

/-- POWER_ON (R193): the load event, which ends with the start of the START-UP CHANGE (R152). -/
def execPowerOn (s : State) : Host.Outcome State Fault Refusal :=
  .next <|
    if s.powered then s
    else startChange .startUp (raiseLoadFault s.store.nv.good (powerOnState (loadedTable s.store.nv) s))

/-- The transmit records of an unpowered part: the raw levels alone. -/
def txAtPowerLoss (v : Vector TxRecord 6) : Vector TxRecord 6 :=
  mapFin (fun _ x => { clearTx with pttRaw := x.pttRaw, rfRaw := x.rfRaw }) v

/-- The ports of an unpowered part; the count of R198's questions goes on, so that no answer is given twice (assumption 26). -/
def linksAtPowerLoss (v : Vector Link 6) : Vector Link 6 := mapFin (fun _ x => { clearLink (26, 5) with looks := x.looks }) v

/-- The part without power: the reset values, with the nonvolatile image, the levels at the pins, and the commands that wait. -/
def unpowered (s : State) : State :=
  { State.reset with
    pending := s.pending
    tx := txAtPowerLoss s.tx
    links := linksAtPowerLoss s.links
    store := { clearStore with nv := s.store.nv, lockRaw := s.store.lockRaw, restartRaw := s.store.restartRaw } }

/-- POWER_LOSS (R192): the working state is lost and the nonvolatile image kept, which a save in progress leaves bad. -/
def execPowerLoss : State → Host.Outcome State Fault Refusal := whilePowered unpowered

end Sys2Proof.Machine
end

