-- ==== Sys2Proof/Machine/Tables.lean ====
section
/-! DEFINITION. TABLE_READ and the eight rows of TABLE_WRITE (chapter 1). -/

namespace Sys2Proof.Machine

/-! ## TABLE_READ (R4, R186) -/

/-- The number of index bytes a subject's requests carry, none for a byte that names no subject (R186). -/
def indexBytes : Nat → Option Nat
  | 0 => some 1 | 1 => some 1 | 2 => some 1 | 3 => some 1 | 4 => some 3 | 5 => some 0 | 6 => some 1 | 7 => some 1
  | _ => none

/-- The ring that three index bytes name. -/
def ringAt (bs : List Byte) : Option (Position × Band × PortKind) := do
  let p ← below 6 (byteAt bs 0)
  let b ← below 12 (byteAt bs 1)
  let k ← portKindOf (byteAt bs 2)
  pure (p, b, k)

/-- The bytes of an entry, none for an index outside the subject's range (R4). -/
def Table.entryBytes (t : Table) (subject : Nat) (bs : List Byte) : Option (List Byte) :=
  match subject with
  | 0 => (below 12 (byteAt bs 0)).map fun i => (t.bands.get i).bytes
  | 1 => (below 16 (byteAt bs 0)).map fun i => (t.lines.get i).bytes
  | 2 => (below 32 (byteAt bs 0)).map fun i => (t.elements.get i).bytes
  | 3 => (below 48 (byteAt bs 0)).map fun i => (t.routes.get i).bytes
  | 4 => (ringAt bs).map fun x => ringBytes (t.rings.get (ringIndex x.1 x.2.1 x.2.2))
  | 5 => some t.policy.bytes
  | 6 => (below 6 (byteAt bs 0)).map fun i => (t.settings.get i).bytes
  | 7 => (faultKindOf (byteAt bs 0)).map fun k => (t.faults.get k.index).bytes
  | _ => none

/-- TABLE_READ as it is served (R4); a payload with no subject byte names no subject (assumption 10). -/
def serveTableRead (p : Position) (f : Frame) (s : State) : State :=
  match f.payload with
  | [] => answer p f .badIndex s
  | b :: bs =>
    match indexBytes b.toNat with
    | none => answer p f .badIndex s
    | some n =>
      if bs.length ≠ n then answer p f .badRequest s
      else match s.table.entryBytes b.toNat bs with
        | none => answer p f .badIndex s
        | some d => reply p f.kind .ok d s

/-- TABLE_READ (R4). -/
def execTableRead (p : Position) : State → Host.Outcome State Fault Refusal :=
  whilePowered (takeSimple p (isKind kindTableRead) (serveTableRead p))

/-! ## The tests of TABLE_WRITE (R2) -/

/-- The frame is a TABLE_WRITE of a subject, or one that names no subject, which any write's row may take (assumption 10). -/
def writeFits (subject : Nat) (f : Frame) : Bool :=
  f.kind = kindTableWrite &&
    match f.payload with
    | [] => true
    | b :: _ => b.toNat = subject || 8 ≤ b.toNat

/-- A TABLE_WRITE as it is served: the tests of R2 up to the fourth, then the subject's own. `size` is the test of the payload's
length on the bytes after the subject. -/
def serveWrite (size : List Byte → Bool) (accept : Position → Frame → List Byte → State → State) (p : Position) (f : Frame)
    (s : State) : State :=
  match f.payload with
  | [] => answer p f .badIndex s
  | b :: bs =>
    if 8 ≤ b.toNat then answer p f .badIndex s
    else if !size bs then answer p f .badRequest s
    else if s.locked then answer p f .locked s
    else if s.store.saving then answer p f .busy s
    else accept p f bs s

/-- The length of the bytes after the subject is `n` (R186). -/
def hasLength (n : Nat) (bs : List Byte) : Bool := bs.length = n

/-! ## The relay bits in use (R18) -/

/-- The relays in use by the crosspoints of enabled lines. -/
def Table.lineBits (t : Table) : Image :=
  (List.finRange 16).foldl
    (fun im l =>
      if (t.lines.get l).enabled then allPositions.foldl (fun im p => im ||| bitImage (crosspointBit p l)) im else im) 0

/-- The relays in use by the selects of enabled elements. -/
def Table.elementBits (t : Table) : Image :=
  t.elements.toList.foldl (fun im e => if e.enabled then im ||| bitImage (selectBit e.line e.select) else im) 0

/-- The relays in use by the filters of enabled bands. -/
def Table.bandBits (t : Table) : Image :=
  t.bands.toList.foldl
    (fun im e => if e.enabled then allPositions.foldl (fun im p => im ||| bitImage (filterBit p e.filter)) im else im) 0

/-- The relays closed in the driver's images (R18). -/
def Chain.closedBits (c : Chain) : Image :=
  c.latched ||| c.pending |||
    match c.op with
    | some o => o.image
    | none => 0

/-- Every relay bit in use lies below 8 times the chain length (R18). -/
def State.fits (s : State) (t : Table) : Bool :=
  (t.lineBits ||| t.elementBits ||| t.bandBits ||| s.chain.closedBits) >>> (8 * t.policy.chainLength) = 0

/-! ## BAND_WRITE (R5, R6, R7) -/

/-- Two ranges share a value (R6). -/
def overlap (a b : BandEntry) : Bool := a.lower ≤ b.upper && b.lower ≤ a.upper

/-- The fields of a band entry are within their sets (R5). -/
def BandEntry.valid (e : BandEntry) : Bool :=
  e.lower ≤ Config.maxEdge && e.upper ≤ Config.maxEdge && e.lower ≤ e.upper && labelOk e.label

/-- An enabled band entry shares no value with another enabled entry (R6). -/
def Table.bandClear (t : Table) (i : Band) (e : BandEntry) : Bool :=
  !e.enabled || (List.finRange 12).all fun j => j = i || !(t.bands.get j).enabled || !overlap e (t.bands.get j)

/-- The table with a band entry replaced. -/
def Table.setBand (t : Table) (i : Band) (e : BandEntry) : Table := { t with bands := put t.bands i e }

/-- A band write from the index test on (R2, R5 to R7). -/
def acceptBand (p : Position) (f : Frame) (bs : List Byte) (s : State) : State :=
  match below 12 (byteAt bs 0) with
  | none => answer p f .badIndex s
  | some i =>
    match bandOf (bs.drop 1) with
    | none => answer p f .invalid s
    | some e =>
      if !(e.valid && s.table.bandClear i e && s.fits (s.table.setBand i e)) then answer p f .invalid s
      else if s.anyOnAir then answer p f .busy s
      else redecode s (answer p f .ok (s.mapTable fun t => t.setBand i e))

/-- BAND_WRITE (R5). -/
def execBandWrite (p : Position) : State → Host.Outcome State Fault Refusal :=
  wholeStep (takeSimple p (writeFits 0) (serveWrite (hasLength 15) acceptBand p))

/-! ## FEED_LINE_WRITE (R8, R10) -/

/-- The splitter ports fit the kind (R8). -/
def LineEntry.valid (e : LineEntry) : Bool :=
  match e.kind with
  | .main => e.ports = 1
  | .rx => 1 ≤ e.ports && e.ports ≤ 4

/-- A disabled line has no enabled element (R8). -/
def Table.lineClear (t : Table) (l : Line) (e : LineEntry) : Bool :=
  e.enabled || t.elements.toList.all fun x => !(x.enabled && x.line = l)

/-- The table with a feed line entry replaced. -/
def Table.setLine (t : Table) (l : Line) (e : LineEntry) : Table := { t with lines := put t.lines l e }

/-- A feed line write from the index test on (R2, R8, R10). -/
def acceptLine (p : Position) (f : Frame) (bs : List Byte) (s : State) : State :=
  match below 16 (byteAt bs 0) with
  | none => answer p f .badIndex s
  | some l =>
    match lineEntryOf (bs.drop 1) with
    | none => answer p f .invalid s
    | some e =>
      if !(e.valid && s.table.lineClear l e && s.fits (s.table.setLine l e)) then answer p f .invalid s
      else if s.lineInUse l then answer p f .busy s
      else answer p f .ok (s.mapTable fun t => t.setLine l e)

/-- FEED_LINE_WRITE (R8). -/
def execFeedLineWrite (p : Position) : State → Host.Outcome State Fault Refusal :=
  whilePowered (takeSimple p (writeFits 1) (serveWrite (hasLength 5) acceptLine p))

/-! ## ELEMENT_WRITE (R11, R12, R14) -/

/-- The routes that list an element stay consistent with it (R11). -/
def Table.routesFit (t : Table) (x : Element) (e : ElementEntry) : Bool :=
  t.routes.toList.all fun r =>
    !r.elements.contains x ||
      (r.line = e.line && r.elements.all fun y => y = x || (t.elements.get y).select ≠ e.select)

/-- An enabled element's line is enabled, and no other enabled element has its select relay (R11). -/
def Table.elementClear (t : Table) (x : Element) (e : ElementEntry) : Bool :=
  !e.enabled ||
    ((t.lines.get e.line).enabled &&
      (List.finRange 32).all fun y =>
        let o := t.elements.get y
        y = x || !o.enabled || o.line ≠ e.line || o.select ≠ e.select)

/-- The table with an element entry replaced and the band sets of the routes that list it computed again (R12, R14). -/
def Table.setElement (t : Table) (x : Element) (e : ElementEntry) : Table :=
  let es := put t.elements x e
  { t with
    elements := es
    routes := mapFin (fun _ r => if r.elements.contains x then { r with bands := bandSetOf es r.elements } else r) t.routes }

/-- An element write from the index test on (R2, R11, R12). -/
def acceptElement (p : Position) (f : Frame) (bs : List Byte) (s : State) : State :=
  match below 32 (byteAt bs 0) with
  | none => answer p f .badIndex s
  | some x =>
    match elementOf (bs.drop 1) with
    | none => answer p f .invalid s
    | some e =>
      if !(e.bands >>> 12 = 0 && s.table.elementClear x e && s.table.routesFit x e && s.fits (s.table.setElement x e)) then
        answer p f .invalid s
      else if s.lineInUse (s.table.elements.get x).line || s.lineInUse e.line then answer p f .busy s
      else answer p f .ok (s.mapTable fun t => t.setElement x e)

/-- ELEMENT_WRITE (R11). -/
def execElementWrite (p : Position) : State → Host.Outcome State Fault Refusal :=
  whilePowered (takeSimple p (writeFits 2) (serveWrite (hasLength 6) acceptElement p))

/-! ## ROUTE_WRITE (R13, R14, R15) -/

/-- A route entry is consistent with the elements it lists (R13). -/
def Table.routeValid (t : Table) (e : RouteEntry) : Bool :=
  !e.elements.isEmpty && distinct e.elements && (e.elements.all fun x => (t.elements.get x).line = e.line) &&
    distinct (e.elements.map fun x => (t.elements.get x).select) && labelOk e.label

/-- The table with a route entry replaced, its band set computed (R14). -/
def Table.setRoute (t : Table) (r : Route) (e : RouteEntry) : Table :=
  { t with routes := put t.routes r { e with bands := bandSetOf t.elements e.elements } }

/-- A holder record or a wait entry names a route (R15). -/
def State.routeNamed (s : State) (r : Route) : Bool :=
  (s.alloc.records.any fun h => h.route = r || h.reroute = some r) ||
    s.alloc.lists.toList.any fun xs => xs.any fun e => e.route = r

/-- A route write from the index test on (R2, R13, R15). -/
def acceptRoute (p : Position) (f : Frame) (bs : List Byte) (s : State) : State :=
  match below 48 (byteAt bs 0) with
  | none => answer p f .badIndex s
  | some r =>
    match routeEntryOf (bs.drop 1) with
    | none => answer p f .invalid s
    | some e =>
      if !(s.table.routeValid e && s.fits (s.table.setRoute r e)) then answer p f .invalid s
      else if s.lineInUse (s.routeOf r).line || s.lineInUse e.line || s.routeNamed r then answer p f .busy s
      else answer p f .ok (s.mapTable fun t => t.setRoute r e)

/-- ROUTE_WRITE (R13). -/
def execRouteWrite (p : Position) : State → Host.Outcome State Fault Refusal :=
  whilePowered (takeSimple p (writeFits 3) (serveWrite (hasLength 15) acceptRoute p))

/-! ## RING_WRITE (R16) -/

/-- The payload length that the route count calls for (R2, R186). -/
def ringSize (bs : List Byte) : Bool := 4 ≤ bs.length && bs.length = 4 + byteAt bs 3

/-- The routes of a ring suit its port kind and stand once each, at most 4 of them (R16). -/
def Table.ringValid (t : Table) (k : PortKind) (rs : List Route) : Bool :=
  rs.length ≤ 4 && distinct rs && rs.all fun r => (t.lines.get (t.routes.get r).line).kind.port = k

/-- The table with a ring replaced. -/
def Table.setRing (t : Table) (p : Position) (b : Band) (k : PortKind) (rs : List Route) : Table :=
  { t with rings := put t.rings (ringIndex p b k) rs }

/-- A ring write from the index test on (R2, R16). -/
def acceptRing (p : Position) (f : Frame) (bs : List Byte) (s : State) : State :=
  match ringAt bs with
  | none => answer p f .badIndex s
  | some (q, b, k) =>
    match routesOf (bs.drop 4) with
    | none => answer p f .invalid s
    | some rs =>
      if !s.table.ringValid k rs then answer p f .invalid s
      else answer p f .ok (s.mapTable fun t => t.setRing q b k rs)

/-- RING_WRITE (R16). -/
def execRingWrite (p : Position) : State → Host.Outcome State Fault Refusal :=
  whilePowered (takeSimple p (writeFits 4) (serveWrite ringSize acceptRing p))

/-! ## STATION_POLICY_WRITE (R19, R20, R21) -/

/-- The table with the station policy replaced. -/
def Table.setPolicy (t : Table) (q : Policy) : Table := { t with policy := q }

/-- The verify timer at a policy write (R21): stopped by a t_verify of 0; started by a change from 0, with no operation in flight and
outside safe state. -/
def verifyWritten (old new : Policy) (s : State) : State :=
  if new.tVerify = 0 then s.mapChain fun c => { c with verifyTimer := none }
  else if old.tVerify = 0 && s.chain.op.isNone && !s.safe then s.mapChain fun c => { c with verifyTimer := some new.verifyMs }
  else s

/-- A changed chain length marks the chain content UNKNOWN and sets the refresh due, at the end of an operation in flight (R21,
R149). -/
def lengthWritten (old new : Policy) (s : State) : State :=
  if old.chainLength = new.chainLength then s
  else s.mapChain fun c =>
    if c.op.isSome then { c with lengthDue := true } else { c with content := none, refreshDue := true }

/-- The reply code of a write that clamps: ADJUSTED where it clamped a field (R2). -/
def clampedCode (changed : Bool) : Code := if changed then .adjusted else .ok

/-- A station policy write from the field test on (R2, R19 to R21). -/
def acceptPolicy (p : Position) (f : Frame) (bs : List Byte) (s : State) : State :=
  match policyOf bs with
  | none => answer p f .invalid s
  | some q =>
    let new := q.clamped
    if !s.fits (s.table.setPolicy new) then answer p f .invalid s
    else if new.k < s.onAirCount then answer p f .busy s
    else
      let t := s.mapTable fun t => t.setPolicy new
      policyEvent (answer p f (clampedCode (q ≠ new)) (lengthWritten s.policy new (verifyWritten s.policy new t)))

/-- STATION_POLICY_WRITE (R19). -/
def execStationPolicyWrite (p : Position) : State → Host.Outcome State Fault Refusal :=
  wholeStep (takeSimple p (writeFits 5) (serveWrite (hasLength 14) acceptPolicy p))

/-! ## POSITION_SETTINGS_WRITE (R22, R198) -/

/-- The table with a position's settings replaced. -/
def Table.setSettings (t : Table) (q : Position) (x : Settings) : Table := { t with settings := put t.settings q x }

/-- Position `q`'s port takes a written divisor, which replaces one that waits, and is applied within the write where the port is idle:
the receiver in HUNTING with no start bit being confirmed, and the transmitter without a frame (R198). A write on the port itself waits
for the frames in the queue, its reply among them (R22); a write on another port leaves such a wait as it is, so that the earlier
write's reply still goes at the old rate (assumption 14). -/
def Link.writeDivisor (q : Position) (x : Link) (d : Nat × Nat) (own : Bool) : Link :=
  { x with waitingDivisor := some d
           divisorWait := if own then x.queue.length else min x.divisorWait x.queue.length }.revise q

/-- A position settings write from the index test on (R2, R22). -/
def acceptSettings (p : Position) (f : Frame) (bs : List Byte) (s : State) : State :=
  match below 6 (byteAt bs 0) with
  | none => answer p f .badIndex s
  | some q =>
    match settingsEntryOf (bs.drop 1) with
    | none => answer p f .invalid s
    | some x =>
      let new := x.clamped
      let t := answer p f (clampedCode (x ≠ new)) (s.mapTable fun t => t.setSettings q new)
      policyEvent (t.mapLink q fun l => l.writeDivisor q (new.divisor, new.eighths) (p = q))

/-- POSITION_SETTINGS_WRITE (R22). -/
def execPositionSettingsWrite (p : Position) : State → Host.Outcome State Fault Refusal :=
  whilePowered (takeSimple p (writeFits 6) (serveWrite (hasLength 6) acceptSettings p))

/-! ## FAULT_CONFIGURATION_WRITE (R23) -/

/-- The table with a fault kind's configuration replaced. -/
def Table.setFault (t : Table) (k : FaultKind) (c : FaultConfig) : Table := { t with faults := put t.faults k.index c }

/-- A fault configuration write from the index test on (R2, R23). -/
def acceptFault (p : Position) (f : Frame) (bs : List Byte) (s : State) : State :=
  match faultKindOf (byteAt bs 0) with
  | none => answer p f .badIndex s
  | some k =>
    match faultEntryOf (bs.drop 1) with
    | none => answer p f .invalid s
    | some c =>
      if !k.allows c.severity then answer p f .invalid s
      else answer p f .ok (s.mapTable fun t => t.setFault k c)

/-- FAULT_CONFIGURATION_WRITE (R23). -/
def execFaultConfigurationWrite (p : Position) : State → Host.Outcome State Fault Refusal :=
  whilePowered (takeSimple p (writeFits 7) (serveWrite (hasLength 5) acceptFault p))

end Sys2Proof.Machine
end

