-- ==== Sys2Proof/Machine/Transmit.lean ====
section
/-! DEFINITION. The Transmit Interlock's commands: the raw levels, the debounced PTT and RF-sense events, and the expiries of the hang
and tail timers (chapter 5). -/

namespace Sys2Proof.Machine

/-! ## Raw levels (R93) -/

/-- A change of a raw level at an input: its debounce timer is started or stopped while the part takes events (R93, R118). -/
def rawChange (powered on debounced : Bool) (q : Policy) : Timer := if powered then debounce on debounced q else none

/-- PTT_LEVEL_CHANGE (R93); a level that has not changed is no event. -/
def execPttLevelChange (p : Position) (on : Bool) (s : State) : Host.Outcome State Fault Refusal :=
  .next <|
    if (s.txOf p).pttRaw = on then s
    else s.mapTx p fun x => { x with pttRaw := on, pttTimer := rawChange s.powered on x.ptt s.policy }

/-- RF_SENSE_LEVEL_CHANGE (R93); a level that has not changed is no event. -/
def execRfSenseLevelChange (p : Position) (on : Bool) (s : State) : Host.Outcome State Fault Refusal :=
  .next <|
    if (s.txOf p).rfRaw = on then s
    else s.mapTx p fun x => { x with rfRaw := on, rfTimer := rawChange s.powered on x.rf s.policy }

/-! ## PTT (R95, R96) -/

/-- The line of a position's MAIN record in PENDING, MAKING or CONNECTED (R156). -/
def State.mainLine (s : State) (p : Position) : Option Line :=
  ((s.recordsOf p .main).find? fun r => r.state ≠ .breaking).map (·.line)

/-- OOB_PTT, where the position is out of band (R114, R156). -/
def raiseOobPtt (p : Position) (s : State) : State :=
  if (s.freqOf p).outOfBand then
    raise { kind := .oobPtt, pos := some p, line := s.mainLine p, band := (s.freqOf p).band, detail := .none } s
  else s

/-- A position in IDLE joins the tail of the waiting set (R95). -/
def joinWaiting (p : Position) (s : State) : State :=
  let t := s.mapTx p fun x => { x with state := .waiting, reason := none }
  { t with waiting := t.waiting ++ [p] }

/-- PTT_ON by the transmit state it finds (R95, R114). -/
def takePttOn (p : Position) (s : State) : State :=
  match (s.txOf p).state with
  | .idle => arbiter (raiseOobPtt p (joinWaiting p s))
  | .hang => raiseOobPtt p (s.mapTx p fun x => { x with state := .granted, hangTimer := none })
  | _ => s

/-- PTT_ON: the debounce confirms the key down (R93, R95). -/
def execPttOn (p : Position) : State → Host.Outcome State Fault Refusal :=
  whilePowered fun s =>
    let x := s.txOf p
    if x.pttTimer.isSome && x.pttRaw && !x.ptt then
      takePttOn p (s.mapTx p fun x => { x with ptt := true, pttTimer := none })
    else s

/-- Hang applies at a PTT_OFF (R96). -/
def State.hangApplies (s : State) (p : Position) : Bool := !(s.txOf p).skipHang && 0 < s.policy.tHang

/-- PTT_OFF by the transmit state it finds (R96). With hang skipped the leave event is evaluated before the arbiter runs (assumption
24). -/
def takePttOff (p : Position) (s : State) : State :=
  match (s.txOf p).state with
  | .waiting =>
    let t := s.mapTx p fun x => { x with state := .idle }
    { t with waiting := t.waiting.filter fun q => q ≠ p }
  | .granted =>
    if s.hangApplies p then s.mapTx p fun x => { x with state := .hang, hangTimer := some s.policy.hangMs }
    else arbiter (leaveAir p .idle s)
  | .revoked => s.mapTx p fun x => { x with state := .idle }
  | _ => s

/-- PTT_OFF: the debounce confirms the key up (R93, R96). -/
def execPttOff (p : Position) : State → Host.Outcome State Fault Refusal :=
  wholeStep fun s =>
    let x := s.txOf p
    if x.pttTimer.isSome && !x.pttRaw && x.ptt then
      takePttOff p (s.mapTx p fun x => { x with ptt := false, pttTimer := none })
    else s

/-! ## RF sense (R112, R113) -/

/-- Where the operation in flight would change a relay of a position's path (R113). -/
def State.movingOn (s : State) (p : Position) : Image :=
  match s.chain.op with
  | some o => (o.image ^^^ s.chain.latched) &&& s.pathMask p
  | none => 0

/-- What RF_ON raises: HOT_SWITCH, else UNGRANTED_RF outside a grant and its tail (R112, R113). -/
def takeRfOn (p : Position) (s : State) : State :=
  if s.movingOn p ≠ 0 then raise (hotSwitch p .rfOn (s.movingOn p) s) s
  else if !s.onAir p && (s.txOf p).tailTimer.isNone then raise (ungrantedRf p .rfOn s) s
  else s

/-- RF_ON: the debounce confirms RF (R93, R112, R113). -/
def execRfOn (p : Position) : State → Host.Outcome State Fault Refusal :=
  whilePowered fun s =>
    let x := s.txOf p
    if x.rfTimer.isSome && x.rfRaw && !x.rf then
      takeRfOn p (s.mapTx p fun x => { x with rf := true, rfTimer := none })
    else s

/-- RF_OFF: the debounce confirms no RF; the path may turn quiet (R93, R106). -/
def execRfOff (p : Position) : State → Host.Outcome State Fault Refusal :=
  wholeStep fun s =>
    let x := s.txOf p
    if x.rfTimer.isSome && !x.rfRaw && x.rf then s.mapTx p fun x => { x with rf := false, rfTimer := none } else s

/-! ## Hang and tail (R97, R98) -/

/-- HANG_EXPIRY (R97). The leave event is evaluated before the arbiter runs (assumption 24). -/
def execHangExpiry (p : Position) : State → Host.Outcome State Fault Refusal :=
  wholeStep fun s =>
    if (s.txOf p).hangTimer.isSome && (s.txOf p).state = .hang then arbiter (leaveAir p .idle s) else s

/-- TAIL_EXPIRY (R98). -/
def execTailExpiry (p : Position) : State → Host.Outcome State Fault Refusal :=
  wholeStep fun s => if (s.txOf p).tailTimer.isSome then endTail p s else s

end Sys2Proof.Machine
end

