-- ==== Sys2Proof/Machine/Dispatch.lean ====
section
/-! DEFINITION. One arm per command of the part: each calls the meaning of its row. -/

namespace Sys2Proof.Machine

def exec (i : Instr) (s : State) : Host.Outcome State Fault Refusal :=
  match i with
  | .poll p => Sys2Proof.Machine.execPoll p s
  | .freq p => Sys2Proof.Machine.execFreq p s
  | .claimWait p => Sys2Proof.Machine.execClaimWait p s
  | .claimNow p => Sys2Proof.Machine.execClaimNow p s
  | .claimTake p => Sys2Proof.Machine.execClaimTake p s
  | .release p => Sys2Proof.Machine.execRelease p s
  | .cancel p => Sys2Proof.Machine.execCancel p s
  | .followOn p => Sys2Proof.Machine.execFollowOn p s
  | .followOff p => Sys2Proof.Machine.execFollowOff p s
  | .step p => Sys2Proof.Machine.execStep p s
  | .query p => Sys2Proof.Machine.execQuery p s
  | .tableRead p => Sys2Proof.Machine.execTableRead p s
  | .bandWrite p => Sys2Proof.Machine.execBandWrite p s
  | .feedLineWrite p => Sys2Proof.Machine.execFeedLineWrite p s
  | .elementWrite p => Sys2Proof.Machine.execElementWrite p s
  | .routeWrite p => Sys2Proof.Machine.execRouteWrite p s
  | .ringWrite p => Sys2Proof.Machine.execRingWrite p s
  | .stationPolicyWrite p => Sys2Proof.Machine.execStationPolicyWrite p s
  | .positionSettingsWrite p => Sys2Proof.Machine.execPositionSettingsWrite p s
  | .faultConfigurationWrite p => Sys2Proof.Machine.execFaultConfigurationWrite p s
  | .save p => Sys2Proof.Machine.execSave p s
  | .faultRead p => Sys2Proof.Machine.execFaultRead p s
  | .faultClear p => Sys2Proof.Machine.execFaultClear p s
  | .restartRequest p => Sys2Proof.Machine.execRestartRequest p s
  | .unknownRequestKind p => Sys2Proof.Machine.execUnknownRequestKind p s
  | .frameArrival p c => Sys2Proof.Machine.execFrameArrival p c s
  | .frameError p e => Sys2Proof.Machine.execFrameError p e s
  | .gapExpiry p => Sys2Proof.Machine.execGapExpiry p s
  | .skippingStart p => Sys2Proof.Machine.execSkippingStart p s
  | .frameSent p => Sys2Proof.Machine.execFrameSent p s
  | .divisorChange p => Sys2Proof.Machine.execDivisorChange p s
  | .linkSilenceExpiry p => Sys2Proof.Machine.execLinkSilenceExpiry p s
  | .absence b p => Sys2Proof.Machine.execAbsence b p s
  | .positionReturn b p => Sys2Proof.Machine.execPositionReturn b p s
  | .pttLevelChange p on => Sys2Proof.Machine.execPttLevelChange p on s
  | .rfSenseLevelChange p on => Sys2Proof.Machine.execRfSenseLevelChange p on s
  | .pttOn p => Sys2Proof.Machine.execPttOn p s
  | .pttOff p => Sys2Proof.Machine.execPttOff p s
  | .rfOn p => Sys2Proof.Machine.execRfOn p s
  | .rfOff p => Sys2Proof.Machine.execRfOff p s
  | .hangExpiry p => Sys2Proof.Machine.execHangExpiry p s
  | .tailExpiry p => Sys2Proof.Machine.execTailExpiry p s
  | .staleExpiry p => Sys2Proof.Machine.execStaleExpiry p s
  | .lockLevelChange on => Sys2Proof.Machine.execLockLevelChange on s
  | .lockDebounceExpiry => Sys2Proof.Machine.execLockDebounceExpiry s
  | .restartNLevelChange on => Sys2Proof.Machine.execRestartNLevelChange on s
  | .restartPin => Sys2Proof.Machine.execRestartPin s
  | .powerOn => Sys2Proof.Machine.execPowerOn s
  | .verifyTimerExpiry => Sys2Proof.Machine.execVerifyTimerExpiry s
  | .changeShiftEnd => Sys2Proof.Machine.execChangeShiftEnd s
  | .changeCompletion => Sys2Proof.Machine.execChangeCompletion s
  | .verifyEnd => Sys2Proof.Machine.execVerifyEnd s
  | .resyncFillEnd => Sys2Proof.Machine.execResyncFillEnd s
  | .resyncPass => Sys2Proof.Machine.execResyncPass s
  | .mismatch bit => Sys2Proof.Machine.execMismatch bit s
  | .saveWriteEnd r => Sys2Proof.Machine.execSaveWriteEnd r s
  | .occurrence => Sys2Proof.Machine.execOccurrence s
  | .goodCharacter p c => Sys2Proof.Machine.execGoodCharacter p c s
  | .restartNDebouncedRelease => Sys2Proof.Machine.execRestartNDebouncedRelease s
  | .powerLoss => Sys2Proof.Machine.execPowerLoss s

end Sys2Proof.Machine
end

