-- ==== Sys2Proof/Machine/Step.lean ====
section
/-! DEFINITION. The step: the command at the front of the queue, or one idle millisecond. -/

namespace Sys2Proof.Machine

/-- One millisecond passes with nothing commanded: the log clock advances while the part is powered, and wraps (R160;
assumption 3). -/
def idle (s : State) : State := if s.powered then s.mapLog fun l => { l with clock := l.clock + 1 } else s

/-- The step: the command that has waited longest is executed on the state with the queue's rest; on an empty queue the block
idles for a millisecond. -/
def step (s : State) : Host.Outcome State Fault Refusal :=
  match s.pending with
  | [] => .next (idle s)
  | c :: rest => exec c { s with pending := rest }

/-- The state with the command that a table word spells put at the front of the queue; no word spells one. -/
def State.withFetchWord (s : State) (nbits w : Nat) : State :=
  match decodeTableWord nbits w with
  | some c => { s with pending := c :: s.pending }
  | none => s

end Sys2Proof.Machine
end

