-- ==== Sys2Proof/Safety.lean ====
section
/-! DEFINITION. The terms in which claims about the part are stated: what a step may change (`Moved`, `Served`), when a port may take a
request (`Offers`), what a port holds once it has answered one, and the invariants that every step keeps. -/

namespace Sys2Proof.Machine

/-! ## What a step changes -/

/-- The parts of the state, one for each field. -/
inductive Part where
  | pending | powered | table | store | freq | alloc | tx | waiting | advisory | chain | log | inbox | handed | links
  deriving DecidableEq, Repr

/-- Two states agree in a part. -/
def State.same (s t : State) : Part → Prop
  | .pending => t.pending = s.pending
  | .powered => t.powered = s.powered
  | .table => t.table = s.table
  | .store => t.store = s.store
  | .freq => t.freq = s.freq
  | .alloc => t.alloc = s.alloc
  | .tx => t.tx = s.tx
  | .waiting => t.waiting = s.waiting
  | .advisory => t.advisory = s.advisory
  | .chain => t.chain = s.chain
  | .log => t.log = s.log
  | .inbox => t.inbox = s.inbox
  | .handed => t.handed = s.handed
  | .links => t.links = s.links

/-- A port whose outgoing queue may have grown, with its flags, and that is otherwise unchanged. -/
structure LinkKept (x y : Link) : Prop where
  receiver : y.receiver = x.receiver
  slots : y.slots = x.slots
  present : y.present = x.present
  silence : y.silenceTimer = x.silenceTimer
  divisor : y.divisor = x.divisor
  waitingDivisor : y.waitingDivisor = x.waitingDivisor
  divisorWait : y.divisorWait = x.divisorWait
  startBit : y.startBit = x.startBit
  looks : y.looks = x.looks
  queue : x.queue <+: y.queue
  sending : (y.sending = x.sending ∧ y.queue = x.queue) ∨ (y.sending = true ∧ y.queue ≠ [])

/-- `t` comes from `s` by changes of the parts `ps` alone, by an inbox that only grows, and by ports that only queue. -/
structure Moved (ps : List Part) (s t : State) : Prop where
  same : ∀ x, x ∉ ps → s.same t x
  inbox : s.inbox <+: t.inbox
  links : ∀ q, LinkKept (s.link q) (t.link q)

/-- An advisory evaluation: the advisory flags, with its notices and occurrences. -/
abbrev advisoryParts : List Part := [.advisory, .links, .inbox]

/-- The interlock's operations: transmit records, waiting set, and the advisory evaluations they cause. -/
abbrev airParts : List Part := [.tx, .waiting, .advisory, .links, .inbox]

/-- A whole allocator event, with what it hands to the driver, the interlock and the ports. -/
abbrev allocParts : List Part := [.alloc, .chain, .tx, .waiting, .advisory, .links, .inbox]

/-- An occurrence that the Fault Log takes, or an exit from safe state. -/
abbrev logParts : List Part := [.log, .store, .alloc, .chain, .tx, .waiting, .advisory, .links, .inbox]

/-! ## Requests at a port -/

/-- Port `p` may take a request now: the part is powered, the oldest slot of the port holds the frame `f`, no absence or return of the
position waits to be taken, and the queue has room for a reply of `need` frames (R175, R177; assumption 5). -/
structure Offers (s : State) (p : Position) (f : Frame) (need : Nat) : Prop where
  powered : s.powered = true
  oldest : (s.link p).slots.head? = some f
  settled : s.awaits p = false
  room : (s.link p).queue.length + need ≤ Config.queueFrames

/-- The state with port `p` replaced. -/
def State.withLink (s : State) (p : Position) (x : Link) : State := { s with links := put s.links p x }

/-- A port that has queued the frames of a reply and freed its oldest slot; where both slots were full, the silence timer of a PRESENT
position starts again with the full t_link (R175, R177, R181). -/
def Link.answered (x : Link) (fs : List Frame) (linkMs : Nat) : Link :=
  { x with
    queue := x.queue ++ fs
    sending := true
    slots := x.slots.tail
    silenceTimer := if Config.receiveSlots ≤ x.slots.length && x.present then some linkMs else x.silenceTimer }

/-- The part has taken port `p`'s oldest request and done nothing but answer it with the frames `fs`. -/
def State.answered (s : State) (p : Position) (fs : List Frame) : State :=
  s.withLink p ((s.link p).answered fs s.policy.linkMs)

/-- The frame of a reply to the request `f`: its kind plus 0x80, the code, the data (R178). -/
def Frame.reply (f : Frame) (c : Code) (data : List Byte) : Frame := { kind := f.kind + 0x80, payload := c.byte :: data }

/-- Port `p` has taken its oldest request and handed over the reply `r` before any notice; beside that, `t` comes from `s` by changes of
the parts `ps` alone, by an inbox that only grows, and by ports that only queue. -/
structure Served (ps : List Part) (p : Position) (r : Frame) (s t : State) : Prop where
  same : ∀ x, x ∉ ps → x ≠ .inbox → x ≠ .links → s.same t x
  inbox : s.inbox <+: t.inbox
  others : ∀ q, q ≠ p → LinkKept (s.link q) (t.link q)
  reply : (s.link p).queue ++ [r] <+: (t.link p).queue
  slots : (t.link p).slots = (s.link p).slots.tail
  present : (t.link p).present = (s.link p).present
  receiver : (t.link p).receiver = (s.link p).receiver
  divisor : (t.link p).divisor = (s.link p).divisor
  waits : (t.link p).waitingDivisor = (s.link p).waitingDivisor ∧ (t.link p).divisorWait = (s.link p).divisorWait ∧
    (t.link p).startBit = (s.link p).startBit ∧ (t.link p).looks = (s.link p).looks

/-! ## Invariants -/

/-- No port queues more than 8 frames or keeps more than 2 received ones (R175, R181). -/
def State.QueuesBounded (s : State) : Prop :=
  ∀ p, (s.link p).queue.length ≤ Config.queueFrames ∧ (s.link p).slots.length ≤ Config.receiveSlots

/-- A port keeps step with its queue and its receiver. It is sending exactly while a frame is queued (R181); a waiting divisor waits for
frames that stand in the queue (R22); and no divisor is put off past the first moment of R198: one that waits for no frame, with the
receiver in HUNTING and the transmitter not inside a frame, waits because a start bit is being confirmed. -/
structure Link.InStep (x : Link) : Prop where
  sends : x.sending = true ↔ x.queue ≠ []
  counted : x.divisorWait ≤ x.queue.length
  prompt : x.waitingDivisor.isSome = true → x.divisorWait = 0 → x.receiver = .hunting → x.sending = false → x.startBit = true

/-- Every port keeps step. -/
def State.PortsInStep (s : State) : Prop := ∀ p, (s.link p).InStep

/-- In safe state every INHIBIT output is asserted (R94). -/
def State.SafeInhibited (s : State) : Prop := s.safe = true → ∀ p, s.inhibit p = true

/-- The positions in GRANTED or HANG are at most K, and no two of them have the same band (R105). -/
def State.SlotsWithinLimit (s : State) : Prop :=
  s.onAirCount ≤ s.policy.k ∧
    ∀ p q, p ≠ q → s.onAir p = true → s.onAir q = true → (s.freqOf p).band ≠ (s.freqOf q).band

/-- The waiting set holds the positions in WAITING, each once (R99). -/
def State.WaitingSetExact (s : State) : Prop :=
  s.waiting.Nodup ∧ ∀ p, p ∈ s.waiting ↔ (s.txOf p).state = .waiting

/-- A transmit record's fields agree with its state: the debounced PTT as section 5.1 gives it, the hang timer running in HANG alone,
skip hang set in GRANTED alone, and no tail running while on the air (R95 to R98, R101, R109). -/
structure TxRecord.Coherent (x : TxRecord) : Prop where
  key : x.ptt = true ↔ x.state = .waiting ∨ x.state = .granted ∨ x.state = .revoked
  hang : x.hangTimer.isSome = true ↔ x.state = .hang
  skip : x.skipHang = true → x.state = .granted
  tail : x.state.onAir = true → x.tailTimer = none

/-- Every transmit record is coherent, and the waiting set is exact. -/
def State.TransmitCoherent (s : State) : Prop := s.WaitingSetExact ∧ ∀ p, (s.txOf p).Coherent

/-- The operations that section 7.2 allows: for each kind, its purposes and its phases. -/
def Operation.legal (o : Operation) : Bool :=
  match o.kind, o.purpose, o.phase with
  | .change, .ordinary, .shifting | .change, .ordinary, .settling => true
  | .change, .startUp, .shifting | .change, .startUp, .settling => true
  | .change, .refresh, .shifting | .change, .refresh, .settling => true
  | .change, .restart, .shifting | .change, .restart, .settling => true
  | .verify, .ordinary, .shifting | .verify, .startUp, .shifting => true
  | .resync, .retry, .filling | .resync, .retry, .checking => true
  | .resync, .unknown, .filling | .resync, .unknown, .checking => true
  | .resync, .exit, .filling | .resync, .exit, .checking => true
  | _, _, _ => false

/-- What the driver may have in flight in safe state: a CHANGE that has pulsed its latch, or an EXIT RESYNC (R141, R150, R151). -/
def Operation.safeInFlight (o : Operation) : Bool :=
  (o.kind = .change && o.phase = .settling) || (o.kind = .resync && o.purpose = .exit)

/-- The driver's state is legal: the operation in flight is one of section 7.2's, and one that is no CHANGE carries the latched image;
the settle interval runs in SETTLING alone; the verify timer is stopped while an operation is in flight and in safe state (R141, R142,
R150); and safe state leaves in flight only what R150 and R151 allow. -/
structure State.ChainLegal (s : State) : Prop where
  legal : ∀ o, s.chain.op = some o → o.legal = true
  carried : ∀ o, s.chain.op = some o → o.kind ≠ .change → o.image = s.chain.latched
  settle : s.chain.settleTimer.isSome = true ↔ ∃ o, s.chain.op = some o ∧ o.phase = .settling
  verify : s.chain.op.isSome = true ∨ s.safe = true → s.chain.verifyTimer = none
  safe : s.safe = true → ∀ o, s.chain.op = some o → o.safeInFlight = true

/-- An image closes no relay at bits 208 to 255, and at most one filter of any one position (R136, R140). -/
structure ImageLegal (im : Image) : Prop where
  top : im >>> 208 = 0
  filters : ∀ p f g, im.getLsbD (filterBit p f) = true → im.getLsbD (filterBit p g) = true → f = g

/-- The latched image, the pending image and the image of the operation in flight are legal. -/
structure State.ImagesLegal (s : State) : Prop where
  latched : ImageLegal s.chain.latched
  pending : ImageLegal s.chain.pending
  op : ∀ o, s.chain.op = some o → ImageLegal o.image

/-- A position is on the air, or its tail timer is running (R143). -/
def State.Engaged (s : State) (p : Position) : Prop := s.onAir p = true ∨ (s.txOf p).tailTimer.isSome = true

/-- The driver's images, the records and the filter records stand together: the pending image is the composed one (R138); a record's
crosspoint flag is its relay's bit in the latched image (R46); a crosspoint that the latched image or an operation in flight closes is
that of a record beyond PENDING; a current filter is the one that the latched image closes (R140); and no image closes two crosspoints
onto one MAIN line (R70). -/
structure State.RelaysHeld (s : State) : Prop where
  composed : s.chain.pending = s.composed
  flags : ∀ x ∈ s.alloc.records, x.latched = s.chain.latched.getLsbD (crosspointBit x.pos x.line)
  owned : ∀ p l, (s.chain.latched.getLsbD (crosspointBit p l) = true ∨
      ∃ o, s.chain.op = some o ∧ o.image.getLsbD (crosspointBit p l) = true) →
    ∃ x ∈ s.alloc.records, x.pos = p ∧ x.line = l ∧ x.state ≠ .pending
  filters : ∀ p f, (s.filterOf p).current = some f ↔ s.chain.latched.getLsbD (filterBit p f) = true
  oneCrosspoint : ∀ l, s.portOf l = .main → ∀ im,
    im = s.chain.latched ∨ im = s.chain.pending ∨ (∃ o, s.chain.op = some o ∧ im = o.image) →
    ∀ p q, im.getLsbD (crosspointBit p l) = true → im.getLsbD (crosspointBit q l) = true → p = q

/-- Who stands where (section 3.1, R41, R50): a position has at most one record on any one line, whose route is a route on that line
and whose port kind is the line's; a reroute is stored on a CONNECTED record alone (R44, R57); a position stands at most once in any
one list, in at most one list of each port kind, with a route on the list's line, and in no list of a line on which it has a record.
-/
structure State.AllocationKeyed (s : State) : Prop where
  records : (s.alloc.records.map fun r => (r.pos, r.line)).Nodup
  routed : ∀ r ∈ s.alloc.records,
    (s.routeOf r.route).line = r.line ∧ r.kind = s.portOf r.line ∧ ∀ x, r.reroute = some x → (s.routeOf x).line = r.line
  stored : ∀ r ∈ s.alloc.records, r.reroute ≠ none → r.state = .connected
  lists : ∀ l, ((s.listOf l).map fun e => e.pos).Nodup
  placed : ∀ l, ∀ e ∈ s.listOf l, (s.routeOf e.route).line = l
  oneList : ∀ k l, ∀ x ∈ s.listOf k, ∀ y ∈ s.listOf l, x.pos = y.pos → s.portOf k = s.portOf l → k = l
  apart : ∀ l, ∀ e ∈ s.listOf l, s.recordAt e.pos l = none

/-- A position's one standing of each port kind (section 3.1): at most one of its records of a kind is not BREAKING, and where it waits
for a line without the move flag (R51) it has no record of that line's kind. -/
structure State.OneHeld (s : State) : Prop where
  records : ∀ x ∈ s.alloc.records, ∀ y ∈ s.alloc.records, x.pos = y.pos → x.kind = y.kind →
    x.state ≠ .breaking → y.state ≠ .breaking → x.line = y.line
  moves : ∀ l, ∀ e ∈ s.listOf l, e.move = false → ∀ x ∈ s.alloc.records, x.pos = e.pos → x.kind ≠ s.portOf l

/-- A wait list is kept in the order of R50: a TAKE entry stands nowhere but at the head, and a WAIT entry behind another has no higher
priority at insertion. -/
def ListOrdered (xs : List WaitEntry) : Prop :=
  (∀ e ∈ xs.tail, e.manner ≠ .take) ∧ xs.Pairwise fun a b => a.manner = .take ∨ b.priority ≤ a.priority

/-- Every wait list is kept in order. -/
def State.ListsOrdered (s : State) : Prop := ∀ l, ListOrdered (s.listOf l)

/-- Break before make on a MAIN line (R47, R70): at most one of its records is beyond PENDING, and at most one is not BREAKING. -/
def State.MainExclusive (s : State) : Prop :=
  ∀ l, s.portOf l = .main →
    ((s.recordsOn l).filter fun r => r.state ≠ .pending).length ≤ 1 ∧
      ((s.recordsOn l).filter fun r => r.state ≠ .breaking).length ≤ 1

/-- The laws of R50 on a line's records: a line without records has an empty wait list, and an RX line has no more records than
splitter ports, all of one route; with R8 on the port counts of the working table, of a save's snapshot and of the nonvolatile image: 1
for a MAIN line, 1 to 4 for an RX line. -/
structure State.LinesShared (s : State) : Prop where
  counts : ∀ T, T = s.table ∨ s.store.snapshot = some T ∨ T = s.store.nv.table → ∀ l,
    ((T.lines.get l).kind = .main → (T.lines.get l).ports = 1) ∧
      ((T.lines.get l).kind = .rx → 1 ≤ (T.lines.get l).ports ∧ (T.lines.get l).ports ≤ 4)
  waited : ∀ l, s.recordsOn l = [] → s.listOf l = []
  ports : ∀ l, s.portOf l = .aux → (s.recordsOn l).length ≤ (s.lineOf l).ports
  oneRoute : ∀ l, s.portOf l = .aux → ∀ x ∈ s.recordsOn l, ∀ y ∈ s.recordsOn l, x.route = y.route

/-- While a save is in progress the nonvolatile image fails the tests of a load (R190, R192; assumption 19). -/
def State.ImageBadWhileSaving (s : State) : Prop := s.store.saving = true → s.store.nv.good = false

/-- No exit result heads what waits for the Fault Log: each is taken in the event that brings it there (R167; assumption 4). -/
def State.ResultsTaken (s : State) : Prop := ∀ passed rest, s.inbox ≠ .exitResult passed :: rest

/-- Every occurrence counter stands from 0 to 255 (R161). -/
def State.CountersBounded (s : State) : Prop := ∀ k : Fin 11, s.log.counters.get k ≤ Config.counterTop

/-- A re-claim line is a line on which the position still has its BREAKING record (R85). -/
def State.ReclaimsHeld (s : State) : Prop :=
  ∀ q k l, (s.standing q k).reclaim = some l → s.breakingOn q l = true

/-! ## Terms of single claims -/

/-- Commands executed one after another; none where one of them answers no next state. -/
def runAll : List Instr → State → Option State
  | [], s => some s
  | c :: cs, s =>
    match exec c s with
    | .next t => runAll cs t
    | _ => none

/-- The commands that may change the working table: the eight rows of TABLE_WRITE, and power (R1). -/
def writesTable : Instr → Bool
  | .bandWrite _ | .feedLineWrite _ | .elementWrite _ | .routeWrite _ | .ringWrite _ => true
  | .stationPolicyWrite _ | .positionSettingsWrite _ | .faultConfigurationWrite _ => true
  | .powerOn | .powerLoss => true
  | _ => false

/-- The row of TABLE_WRITE for a subject, in the order of R186. -/
def writeCommand (p : Position) : Fin 8 → Instr
  | 0 => .bandWrite p
  | 1 => .feedLineWrite p
  | 2 => .elementWrite p
  | 3 => .routeWrite p
  | 4 => .ringWrite p
  | 5 => .stationPolicyWrite p
  | 6 => .positionSettingsWrite p
  | 7 => .faultConfigurationWrite p

/-- The length that a write's payload has after its subject byte `bs` (R186): a ring's is called for by its route count, the fourth of
these bytes. -/
def writeLength (bs : List Byte) : Fin 8 → Nat
  | 0 => 15
  | 1 => 5
  | 2 => 6
  | 3 => 15
  | 4 => 4 + byteAt bs 3
  | 5 => 14
  | 6 => 6
  | 7 => 5

/-- The row of CLAIM for a manner. -/
def claimCommand (p : Position) : Manner → Instr
  | .wait => .claimWait p
  | .now => .claimNow p
  | .take => .claimTake p

/-- Neither the lock nor a save stands in the way of a TABLE_WRITE (R2, tests 3 and 4). -/
def State.WritesOpen (s : State) : Prop := s.locked = false ∧ s.store.saving = false

/-- A line has no holder record and no wait entry (R10, R12, R15). -/
def State.Unused (s : State) (l : Line) : Prop := s.recordsOn l = [] ∧ s.listOf l = []

/-- A relay bit is in use, by the table `t` and the driver's images (R18). -/
def State.BitInUse (s : State) (t : Table) (b : Nat) : Prop :=
  (∃ p l, (t.lines.get l).enabled = true ∧ b = crosspointBit p l) ∨
  (∃ x, (t.elements.get x).enabled = true ∧ b = selectBit (t.elements.get x).line (t.elements.get x).select) ∨
  (∃ p i, (t.bands.get i).enabled = true ∧ b = filterBit p (t.bands.get i).filter) ∨
  s.chain.latched.getLsbD b = true ∨ s.chain.pending.getLsbD b = true ∨
  ∃ o, s.chain.op = some o ∧ o.image.getLsbD b = true

/-- A position waits in no list and has no re-claim line, so that no admission and no ring claim of its own is to come. -/
def State.AwaitsNoLine (s : State) (p : Position) : Prop :=
  (∀ l, ∀ e ∈ s.listOf l, e.pos ≠ p) ∧ ∀ k, (s.standing p k).reclaim = none

/-- Two states hold the same records of a position, but that a PENDING record of the first may be MAKING in the second. -/
def State.RecordsKept (s t : State) (q : Position) : Prop :=
  List.Forall₂ (fun x y => y = x ∨ (x.state = .pending ∧ y = { x with state := .making }))
    (s.alloc.records.filter fun r => r.pos = q) (t.alloc.records.filter fun r => r.pos = q)

/-- A ring entry is a candidate of the ring claim of (p, b, kind) (R80): usable, covering the band, its line not reserved for another
position, without a BREAKING record of `p`, and no shared RX line on which `p` has another route. -/
def State.RingCandidate (s : State) (p : Position) (k : PortKind) (b : Band) (r : Route) : Prop :=
  s.candidateEntry p k r = true ∧ s.covers r b = true

/-- What a ring claim of (p, b, kind) that nobody asked for comes to, from `s` to `t` (R81 to R83): the first qualifying candidate is
claimed, and each other line that `p` had is told with LOST RELEASED-BY-FOLLOW; else the first candidate is waited for; else NO_ROUTE
is told. A route that was claimed or waited for is a standing route, and clears follow due and re-claim line. -/
structure RingClaimed (p : Position) (k : PortKind) (b : Band) (s t : State) : Prop where
  assigned : ∀ r before after, s.ringOf p b k = before ++ r :: after → s.RingCandidate p k b r → s.qualifies p r = true →
    (∀ x ∈ before, ¬(s.RingCandidate p k b x ∧ s.qualifies p x = true)) →
    (∃ h, t.recordAt p (s.routeOf r).line = some h ∧ h.state ≠ .breaking ∧ h.reroute.getD h.route = r) ∧
      (t.standing p k).due = false ∧ (t.standing p k).reclaim = none ∧
      ∀ i ∈ s.heldLines p k, i ≠ (s.routeOf r).line → (t.link p).queue.length < 6 →
        { kind := 0x42, payload := [byte k.code, byte i.val, 4] } ∈ (t.link p).queue
  queued : ∀ r before after, s.ringOf p b k = before ++ r :: after → s.RingCandidate p k b r →
    (∀ x ∈ before, ¬s.RingCandidate p k b x) → (∀ x ∈ s.ringOf p b k, s.RingCandidate p k b x → s.qualifies p x = false) →
    r ∈ t.standingRoutes p k ∧ (t.standing p k).due = false ∧ (t.standing p k).reclaim = none
  noRoute : (∀ x ∈ s.ringOf p b k, ¬s.RingCandidate p k b x) → (t.link p).queue.length < 6 →
    { kind := 0x48, payload := [byte k.code, byte b.val] } ∈ (t.link p).queue

/-- The three bytes that the reply to a FOLLOW set on gives for a port kind that it names, from the state `s` that the FOLLOW finds (R78,
R79, R81, R185): no claim needed; the first qualifying candidate, of whose route `p` then has a record; the first candidate's line with
the place that R50 gives there; or no candidate, which NO_ROUTE tells. -/
structure FollowReported (p : Position) (k : PortKind) (s t : State) (d : List Byte) : Prop where
  unneeded : (∀ b, (s.freqOf p).band = some b → s.claimNeeded p k b = false) → d = [0, 0xFF, 0xFF]
  assigned : ∀ b, (s.freqOf p).band = some b → s.claimNeeded p k b = true →
    ∀ r before after, s.ringOf p b k = before ++ r :: after → s.RingCandidate p k b r → s.qualifies p r = true →
    (∀ x ∈ before, ¬(s.RingCandidate p k b x ∧ s.qualifies p x = true)) →
    d = [1, byte r.val, 0xFF] ∧ ∃ h, t.recordAt p (s.routeOf r).line = some h ∧ h.state ≠ .breaking ∧ h.reroute.getD h.route = r
  queued : ∀ b, (s.freqOf p).band = some b → s.claimNeeded p k b = true →
    ∀ r before after, s.ringOf p b k = before ++ r :: after → s.RingCandidate p k b r →
    (∀ x ∈ before, ¬s.RingCandidate p k b x) → (∀ x ∈ s.ringOf p b k, s.RingCandidate p k b x → s.qualifies p x = false) →
    let l := (s.routeOf r).line
    ((∃ e ∈ s.listOf l, e.pos = p) → d = [2, byte l.val, byte (s.placeIn p l)]) ∧
      ((∀ e ∈ s.listOf l, e.pos ≠ p) → d = [2, byte l.val,
        byte (((s.listOf l).takeWhile fun e => e.manner = .take ∨ (s.settingsOf p).priority ≤ e.priority).length + 1)])
  noRoute : ∀ b, (s.freqOf p).band = some b → s.claimNeeded p k b = true → (∀ x ∈ s.ringOf p b k, ¬s.RingCandidate p k b x) →
    d = [3, 0xFF, 0xFF] ∧
      ((t.link p).queue.length < 6 → { kind := 0x48, payload := [byte k.code, byte b.val] } ∈ (t.link p).queue)

/-- A position and kind whose ring claim has been made on its band: some standing route covers the band, or NO_ROUTE has been told
(R79, R81, R83). -/
def State.Followed (s : State) (p : Position) (k : PortKind) : Prop :=
  ∀ b, (s.freqOf p).band = some b → s.present p = true →
    (∃ r ∈ s.standingRoutes p k, s.covers r b = true) ∨
      ((s.link p).queue.length < 6 → { kind := 0x48, payload := [byte k.code, byte b.val] } ∈ (s.link p).queue)

/-- The relays of a position's path (R103): its crosspoints, its filter relays, and the select relays of the lines on which it has a
record that is MAKING, CONNECTED or BREAKING. -/
def State.OnPath (s : State) (p : Position) (b : Nat) : Prop :=
  (∃ l, b = crosspointBit p l) ∨ (∃ i, b = filterBit p i) ∨
    ∃ x ∈ s.alloc.records, x.pos = p ∧ (x.state = .making ∨ x.state = .connected ∨ x.state = .breaking) ∧ ∃ i, b = selectBit x.line i

/-- The laws of R104 and R143 on positions that are on the air or in their tail. None of them is switching (R49), and on its path the
pending image and an operation in flight are as the latched image. One on the air has its filter SETTLED on its band's filter, and a
MAIN record that is CONNECTED, or BREAKING with its crosspoint still closed. -/
structure State.PathsHeld (s : State) : Prop where
  unswitched : ∀ p, s.Engaged p → ∀ x ∈ s.alloc.records, x.pos = p →
    x.state ≠ .making ∧ ¬(x.state = .breaking ∧ x.breakRequested = true ∧ x.latched = true)
  still : ∀ p b, s.Engaged p → s.OnPath p b → s.chain.pending.getLsbD b = s.chain.latched.getLsbD b ∧
    ∀ o, s.chain.op = some o → o.image.getLsbD b = s.chain.latched.getLsbD b
  filter : ∀ p, s.onAir p = true → (s.filterOf p).image = (s.filterOf p).current ∧
    ∃ b, (s.freqOf p).band = some b ∧ (s.filterOf p).current = some (s.table.bands.get b).filter
  line : ∀ p, s.onAir p = true → ∃ x ∈ s.alloc.records, x.pos = p ∧ x.kind = .main ∧
    (x.state = .connected ∨ (x.state = .breaking ∧ x.latched = true))

/-- The lowest relay of a position's path at which the pending image differs from the latched image (R113, R156). -/
def State.MovesFirst (s : State) (p : Position) (b : Nat) : Prop :=
  (b < 256 ∧ s.OnPath p b ∧ s.chain.pending.getLsbD b ≠ s.chain.latched.getLsbD b) ∧
    ∀ i, i < b → s.OnPath p i → s.chain.pending.getLsbD i = s.chain.latched.getLsbD i

/-- What the start rule does where it starts a CHANGE (R141, R113): the operation carries the pending image, the verify timer is stopped,
and HOT_SWITCH is handed to the Fault Log for each position whose RF sense is on and whose path the change set meets. -/
def State.ChangeStarts (s : State) (why : Purpose) (t : State) : Prop :=
  { t with inbox := s.inbox } = { s with chain := { s.chain with
    op := some { kind := .change, purpose := why, phase := .shifting, image := s.chain.pending,
                 changeSet := s.chain.pending ^^^ s.chain.latched, length := s.policy.chainLength }
    verifyTimer := none
    attempt := s.chain.attempt.map fun a => { a with repeatDue := false } } } ∧
  ∃ hot, t.inbox = s.inbox ++ hot ∧ ∀ e, e ∈ hot ↔ ∃ p b, (s.txOf p).rf = true ∧ s.MovesFirst p b ∧
    e = .occurred { kind := .hotSwitch, pos := some p, line := none, band := (s.freqOf p).band, detail := .hot .start b }

/-- A position stands in no wait list. -/
def State.WaitsNowhere (s : State) (p : Position) : Prop := ∀ l, ∀ e ∈ s.listOf l, e.pos ≠ p

/-- Every block but the Station Table and Store and the Fault Log is at its values after RESTART (R196): frequency records cleared,
wait lists and standings empty, every record BREAKING, nobody on the air or waiting, no advisory flag, filter targets none, and every
position ABSENT with its slots empty. -/
structure AfterRestart (t : State) : Prop where
  freq : ∀ q, t.freqOf q = clearFreq
  lists : ∀ l, t.listOf l = []
  standings : ∀ q k, t.standing q k = clearStanding
  records : ∀ r ∈ t.alloc.records, r.state = .breaking ∧ r.reroute = none
  waiting : t.waiting = []
  states : ∀ q, (t.txOf q).state = .idle ∨ (t.txOf q).state = .revoked
  held : ∀ q, (t.txOf q).hangTimer = none ∧ (t.txOf q).skipHang = false ∧ (t.txOf q).reason = none
  advisory : t.advisory = []
  targets : ∀ q, (t.filterOf q).target = none
  ports : ∀ q, (t.link q).slots = [] ∧ (t.link q).receiver = .hunting ∧ (t.link q).silenceTimer = none ∧
    (t.link q).present = false

/-- What RESTART leaves of the state before it, whatever its cause (R196): every block but the Station Table and Store and the Fault
Log at its values after RESTART; debounced and raw levels, debounce timers, tables, log and the chain content kept. A divisor that
waits stays waiting, but where the receiver's return to HUNTING brings the first moment of R198: no frame in the queue or handed to it,
and no start bit being confirmed (a free value, assumption 26). -/
structure Restarted (s t : State) : Prop where
  powered : t.powered = s.powered
  table : t.table = s.table
  log : t.log = s.log
  ready : t.store.ready = if s.safe then s.store.ready else .restarting
  nv : t.store.nv = s.store.nv ∧ t.store.saving = s.store.saving ∧ t.store.snapshot = s.store.snapshot ∧
    t.store.requester = s.store.requester
  lock : t.store.lock = s.store.lock ∧ t.store.lockRaw = s.store.lockRaw ∧ t.store.lockTimer = s.store.lockTimer
  freq : ∀ q, t.freqOf q = clearFreq
  lists : ∀ l, t.listOf l = []
  standings : ∀ q k, t.standing q k = clearStanding
  records : ∀ r ∈ t.alloc.records, r.state = .breaking ∧ r.reroute = none
  waiting : t.waiting = []
  advisory : t.advisory = []
  states : ∀ q, (t.txOf q).state =
    match (s.txOf q).state with
    | .granted => .revoked
    | .waiting => .revoked
    | .hang => .idle
    | x => x
  levels : ∀ q, (t.txOf q).ptt = (s.txOf q).ptt ∧ (t.txOf q).rf = (s.txOf q).rf ∧ (t.txOf q).pttRaw = (s.txOf q).pttRaw ∧
    (t.txOf q).rfRaw = (s.txOf q).rfRaw ∧ (t.txOf q).pttTimer = (s.txOf q).pttTimer ∧ (t.txOf q).rfTimer = (s.txOf q).rfTimer
  revoked : ∀ q, s.onAir q = true → (t.txOf q).lastRevocation = some .restart
  held : ∀ q, (t.txOf q).hangTimer = none ∧ (t.txOf q).skipHang = false ∧ (t.txOf q).reason = none
  targets : ∀ q, (t.filterOf q).target = none
  hold : t.chain.restartHold = (s.chain.restartHold || !s.safe)
  latched : t.chain.latched = s.chain.latched
  content : t.chain.content = s.chain.content
  ports : ∀ q, (t.link q).slots = [] ∧ (t.link q).receiver = .hunting ∧ (t.link q).silenceTimer = none ∧
    (t.link q).present = false ∧ (s.link q).queue <+: (t.link q).queue
  rates : ∀ q,
    let x := s.link q
    let y := t.link q
    y.divisorWait = x.divisorWait ∧
      if x.waitingDivisor.isSome = true ∧ x.divisorWait = 0 ∧ x.sending = false ∧ y.queue = x.queue ∧
          Config.startBit q x.looks = false then
        x.waitingDivisor = some y.divisor ∧ y.waitingDivisor = none
      else y.divisor = x.divisor ∧ y.waitingDivisor = x.waitingDivisor
  lost : ∀ x ∈ s.alloc.records, x.state ≠ .breaking → s.present x.pos = true → (t.link x.pos).queue.length < 6 →
    { kind := 0x42, payload := [byte x.kind.code, byte x.line.val, 3] } ∈ (t.link x.pos).queue

/-- A position's BREAKING records stand as they were, with their breaks requested (R44, R106). -/
def State.BreaksRequested (s t : State) (p : Position) : Prop :=
  ∀ x ∈ s.alloc.records, x.pos = p → x.state = .breaking → t.recordAt p x.line = some { x with breakRequested := true }

/-- What a position's path-quiet event does beyond requesting its breaks (R106). The image filter takes what it moves toward, and the
pending image with it (R139). Where the position waits for no line: a CONNECTED record takes its stored reroute and goes to MAKING
(R57), but in safe state or on a shared RX line (assumption 8), and a PENDING record goes to MAKING exactly where R42 lets it. -/
structure State.QuietTaken (s t : State) (p : Position) : Prop where
  filter : t.filterOf p = { s.filterOf p with image := if s.chain.restartHold then none else (s.filterOf p).target }
  pending : (t.filterOf p).image ≠ (s.filterOf p).image → t.chain.pending = t.composed
  rerouted : s.ReclaimsHeld → s.WaitsNowhere p → ∀ x ∈ s.alloc.records, x.pos = p → x.state = .connected →
    t.recordAt p x.line = some (
      match x.reroute with
      | some r =>
        if s.safe = false ∧ (s.portOf x.line = .main ∨ ∀ y ∈ s.recordsOn x.line, y.pos = p) then
          { x with route := r, reroute := none, state := .making }
        else x
      | none => x)
  made : s.ReclaimsHeld → s.WaitsNowhere p → ∀ x ∈ s.alloc.records, x.pos = p → x.state = .pending →
    t.recordAt p x.line = some (
      if s.safe = false ∧ (∀ y ∈ s.alloc.records, y.pos = p → y.kind = x.kind → y.line = x.line) ∧
          ∀ y ∈ s.recordsOn x.line, y.pos = p ∨ y.state ≠ .breaking then
        { x with state := .making }
      else x)

/-- A position has left the air for `next` (R96 to R98, R107): INHIBIT asserted, hang timer stopped, skip hang cleared, and the tail
started; a tail of 0 has run out already, with UNGRANTED_RF where the RF sense is on and a quiet path otherwise. -/
structure LeftAir (next : TxState) (s t : State) (p : Position) : Prop where
  state : (t.txOf p).state = next
  inhibit : t.inhibit p = true
  hang : (t.txOf p).hangTimer = none ∧ (t.txOf p).skipHang = false
  rf : (t.txOf p).rf = (s.txOf p).rf
  tail : (t.txOf p).tailTimer = if s.policy.tTail = 0 then none else some s.policy.tTail
  ungranted : s.policy.tTail = 0 → (s.txOf p).rf = true →
    LogEvent.occurred { kind := .ungrantedRf, pos := some p, line := none, band := (s.freqOf p).band, detail := .rf .tail } ∈ t.inbox
  quiet : s.policy.tTail = 0 → (s.txOf p).rf = false → s.BreaksRequested t p ∧ s.QuietTaken t p

end Sys2Proof.Machine
end

