-- ==== Sys2Proof/Certificates/Slice0/Obligations.lean ====
section
/-! DEFINITION. The statements for the provers: what every step keeps, and what each command of the part does. The sections and rules
that a statement formalises stand in its docstring; where a clause rests on a choice of the model, the docstring names the
assumption. -/

open Sys2Proof Sys2Proof.Machine

/-! ## The step, the queue of commands, reset -/

/-- A step executes the command that has waited longest on the state with the queue's rest. -/
def Obligations.StepRunsFrontCommand : Prop :=
  ∀ (c : Instr) (rest : List Instr) (s : State), s.pending = c :: rest → step s = exec c { s with pending := rest }

/-- With nothing commanded a step lets one millisecond pass on the log clock of a powered part (section 8.2, R160; that the idle
step is a millisecond is assumption 3), and an unpowered part takes no command but POWER_ON and the raw input levels (assumption
1). -/
def Obligations.IdleAndUnpowered : Prop :=
  (∀ s : State, s.pending = [] → s.powered = true →
    step s = .next { s with log := { s.log with clock := s.log.clock + 1 } }) ∧
  (∀ s : State, s.pending = [] → s.powered = false → step s = .next s) ∧
  ∀ (c : Instr) (s : State), s.powered = false → c ≠ .powerOn → (∀ p on, c ≠ .pttLevelChange p on) →
    (∀ p on, c ≠ .rfSenseLevelChange p on) → (∀ on, c ≠ .lockLevelChange on) → (∀ on, c ≠ .restartNLevelChange on) →
    exec c s = .next s

/-- Every command answers a next state, whatever the state it is given, and leaves the queue of commands to the step. That a command
whose condition does not hold answers a next state is the model's choice (assumption 2), as is that an unpowered part does
(assumption 1). -/
def Obligations.EveryCommandCompletes : Prop :=
  ∀ (c : Instr) (s : State), ∃ t, exec c s = .next t ∧ t.pending = s.pending

/-- The state at reset meets every invariant stated below. -/
def Obligations.ResetMeetsInvariants : Prop :=
  State.reset.QueuesBounded ∧ State.reset.CountersBounded ∧ State.reset.SafeInhibited ∧ State.reset.SlotsWithinLimit ∧
    State.reset.TransmitCoherent ∧ State.reset.ChainLegal ∧ State.reset.ImagesLegal ∧ State.reset.AllocationKeyed ∧
    State.reset.ListsOrdered ∧ State.reset.MainExclusive ∧ State.reset.ReclaimsHeld ∧ State.reset.LinesShared ∧
    State.reset.ResultsTaken ∧ State.reset.OneHeld ∧ State.reset.RelaysHeld ∧ State.reset.PathsHeld ∧ State.reset.PortsInStep ∧
    State.reset.ImageBadWhileSaving

/-! ## Invariants that every step keeps -/

/-- No step fills a queue beyond 8 frames or the slots beyond 2, or counts an occurrence beyond 255 (sections 9.3, 9.5 and 8.2), or
leaves an exit result at the head of what waits for the Fault Log (section 8.6; that results wait behind occurrences is assumption
4), or puts a divisor off past the first moment of R198 (section 11.8; that the start bit is a free value is assumption 26, and that a
divisor waits for frames by their count, and that a receiver is in HUNTING from a framing error on, is assumption 14). -/
def Obligations.BoundsKept : Prop :=
  (∀ s t : State, s.QueuesBounded → step s = .next t → t.QueuesBounded) ∧
    (∀ s t : State, s.CountersBounded → step s = .next t → t.CountersBounded) ∧
    (∀ s t : State, s.ResultsTaken → step s = .next t → t.ResultsTaken) ∧
    ∀ s t : State, s.PortsInStep → step s = .next t → t.PortsInStep

/-- In safe state every INHIBIT output is asserted (section 5.3, R94). -/
def Obligations.SafeInhibitedKept : Prop := ∀ s t : State, s.SafeInhibited → step s = .next t → t.SafeInhibited

/-- The positions in GRANTED or HANG never exceed K, and no two of them have the same band (section 5.4, R105). -/
def Obligations.SlotsWithinLimitKept : Prop :=
  ∀ s t : State, s.SlotsWithinLimit → step s = .next t → t.SlotsWithinLimit

/-- Every transmit record agrees with its state, and the waiting set holds the positions in WAITING, each once (sections 5.1 to
5.4). -/
def Obligations.TransmitCoherentKept : Prop :=
  ∀ s t : State, s.TransmitCoherent → step s = .next t → t.TransmitCoherent

/-- The driver's operation, timers and latched image stand as chapter 7 allows, in and out of safe state (sections 7.2, 7.4,
7.6). -/
def Obligations.ChainLegalKept : Prop := ∀ s t : State, s.ChainLegal → step s = .next t → t.ChainLegal

/-- No image that the driver latches, composes or carries closes one of the bits 208 to 255, which carry no relay, or two filters of
one position (sections 7.1 and 7.3). -/
def Obligations.ImagesLegalKept : Prop := ∀ s t : State, s.ImagesLegal → step s = .next t → t.ImagesLegal

/-- Records and wait entries stand each once where section 3.1 and R50 let them stand, a reroute is stored on a CONNECTED record
alone, and every wait list is in order. -/
def Obligations.AllocationKept : Prop :=
  ∀ s t : State, s.AllocationKeyed → s.ListsOrdered → step s = .next t → t.AllocationKeyed ∧ t.ListsOrdered

/-- Break before make on MAIN lines (section 3.7), and a re-claim line that names a line still being broken (section 4.4, R85). Each
position has at most one record of each port kind that is not BREAKING (section 3.1).
The laws of R50 on the records of one line (section 3.3): a line without records has an empty wait list, and an RX line has no more
records than splitter ports, all of one route; with it the port counts of R8. That a reroute stays stored while another listener
shares its RX line, so that the last law holds, is assumption 8. -/
def Obligations.ExclusionKept : Prop :=
  (∀ s t : State, s.AllocationKeyed → s.MainExclusive → s.ReclaimsHeld → step s = .next t → t.MainExclusive ∧ t.ReclaimsHeld) ∧
    (∀ s t : State, s.AllocationKeyed → s.ReclaimsHeld → s.LinesShared → step s = .next t → t.LinesShared) ∧
    ∀ s t : State, s.AllocationKeyed → s.OneHeld → step s = .next t → t.OneHeld

/-! ## Rules of the whole machine -/

/-- Only the eight rows of TABLE_WRITE and power can change the working table (section 1.1, R1, and R26 for RESTART). Only SAVE and a
good end of its write can change the nonvolatile image, and every step keeps it bad while a save is in progress (sections 10.1 and 10.2,
R190 and R192); that it is bad from the accepted SAVE on is assumption 19. -/
def Obligations.OnlyWritesChangeTable : Prop :=
  (∀ (c : Instr) (s t : State), exec c s = .next t → writesTable c = false → t.table = s.table) ∧
    (∀ (c : Instr) (s t : State), exec c s = .next t → t.store.nv ≠ s.store.nv → (∃ p, c = .save p) ∨ c = .saveWriteEnd .ok) ∧
    ∀ s t : State, s.ImageBadWhileSaving → step s = .next t → t.ImageBadWhileSaving

/-- The latched image takes nothing but the image of a CHANGE that completes (section 7.2, R137); power sets it to all open.
The composed image closes the crosspoints of the records that are MAKING, CONNECTED, or BREAKING before the break is requested, the
select relays of the routes of records beyond PENDING, and the image filters (section 3.2, R47; section 7.3, R138). Every step keeps the
pending image the composed one, the crosspoint flags and current filters those of the latched image, and at most one crosspoint closed
onto a MAIN line, in the latched, the pending and the operation's image (section 3.7, R70). Every step keeps the laws of R104 and R143
(sections 5.4 and 7.4): a position on the air has its filter SETTLED on its band's filter and a MAIN record that is CONNECTED, or BREAKING
with its crosspoint still closed; and on the path of a position on the air or in its tail neither the pending image nor an operation in
flight differs from the latched image. So no latch moves a relay there. -/
def Obligations.OnlyCompletionsMoveRelays : Prop :=
  (∀ (c : Instr) (s t : State), exec c s = .next t → t.chain.latched ≠ s.chain.latched →
    (c = .changeCompletion ∧ ∃ o, s.chain.op = some o ∧ o.kind = .change ∧ o.phase = .settling ∧ t.chain.latched = o.image) ∨
      ((c = .powerOn ∨ c = .powerLoss) ∧ t.chain.latched = 0)) ∧
  (∀ (s : State) (b : Nat), s.composed.getLsbD b = true ↔
    (∃ x ∈ s.alloc.records, b = crosspointBit x.pos x.line ∧
      (x.state = .making ∨ x.state = .connected ∨ (x.state = .breaking ∧ x.breakRequested = false))) ∨
    (∃ x ∈ s.alloc.records, x.state ≠ .pending ∧ ∃ e ∈ (s.routeOf x.route).elements,
      (s.table.elements.get e).line = x.line ∧ b = selectBit x.line (s.table.elements.get e).select) ∨
    ∃ p f, (s.filterOf p).image = some f ∧ b = filterBit p f) ∧
  (∀ s t : State, s.AllocationKeyed → s.MainExclusive → s.ReclaimsHeld → s.ImagesLegal → s.RelaysHeld → step s = .next t →
    t.RelaysHeld) ∧
  (∀ s t : State, s.AllocationKeyed → s.MainExclusive → s.ReclaimsHeld → s.LinesShared → s.ImagesLegal → s.RelaysHeld →
    s.PathsHeld → step s = .next t → t.PathsHeld) ∧
  ∀ (c : Instr) (s t : State), s.PathsHeld → exec c s = .next t → c ≠ .powerOn → c ≠ .powerLoss →
    ∀ p b, s.Engaged p → s.OnPath p b → t.chain.latched.getLsbD b = s.chain.latched.getLsbD b

/-- Safe state is entered by the taking of a fatal occurrence alone, and left, but for power, by an EXIT RESYNC's result PASSED
alone, as the Fault Log takes it (sections 8.4 and 8.6): at the pass itself with nothing waiting, or behind the occurrence that is
taken in the same event. The exit is then unspoiled, and that occurrence does not spoil it. That a result waits behind the occurrences
handed over before it, and is taken in the event that brings it to the head of them, is assumption 4; R167 says only that the result is
taken as one event. -/
def Obligations.SafeStateChanges : Prop :=
  ∀ (c : Instr) (s t : State), exec c s = .next t →
    (s.safe = false → t.safe = true →
      c = .occurrence ∧ ∃ o rest, s.inbox = .occurred o :: rest ∧ effectiveSeverity o s = .fatal ∧ dropped o s = false) ∧
    (s.ResultsTaken → s.safe = true → t.safe = false → c = .powerOn ∨ c = .powerLoss ∨
      (c = .resyncPass ∧ s.inbox = [] ∧ s.log.exitSpoiled = false ∧
        ∃ o, s.chain.op = some o ∧ o.kind = .resync ∧ o.phase = .checking ∧ o.purpose = .exit) ∨
      (c = .occurrence ∧ ∃ o results rest, s.inbox = .occurred o :: results ++ .exitResult true :: rest ∧
        (∀ x ∈ results, ∃ passed, x = .exitResult passed) ∧
        (.exitResult true ∉ results → s.log.exitSpoiled = false ∧
          ¬(s.log.exitPending = true ∧ effectiveSeverity o s = .fatal ∧ dropped o s = false))))

/-- A position goes on the air only from the waiting set, or at its own PTT_ON (section 5.4). -/
def Obligations.OnlyWaitersGoOnAir : Prop :=
  ∀ (c : Instr) (s t : State) (p : Position), exec c s = .next t → s.onAir p = false → t.onAir p = true →
    p ∈ s.waiting ∨ c = .pttOn p

/-- After an arbiter run no waiter is eligible, and each waiter's reason is the first of the eight conditions that fails for it
(section 5.4, R101). -/
def Obligations.ArbiterLeavesNoEligibleWaiter : Prop :=
  ∀ s : State, s.waiting.Nodup → ∀ p ∈ (arbiter s).waiting,
    ∃ r, judge (arbiter s) p = some r ∧ ((arbiter s).txOf p).reason = some r

/-- A waiter is eligible exactly when the eight conditions of R102 hold, and the reason otherwise is that of the first that
fails (section 5.4). A path is settled exactly when the three conditions of R103 hold: nothing switching, the filter SETTLED on
the filter of the position's band, and every relay of the path alike in the latched image, in the pending image and in that of an
operation in flight. -/
def Obligations.JudgeIsTheEightConditions : Prop :=
  (∀ (s : State) (p : Position),
    s.pathSettled p = true ↔
      (∀ x ∈ s.alloc.records, x.pos = p →
        x.state ≠ .making ∧ ¬(x.state = .breaking ∧ x.breakRequested = true ∧ x.latched = true)) ∧
      ((s.filterOf p).image = (s.filterOf p).current ∧
        ∃ b, (s.freqOf p).band = some b ∧ (s.filterOf p).current = some (s.table.bands.get b).filter) ∧
      ∀ b, b < 256 → s.OnPath p b →
        s.chain.pending.getLsbD b = s.chain.latched.getLsbD b ∧
          ∀ o, s.chain.op = some o → o.image.getLsbD b = s.chain.latched.getLsbD b) ∧
  ∀ (s : State) (p : Position),
    (judge s p = none ↔
      s.safe = false ∧ s.present p = true ∧
      (∃ r b, s.connectedMain p = some r ∧ (s.freqOf p).band = some b ∧ s.covers r.route b = true) ∧
      (s.freqOf p).outOfBand = false ∧ s.pathSettled p = true ∧ s.onAirCount < s.policy.k ∧
      (∀ q, s.onAir q = true → (s.freqOf q).band ≠ (s.freqOf p).band) ∧
      (s.policy.harmonic = .block → ∀ r, s.protectedFrom p r = true → s.harmonicTest p r = none)) ∧
    (judge s p = some .safe ↔ s.safe = true) ∧
    (judge s p = some .absent ↔ s.safe = false ∧ s.present p = false) ∧
    (s.safe = false → s.present p = true →
      (judge s p = some .noBand ↔ (s.connectedMain p).isSome = true ∧ (s.freqOf p).band = none) ∧
      (judge s p = some .noCover ↔
        ∃ r b, s.connectedMain p = some r ∧ (s.freqOf p).band = some b ∧ s.covers r.route b = false) ∧
      (judge s p = some .noLine ↔
        s.connectedMain p = none ∧ ∀ r ∈ s.recordsOf p .main, r.state ≠ .pending ∧ r.state ≠ .making) ∧
      (s.connectedMain p = none → (∃ r ∈ s.recordsOf p .main, r.state = .pending ∨ r.state = .making) →
        judge s p = some .switching) ∧
      ((∃ r b, s.connectedMain p = some r ∧ (s.freqOf p).band = some b ∧ s.covers r.route b = true) →
        ((s.freqOf p).outOfBand = true → judge s p = some .outOfBand) ∧
        ((s.freqOf p).outOfBand = false →
          (s.pathSettled p = false → judge s p = some .switching) ∧
          (s.pathSettled p = true →
            (s.policy.k ≤ s.onAirCount → judge s p = some .limit) ∧
            (s.onAirCount < s.policy.k →
              ((∃ q, s.onAir q = true ∧ (s.freqOf q).band = (s.freqOf p).band) → judge s p = some .bandBusy) ∧
              ((∀ q, s.onAir q = true → (s.freqOf q).band ≠ (s.freqOf p).band) → s.policy.harmonic = .block →
                (∃ r, s.protectedFrom p r = true ∧ (s.harmonicTest p r).isSome = true) → judge s p = some .harmonic))))))

/-- The advisory flags after an evaluation are set for exactly the pairs whose advisory condition holds (section 6.5, R126), and
each episode that begins is told to both ports by the HARMONIC notice and handed to the Fault Log (R128); nothing is told or
handed over where no episode begins. Which MAIN line the occurrence names is assumption 13. -/
def Obligations.AdvisoryFlagsExact : Prop :=
  ∀ (s : State) (t r : Position),
    ((t, r) ∈ (evaluateAdvisories s).advisory ↔
      s.policy.harmonic ≠ .off ∧ s.onAir t = true ∧ r ≠ t ∧ s.present r = true ∧ (s.settingsOf r).protect = true ∧
        (s.freqOf r).rx.isSome = true ∧ (s.freqOf r).stale = false ∧ s.onAir r = false ∧ (s.harmonicTest t r).isSome = true) ∧
    ((t, r) ∈ (evaluateAdvisories s).advisory → (t, r) ∉ s.advisory →
      ∃ n m, s.harmonicTest t r = some (n, m) ∧
        LogEvent.occurred { kind := .harmonicTx, pos := some t, line := s.transmitLine t, band := (s.freqOf t).band,
                            detail := .harmonic r n } ∈ (evaluateAdvisories s).inbox ∧
        ∀ q, q = t ∨ q = r → s.present q = true → ((evaluateAdvisories s).link q).queue.length < 6 →
          { kind := 0x44, payload := [byte t.val, byte r.val, byte n, byte (m / 256), byte m] } ∈
            ((evaluateAdvisories s).link q).queue) ∧
    ((∀ x y, (x, y) ∈ (evaluateAdvisories s).advisory → (x, y) ∈ s.advisory) →
      { evaluateAdvisories s with advisory := s.advisory } = s)

/-- The conflict test finds the lowest harmonic within the guard, with its margin, and finds none exactly where no harmonic from
2 to Nmax lies within its guard (section 6.2, R121 and R122). -/
def Obligations.HarmonicTestExact : Prop :=
  ∀ g nMax w ft fr : Nat, 2 ≤ nMax → nMax ≤ 5 →
    (∀ n m, harmonicResult g nMax w ft fr = some (n, m) ↔
      2 ≤ n ∧ n ≤ nMax ∧ |((n * ft : Nat) : Int) - (fr : Int)| ≤ ((g + n * w : Nat) : Int) ∧
        (m : Int) = ((g + n * w : Nat) : Int) - |((n * ft : Nat) : Int) - (fr : Int)| ∧
        ∀ k, 2 ≤ k → k < n → ((g + k * w : Nat) : Int) < |((k * ft : Nat) : Int) - (fr : Int)|) ∧
    (harmonicResult g nMax w ft fr = none ↔
      ∀ n, 2 ≤ n → n ≤ nMax → ((g + n * w : Nat) : Int) < |((n * ft : Nat) : Int) - (fr : Int)|)

/-- Each report that is not unknown decodes to the enabled band whose edges hold its f100, and to no band where none does or the
count is the top one, with the manual's four worked values (section 2.3, R30). -/
def Obligations.BandLookup : Prop :=
  (∀ (bands : Vector BandEntry 12) (f : Nat),
    (∀ i j, i ≠ j → (bands.get i).enabled = true → (bands.get j).enabled = true →
      ∀ v, ¬((bands.get i).lower ≤ v ∧ v ≤ (bands.get i).upper ∧ (bands.get j).lower ≤ v ∧ v ≤ (bands.get j).upper)) →
    (∀ b, decodeBand bands f = some b ↔
      f ≠ 6000000 ∧ (bands.get b).enabled = true ∧ (bands.get b).lower ≤ f / 10 ∧ f / 10 ≤ (bands.get b).upper) ∧
    (decodeBand bands f = none ↔
      f = 6000000 ∨ ∀ b, (bands.get b).enabled = true → ¬((bands.get b).lower ≤ f / 10 ∧ f / 10 ≤ (bands.get b).upper))) ∧
  decodeBand factoryTable.bands 1399999 = none ∧ decodeBand factoryTable.bands 1400000 = some 4 ∧
  decodeBand factoryTable.bands 1435009 = some 4 ∧ decodeBand factoryTable.bands 1435010 = none ∧
  ∀ (s : State) (p : Position) (x : FreqFields) (f : Nat), (s.reported p x).transmit = some f →
    (decodeBand s.table.bands f = none ↔ (s.reported p x).outOfBand = true ∧ (s.reported p x).candidate = none)

/-- A write fits the chain exactly when every relay in use, by the table as it would stand and by the driver's images, lies
below 8 times the chain length (section 1.7, R18). -/
def Obligations.ChainHoldsBitsInUse : Prop :=
  ∀ (s : State) (t : Table), s.fits t = true ↔ ∀ b, b < 256 → s.BitInUse t b → b < 8 * t.policy.chainLength

/-- A frame that a logging computer sends, character by character, to a port in HUNTING with a free slot is received whole: it
stands in the newest slot, the position is PRESENT, and nothing but the port, and a return where the position was ABSENT, has
changed (sections 9.2, 9.3, 9.6 and 9.7). The line's sixteen samples of each bit time of characters sent back to back give those
characters (R171, R172); a line that goes low and is high again at the eighth sample gives nothing, and one that stays low gives one
framing error and no more. That the eighth sample alone decides, and is counted from the one that shows the edge, is assumption
20. -/
def Obligations.FrameReceivedWhole : Prop :=
  (∀ cs : List Byte, (Sampler.watching true).receive (samples (cs.flatMap characterLevels)) = cs.map .good) ∧
  (∀ low rest : List Bool, low.length = 6 →
    (Sampler.watching true).receive ([false] ++ low ++ [true] ++ rest) = (Sampler.watching true).receive rest) ∧
  (∀ n, 152 ≤ n → (Sampler.watching true).receive (List.replicate n false) = [.framing]) ∧
  ∀ (s : State) (p : Position) (f : Frame), s.powered = true → (s.link p).receiver = .hunting →
    (s.link p).slots.length < 2 → f.payload.length ≤ 32 →
    ∃ front last, f.characters = front ++ [last] ∧
      ∃ t, runAll (front.map (fun c => Instr.goodCharacter p c) ++ [.frameArrival p last]) s = some t ∧
        (t.link p).slots = (s.link p).slots ++ [f] ∧ (t.link p).receiver = .hunting ∧ (t.link p).present = true ∧
        (t.link p).silenceTimer = (if (s.link p).slots = [] then some s.policy.linkMs else none) ∧
        (t.link p).queue = (s.link p).queue ∧ (t.link p).noticeLost = (s.link p).noticeLost ∧
        t.handed = s.handed ++ (if s.present p then [] else
          [.positionReturn .lineAllocator p, .positionReturn .transmitInterlock p]) ∧
        (∀ q, q ≠ p → t.link q = s.link q) ∧ ∀ x, x ≠ .links → x ≠ .handed → s.same t x

/-! ## Requests that the ports, the tables and the store answer -/

/-- POLL answers its three bytes and changes nothing else, at any time after power-on; with a payload it is refused (section
9.4, R179). -/
def Obligations.PollReplies : Prop :=
  ∀ (s : State) (p : Position) (f : Frame), Offers s p f 1 → f.kind = 0x01 →
    (f.payload = [] → exec (.poll p) s = .next (s.answered p [f.reply .ok
      [if s.store.ready = .ready then 1 else 0, if s.log.safe then 1 else 0, if s.locked then 1 else 0]])) ∧
    (f.payload ≠ [] → exec (.poll p) s = .next (s.answered p [f.reply .badRequest []]))

/-- QUERY answers the data of its subject and index in parts, and one of a position on its own port then clears the notice-lost
flag (section 9.4, R180); a frame of unknown kind is answered by the port itself (R177). The data of a position are its
frequency record (R27), the allocator's part (R75, R77), the transmit record (R117), the harmonic test's results and the advisory
flags (R133), the filter record (R155) and its first log records (R169); of a line, its entry, state, records and list (R75); of
the station, the parts of R117, R133, R155 and R169; of a board, its bits in the four images (R155). Where R180 and R185 leave a
byte or an order open, the layout is assumption 11; the bytes after a label and the enabled flag of a line's entry are assumption 15. -/
def Obligations.QueryAndUnknownAnswered : Prop :=
  (∀ (s : State) (p : Position) (f : Frame), Offers s p f 4 → f.kind = 0x08 →
    (f.payload.length ≠ 2 → exec (.query p) s = .next (s.answered p [f.reply .badRequest [0x11]])) ∧
    (∀ a b, f.payload = [a, b] →
      ((3 < a.toNat ∨ (a = 0 ∧ b ≠ 0) ∨ (a = 1 ∧ 6 ≤ b.toNat) ∨ (a = 2 ∧ 16 ≤ b.toNat) ∨
          (a = 3 ∧ s.policy.chainLength ≤ b.toNat)) →
        exec (.query p) s = .next (s.answered p [f.reply .badIndex [0x11]])) ∧
      (∀ d, s.queryData a.toNat b.toNat = some d →
        exec (.query p) s = .next ((s.answered p (partFrames f.kind .ok d)).mapLink p fun x =>
          { x with noticeLost := x.noticeLost && !(a = 1 && b.toNat = p.val) })))) ∧
  (∀ (s : State) (a b : Nat), (a = 0 ∧ b = 0) ∨ (a = 1 ∧ b < 6) ∨ (a = 2 ∧ b < 16) ∨ (a = 3 ∧ b < s.policy.chainLength) →
    (s.queryData a b).isSome = true) ∧
  (∀ s : State,
    let opt (x : Option Nat) : Byte := x.elim 0xFF byte
    let three (x : Option Nat) : List Byte := x.elim [0xFF, 0xFF, 0xFF] (bigEndian 3)
    let listed (xs : List (List Byte)) : List Byte := byte xs.length :: xs.flatten
    let record (x : Holder) : List Byte := [byte x.pos.val, byte x.route.val, byte x.kind.code, byte x.state.code, flag x.latched,
      flag x.breakRequested, opt (x.reroute.map (·.val))]
    let pair (x : Position × Position) : List Byte := [byte x.1.val, byte x.2.val]
    (∀ p : Position, ∃ waits : PortKind → List Byte,
      (∀ k, (waits k = [0xFF, 0xFF] ∧ ∀ l, s.portOf l = k → ∀ e ∈ s.listOf l, e.pos ≠ p) ∨
        ∃ l front e back, s.portOf l = k ∧ s.listOf l = front ++ e :: back ∧ e.pos = p ∧ (∀ x ∈ front, x.pos ≠ p) ∧
          waits k = [byte l.val, byte (front.length + 1)]) ∧
      let x := s.freqOf p
      let m := s.standing p .main
      let a := s.standing p .aux
      let y := s.txOf p
      let z := s.filterOf p
      s.queryData 1 p.val = some (
        [if s.present p then 0 else 1, flag (s.link p).noticeLost] ++
        three x.rx ++ three x.tx ++ [byte x.width, opt (x.band.map (·.val))] ++
          x.band.elim (List.replicate 6 0xFF) (fun b => padLabel 6 (s.table.bands.get b).label) ++
          [flag x.outOfBand, flag x.stale, opt (x.candidate.map (·.val)), byte x.count] ++
        listed ((s.alloc.records.filter fun r => r.pos = p).map record) ++ waits .main ++ waits .aux ++
          [flag m.follow, flag a.follow, opt (m.loss.map (·.val)), opt (a.loss.map (·.val)), flag (s.switching p)] ++
          [flag m.follow, flag a.follow, flag m.due, flag a.due, opt (m.reclaim.map (·.val)), opt (a.reclaim.map (·.val))] ++
        [byte y.state.code, flag (s.inhibit p), flag y.ptt, flag y.rf, flag y.hangTimer.isSome, flag y.tailTimer.isSome,
          flag y.skipHang, if p ∈ s.waiting then byte (s.waiting.findIdx (fun q => q = p) + 1) else 0xFF,
          opt (y.reason.map WaiterReason.code), opt (y.lastRevocation.map RevocationCause.code), flag (s.pathQuiet p),
          flag (s.pathSettled p)] ++
        listed ((allPositions.filter fun r => x.transmit.isSome && s.protectedFrom p r).map fun r =>
          byte r.val :: (s.harmonicTest p r).elim [0xFF, 0xFF, 0xFF] fun w => byte w.1 :: bigEndian 2 w.2) ++
          listed ((s.advisory.filter fun w => w.1 = p || w.2 = p).map pair) ++
        [opt (z.current.map (·.val)), opt (z.target.map (·.val)), opt (z.image.map (·.val)), if z.image = z.current then 0 else 1] ++
        listed (([(s.log.firstSerious, 1), (s.log.firstMinor, 0)] : List (Option LogRecord × Byte)).filterMap fun w =>
          (w.1.filter fun r => r.occ.pos = some p).map fun r => [byte r.occ.kind.number, w.2]))) ∧
    (∀ l : Line, s.queryData 2 l.val = some (
      (s.lineOf l).bytes ++ [byte (s.lineState l).code] ++ listed ((s.recordsOn l).map record) ++
      listed ((s.listOf l).map fun e => [byte e.pos.val, byte e.route.val, byte e.manner.code, flag e.move, byte e.priority]))) ∧
    s.queryData 0 0 = some (
      [flag s.isReady, flag s.locked, flag s.store.saving] ++
      [byte s.onAirCount, byte s.policy.k] ++
        listed ((allPositions.filter s.onAir).map fun p => [byte p.val, opt ((s.freqOf p).band.map (·.val))]) ++
        listed (s.waiting.map fun p => [byte p.val]) ++
      listed (s.advisory.map pair) ++ [byte s.policy.harmonic.code, byte s.policy.gBase, byte s.policy.nMax] ++
      s.chain.op.elim [0xFF, 0xFF, 0xFF] (fun o => [byte o.kind.code, byte o.purpose.code, byte o.phase.code]) ++
        s.chain.attempt.elim [0, 0xFF, 0] (fun x => [1, byte x.kind.code, flag x.repeatDue]) ++
        [flag s.chain.content.isSome, flag (s.chain.pending ≠ s.chain.latched), flag s.chain.refreshDue, flag s.chain.restartHold,
          flag s.chain.exitRequest, flag s.chain.heldForEntry, flag s.chain.verifyTimer.isSome,
          byte (s.chain.op.elim s.policy.chainLength (·.length))] ++
      [flag s.log.safe, flag s.log.exitPending, flag s.log.exitSpoiled, flag s.log.alarmA, flag s.log.alarmB] ++
        bigEndian 4 s.log.clock.toNat ++
        [opt (s.log.firstSerious.map fun r => r.occ.kind.number), opt (s.log.firstMinor.map fun r => r.occ.kind.number)]) ∧
    ∀ n, n < s.policy.chainLength →
      let board (im : Image) : Byte := BitVec.ofFnLE fun j : Fin 8 => im.getLsbD (8 * n + j.val)
      s.queryData 3 n = some [board s.chain.latched, board s.chain.pending, s.chain.op.elim 0xFF (fun o => board o.image),
        s.chain.content.elim 0xFF board]) ∧
  ∀ (s : State) (p : Position) (f : Frame), Offers s p f 1 → f.kind = 0 ∨ 14 < f.kind.toNat →
    exec (.unknownRequestKind p) s = .next (s.answered p [{ kind := 0xFF, payload := [25] }])

/-- TABLE_READ answers the entry of the working table that its subject and index name, and is refused in the order unknown
subject, wrong length, index out of range; it changes nothing else, at any time after power-on (section 1.1, R4). The bytes of an
entry are those of section 9.7; that enabled stands in them as a flag, 1 for yes, and that a label's field is filled with 0x00, is
assumption 15. -/
def Obligations.TableReadAnswers : Prop :=
  ∀ (s : State) (p : Position) (f : Frame) (b : Byte) (bs : List Byte), Offers s p f 1 → f.kind = 0x09 → f.payload = b :: bs →
    let answers (c : Code) (d : List Byte) : Prop := exec (.tableRead p) s = .next (s.answered p [f.reply c d])
    (8 ≤ b.toNat → answers .badIndex []) ∧
    (b.toNat < 8 → bs.length ≠ (if b = 4 then 3 else if b = 5 then 0 else 1) → answers .badRequest []) ∧
    (∀ i : Band, b = 0 → bs = [byte i.val] → answers .ok (s.table.bands.get i).bytes) ∧
    (∀ i : Line, b = 1 → bs = [byte i.val] → answers .ok (s.table.lines.get i).bytes) ∧
    (∀ i : Element, b = 2 → bs = [byte i.val] → answers .ok (s.table.elements.get i).bytes) ∧
    (∀ i : Route, b = 3 → bs = [byte i.val] →
      answers .ok ((s.table.routes.get i).written ++ bigEndian 2 (s.table.routes.get i).bands.toNat)) ∧
    (∀ (q : Position) (i : Band) (k : PortKind), b = 4 → bs = [byte q.val, byte i.val, byte k.code] →
      answers .ok (byte (s.ringOf q i k).length :: (s.ringOf q i k).map fun r => byte r.val)) ∧
    (b = 5 → bs = [] → answers .ok s.table.policy.bytes) ∧
    (∀ q : Position, b = 6 → bs = [byte q.val] → answers .ok (s.table.settings.get q).bytes) ∧
    (∀ k : FaultKind, b = 7 → bs = [byte k.number] → answers .ok (s.faultConfig k).bytes) ∧
    (∀ n : Byte, bs = [n] →
      (b = 0 ∧ 12 ≤ n.toNat) ∨ (b = 1 ∧ 16 ≤ n.toNat) ∨ (b = 2 ∧ 32 ≤ n.toNat) ∨ (b = 3 ∧ 48 ≤ n.toNat) ∨
        (b = 6 ∧ 6 ≤ n.toNat) ∨ (b = 7 ∧ (n = 0 ∨ 12 ≤ n.toNat)) → answers .badIndex []) ∧
    (∀ x y z : Byte, b = 4 → bs = [x, y, z] → 6 ≤ x.toNat ∨ 12 ≤ y.toNat ∨ 2 ≤ z.toNat → answers .badIndex [])

/-- FAULT_READ answers the 48 bytes of the log in two parts of 30 and 18, and changes nothing else, at any time after power-on;
with a payload it is refused in one frame (sections 8.5 and 9.7, R165 and R185). That an alarm line's state is sent as a flag, 1 for
asserted, is assumption 11. -/
def Obligations.FaultReadReports : Prop :=
  (∀ (s : State) (p : Position) (f : Frame), Offers s p f 2 → f.kind = 0x0C → f.payload = [] →
    exec (.faultRead p) s = .next (s.answered p
      [f.reply .ok (0x12 :: s.log.bytes.take 30), f.reply .ok (0x22 :: s.log.bytes.drop 30)])) ∧
  (∀ (s : State) (p : Position) (f : Frame), Offers s p f 1 → f.kind = 0x0C → f.payload ≠ [] →
    exec (.faultRead p) s = .next (s.answered p [f.reply .badRequest [0x11]])) ∧
  ∀ l : FaultLog, l.bytes =
    logRecordBytes l.firstSerious ++ logRecordBytes l.firstMinor ++
      bigEndian 2 l.nextSerious.toNat ++ bigEndian 2 l.nextMinor.toNat ++ l.counters.toList.map byte ++
      [flag l.alarmA, flag l.alarmB, flag l.safe, flag l.exitPending, flag l.exitSpoiled] ++ bigEndian 4 l.clock.toNat ∧
    l.bytes.length = 48

/-- The tests of R2 for the eight rows of TABLE_WRITE (sections 1.1 to 1.10), in their order: an unknown subject, a wrong
length, the lock, a save in progress, an index outside the subject's range, a field outside its set; the refused write changes
nothing. That a write naming no subject may be taken by any row, and that one without a subject byte names none, is assumption
10; that a flag byte other than 0 and 1 is outside its set, and that the enabled field is such a flag, is assumption 15. -/
def Obligations.WriteTests : Prop :=
  (∀ (s : State) (p : Position) (f : Frame) (k : Fin 8), Offers s p f 1 → f.kind = 0x0A →
    let answers (c : Code) : Prop :=
      exec (writeCommand p k) s = .next (if k = 0 ∨ k = 5 then startRule (s.answered p [f.reply c []])
                                         else s.answered p [f.reply c []])
    (f.payload = [] → answers .badIndex) ∧
    ∀ b bs, f.payload = b :: bs →
      (8 ≤ b.toNat → answers .badIndex) ∧
      (b.toNat = k.val → bs.length ≠ writeLength bs k → answers .badRequest) ∧
      (b.toNat = k.val → bs.length = writeLength bs k → s.locked = true → answers .locked) ∧
      (b.toNat = k.val → bs.length = writeLength bs k → s.locked = false → s.store.saving = true → answers .busy)) ∧
  ∀ (s : State) (p : Position) (f : Frame) (k : Fin 8) (bs : List Byte), Offers s p f 1 → s.WritesOpen → f.kind = 0x0A →
    f.payload = byte k.val :: bs → bs.length = writeLength bs k →
    let answers (c : Code) : Prop :=
      exec (writeCommand p k) s = .next (if k = 0 ∨ k = 5 then startRule (s.answered p [f.reply c []])
                                         else s.answered p [f.reply c []])
    let outside : Prop :=
      match k with
      | 0 => 12 ≤ byteAt bs 0
      | 1 => 16 ≤ byteAt bs 0
      | 2 => 32 ≤ byteAt bs 0
      | 3 => 48 ≤ byteAt bs 0
      | 4 => 6 ≤ byteAt bs 0 ∨ 12 ≤ byteAt bs 1 ∨ 2 ≤ byteAt bs 2
      | 5 => False
      | 6 => 6 ≤ byteAt bs 0
      | 7 => byteAt bs 0 = 0 ∨ 12 ≤ byteAt bs 0
    let unset : Prop :=
      match k with
      | 0 => 8 ≤ byteAt bs 7 ∨ 2 ≤ byteAt bs 14
      | 1 => 2 ≤ byteAt bs 1 ∨ (6 ≤ byteAt bs 3 ∧ byteAt bs 3 ≤ 254) ∨ 2 ≤ byteAt bs 4
      | 2 => 16 ≤ byteAt bs 1 ∨ 4 ≤ byteAt bs 2 ∨ 2 ≤ byteAt bs 5
      | 3 => 16 ≤ byteAt bs 1 ∨ (∃ i, 2 ≤ i ∧ i ≤ 5 ∧ 32 ≤ byteAt bs i ∧ byteAt bs i ≤ 254) ∨ 2 ≤ byteAt bs 14
      | 4 => ∃ b ∈ bs.drop 4, 48 ≤ b.toNat
      | 5 => 3 ≤ byteAt bs 11 ∨ 2 ≤ byteAt bs 13
      | 6 => 2 ≤ byteAt bs 2
      | 7 => 2 ≤ byteAt bs 1 ∨ 2 ≤ byteAt bs 2 ∨ 3 ≤ byteAt bs 3 ∨ 2 ≤ byteAt bs 4
    (outside → answers .badIndex) ∧ (¬outside → unset → answers .invalid)

/-- A feed line write (section 1.3): refused INVALID where the splitter ports do not fit the kind, where it disables a line that
an enabled element names, or where a relay in use would lie beyond the chain; refused BUSY while the line has a record or a wait
entry; else the entry is replaced whole, and nothing else. That enabled is sent as a flag, 1 for yes, is assumption 15. -/
def Obligations.FeedLineWriteStores : Prop :=
  ∀ (s : State) (p : Position) (f : Frame) (l : Line) (e : LineEntry), Offers s p f 1 → s.WritesOpen → f.kind = 0x0A →
    e.ports < 256 → f.payload = [1, byte l.val] ++ e.bytes →
    let consistent : Prop :=
      (e.kind = .main → e.ports = 1) ∧ (e.kind = .rx → 1 ≤ e.ports ∧ e.ports ≤ 4) ∧
      (e.enabled = false → ∀ x, (s.table.elements.get x).enabled = true → (s.table.elements.get x).line ≠ l) ∧
      s.fits { s.table with lines := put s.table.lines l e } = true
    (¬consistent → exec (.feedLineWrite p) s = .next (s.answered p [f.reply .invalid []])) ∧
    (consistent → ¬s.Unused l → exec (.feedLineWrite p) s = .next (s.answered p [f.reply .busy []])) ∧
    (consistent → s.Unused l → exec (.feedLineWrite p) s =
      .next { s.answered p [f.reply .ok []] with table := { s.table with lines := put s.table.lines l e } })

/-- An element write (section 1.4): refused INVALID by the tests of R11 and R18, BUSY while its present or its new line is in
use; else the entry is replaced whole and the band set of every route that lists the element is computed again (R12, R14). That
enabled is sent as a flag, 1 for yes, is assumption 15. -/
def Obligations.ElementWriteStores : Prop :=
  ∀ (s : State) (p : Position) (f : Frame) (x : Element) (e : ElementEntry), Offers s p f 1 → s.WritesOpen → f.kind = 0x0A →
    f.payload = [2, byte x.val] ++ e.bytes →
    let after : Table := { s.table with
      elements := put s.table.elements x e
      routes := mapFin (fun _ r => if x ∈ r.elements then
        { r with bands := bandSetOf (put s.table.elements x e) r.elements } else r) s.table.routes }
    let consistent : Prop :=
      (∀ b, 12 ≤ b → e.bands.getLsbD b = false) ∧
      (e.enabled = true → (s.table.lines.get e.line).enabled = true ∧
        ∀ y, y ≠ x → (s.table.elements.get y).enabled = true →
          ¬((s.table.elements.get y).line = e.line ∧ (s.table.elements.get y).select = e.select)) ∧
      (∀ r, x ∈ (s.table.routes.get r).elements → (s.table.routes.get r).line = e.line ∧
        ∀ y ∈ (s.table.routes.get r).elements, y ≠ x → (s.table.elements.get y).select ≠ e.select) ∧
      s.fits after = true
    let unused : Prop := s.Unused (s.table.elements.get x).line ∧ s.Unused e.line
    (¬consistent → exec (.elementWrite p) s = .next (s.answered p [f.reply .invalid []])) ∧
    (consistent → ¬unused → exec (.elementWrite p) s = .next (s.answered p [f.reply .busy []])) ∧
    (consistent → unused → exec (.elementWrite p) s = .next { s.answered p [f.reply .ok []] with table := after })

/-- A route write (section 1.5): refused INVALID by the tests of R13, BUSY while its present or its new line is in use or the
route is named; else the entry is replaced whole with the band set computed from its elements (R14). The label is the characters
before the first 0x00 of its field (R185). That 0xFF is an unused element byte in any of its four places, and that enabled is sent as
a flag, 1 for yes, is assumption 15, and that a stored reroute counts as naming its route is assumption 21. -/
def Obligations.RouteWriteStores : Prop :=
  ∀ (s : State) (p : Position) (f : Frame) (r : Route) (e : RouteEntry) (xs cs : List Byte), Offers s p f 1 → s.WritesOpen →
    f.kind = 0x0A → xs.length = 4 → xs.filter (fun x => x ≠ 0xFF) = e.elements.map (fun x => byte x.val) →
    cs.length = 8 → e.label = cs.takeWhile (fun c => c ≠ 0) →
    f.payload = [3, byte r.val, byte e.line.val] ++ xs ++ cs ++ [flag e.enabled] →
    let after : Table := { s.table with
      routes := put s.table.routes r { e with bands := e.elements.foldl (fun acc x => acc &&& (s.table.elements.get x).bands) 0xFFF } }
    let consistent : Prop :=
      e.elements ≠ [] ∧ e.elements.Nodup ∧ (∀ x ∈ e.elements, (s.table.elements.get x).line = e.line) ∧
      (e.elements.map fun x => (s.table.elements.get x).select).Nodup ∧
      (∀ c ∈ e.label, 0x20 ≤ c.toNat ∧ c.toNat ≤ 0x7E) ∧ s.fits after = true
    let unused : Prop := s.Unused (s.routeOf r).line ∧ s.Unused e.line ∧
      (∀ h ∈ s.alloc.records, h.route ≠ r ∧ h.reroute ≠ some r) ∧ ∀ l, ∀ w ∈ s.listOf l, w.route ≠ r
    (¬consistent → exec (.routeWrite p) s = .next (s.answered p [f.reply .invalid []])) ∧
    (consistent → ¬unused → exec (.routeWrite p) s = .next (s.answered p [f.reply .busy []])) ∧
    (consistent → unused → exec (.routeWrite p) s = .next { s.answered p [f.reply .ok []] with table := after })

/-- A ring write is refused INVALID by the tests of R16 and else replaces the ring of its position, band and port kind alone
(section 1.6); a fault configuration write is refused INVALID outside the kind's severities and else replaces the kind's entry
alone (section 1.10). That a ring write of more than 4 routes has the length that its count calls for, so that it is INVALID and not
BAD_REQUEST, is assumption 10. -/
def Obligations.RingAndFaultWritesStore : Prop :=
  (∀ (s : State) (p : Position) (f : Frame) (q : Position) (b : Band) (k : PortKind) (rs : List Route),
    Offers s p f 1 → s.WritesOpen → f.kind = 0x0A → rs.length < 256 →
    f.payload = [4, byte q.val, byte b.val, byte k.code, byte rs.length] ++ rs.map (fun r => byte r.val) →
    let consistent : Prop := rs.length ≤ 4 ∧ rs.Nodup ∧ ∀ r ∈ rs, s.portOf (s.routeOf r).line = k
    (¬consistent → exec (.ringWrite p) s = .next (s.answered p [f.reply .invalid []])) ∧
    (consistent → ∃ t, exec (.ringWrite p) s = .next t ∧
      { t with table := s.table } = s.answered p [f.reply .ok []] ∧ { t.table with rings := s.table.rings } = s.table ∧
      t.ringOf q b k = rs ∧ ∀ q' b' k', (q', b', k') ≠ (q, b, k) → t.ringOf q' b' k' = s.ringOf q' b' k')) ∧
  ∀ (s : State) (p : Position) (f : Frame) (k : FaultKind) (c : FaultConfig),
    Offers s p f 1 → s.WritesOpen → f.kind = 0x0A → f.payload = [7, byte k.number] ++ c.bytes →
    let allowed : Prop :=
      match k with
      | .ungrantedRf | .hotSwitch => c.severity = .fatal
      | .chainMismatch => c.severity = .fatal ∨ c.severity = .major
      | _ => True
    (¬allowed → exec (.faultConfigurationWrite p) s = .next (s.answered p [f.reply .invalid []])) ∧
    (allowed → exec (.faultConfigurationWrite p) s =
      .next { s.answered p [f.reply .ok []] with table := { s.table with faults := put s.table.faults k.index c } })

/-- SAVE is refused in the order bad payload, not READY, locked, save in progress, and else takes the snapshot, the requester
and the save state SAVING, with a sum in the image that does not match until the write has ended well (sections 10.1 and 10.2). At the
end of the write the save state is IDLE, an OK leaves the marker, the version, the snapshot and the sum of all their bytes in the image,
a FAILED leaves the image as the write has left it and is handed to the Fault Log, and SAVE_DONE goes to the requester while it is
PRESENT; with 6 frames queued it is dropped, which sets the notice-lost flag and hands NOTICE_DROP over (section 9.5, R181). That the
image is bad from the accepted SAVE on, and that its other parts stand meanwhile, is assumption 19, and the sum that does not match is a
free value; the bytes of marker and version are free values of assumption 6. -/
def Obligations.SaveTaken : Prop :=
  (∀ (s : State) (p : Position) (f : Frame), Offers s p f 1 → f.kind = 0x0B →
    let answers (c : Code) : Prop := exec (.save p) s = .next (s.answered p [f.reply c []])
    (f.payload ≠ [] → answers .badRequest) ∧
    (f.payload = [] → s.store.ready ≠ .ready → answers .notReady) ∧
    (f.payload = [] → s.store.ready = .ready → s.locked = true → answers .locked) ∧
    (f.payload = [] → s.store.ready = .ready → s.locked = false → s.store.saving = true → answers .busy) ∧
    (f.payload = [] → s.store.ready = .ready → s.locked = false → s.store.saving = false → ∃ v : BitVec 16,
      (v = Config.unfinishedSum s.store.nv.writes ∨
        Config.unfinishedSum s.store.nv.writes = byteSum (s.store.nv.marker ++ s.store.nv.version ++ s.store.nv.table.bytes)) ∧
      v ≠ byteSum (s.store.nv.marker ++ s.store.nv.version ++ s.store.nv.table.bytes) ∧
      exec (.save p) s = .next { s.answered p [f.reply .ok []] with
        store := { s.store with saving := true, snapshot := some s.table, requester := some p,
                                nv := { s.store.nv with sum := v, writes := s.store.nv.writes + 1 } } })) ∧
  ∀ (s : State) (p : Position) (x : Table), s.powered = true → s.store.saving = true → s.store.snapshot = some x →
    s.store.requester = some p →
    let idle : Store := { s.store with saving := false, snapshot := none, requester := none }
    let told (r : Byte) : State → State := fun t =>
      if s.present p = false then t
      else if (s.link p).queue.length < 6 then
        t.withLink p { s.link p with queue := (s.link p).queue ++ [{ kind := 0x47, payload := [r] }], sending := true }
      else { t.withLink p { s.link p with noticeLost := true } with
        inbox := t.inbox ++ [.occurred { kind := .noticeDrop, pos := some p, line := none, band := none, detail := .dropped 0x47 }] }
    exec (.saveWriteEnd .ok) s = .next (told 0 { s with
      store := { idle with nv := { s.store.nv with
        marker := Config.formatMarker, version := Config.formatVersion, table := x
        sum := byteSum (Config.formatMarker ++ Config.formatVersion ++ x.bytes) } } }) ∧
    exec (.saveWriteEnd .failed) s = .next (told 1 { s with
      store := idle
      inbox := s.inbox ++ [.occurred { kind := .storeFault, pos := some p, line := none, band := none,
                                       detail := .store .write }] })

/-- A band write (section 1.2): refused INVALID by the tests of R5, R6 and R18, BUSY while a position is on the air; else the
entry is replaced whole, the reply is handed over first, and every position is decoded again with no confirm count, its band,
out-of-band flag and filter target as R36 gives them; nobody is revoked. The label is the characters before the first 0x00 of its
field (R185). That enabled is sent as a flag, 1 for yes, is assumption 15. -/
def Obligations.BandWriteRedecodes : Prop :=
  ∀ (s : State) (p : Position) (f : Frame) (i : Band) (e : BandEntry) (cs : List Byte), Offers s p f 1 → s.WritesOpen →
    f.kind = 0x0A → e.lower < 2 ^ 24 → e.upper < 2 ^ 24 → cs.length = 6 → e.label = cs.takeWhile (fun c => c ≠ 0) →
    f.payload = [0, byte i.val] ++ bigEndian 3 e.lower ++ bigEndian 3 e.upper ++ [byte e.filter.val] ++ cs ++ [flag e.enabled] →
    let after : Table := { s.table with bands := put s.table.bands i e }
    let consistent : Prop :=
      e.lower ≤ 600000 ∧ e.upper ≤ 600000 ∧ e.lower ≤ e.upper ∧ (∀ c ∈ e.label, 0x20 ≤ c.toNat ∧ c.toNat ≤ 0x7E) ∧
      (e.enabled = true → ∀ j, j ≠ i → (s.table.bands.get j).enabled = true →
        e.upper < (s.table.bands.get j).lower ∨ (s.table.bands.get j).upper < e.lower) ∧
      s.fits after = true
    (¬consistent → exec (.bandWrite p) s = .next (startRule (s.answered p [f.reply .invalid []]))) ∧
    (consistent → s.anyOnAir = true → exec (.bandWrite p) s = .next (startRule (s.answered p [f.reply .busy []]))) ∧
    (consistent → s.anyOnAir = false → ∃ t, exec (.bandWrite p) s = .next t ∧
      Served (.table :: .freq :: allocParts) p (f.reply .ok []) s t ∧ t.table = after ∧
      (∀ q, (t.txOf q).lastRevocation = (s.txOf q).lastRevocation) ∧
      ∀ q, (t.freqOf q).rx = (s.freqOf q).rx ∧ (t.freqOf q).tx = (s.freqOf q).tx ∧ (t.freqOf q).width = (s.freqOf q).width ∧
        (t.freqOf q).stale = (s.freqOf q).stale ∧ (t.freqOf q).staleTimer = (s.freqOf q).staleTimer ∧
        (t.freqOf q).candidate = none ∧ (t.freqOf q).count = 0 ∧
        (t.freqOf q).band =
          (match (s.freqOf q).transmit with
            | some x => decodeBand after.bands x
            | none => (s.freqOf q).band.filter fun b => (after.bands.get b).enabled) ∧
        (t.freqOf q).outOfBand =
          (match (s.freqOf q).transmit with
            | some x => (decodeBand after.bands x).isNone
            | none => (s.freqOf q).outOfBand) ∧
        (((t.freqOf q).band ≠ (s.freqOf q).band ∨ (t.freqOf q).band.isSome = true) →
          (t.filterOf q).target = (t.freqOf q).band.map fun b => (after.bands.get b).filter))

/-- A station policy write (section 1.8): each numeric field is clamped into its range and the reply ADJUSTED where one was;
refused INVALID where a relay in use would lie beyond the chain, BUSY where K would fall below the positions on the air; else
the entry is replaced whole, the chain length acts on the driver as R21 gives, and the advisory flags stand by the new values. A
t_verify of 0 stops the verify timer; a change from 0 starts it with the new interval where no operation is in flight, outside safe
state; a running timer keeps its interval. -/
def Obligations.PolicyWriteClamps : Prop :=
  ∀ (s : State) (p : Position) (f : Frame) (q : Policy), Offers s p f 1 → s.WritesOpen → f.kind = 0x0A →
    (∀ n ∈ [q.tDeb, q.tSettle, q.tTail, q.tHang, q.tStale, q.tLink, q.tVerify, q.k, q.c, q.nMax, q.gBase, q.chainLength], n < 256) →
    f.payload = 5 :: q.bytes →
    let new : Policy := { q with
      tDeb := max 1 (min 15 q.tDeb), tSettle := max 2 q.tSettle, tStale := max 1 (min 60 q.tStale),
      tLink := max 1 (min 60 q.tLink), tVerify := min 60 q.tVerify, k := max 1 (min 6 q.k), c := max 1 (min 4 q.c),
      nMax := max 2 (min 5 q.nMax), chainLength := max 1 (min 32 q.chainLength) }
    let fits : Prop := s.fits { s.table with policy := new } = true
    (¬fits → exec (.stationPolicyWrite p) s = .next (startRule (s.answered p [f.reply .invalid []]))) ∧
    (fits → new.k < s.onAirCount → exec (.stationPolicyWrite p) s = .next (startRule (s.answered p [f.reply .busy []]))) ∧
    (fits → s.onAirCount ≤ new.k → ∃ t, exec (.stationPolicyWrite p) s = .next t ∧
      Served (.table :: .chain :: airParts) p (f.reply (if new = q then .ok else .adjusted) []) s t ∧
      t.table = { s.table with policy := new } ∧
      (∀ x, x ∈ t.advisory ↔ x ∈ pairs ∧ t.advisoryHolds x = true) ∧
      (new.chainLength ≠ s.policy.chainLength → s.chain.op = none → t.chain.content = none ∧ t.chain.refreshDue = true) ∧
      (new.chainLength ≠ s.policy.chainLength → s.chain.op.isSome = true → t.chain.lengthDue = true ∧ t.chain.op = s.chain.op ∧
        t.chain.content = s.chain.content) ∧
      (new.chainLength = s.policy.chainLength → t.chain.content = s.chain.content ∧ t.chain.refreshDue = s.chain.refreshDue) ∧
      (new.tVerify = 0 → t.chain.verifyTimer = none) ∧
      (s.policy.tVerify = 0 → new.tVerify ≠ 0 → s.chain.op = none → s.safe = false → t.chain.op = none →
        t.chain.verifyTimer = some (1000 * new.tVerify)) ∧
      (new.tVerify ≠ 0 → s.policy.tVerify ≠ 0 ∨ s.chain.op.isSome = true ∨ s.safe = true → s.chain.verifyTimer.isSome = true →
        t.chain.op = s.chain.op → t.chain.verifyTimer = s.chain.verifyTimer))

/-- A position settings write (section 1.9, and R198): priority, D and E are clamped and the reply ADJUSTED where one was; the entry
is replaced whole, the port is given the divisor, at once where it is idle, and the advisory flags stand by the new values. A
divisor that waits is replaced, and the reply to a write on the port itself goes before the change. That a write on another port,
which replaces that write's divisor, leaves the wait for its reply as it is, is the model's choice (assumption 14). Whether a start bit
is being confirmed at the write, so that the port is not idle, is a free value (assumption 26). -/
def Obligations.SettingsWriteClamps : Prop :=
  ∀ (s : State) (p : Position) (f : Frame) (q : Position) (x : Settings), Offers s p f 1 → s.WritesOpen → f.kind = 0x0A →
    x.priority < 256 → x.divisor < 65536 → x.eighths < 256 → f.payload = [6, byte q.val] ++ x.bytes →
    let new : Settings := { x with priority := min 3 x.priority, divisor := max 1 (min 4095 x.divisor), eighths := min 7 x.eighths }
    ∃ t, exec (.positionSettingsWrite p) s = .next t ∧
      (∀ y, y ∉ [Part.table, .tx, .waiting, .advisory, .links, .inbox] → s.same t y) ∧ s.inbox <+: t.inbox ∧
      t.table = { s.table with settings := put s.table.settings q new } ∧
      (∀ y, y ∈ t.advisory ↔ y ∈ pairs ∧ t.advisoryHolds y = true) ∧
      (s.link p).queue ++ [f.reply (if new = x then .ok else .adjusted) []] <+: (t.link p).queue ∧
      (t.link p).slots = (s.link p).slots.tail ∧
      (∀ j, j ≠ q → (t.link j).divisor = (s.link j).divisor ∧ (t.link j).waitingDivisor = (s.link j).waitingDivisor) ∧
      (q ≠ p → (s.link q).receiver = .hunting → (s.link q).queue = [] → (s.link q).sending = false →
        let bit : Bool := Config.startBit q (s.link q).looks
        (t.link q).startBit = bit ∧
          (t.link q).divisor = (if bit then (s.link q).divisor else (new.divisor, new.eighths)) ∧
          (t.link q).waitingDivisor = if bit then some (new.divisor, new.eighths) else none) ∧
      (q = p ∨ (s.link q).receiver ≠ .hunting ∨ (s.link q).sending = true →
        (t.link q).divisor = (s.link q).divisor ∧ (t.link q).waitingDivisor = some (new.divisor, new.eighths)) ∧
      (q = p → (t.link q).divisorWait = (s.link p).queue.length + 1) ∧
      (q ≠ p → (s.link q).divisorWait ≤ (s.link q).queue.length → (t.link q).divisorWait = (s.link q).divisorWait)

/-! ## Frequency reports -/

/-- An accepted FREQ stores its fields as clamped, starts the stale timer, clears the stale flag, is decoded, and is answered before
any notice; the BAND notice follows it where band or a flag differs from the values last sent (section 2.7, R39), and that it stands
directly behind the reply, before any notice of the band-change event, is assumption 7; a band-change event revokes the position,
sets its filter target, and makes the ring claim of each kind that the position follows on, where one is needed (section 4.4, R84),
or in safe state sets its follow due (R86); a position that lost a line to the ring claim is told (R82). What it keeps is stated for
a t_tail above 0 and a position in no wait list. Any other length is refused. What a report does to the record's band, flag and
candidate run (sections 2.2 to 2.4): an unknown report (R29), one that decodes to no band (R32), and one that decodes to a band with
the out-of-band flag clear or set (R31, R33). That a stored reroute names no route is assumption 8. -/
def Obligations.FreqReportTaken : Prop :=
  (∀ (s : State) (p : Position) (f : Frame) (rx w : Nat) (tx : Option Nat), Offers s p f 1 → f.kind = 0x02 →
    rx < 2 ^ 32 → w < 256 → (∀ n, tx = some n → n < 2 ^ 32) →
    f.payload = bigEndian 4 rx ++ [byte w] ++ tx.elim [] (bigEndian 4) →
    let lowered : Prop := 6000000 < rx ∨ 30 < w ∨ 6000000 < tx.getD 0
    ∃ t, exec (.freq p) s = .next t ∧
      Served (.freq :: allocParts) p (f.reply (if lowered then .adjusted else .ok) []) s t ∧
      (t.freqOf p).rx = (if rx = 0 then none else some (min rx 6000000)) ∧
      (t.freqOf p).tx = (tx.bind fun n => if n = 0 then none else some (min n 6000000)) ∧
      (t.freqOf p).width = min w 30 ∧ (t.freqOf p).stale = false ∧ (t.freqOf p).staleTimer = some (s.policy.tStale * 1000) ∧
      (∀ q, q ≠ p → t.freqOf q = s.freqOf q) ∧
      (let r := { s.freqOf p with rx := (t.freqOf p).rx, tx := (t.freqOf p).tx }.decoded s.table.bands s.policy.c
       (t.freqOf p).band = r.band ∧ (t.freqOf p).outOfBand = r.outOfBand ∧ (t.freqOf p).candidate = r.candidate ∧
         (t.freqOf p).count = r.count) ∧
      ((t.freqOf p).band = (s.freqOf p).band → (t.filterOf p).target = (s.filterOf p).target) ∧
      ((t.freqOf p).band ≠ (s.freqOf p).band →
        (t.filterOf p).target = (t.freqOf p).band.map (fun b => (s.table.bands.get b).filter) ∧
        (s.TransmitCoherent →
          ((s.txOf p).state = .granted → (t.txOf p).state = .revoked ∧ (t.txOf p).lastRevocation = some .band) ∧
          ((s.txOf p).state = .hang → (t.txOf p).state = .idle ∧ (t.txOf p).lastRevocation = some .band))) ∧
      (s.present p = true → (s.link p).queue.length < 5 →
        ((t.freqOf p).band ≠ (s.freqOf p).sentBand ∨ (t.freqOf p).outOfBand ≠ (s.freqOf p).sentOutOfBand ∨
          (s.freqOf p).sentStale = true) →
        (s.link p).queue ++ [f.reply (if lowered then .adjusted else .ok) [],
          { kind := 0x43, payload := [optByte ((t.freqOf p).band.map (·.val)), flag (t.freqOf p).outOfBand, 0] }]
            <+: (t.link p).queue) ∧
      (s.present p = true →
        (t.freqOf p).sentBand = (t.freqOf p).band ∧ (t.freqOf p).sentOutOfBand = (t.freqOf p).outOfBand ∧
          (t.freqOf p).sentStale = false) ∧
      ∀ b k, (t.freqOf p).band = some b → (s.freqOf p).band ≠ some b → s.AllocationKeyed → s.OneHeld → s.ReclaimsHeld →
        let kept : Prop := 0 < s.policy.tTail → s.WaitsNowhere p → t.standingRoutes p k = s.standingRoutes p k
        ((s.standing p k).follow = false → t.standing p k = s.standing p k ∧ kept) ∧
        ((s.standing p k).follow = true → s.claimNeeded p k b = false → (t.standing p k).due = false ∧ kept) ∧
        ((s.standing p k).follow = true → s.claimNeeded p k b = true → s.safe = true → (t.standing p k).due = true ∧ kept) ∧
        ((s.standing p k).follow = true → s.claimNeeded p k b = true → s.safe = false → s.isReady = true →
          RingClaimed p k b s t ∧ ((∀ x ∈ s.ringOf p b k, ¬s.RingCandidate p k b x) → kept))) ∧
  (∀ (s : State) (p : Position) (f : Frame), Offers s p f 1 → f.kind = 0x02 → f.payload.length ≠ 5 → f.payload.length ≠ 9 →
    exec (.freq p) s = .next (startRule (s.answered p [f.reply .badRequest []]))) ∧
  ∀ (r : FreqRecord) (bands : Vector BandEntry 12) (need : Nat),
    (r.tx = none → r.rx = none → r.decoded bands need = { r with candidate := none, count := 0 }) ∧
    ∀ x, (r.tx = some x ∨ (r.tx = none ∧ r.rx = some x)) →
      (decodeBand bands x = none → r.decoded bands need = { r with outOfBand := true, candidate := none, count := 0 }) ∧
      ∀ c, decodeBand bands x = some c →
        let n := if r.candidate = some c then r.count + 1 else 1
        (r.outOfBand = false → r.band = some c → r.decoded bands need = { r with candidate := none, count := 0 }) ∧
        (r.outOfBand = true ∨ r.band ≠ some c → need ≤ n →
          r.decoded bands need = { r with band := some c, outOfBand := false, candidate := none, count := 0 }) ∧
        (r.outOfBand = true ∨ r.band ≠ some c → n < need → r.decoded bands need = { r with candidate := some c, count := n })

/-- A stale expiry sets the stale flag, stops the timer and hands FREQ_STALE to the Fault Log; the BAND notice follows while the
position is PRESENT and the flags differ from those last sent; with 6 frames queued it is dropped, which queues nothing, sets the
notice-lost flag and hands NOTICE_DROP over with the position and the notice's kind (section 9.5, R181). The rest of the record is held
(section 2.5). -/
def Obligations.StaleExpiryTaken : Prop :=
  ∀ (s : State) (p : Position), s.powered = true → (s.freqOf p).staleTimer.isSome = true →
    ∃ t, exec (.staleExpiry p) s = .next t ∧ Moved (.freq :: airParts) s t ∧
      s.inbox ++ [.occurred { kind := .freqStale, pos := some p, line := none, band := (s.freqOf p).band, detail := .none }]
        <+: t.inbox ∧
      (∀ q, q ≠ p → t.freqOf q = s.freqOf q) ∧
      (let r := s.freqOf p
       t.freqOf p = { r with
         stale := true, staleTimer := none
         sentBand := if s.present p then r.band else r.sentBand
         sentOutOfBand := if s.present p then r.outOfBand else r.sentOutOfBand
         sentStale := s.present p || r.sentStale }) ∧
      (s.present p = true → (s.freqOf p).sentStale = false → (s.link p).queue.length < 6 →
        (s.link p).queue ++ [{ kind := 0x43, payload := [optByte ((s.freqOf p).band.map (·.val)), flag (s.freqOf p).outOfBand, 1] }]
          <+: (t.link p).queue) ∧
      (s.present p = true → (s.freqOf p).sentStale = false → 6 ≤ (s.link p).queue.length →
        (t.link p).queue = (s.link p).queue ∧ (t.link p).noticeLost = true ∧
          s.inbox ++ [.occurred { kind := .freqStale, pos := some p, line := none, band := (s.freqOf p).band, detail := .none },
            .occurred { kind := .noticeDrop, pos := some p, line := none, band := none, detail := .dropped 0x43 }] <+: t.inbox)

/-! ## Claims -/

/-- A CLAIM of any manner that passes the tests of R52, by a position without a record on the line, of a line that can be had
(section 3.4, R58 and R63): the reply OK comes first, the position has a PENDING or MAKING record with the route, its entries of the
port kind are withdrawn, and its records of the kind on other lines are left or are leaving. Where it had none, nobody else's record
or entry changes but for a PENDING record that may now be made, and the new record is MAKING exactly when the path is quiet and no
record on the line is BREAKING. That a stored reroute names no route is assumption 8. -/
def Obligations.ClaimAssignsLine : Prop :=
  ∀ (s : State) (p : Position) (f : Frame) (r : Route) (m : Manner), Offers s p f 1 → f.kind = 0x03 →
    f.payload = [byte r.val, byte m.code] → s.isReady = true → s.safe = false → s.routeEnabled r = true →
    s.AllocationKeyed → s.ReclaimsHeld →
    let l := (s.routeOf r).line
    let k := s.portOf l
    s.reservedFrom l p = false → s.recordAt p l = none →
    (s.recordsOn l = [] ∨ (k = .aux ∧ (∀ x ∈ s.recordsOn l, x.route = r) ∧
      (s.recordsOn l).length < (s.lineOf l).ports ∧ ∀ e ∈ s.listOf l, e.manner ≠ .take)) →
    ∃ t h, exec (claimCommand p m) s = .next t ∧ Served allocParts p (f.reply .ok []) s t ∧
      t.recordAt p l = some h ∧ h.route = r ∧ h.kind = k ∧ h.latched = false ∧ h.breakRequested = false ∧ h.reroute = none ∧
      (h.state = .pending ∨ h.state = .making) ∧
      (∀ j, s.portOf j = k → ∀ e ∈ t.listOf j, e.pos ≠ p) ∧
      (∀ x ∈ t.alloc.records, x.pos = p → x.kind = k → x.line ≠ l → x.state = .breaking) ∧
      ((∀ x ∈ s.alloc.records, x.pos = p → x.kind ≠ k) →
        (h.state = .making ↔ s.pathQuiet p = true ∧ ∀ x ∈ s.recordsOn l, x.state ≠ .breaking) ∧
        (∀ q, q ≠ p → s.RecordsKept t q) ∧
        ∀ j, t.listOf j = if s.portOf j = k then (s.listOf j).filter (fun e => e.pos ≠ p) else s.listOf j)

/-- A CLAIM, of any manner, of a line on which the position has a record that is not BREAKING (section 3.4, R56 and R57): OK,
its entries of the kind withdrawn. The record's own route clears a stored reroute; another route replaces the route, with a
CONNECTED record going to MAKING, or is stored while a CONNECTED record's path is not quiet. On a MAIN line nothing else
changes, but for a PENDING record that may be made. -/
def Obligations.ClaimOfHeldLine : Prop :=
  ∀ (s : State) (p : Position) (f : Frame) (r : Route) (m : Manner) (h : Holder), Offers s p f 1 → f.kind = 0x03 →
    f.payload = [byte r.val, byte m.code] → s.isReady = true → s.safe = false → s.routeEnabled r = true →
    s.AllocationKeyed → s.ReclaimsHeld →
    let l := (s.routeOf r).line
    let k := s.portOf l
    s.reservedFrom l p = false → s.recordAt p l = some h → h.state ≠ .breaking →
    (h.route = r ∨ k = .main ∨ ∀ x ∈ s.recordsOn l, x.pos = p) →
    ∃ t h', exec (claimCommand p m) s = .next t ∧ Served allocParts p (f.reply .ok []) s t ∧ t.recordAt p l = some h' ∧
      (∀ j, s.portOf j = k → ∀ e ∈ t.listOf j, e.pos ≠ p) ∧
      (let want : Holder :=
        if h.route = r then { h with reroute := none }
        else if h.state = .connected then
          if s.pathQuiet p then { h with route := r, reroute := none, state := .making } else { h with reroute := some r }
        else { h with route := r, reroute := none }
       h' = want ∨ (want.state = .pending ∧ h' = { want with state := .making })) ∧
      (k = .main → (∀ q, q ≠ p → s.RecordsKept t q) ∧
        ∀ j, t.listOf j = if s.portOf j = k then (s.listOf j).filter (fun e => e.pos ≠ p) else s.listOf j)

/-- A refused CLAIM changes nothing but its port, whatever its manner (section 3.4): the tests of R52 in their order, then CONFLICT
on a shared RX line, UNAVAILABLE for NOW on an occupied line, BUSY for a second TAKE of an RX line, and OUTRANKED. That a malformed
CLAIM may be taken by any of its three rows is assumption 10, and that a refused CLAIM keeps the re-claim line is assumption 21.
That a stored reroute names no route is assumption 8. -/
def Obligations.ClaimsTurnedAway : Prop :=
  ∀ (s : State) (p : Position) (f : Frame) (m : Manner), Offers s p f 1 → f.kind = 0x03 →
    let refused (c : Code) : Prop := exec (claimCommand p m) s = .next (startRule (s.answered p [f.reply c []]))
    ((f.payload.length ≠ 2 ∨ 3 ≤ byteAt f.payload 1) → refused .badRequest) ∧
    ∀ n : Byte, f.payload = [n, byte m.code] →
      (s.isReady = false → refused .notReady) ∧
      (s.isReady = true → s.safe = true → refused .safe) ∧
      (s.isReady = true → s.safe = false → 48 ≤ n.toNat → refused .badIndex) ∧
      ∀ r : Route, n = byte r.val → s.isReady = true → s.safe = false →
        let l := (s.routeOf r).line
        let occupied : Prop := s.routeEnabled r = true ∧ s.reservedFrom l p = false ∧ s.recordAt p l = none ∧
          s.canBeHad l r = false
        (s.routeEnabled r = false → refused .invalid) ∧
        (s.routeEnabled r = true → s.reservedFrom l p = true → refused .reserved) ∧
        (s.routeEnabled r = true → s.reservedFrom l p = false → s.breakingOn p l = true → refused .busy) ∧
        (s.routeEnabled r = true → s.reservedFrom l p = false → s.breakingOn p l = false → s.AllocationKeyed →
          s.portOf l = .aux → (∃ h, s.recordAt p l = some h ∧ h.route ≠ r) → (∃ x ∈ s.recordsOn l, x.pos ≠ p) →
          refused .conflict) ∧
        (occupied → m = .now → refused .unavailable) ∧
        (occupied → m = .take → s.portOf l = .aux → (∃ e ∈ s.listOf l, e.manner = .take) → refused .busy) ∧
        (occupied → m = .take → (s.portOf l = .main ∨ ∀ e ∈ s.listOf l, e.manner ≠ .take) →
          (∃ x ∈ s.recordsOn l, (s.settingsOf p).priority ≤ (s.settingsOf x.pos).priority) → refused .outranked)

/-- A CLAIM of manner WAIT of an occupied line (section 3.4, R59; section 3.3, R50 and R51): QUEUED with the entry's place; an entry
already in the line's list keeps its place and takes the route, and a new one stands behind every entry of equal or higher priority
and before the others; the position's entries in other lists of the kind are withdrawn, and records stay. That a TAKE entry of the
position in the line's list keeps its manner, and its place with it, is assumption 21. That a stored reroute names no route is
assumption 8. -/
def Obligations.ClaimWaitQueues : Prop :=
  ∀ (s : State) (p : Position) (f : Frame) (r : Route), Offers s p f 1 → f.kind = 0x03 → f.payload = [byte r.val, 0] →
    s.isReady = true → s.safe = false → s.routeEnabled r = true → s.AllocationKeyed → s.ListsOrdered → s.ReclaimsHeld →
    let l := (s.routeOf r).line
    let k := s.portOf l
    s.reservedFrom l p = false → s.recordAt p l = none → s.canBeHad l r = false →
    ∃ t, exec (.claimWait p) s = .next t ∧ Served allocParts p (f.reply .queued [byte (t.placeIn p l)]) s t ∧
      (∀ q, s.RecordsKept t q) ∧ (t.txOf p).state = (s.txOf p).state ∧
      (∀ j, j ≠ l → t.listOf j = if s.portOf j = k then (s.listOf j).filter (fun e => e.pos ≠ p) else s.listOf j) ∧
      ((∃ e ∈ s.listOf l, e.pos = p) → t.listOf l = (s.listOf l).map fun e => if e.pos = p then { e with route := r } else e) ∧
      ((∀ e ∈ s.listOf l, e.pos ≠ p) → ∃ front back e, s.listOf l = front ++ back ∧ t.listOf l = front ++ [e] ++ back ∧
        e.pos = p ∧ e.route = r ∧ e.manner = .wait ∧ e.priority = (s.settingsOf p).priority ∧
        (e.move = true ↔ ∃ x ∈ s.alloc.records, x.pos = p ∧ x.kind = k ∧ x.line ≠ l) ∧
        (∀ x ∈ front, x.manner = .take ∨ e.priority ≤ x.priority) ∧ ∀ x ∈ back, x.manner = .wait ∨ x.manner = .now → x.priority < e.priority)

/-- A TAKE of an occupied line whose records all belong to positions of lower priority (section 3.4, R61 and R62): the victims'
records are leaving or gone, the victims are revoked with cause TAKEN, and the taker has the line's next record, or, on an RX line
while records remain, the TAKE entry at the head of its list. The waiters of a MAIN line keep their order. That a victim in HANG has
the cause TAKEN rests on the revoke event being taken before the MAIN release event, which is assumption 24. That a stored reroute
names no route is assumption 8. -/
def Obligations.ClaimTakesLine : Prop :=
  ∀ (s : State) (p : Position) (f : Frame) (r : Route), Offers s p f 1 → f.kind = 0x03 → f.payload = [byte r.val, 2] →
    s.isReady = true → s.safe = false → s.routeEnabled r = true → s.AllocationKeyed → s.ReclaimsHeld → s.TransmitCoherent →
    let l := (s.routeOf r).line
    s.reservedFrom l p = false → s.recordAt p l = none → s.canBeHad l r = false →
    (∀ x ∈ s.recordsOn l, (s.settingsOf x.pos).priority < (s.settingsOf p).priority) →
    (s.portOf l = .main ∨ ∀ e ∈ s.listOf l, e.manner ≠ .take) →
    ∃ t, exec (.claimTake p) s = .next t ∧
      Served allocParts p (if (t.recordAt p l).isSome then f.reply .ok [] else f.reply .queued [1]) s t ∧
      (∀ h, t.recordAt p l = some h → h.route = r ∧ (h.state = .pending ∨ h.state = .making)) ∧
      (s.portOf l = .main → (t.recordAt p l).isSome = true ∧
        (∀ x ∈ t.recordsOn l, x.pos ≠ p → x.state = .breaking) ∧
        List.Sublist (((s.listOf l).map fun e => e.pos).filter fun q => q ≠ p) ((t.listOf l).map fun e => e.pos)) ∧
      (s.portOf l = .aux → (t.recordAt p l).isSome = true ∨
        ∃ e, (t.listOf l).head? = some e ∧ e.pos = p ∧ e.route = r ∧ e.manner = .take) ∧
      ∀ x ∈ s.recordsOn l, x.state ≠ .breaking →
        ((s.standing x.pos (s.portOf l)).follow = false → ∀ y ∈ t.recordsOn l, y.pos = x.pos → y.state = .breaking) ∧
        ((s.txOf x.pos).state = .granted → (t.txOf x.pos).state = .revoked ∧ (t.txOf x.pos).lastRevocation = some .taken) ∧
        ((s.txOf x.pos).state = .hang → (t.txOf x.pos).state = .idle ∧ (t.txOf x.pos).lastRevocation = some .taken) ∧
        (s.present x.pos = true → (t.link x.pos).queue.length < 6 →
          { kind := 0x42, payload := [byte (s.portOf l).code, byte l.val, 0] } ∈ (t.link x.pos).queue)

/-! ## STEP, FOLLOW, RELEASE, CANCEL -/

/-- STEP (section 4.5): refused in the order of R88 with nothing changed; else the first entry of the walk that qualifies is claimed
and named in the reply, the follow due and re-claim line of the kind are cleared and the follow flag kept. The walk goes round the
ring from the current route, forward or back, or over the whole ring where there is none; the current route is the stored reroute, else
the route, of the position's record of the kind that is not BREAKING, else none (R89). An entry qualifies as R90, R80 and
R52 say: it is usable on the kind, its line is not reserved for another, carries no BREAKING record of the position and is no shared
RX line of it on another route, and the line can be had or carries a record of the position. A record that stores a reroute names
the route in force until the reroute is applied (assumption 8). -/
def Obligations.StepClaimsNext : Prop :=
  (∀ (s : State) (p : Position) (f : Frame) (k : PortKind) (back : Bool), Offers s p f 1 → f.kind = 0x07 →
    f.payload = [byte k.code, flag back] →
    let refused (c : Code) : Prop := exec (.step p) s = .next (startRule (s.answered p [f.reply c []]))
    (s.isReady = false → refused .notReady) ∧
    (s.isReady = true → s.safe = true → refused .safe) ∧
    (s.isReady = true → s.safe = false → (s.freqOf p).band = none → refused .emptyRing) ∧
    ∀ b, (s.freqOf p).band = some b → s.isReady = true → s.safe = false →
      let visited := walk (s.ringOf p b k) (s.currentRoute p k) (!back)
      (s.ringOf p b k = [] → refused .emptyRing) ∧
      (s.ringOf p b k ≠ [] → (∀ r ∈ visited, s.stepQualifies p k r = false) → refused .busy) ∧
      ∀ r before after, visited = before ++ r :: after → (∀ x ∈ before, s.stepQualifies p k x = false) →
        s.stepQualifies p k r = true → s.AllocationKeyed → s.ReclaimsHeld →
        ∃ t h, exec (.step p) s = .next t ∧ Served allocParts p (f.reply .ok [byte r.val]) s t ∧
          t.recordAt p (s.routeOf r).line = some h ∧ h.state ≠ .breaking ∧ h.reroute.getD h.route = r ∧
          (t.standing p k).follow = (s.standing p k).follow ∧ (t.standing p k).due = false ∧ (t.standing p k).reclaim = none ∧
          ∀ j, s.portOf j = k → ∀ e ∈ t.listOf j, e.pos ≠ p) ∧
  (∀ (s : State) (p : Position) (f : Frame), Offers s p f 1 → f.kind = 0x07 →
    (f.payload.length ≠ 2 ∨ 2 ≤ byteAt f.payload 0 ∨ 2 ≤ byteAt f.payload 1) →
    exec (.step p) s = .next (startRule (s.answered p [f.reply .badRequest []]))) ∧
  (∀ (s : State) (p : Position) (k : PortKind) (r : Route), s.AllocationKeyed →
    let l := (s.routeOf r).line
    let records := s.recordsOn l
    let had : Prop := records = [] ∨ (s.portOf l = .aux ∧ (∀ x ∈ records, x.route = r) ∧
      records.length < (s.lineOf l).ports ∧ ∀ e ∈ s.listOf l, e.manner ≠ .take)
    (s.canBeHad l r = true ↔ had) ∧
    (s.qualifies p r = true ↔ had ∨ ∃ x ∈ records, x.pos = p) ∧
    (s.candidateEntry p k r = true ↔
      ((s.routeOf r).enabled = true ∧ (s.lineOf l).enabled = true ∧
        (∀ e ∈ (s.routeOf r).elements, (s.table.elements.get e).enabled = true) ∧ s.portOf l = k) ∧
      ((s.lineOf l).reserved = none ∨ (s.lineOf l).reserved = some p) ∧
      (∀ x ∈ records, x.pos = p → x.state ≠ .breaking) ∧
      ¬(s.portOf l = .aux ∧ (∃ x ∈ records, x.pos = p ∧ x.route ≠ r) ∧ ∃ x ∈ records, x.pos ≠ p)) ∧
    (s.stepQualifies p k r = true ↔ s.candidateEntry p k r = true ∧ s.qualifies p r = true)) ∧
  (∀ (s : State) (p : Position) (k : PortKind),
    (s.AllocationKeyed → s.OneHeld → ∀ x ∈ s.alloc.records, x.pos = p → x.kind = k → x.state ≠ .breaking →
      s.currentRoute p k = some (x.reroute.getD x.route)) ∧
    ((∀ x ∈ s.alloc.records, x.pos = p → x.kind = k → x.state = .breaking) → s.currentRoute p k = none)) ∧
  ∀ (ring : List Route) (r : Route), ring.Nodup →
    (∀ before after, ring = before ++ r :: after →
      walk ring (some r) true = after ++ before ∧ walk ring (some r) false = (after ++ before).reverse) ∧
    (r ∉ ring → walk ring (some r) true = ring ∧ walk ring (some r) false = ring.reverse) ∧
    walk ring none true = ring ∧ walk ring none false = ring.reverse

/-- FOLLOW with setting on, for one port kind (section 4.2, R78; section 4.3, R79 to R81): refused before READY and in safe state;
else the flag is set, and the reply names what the ring claim came to: nothing needed, the first qualifying candidate claimed, the
first candidate waited for, or no candidate. For BOTH the same holds of each kind, MAIN's three bytes before AUX's. A ring claim is needed where the position is
PRESENT and no standing route covers its band: no reroute, else route, of a record that is not BREAKING, and no route of a wait
entry (R79). The bytes of a kind not named are assumption 11, and that the row takes a malformed FOLLOW is assumption 10. That a
stored reroute names no route is assumption 8. -/
def Obligations.FollowOnClaims : Prop :=
  (∀ (s : State) (p : Position) (f : Frame) (k : PortKind), Offers s p f 1 → f.kind = 0x06 → f.payload = [byte k.code, 1] →
    let refused (c : Code) : Prop := exec (.followOn p) s = .next (startRule (s.answered p [f.reply c []]))
    let part (d : List Byte) : List Byte := if k = .main then d ++ [0xFF, 0xFF, 0xFF] else [0xFF, 0xFF, 0xFF] ++ d
    (s.isReady = false → refused .notReady) ∧
    (s.isReady = true → s.safe = true → refused .safe) ∧
    (s.isReady = true → s.safe = false → s.AllocationKeyed → s.ReclaimsHeld →
      ∃ t d, exec (.followOn p) s = .next t ∧ Served allocParts p (f.reply .ok (part d)) s t ∧
        (t.standing p k).follow = true ∧ (t.standing p k).due = false ∧ (t.standing p k).reclaim = none ∧
        ((s.freqOf p).band = none → d = [0, 0xFF, 0xFF] ∧ ∀ q, s.RecordsKept t q) ∧
        ∀ b, (s.freqOf p).band = some b →
          let candidate (r : Route) : Prop := s.candidateEntry p k r = true ∧ s.covers r b = true
          (s.claimNeeded p k b = false → d = [0, 0xFF, 0xFF] ∧ ∀ q, s.RecordsKept t q) ∧
          (s.claimNeeded p k b = true →
            (∀ r before after, s.ringOf p b k = before ++ r :: after → candidate r → s.qualifies p r = true →
              (∀ x ∈ before, ¬(candidate x ∧ s.qualifies p x = true)) →
              d = [1, byte r.val, 0xFF] ∧ ∃ h, t.recordAt p (s.routeOf r).line = some h ∧ h.state ≠ .breaking ∧
                h.reroute.getD h.route = r) ∧
            (∀ r before after, s.ringOf p b k = before ++ r :: after → candidate r → (∀ x ∈ before, ¬candidate x) →
              (∀ x ∈ s.ringOf p b k, candidate x → s.qualifies p x = false) →
              d = [2, byte (s.routeOf r).line.val, byte (t.placeIn p (s.routeOf r).line)] ∧
                (∃ e ∈ t.listOf (s.routeOf r).line, e.pos = p ∧ e.route = r) ∧ ∀ q, s.RecordsKept t q) ∧
            ((∀ x ∈ s.ringOf p b k, ¬candidate x) →
              d = [3, 0xFF, 0xFF] ∧ (∀ q, s.RecordsKept t q) ∧
                ((t.link p).queue.length < 6 → { kind := 0x48, payload := [byte k.code, byte b.val] } ∈ (t.link p).queue))))) ∧
  (∀ (s : State) (p : Position) (f : Frame), Offers s p f 1 → f.kind = 0x06 → f.payload = [2, 1] →
    let refused (c : Code) : Prop := exec (.followOn p) s = .next (startRule (s.answered p [f.reply c []]))
    (s.isReady = false → refused .notReady) ∧
    (s.isReady = true → s.safe = true → refused .safe) ∧
    (s.isReady = true → s.safe = false → s.AllocationKeyed → s.ReclaimsHeld →
      ∃ t m a, exec (.followOn p) s = .next t ∧ Served allocParts p (f.reply .ok (m ++ a)) s t ∧ m.length = 3 ∧ a.length = 3 ∧
        FollowReported p .main s t m ∧ FollowReported p .aux s t a ∧
        ∀ k, (t.standing p k).follow = true ∧ (t.standing p k).due = false ∧ (t.standing p k).reclaim = none)) ∧
  (∀ (s : State) (p : Position) (k : PortKind) (b : Band),
    s.claimNeeded p k b = true ↔ s.present p = true ∧
      (∀ x ∈ s.alloc.records, x.pos = p → x.kind = k → x.state ≠ .breaking →
        BandSet.has (s.routeOf (x.reroute.getD x.route)).bands b = false) ∧
      ∀ l, s.portOf l = k → ∀ e ∈ s.listOf l, e.pos = p → BandSet.has (s.routeOf e.route).bands b = false) ∧
  ∀ (s : State) (p : Position) (f : Frame), Offers s p f 1 → f.kind = 0x06 →
    (f.payload.length ≠ 2 ∨ 3 ≤ byteAt f.payload 0 ∨ 2 ≤ byteAt f.payload 1) →
    exec (.followOn p) s = .next (startRule (s.answered p [f.reply .badRequest []]))

/-- RELEASE (section 3.6, R67 and R68): OK first; each of the position's records of the named kinds is gone or BREAKING, with its
break requested where the path is quiet; a transmission goes on with skip hang set where a MAIN record left, and HANG ends. A
PENDING record, and a MAKING one whose crosspoint never closed, are removed at once (R45), and a line whose last record is so
removed admits the head of its list (section 3.5, R65). -/
def Obligations.ReleaseSendsBreaking : Prop :=
  (∀ (s : State) (p : Position) (f : Frame) (b : Byte) (ks : List PortKind), Offers s p f 1 → f.kind = 0x04 → f.payload = [b] →
    (b = 0 ∧ ks = [.main]) ∨ (b = 1 ∧ ks = [.aux]) ∨ (b = 2 ∧ ks = [.main, .aux]) →
    s.AllocationKeyed → s.ReclaimsHeld → s.TransmitCoherent →
    ∃ t, exec (.release p) s = .next t ∧ Served allocParts p (f.reply .ok []) s t ∧
      (∀ x ∈ s.alloc.records, x.pos = p → x.kind ∈ ks → ∀ h, t.recordAt p x.line = some h →
        h.state = .breaking ∧ h.reroute = none ∧ (s.pathQuiet p = true → x.state ≠ .breaking → h.breakRequested = true) ∧
        ((s.txOf p).state = .granted → x.state ≠ .breaking → h.breakRequested = false)) ∧
      (∀ x ∈ s.alloc.records, x.pos = p → x.kind ∈ ks →
        x.state = .pending ∨ (x.state = .making ∧ x.latched = false ∧
          ∀ o, s.chain.op = some o → o.image.getLsbD (crosspointBit p x.line) = false) → t.recordAt p x.line = none ∧
        ∀ e es, s.recordsOn x.line = [x] → s.listOf x.line = e :: es → ∃ h, t.recordAt e.pos x.line = some h ∧
          h.route = e.route ∧ (h.state = .pending ∨ h.state = .making) ∧ ∀ y ∈ t.listOf x.line, y.pos ≠ e.pos) ∧
      ((s.txOf p).state = .granted → (t.txOf p).state = .granted) ∧
      ((∃ x ∈ s.alloc.records, x.pos = p ∧ x.kind = .main ∧ .main ∈ ks ∧ (x.state = .making ∨ x.state = .connected)) →
        ((s.txOf p).state = .granted → (t.txOf p).skipHang = true) ∧
        ((s.txOf p).state = .hang → (t.txOf p).state = .idle ∧ (t.txOf p).lastRevocation = (s.txOf p).lastRevocation))) ∧
  ∀ (s : State) (p : Position) (f : Frame), Offers s p f 1 → f.kind = 0x04 →
    (f.payload.length ≠ 1 ∨ 3 ≤ byteAt f.payload 0) →
    exec (.release p) s = .next (startRule (s.answered p [f.reply .badRequest []]))

/-- CANCEL removes the position's entries of the named kinds from their lists, and FOLLOW with setting off clears the follow
state of the named kinds; both answer and change nothing else, at any time after power-on (section 3.6, R69; section 4.2, R78).
The 0xFF bytes of a kind that the FOLLOW does not name are assumption 11, and that the FOLLOW-off row takes a malformed FOLLOW is
assumption 10. -/
def Obligations.CancelAndFollowOff : Prop :=
  (∀ (s : State) (p : Position) (f : Frame) (b : Byte) (ks : List PortKind), Offers s p f 1 → f.kind = 0x05 → f.payload = [b] →
    (b = 0 ∧ ks = [.main]) ∨ (b = 1 ∧ ks = [.aux]) ∨ (b = 2 ∧ ks = [.main, .aux]) →
    ∃ t, exec (.cancel p) s = .next t ∧ { t with alloc := s.alloc } = s.answered p [f.reply .ok []] ∧
      t.alloc.records = s.alloc.records ∧ t.alloc.standings = s.alloc.standings ∧
      ∀ l, t.listOf l = if s.portOf l ∈ ks then (s.listOf l).filter (fun e => e.pos ≠ p) else s.listOf l) ∧
  (∀ (s : State) (p : Position) (f : Frame), Offers s p f 1 → f.kind = 0x05 →
    (f.payload.length ≠ 1 ∨ 3 ≤ byteAt f.payload 0) → exec (.cancel p) s = .next (s.answered p [f.reply .badRequest []])) ∧
  (∀ (s : State) (p : Position) (f : Frame) (b : Byte) (ks : List PortKind) (d : List Byte), Offers s p f 1 → f.kind = 0x06 →
    f.payload = [b, 0] →
    (b = 0 ∧ ks = [.main] ∧ d = [0, 0xFF, 0xFF, 0xFF, 0xFF, 0xFF]) ∨ (b = 1 ∧ ks = [.aux] ∧ d = [0xFF, 0xFF, 0xFF, 0, 0xFF, 0xFF]) ∨
      (b = 2 ∧ ks = [.main, .aux] ∧ d = [0, 0xFF, 0xFF, 0, 0xFF, 0xFF]) →
    ∃ t, exec (.followOff p) s = .next t ∧ { t with alloc := s.alloc } = s.answered p [f.reply .ok d] ∧
      t.alloc.records = s.alloc.records ∧ t.alloc.lists = s.alloc.lists ∧
      ∀ q k, t.standing q k = if q = p ∧ k ∈ ks then { s.standing q k with follow := false, due := false, reclaim := none }
                              else s.standing q k) ∧
  ∀ (s : State) (p : Position) (f : Frame), Offers s p f 1 → f.kind = 0x06 →
    (f.payload.length ≠ 2 ∨ 3 ≤ byteAt f.payload 0 ∨ 2 ≤ byteAt f.payload 1) →
    exec (.followOff p) s = .next (s.answered p [f.reply .badRequest []])


/-! ## The ports -/

/-- What a port's receiver does with a character that completes no frame, with a framing error and with a gap expiry (sections
9.2 and 9.3, R173, R174, R176): it goes to its next state, or the frame ends in LINK_FRAME, or a frame that no slot can take is
skipped under LINK_OVERRUN. A divisor that waits for the receiver's return to HUNTING alone is applied with it (section 11.8, R198): at
the end of a character no start bit is being confirmed, and at a gap expiry that is a free value (assumption 26). That a
receiver is in HUNTING from a framing error on, while the line is still low, is the model's choice (assumption 14). A gap expiry in
HUNTING, where the timer does not run, is no event (assumption 2). -/
def Obligations.CharactersTaken : Prop :=
  ∀ (s : State) (p : Position) (c : Byte), s.powered = true →
    let x := s.link p
    let due : Bool := x.waitingDivisor.isSome && x.divisorWait = 0 && !x.sending
    let bit : Bool := Config.startBit p x.looks
    let moved (r : Receiver) : State := s.withLink p { x with
      receiver := r, startBit := false, sending := x.sending || !x.queue.isEmpty
      divisor := if due = true ∧ r = .hunting then x.waitingDivisor.getD x.divisor else x.divisor
      waitingDivisor := if due = true ∧ r = .hunting then none else x.waitingDivisor }
    let lapsed : State := s.withLink p { x with
      receiver := .hunting, sending := x.sending || !x.queue.isEmpty
      startBit := if due then bit else x.startBit
      looks := if due then x.looks + 1 else x.looks
      divisor := if due && !bit then x.waitingDivisor.getD x.divisor else x.divisor
      waitingDivisor := if due && !bit then none else x.waitingDivisor }
    let logged (k : FaultKind) (d : Detail) (t : State) : State :=
      { t with inbox := s.inbox ++ [.occurred { kind := k, pos := some p, line := none, band := none, detail := d }] }
    let goes (r : Receiver) : Prop := exec (.goodCharacter p c) s = .next (moved r)
    (x.receiver = .hunting → c ≠ 0xC3 → goes .hunting) ∧
    (x.receiver = .hunting → c = 0xC3 → x.slots.length < 2 → goes .length) ∧
    (x.receiver = .hunting → c = 0xC3 → 2 ≤ x.slots.length →
      exec (.skippingStart p) s = .next (logged .linkOverrun .none (moved (.skipping none)))) ∧
    (x.receiver = .length → 1 ≤ c.toNat → c.toNat ≤ 33 → goes (.body c.toNat [])) ∧
    (x.receiver = .length → c.toNat = 0 ∨ 34 ≤ c.toNat →
      exec (.frameError p (.character c)) s = .next (logged .linkFrame (.frame .length) (moved .hunting))) ∧
    (∀ n cs, x.receiver = .body n cs →
      goes (if cs.length + 1 = n then .check n (cs ++ [c]) else .body n (cs ++ [c]))) ∧
    (∀ n cs, x.receiver = .check n cs → (n + (cs.map fun b => b.toNat).sum + c.toNat) % 256 ≠ 0 →
      exec (.frameError p (.character c)) s = .next (logged .linkFrame (.frame .check) (moved .hunting))) ∧
    (x.receiver = .skipping none →
      goes (if 1 ≤ c.toNat ∧ c.toNat ≤ 33 then .skipping (some (c.toNat + 1)) else .hunting)) ∧
    (∀ n, x.receiver = .skipping (some n) → goes (if n ≤ 1 then .hunting else .skipping (some (n - 1)))) ∧
    ((x.receiver = .length ∨ (∃ n cs, x.receiver = .body n cs ∨ x.receiver = .check n cs)) →
      exec (.frameError p .framing) s = .next (logged .linkFrame (.frame .framing) (moved .hunting)) ∧
      exec (.gapExpiry p) s = .next (logged .linkFrame (.frame .gap) lapsed)) ∧
    (x.receiver = .hunting → exec (.frameError p .framing) s = .next (moved .hunting) ∧ exec (.gapExpiry p) s = .next s) ∧
    ∀ n, x.receiver = .skipping n →
      exec (.frameError p .framing) s = .next (moved .hunting) ∧ exec (.gapExpiry p) s = .next lapsed

/-- The transmitter, the divisor and the silence timer of a port (sections 9.5, 9.6 and R198): a frame that has been sent leaves
the queue and the next starts; a divisor that waited for it is applied between the two, with the receiver in HUNTING and no start bit
being confirmed, so that the next goes at the new rate; a divisor that is due is applied by DIVISOR_CHANGE, and waits while the
receiver is inside a frame or the transmitter is; and a silence discards the slots, makes the position ABSENT, and hands LINK_SILENT
and the absence on. The count of frames that a divisor waits for, and DIVISOR_CHANGE as the end of a start bit that has proved a
glitch, are the model's choice (assumption 14), and whether a start bit is being confirmed at the end of a frame is a free value
(assumption 26). -/
def Obligations.TransmitterAndSilence : Prop :=
  ∀ (s : State) (p : Position), s.powered = true →
    let x := s.link p
    (∀ f rest, x.sending = true → x.queue = f :: rest →
      let due : Bool := x.waitingDivisor.isSome && x.divisorWait ≤ 1 && x.receiver = .hunting
      let bit : Bool := Config.startBit p x.looks
      exec (.frameSent p) s = .next (s.withLink p { x with
        queue := rest, divisorWait := x.divisorWait - 1, sending := !rest.isEmpty
        startBit := if due then bit else x.startBit
        looks := if due then x.looks + 1 else x.looks
        divisor := if due && !bit then x.waitingDivisor.getD x.divisor else x.divisor
        waitingDivisor := if due && !bit then none else x.waitingDivisor })) ∧
    (∀ d, x.waitingDivisor = some d → x.divisorWait = 0 → x.receiver = .hunting → x.sending = false →
      exec (.divisorChange p) s = .next (s.withLink p { x with
        divisor := d, waitingDivisor := none, startBit := false, sending := decide (x.queue ≠ []) })) ∧
    (x.waitingDivisor = none ∨ 0 < x.divisorWait ∨ x.receiver ≠ .hunting ∨ x.sending = true →
      exec (.divisorChange p) s = .next s) ∧
    (x.silenceTimer.isSome = true →
      exec (.linkSilenceExpiry p) s = .next { s.withLink p { x with silenceTimer := none, slots := [], present := false } with
        inbox := s.inbox ++
          [.occurred { kind := .linkSilent, pos := some p, line := none, band := none, detail := .none }]
        handed := s.handed ++ [.absence .bandDecoder p, .absence .lineAllocator p, .absence .transmitInterlock p] })

/-- An absence at each of the three blocks (R35, section 3.9, R110). The Band Decoder sets the stale flag and stops the timer,
without FREQ_STALE; the Line Allocator drops the position's wait entries, sends its records BREAKING, keeps each kind's absence
loss and its follow flag, and clears its follow due and re-claim line; the Transmit Interlock revokes with cause ABSENT. A
return at the Line Allocator and at the Transmit Interlock (R73, R110): LOST with reason ABSENT for each standing absence loss,
MAIN before AUX, and the losses cleared; and an arbiter run. A waiter keeps its place and takes the reason ABSENT. The list of events that wait to be taken is assumption 5, and that
the interlock's absence event runs no arbiter for a position off the air is assumption 23. -/
def Obligations.AbsenceAndReturnTaken : Prop :=
  (∀ (s : State) (p : Position), s.powered = true →
    (s.isNext (.absence .bandDecoder p) = true → ∃ t, exec (.absence .bandDecoder p) s = .next t ∧
      Moved (.handed :: .freq :: allocParts) s t ∧ t.handed = s.handed.erase (.absence .bandDecoder p) ∧
      t.freqOf p = { s.freqOf p with stale := true, staleTimer := none } ∧ (∀ q, q ≠ p → t.freqOf q = s.freqOf q) ∧
      ∀ o, LogEvent.occurred o ∈ t.inbox.drop s.inbox.length → o.kind ≠ .freqStale) ∧
    (s.isNext (.absence .lineAllocator p) = true → s.AllocationKeyed → ∃ t, exec (.absence .lineAllocator p) s = .next t ∧
      Moved (.handed :: allocParts) s t ∧ t.handed = s.handed.erase (.absence .lineAllocator p) ∧
      (∀ l, ∀ e ∈ t.listOf l, e.pos ≠ p) ∧
      (∀ x ∈ t.alloc.records, x.pos = p → x.state = .breaking) ∧
      (∀ x ∈ s.alloc.records, x.pos = p → x.state = .pending → t.recordAt p x.line = none) ∧
      (∀ k, (t.standing p k).follow = (s.standing p k).follow ∧ (t.standing p k).due = false ∧
        (t.standing p k).reclaim = none) ∧
      (∀ x ∈ s.alloc.records, x.pos = p → x.state ≠ .breaking →
        ∃ y ∈ s.alloc.records, y.pos = p ∧ y.kind = x.kind ∧ y.state ≠ .breaking ∧ (t.standing p x.kind).loss = some y.line) ∧
      (s.TransmitCoherent → (∃ x ∈ s.alloc.records, x.pos = p ∧ x.kind = .main ∧ (x.state = .making ∨ x.state = .connected)) →
        ((s.txOf p).state = .granted → (t.txOf p).state = .granted ∧ (t.txOf p).skipHang = true) ∧
        ((s.txOf p).state = .hang → (t.txOf p).state = .idle ∧ (t.txOf p).lastRevocation = (s.txOf p).lastRevocation))) ∧
    (s.isNext (.absence .transmitInterlock p) = true →
      (s.onAir p = false → exec (.absence .transmitInterlock p) s = .next (startRule { s with
        handed := s.handed.erase (.absence .transmitInterlock p)
        tx := if (s.txOf p).state = .waiting then put s.tx p { s.txOf p with reason := some .absent } else s.tx })) ∧
      (s.TransmitCoherent → s.AllocationKeyed → s.onAir p = true → ∃ t, exec (.absence .transmitInterlock p) s = .next t ∧
        Moved (.handed :: allocParts) s t ∧ t.handed = s.handed.erase (.absence .transmitInterlock p) ∧
        LeftAir (if (s.txOf p).state = .granted then .revoked else .idle) s t p ∧
        (t.txOf p).lastRevocation = some .absent))) ∧
  ∀ (s : State) (p : Position), s.powered = true →
    (s.isNext (.positionReturn .lineAllocator p) = true → ∃ t, exec (.positionReturn .lineAllocator p) s = .next t ∧
      Moved [.handed, .alloc, .links, .inbox] s t ∧ t.handed = s.handed.erase (.positionReturn .lineAllocator p) ∧
      t.alloc.records = s.alloc.records ∧ t.alloc.lists = s.alloc.lists ∧
      (∀ q k, t.standing q k = if q = p then { s.standing q k with loss := none } else s.standing q k) ∧
      (s.present p = true → (s.link p).queue.length < 5 → t.inbox = s.inbox ∧
        (t.link p).queue = (s.link p).queue ++ [PortKind.main, .aux].filterMap fun k =>
          (s.standing p k).loss.map fun l => { kind := 0x42, payload := [byte k.code, byte l.val, 1] })) ∧
    (s.isNext (.positionReturn .transmitInterlock p) = true → exec (.positionReturn .transmitInterlock p) s =
      .next (arbiter { s with handed := s.handed.erase (.positionReturn .transmitInterlock p) }))

/-! ## Inputs, power -/

/-- A change of a raw level starts the input's debounce timer with t_deb where raw and debounced level differ and stops it where
they agree (section 5.2, R24, R196); that an unpowered part only holds the level is the model's choice (assumption 1). RESTART_N is not
watched before the start-up chain event (R196, assumption 12). The debounce confirms LOCK, and the release of RESTART_N. -/
def Obligations.InputLevels : Prop :=
  ∀ (s : State),
    let timer (powered differs : Prop) [Decidable powered] [Decidable differs] : Timer :=
      if powered ∧ differs then some s.policy.tDeb else none
    (∀ p on, (s.txOf p).pttRaw ≠ on → exec (.pttLevelChange p on) s = .next { s with tx := put s.tx p { s.txOf p with
      pttRaw := on, pttTimer := timer (s.powered = true) (on ≠ (s.txOf p).ptt) } }) ∧
    (∀ p on, (s.txOf p).rfRaw ≠ on → exec (.rfSenseLevelChange p on) s = .next { s with tx := put s.tx p { s.txOf p with
      rfRaw := on, rfTimer := timer (s.powered = true) (on ≠ (s.txOf p).rf) } }) ∧
    (∀ on, s.store.lockRaw ≠ on → exec (.lockLevelChange on) s = .next { s with store := { s.store with
      lockRaw := on, lockTimer := timer (s.powered = true) (on ≠ s.store.lock) } }) ∧
    (∀ on, s.store.restartRaw ≠ on → exec (.restartNLevelChange on) s = .next { s with store := { s.store with
      restartRaw := on
      restartTimer := timer (s.powered = true ∧ s.store.ready ≠ .starting) (on ≠ s.store.restart) } }) ∧
    (s.powered = true → s.store.lockTimer.isSome = true →
      exec .lockDebounceExpiry s = .next { s with store := { s.store with lock := s.store.lockRaw, lockTimer := none } }) ∧
    (s.powered = true → s.store.ready ≠ .starting → s.store.restartTimer.isSome = true → s.store.restartRaw = false →
      s.store.restart = true →
      exec .restartNDebouncedRelease s = .next { s with store := { s.store with restart := false, restartTimer := none } })

/-- Power-on loads the stored table, with its band sets computed again, where the image is good and the factory table otherwise,
with STORE_FAULT; every block takes its power-on values, the debounces of the inputs start, and the START-UP CHANGE of all
relays open is in flight (section 10.3, R193, R152). A loss of power keeps the nonvolatile image, the levels at the pins and the
commands that wait (R192, assumption 1); the bytes of the marker and of the versions that the part reads are free values of assumption
6; and power leaves the model's own count of R198's questions (assumption 26). -/
def Obligations.PowerTaken : Prop :=
  (∀ s : State, s.powered = false → ∃ t, exec .powerOn s = .next t ∧
    let nv := s.store.nv
    let good : Prop := nv.marker = Config.formatMarker ∧ (nv.version = Config.formatVersion ∨ Config.readsVersion nv.version = true) ∧
      nv.sum = byteSum (nv.marker ++ nv.version ++ nv.table.bytes)
    (good → { t.table with routes := s.store.nv.table.routes } = s.store.nv.table ∧
      (∀ r, t.table.routes.get r = { s.store.nv.table.routes.get r with
        bands := bandSetOf s.store.nv.table.elements (s.store.nv.table.routes.get r).elements }) ∧ t.inbox = []) ∧
    (¬good → t.table = factoryTable ∧ t.inbox =
      [.occurred { kind := .storeFault, pos := none, line := none, band := none, detail := .store .load }]) ∧
    (∀ q, t.txOf q = { clearTx with
      pttRaw := (s.txOf q).pttRaw, rfRaw := (s.txOf q).rfRaw
      pttTimer := if (s.txOf q).pttRaw = true then some t.policy.tDeb else none
      rfTimer := if (s.txOf q).rfRaw = true then some t.policy.tDeb else none }) ∧
    (∀ q, t.link q = { clearLink ((t.settingsOf q).divisor, (t.settingsOf q).eighths) with looks := (s.link q).looks }) ∧
    { t with table := factoryTable, tx := State.reset.tx, links := State.reset.links, inbox := [] } =
      { State.reset with
        pending := s.pending, powered := true
        store := { State.reset.store with
          nv := s.store.nv, lockRaw := s.store.lockRaw, lockTimer := some t.policy.tDeb, restartRaw := s.store.restartRaw }
        chain := { State.reset.chain with
          op := some { kind := .change, purpose := .startUp, phase := .shifting, image := 0, changeSet := 0,
                       length := t.policy.chainLength } } }) ∧
  ∀ s : State, s.powered = true → ∃ t, exec .powerLoss s = .next t ∧
    (∀ q, t.txOf q = { clearTx with pttRaw := (s.txOf q).pttRaw, rfRaw := (s.txOf q).rfRaw }) ∧
    (∀ q, t.link q = { State.reset.link q with looks := (s.link q).looks }) ∧
    { t with tx := State.reset.tx, links := State.reset.links } = { State.reset with
      pending := s.pending
      store := { State.reset.store with nv := s.store.nv, lockRaw := s.store.lockRaw, restartRaw := s.store.restartRaw } }

/-! ## Transmit events -/

/-- PTT_ON (section 5.3, R95; section 5.7, R114). From IDLE the position joins the waiting set and the arbiter runs: with
nobody else waiting it is granted exactly when it is eligible, and else waits with the reason that its judgment gives. From HANG
it is GRANTED again without an arbiter run. OOB_PTT is handed over in both cases where the out-of-band flag is set. PTT_OFF
(section 5.3, R96). A WAITING position leaves the waiting set and a REVOKED one goes to IDLE, with nothing else changed but by
the start rule; a GRANTED one goes to HANG where hang applies, and else leaves the air. -/
def Obligations.PttTaken : Prop :=
  (∀ (s : State) (p : Position), s.powered = true → (s.txOf p).pttTimer.isSome = true → (s.txOf p).pttRaw = true →
    (s.txOf p).ptt = false → s.TransmitCoherent →
    let oob : List LogEvent :=
      if (s.freqOf p).outOfBand = true then
        [.occurred { kind := .oobPtt, pos := some p, line := s.mainLine p, band := (s.freqOf p).band, detail := .none }]
      else []
    ((s.txOf p).state = .idle → ∃ t, exec (.pttOn p) s = .next t ∧ Moved airParts s t ∧ s.inbox ++ oob <+: t.inbox ∧
      (t.txOf p).ptt = true ∧ (t.txOf p).pttTimer = none ∧
      (((t.txOf p).state = .granted ∧ (t.txOf p).tailTimer = none ∧ p ∉ t.waiting) ∨
        ((t.txOf p).state = .waiting ∧ p ∈ t.waiting ∧ (t.txOf p).tailTimer = (s.txOf p).tailTimer ∧
          ∃ r, judge t p = some r ∧ (t.txOf p).reason = some r)) ∧
      (s.waiting = [] → (judge s p = none → (t.txOf p).state = .granted) ∧
        ∀ r, judge s p = some r → (t.txOf p).state = .waiting ∧ (t.txOf p).reason = some r)) ∧
    ((s.txOf p).state = .hang → exec (.pttOn p) s = .next { s with
      tx := put s.tx p { s.txOf p with state := .granted, ptt := true, pttTimer := none, hangTimer := none }
      inbox := s.inbox ++ oob })) ∧
  ∀ (s : State) (p : Position), s.powered = true → (s.txOf p).pttTimer.isSome = true → (s.txOf p).pttRaw = false →
    (s.txOf p).ptt = true →
    let x : TxRecord := { s.txOf p with ptt := false, pttTimer := none }
    let ends (y : TxRecord) : State := { s with tx := put s.tx p y }
    ((s.txOf p).state = .waiting → exec (.pttOff p) s =
      .next (startRule { ends { x with state := .idle } with waiting := s.waiting.filter fun q => q ≠ p })) ∧
    ((s.txOf p).state = .revoked → exec (.pttOff p) s = .next (startRule (ends { x with state := .idle }))) ∧
    ((s.txOf p).state = .granted → (s.txOf p).skipHang = false → 0 < s.policy.tHang → exec (.pttOff p) s =
      .next (startRule (ends { x with state := .hang, hangTimer := some (s.policy.tHang * 10) }))) ∧
    ((s.txOf p).state = .granted → (s.txOf p).skipHang = true ∨ s.policy.tHang = 0 → s.TransmitCoherent → s.AllocationKeyed →
      ∃ t, exec (.pttOff p) s = .next t ∧ Moved allocParts s t ∧ LeftAir .idle s t p ∧ (t.txOf p).ptt = false ∧
        (t.txOf p).pttTimer = none ∧ (t.txOf p).lastRevocation = (s.txOf p).lastRevocation)

/-- RF sense and the hang and tail timers (R97, R98, section 5.7). RF_ON is HOT_SWITCH where the operation in flight would change a
relay of the path, with the lowest such relay, else UNGRANTED_RF where the position is neither on the air nor in its tail, else
nothing. RF_OFF, the end of a tail, and the leaving of the air with a t_tail of 0 make the path quiet (R106), which requests the
position's breaks, moves its image filter to the target (R139), applies its stored reroutes (R57; a shared RX line is assumption 8),
and makes its PENDING records where R42 lets them; a tail that ends under RF is UNGRANTED_RF. An expired hang leaves the air. -/
def Obligations.RfAndTimersTaken : Prop :=
  ∀ (s : State) (p : Position), s.powered = true →
    let occurs (k : FaultKind) (d : Detail) : LogEvent :=
      .occurred { kind := k, pos := some p, line := none, band := (s.freqOf p).band, detail := d }
    ((s.txOf p).rfTimer.isSome = true → (s.txOf p).rfRaw = true → (s.txOf p).rf = false →
      let on (es : List LogEvent) : State :=
        { s with tx := put s.tx p { s.txOf p with rf := true, rfTimer := none }, inbox := s.inbox ++ es }
      let moves (b : Nat) : Prop := ∃ o, s.chain.op = some o ∧
        o.image.getLsbD b ≠ s.chain.latched.getLsbD b ∧ (s.pathMask p).getLsbD b = true
      (∀ b, moves b → (∀ c, c < b → ¬moves c) →
        exec (.rfOn p) s = .next (on [occurs .hotSwitch (.hot .rfOn b)])) ∧
      ((∀ b, ¬moves b) → s.onAir p = false → (s.txOf p).tailTimer = none →
        exec (.rfOn p) s = .next (on [occurs .ungrantedRf (.rf .rfOn)])) ∧
      ((∀ b, ¬moves b) → s.onAir p = true ∨ (s.txOf p).tailTimer.isSome = true → exec (.rfOn p) s = .next (on []))) ∧
    ((s.txOf p).rfTimer.isSome = true → (s.txOf p).rfRaw = false → (s.txOf p).rf = true →
      (s.onAir p = true ∨ (s.txOf p).tailTimer.isSome = true → exec (.rfOff p) s =
        .next (startRule { s with tx := put s.tx p { s.txOf p with rf := false, rfTimer := none } })) ∧
      (s.onAir p = false → (s.txOf p).tailTimer = none → s.AllocationKeyed → ∃ t, exec (.rfOff p) s = .next t ∧
        Moved allocParts s t ∧ (t.txOf p).rf = false ∧ (t.txOf p).rfTimer = none ∧ s.BreaksRequested t p ∧
        s.QuietTaken t p)) ∧
    ((s.txOf p).tailTimer.isSome = true →
      ((s.txOf p).rf = true → exec (.tailExpiry p) s = .next (startRule { s with
        tx := put s.tx p { s.txOf p with tailTimer := none }, inbox := s.inbox ++ [occurs .ungrantedRf (.rf .tail)] })) ∧
      ((s.txOf p).rf = false → s.onAir p = false → s.AllocationKeyed → ∃ t, exec (.tailExpiry p) s = .next t ∧
        Moved allocParts s t ∧ (t.txOf p).tailTimer = none ∧ s.BreaksRequested t p ∧ s.QuietTaken t p)) ∧
    ((s.txOf p).hangTimer.isSome = true → (s.txOf p).state = .hang → s.TransmitCoherent → s.AllocationKeyed →
      ∃ t, exec (.hangExpiry p) s = .next t ∧ Moved allocParts s t ∧ LeftAir .idle s t p ∧
        (t.txOf p).lastRevocation = (s.txOf p).lastRevocation)

/-! ## The fault log, safe state, RESTART -/

/-- FAULT_CLEAR (section 8.5, R166): refused in the order bad payload, locked, RF sense on in safe state; else first records,
next-kind sets, counters and alarm lines are cleared. In safe state the exit is pending, its spoiling is cleared, and the driver
is asked for the EXIT RESYNC, which starts at once where no operation is in flight and start-up has ended; that a clear joined
to a pending exit asks for no second one is assumption 16. -/
def Obligations.FaultClearTaken : Prop :=
  ∀ (s : State) (p : Position) (f : Frame), Offers s p f 1 → f.kind = 0x0D →
    let refused (c : Code) : Prop := exec (.faultClear p) s = .next (startRule (s.answered p [f.reply c []]))
    let cleared : FaultLog := { s.log with
      firstSerious := none, firstMinor := none, nextSerious := 0, nextMinor := 0, counters := Vector.replicate 11 0
      alarmA := false, alarmB := false }
    (f.payload ≠ [] → refused .badRequest) ∧
    (f.payload = [] → s.locked = true → refused .locked) ∧
    (f.payload = [] → s.locked = false → s.safe = true → (∃ q, (s.txOf q).rf = true) → refused .busy) ∧
    (f.payload = [] → s.locked = false → s.safe = false →
      exec (.faultClear p) s = .next (startRule { s.answered p [f.reply .ok []] with log := cleared })) ∧
    (f.payload = [] → s.locked = false → s.safe = true → (∀ q, (s.txOf q).rf = false) →
      let asked : Chain := { s.chain with exitRequest := s.chain.exitRequest || !s.log.exitPending }
      let u : State := { s.answered p [f.reply .ok []] with
        log := { cleared with exitPending := true, exitSpoiled := false }, chain := asked }
      exec (.faultClear p) s = .next (startRule u) ∧
      (s.chain.op = none → s.store.ready ≠ .starting → s.chain.heldForEntry = false → asked.exitRequest = true →
        startRule u = { u with chain := { asked with
          op := some { kind := .resync, purpose := .exit, phase := .filling, image := s.chain.latched, changeSet := 0,
                       length := s.policy.chainLength }
          verifyTimer := none } }))

/-- The Fault Log takes an occurrence (sections 8.2 to 8.4). Its severity is FATAL for the two transmit faults and for a second
mismatch and the configured one otherwise. The detect mask drops it whole, but for the two transmit faults and for the effects
of a CHAIN_MISMATCH; else it is counted and entered in the log of its class; a serious one whose report mask is clear asserts
its alarm line and is told to every PRESENT position. A fatal one in safe state spoils a pending exit, and otherwise enters safe
state: nobody on the air, no record MAKING, nothing in flight but a latch already pulsed, and SAFE told to every PRESENT
position. An exit result ends the pending exit where it is FAILED, and leaves safe state where it is PASSED and the exit is not spoiled,
as a fatal occurrence before it spoils it (section 8.6, R167); that a result behind the occurrence is taken in the same event is
assumption 4. The RESTART of a pin that is asserted
as an entry ends start-up is RestartTaken's. -/
def Obligations.OccurrenceTaken : Prop :=
  (∀ (s : State) (o : Occurrence) (passed : Bool) (rest : List LogEvent), s.powered = true → s.safe = true → s.SafeInhibited →
    s.inbox = .occurred o :: .exitResult passed :: rest → (∀ b r, rest ≠ .exitResult b :: r) →
    let fatal : Prop := effectiveSeverity o s = .fatal ∧ dropped o s = false
    let spoiled : Prop := s.log.exitSpoiled = true ∨ (s.log.exitPending = true ∧ fatal)
    ∃ t, exec .occurrence s = .next t ∧ t.log.exitPending = false ∧ rest <+: t.inbox ∧
      (dropped o s = false → maskedFromLog o s = false →
        t.log.counters = put s.log.counters o.kind.index (min 255 (s.log.counters.get o.kind.index + 1))) ∧
      (passed = false → t.safe = true ∧ (t.log.exitSpoiled = true ↔ spoiled)) ∧
      (passed = true → t.log.exitSpoiled = false ∧ (t.safe = true ↔ spoiled) ∧
        (¬spoiled → ∀ q, s.present q = true → (s.link q).queue.length < 5 →
          { kind := 0x46, payload := [1] } ∈ (t.link q).queue))) ∧
  ∀ (s : State) (o : Occurrence) (rest : List LogEvent), s.powered = true → s.inbox = .occurred o :: rest →
    (∀ b r, rest ≠ .exitResult b :: r) →
    let c := s.faultConfig o.kind
    let certain : Prop := o.kind = .ungrantedRf ∨ o.kind = .hotSwitch
    let sev : Severity :=
      if o.kind = .ungrantedRf ∨ o.kind = .hotSwitch ∨ o.detail.second = true then .fatal else c.severity
    let record : LogRecord := { occ := o, severity := sev, stamp := s.log.clock }
    (¬certain → o.kind ≠ .chainMismatch → c.detectMask = true →
      exec .occurrence s = .next (startRule { s with inbox := rest })) ∧
    (certain ∨ o.kind = .chainMismatch ∨ c.detectMask = false → ∃ v : State,
      (∀ x, x ∉ [Part.log, .inbox, .links] → s.same v x) ∧ v.inbox = rest ∧
      v.log.clock = s.log.clock ∧ v.log.safe = s.log.safe ∧ v.log.exitPending = s.log.exitPending ∧
      v.log.exitSpoiled = s.log.exitSpoiled ∧
      (¬certain → c.detectMask = true → v = { s with inbox := rest }) ∧
      (certain ∨ c.detectMask = false →
        v.log.counters = put s.log.counters o.kind.index (min 255 (s.log.counters.get o.kind.index + 1)) ∧
        (sev = .minor → v.log.firstMinor = some (s.log.firstMinor.getD record) ∧
          v.log.nextMinor = (if s.log.firstMinor = none then s.log.nextMinor else s.log.nextMinor ||| kindBit o.kind) ∧
          v.log.firstSerious = s.log.firstSerious ∧ v.log.nextSerious = s.log.nextSerious) ∧
        (sev ≠ .minor → v.log.firstSerious = some (s.log.firstSerious.getD record) ∧
          v.log.nextSerious = (if s.log.firstSerious = none then s.log.nextSerious else s.log.nextSerious ||| kindBit o.kind) ∧
          v.log.firstMinor = s.log.firstMinor ∧ v.log.nextMinor = s.log.nextMinor) ∧
        (let told : Prop := sev ≠ .minor ∧ c.reportMask = false
         (v.log.alarmA = true ↔ s.log.alarmA = true ∨ (told ∧ c.routing = .a)) ∧
         (v.log.alarmB = true ↔ s.log.alarmB = true ∨ (told ∧ c.routing = .b)) ∧
         (¬told → v.links = s.links) ∧
         (told → ∀ q, (s.present q = false → v.link q = s.link q) ∧
           (s.present q = true → (s.link q).queue.length < 6 → v.link q = { s.link q with
             queue := (s.link q).queue ++ [{ kind := 0x45, payload := [byte o.kind.number, byte sev.code] }]
             sending := true }) ∧
           (s.present q = true → 6 ≤ (s.link q).queue.length → v.link q = { s.link q with noticeLost := true })))) ∧
      (sev ≠ .fatal → exec .occurrence s = .next (startRule v)) ∧
      (sev = .fatal → s.safe = true → exec .occurrence s = .next (startRule { v with
        log := { v.log with exitSpoiled := v.log.exitSpoiled || v.log.exitPending } })) ∧
      (sev = .fatal → s.safe = false → s.TransmitCoherent → s.AllocationKeyed →
        (s.store.ready = .starting → s.store.restartRaw = false) → ∃ t, exec .occurrence s = .next t ∧ Moved logParts v t ∧
          { t.log with exitSpoiled := v.log.exitSpoiled } = { v.log with safe := true } ∧
          (∀ q, v.present q = true → (v.link q).queue.length < 6 →
            (v.link q).queue ++ [{ kind := 0x46, payload := [0] }] <+: (t.link q).queue) ∧
          (∀ q, t.inhibit q = true ∧
            ((s.txOf q).state = .granted → (t.txOf q).state = .revoked ∧ (t.txOf q).lastRevocation = some .safe) ∧
            ((s.txOf q).state = .hang → (t.txOf q).state = .idle ∧ (t.txOf q).lastRevocation = some .safe) ∧
            ((s.txOf q).state = .waiting → (t.txOf q).state = .waiting ∧ (t.txOf q).reason = some .safe)) ∧
          (∀ x ∈ t.alloc.records, x.state ≠ .making) ∧
          (∀ x ∈ s.alloc.records, x.state = .making → ∀ h, t.recordAt x.pos x.line = some h → h.state = .breaking) ∧
          (∀ op, t.chain.op = some op → (s.chain.op = some op ∧ op.phase = .settling) ∨ (op.kind = .resync ∧ op.purpose = .exit)) ∧
          t.chain.verifyTimer = none ∧ t.chain.attempt = none ∧ t.chain.heldForEntry = false ∧
          (s.store.ready = .starting → (∀ op, s.chain.op = some op → op.phase ≠ .settling) → s.chain.op.isSome = true →
            t.store.ready = .ready)))

/-- RESTART (section 10.5, R196), as a request and from the pin. A request is refused in the order bad payload, not READY,
locked; else its reply is handed over first. Then every block takes its values after RESTART, each position on the air is
revoked with cause RESTART, and LOST goes to each PRESENT position for each record it had. A pin that is asserted as start-up ends
gives one RESTART in that event, whichever event it is: the completion of the START-UP CHANGE in safe state, the end of the START-UP
VERIFY, the pass of its retry, a mismatch that fails it, or the entry that abandons it (R152, R196; that the level then counts as
debounced, and that a FAILED start-up ends at the mismatch, is assumption 12). A divisor that waits at a port stays waiting, or is
applied within the RESTART where that brings the first moment of R198; whether a start bit is then being confirmed is a free value
(assumption 26). -/
def Obligations.RestartTaken : Prop :=
  (∀ (s : State) (p : Position) (f : Frame), Offers s p f 1 → f.kind = 0x0E →
    let refused (c : Code) : Prop := exec (.restartRequest p) s = .next (startRule (s.answered p [f.reply c []]))
    (f.payload ≠ [] → refused .badRequest) ∧
    (f.payload = [] → s.isReady = false → refused .notReady) ∧
    (f.payload = [] → s.isReady = true → s.locked = true → refused .locked) ∧
    (f.payload = [] → s.isReady = true → s.locked = false → s.AllocationKeyed → s.TransmitCoherent →
      ∃ t, exec (.restartRequest p) s = .next t ∧ Restarted s t ∧
        (s.link p).queue ++ [f.reply .ok []] <+: (t.link p).queue ∧
        t.store.restart = s.store.restart ∧ t.store.restartTimer = s.store.restartTimer)) ∧
  (∀ s : State, s.powered = true → s.store.ready ≠ .starting → s.store.restartTimer.isSome = true → s.store.restartRaw = true →
    s.store.restart = false → s.AllocationKeyed → s.TransmitCoherent →
    ∃ t, exec .restartPin s = .next t ∧ Restarted s t ∧ t.store.restart = true ∧ t.store.restartTimer = none) ∧
  (∀ (c : Instr) (s t : State), exec c s = .next t → s.store.ready = .starting → t.store.ready ≠ .starting →
    s.store.restartRaw = true → s.AllocationKeyed → s.TransmitCoherent → AfterRestart t ∧ t.store.ready = (if t.safe then .ready else .restarting) ∧
      t.store.restart = true ∧ t.store.restartTimer = none ∧ (s.safe = false → t.safe = false → t.chain.restartHold = true)) ∧
  ∀ (s : State) (o : Operation), s.powered = true → s.store.ready = .starting → s.store.restartRaw = true →
    s.chain.op = some o → s.ResultsTaken →
    let ends (c : Instr) : Prop := ∃ t, exec c s = .next t ∧ t.store.ready ≠ .starting
    (o.kind = .change → o.phase = .settling → o.purpose = .startUp → s.chain.settleTimer.isSome = true → s.safe = true →
      ends .changeCompletion) ∧
    (o.kind = .verify → o.phase = .shifting → o.purpose = .startUp → ends .verifyEnd) ∧
    (o.kind = .resync → o.phase = .checking → o.purpose = .retry → (∀ a, s.chain.attempt = some a → a.kind ≠ .change) →
      ends .resyncPass) ∧
    (∀ bit, o.kind = .verify ∨ (o.kind = .resync ∧ o.phase = .checking) → s.chain.content.isSome = true → bit < 8 * o.length →
      o.purpose ≠ .exit →
      s.chain.attempt ≠ none ∨ (s.faultConfig .chainMismatch).severity = .fatal → ends (.mismatch bit)) ∧
    ∀ x rest, s.inbox = .occurred x :: rest → effectiveSeverity x s = .fatal → dropped x s = false → s.safe = false →
      o.phase ≠ .settling → ends .occurrence

/-! ## The relay chain -/

/-- The end of a CHANGE's shift pulses the latch and starts the settle interval (section 7.4, R142). Its completion latches the
image, and each position's current filter is the one that the latched image closes; the refresh due is cleared, but for a length
written meanwhile, the attempt closed, and the restart hold ends with a RESTART CHANGE. A MAKING record that is latched as it needs
is CONNECTED and told so, a BREAKING one whose crosspoint is open is removed, and others take the flag of their crosspoint; stated
for the records of positions that wait for no line. A line whose last record is removed admits the head of its list, and an RX line
with it, or with the records that are left, every entry of the route in use up to the splitter ports (section 3.5, R65 and R66). A
position whose record on its re-claim line is removed has its ring claim made, or in safe state its follow due set (section 4.4, R85
and R86). A START-UP CHANGE is followed by the START-UP VERIFY (R152), and a RESTART CHANGE makes the part READY (R194). A pin
asserted as start-up ends is RestartTaken's. That a stored reroute names no route is assumption 8. -/
def Obligations.ChangeRuns : Prop :=
  (∀ (s : State) (o : Operation), s.powered = true → s.chain.op = some o → o.kind = .change → o.phase = .shifting → s.safe = false →
    exec .changeShiftEnd s = .next { s with chain := { s.chain with
      content := some o.image, op := some { o with phase := .settling }, settleTimer := some s.policy.tSettle } }) ∧
  ∀ (s : State) (o : Operation), s.powered = true → s.chain.op = some o → o.kind = .change → o.phase = .settling →
    s.chain.settleTimer.isSome = true → s.AllocationKeyed → (s.store.ready = .starting → s.store.restartRaw = false) →
    ∃ t, exec .changeCompletion s = .next t ∧ Moved (.store :: allocParts) s t ∧ t.chain.latched = o.image ∧
      (∀ q g, (t.filterOf q).current = some g ↔ ∀ i, o.image.getLsbD (filterBit q i) = decide (i = g)) ∧
      t.chain.refreshDue = s.chain.lengthDue ∧ t.chain.content = (if s.chain.lengthDue then none else s.chain.content) ∧
      t.chain.attempt = none ∧ t.chain.settleTimer = none ∧
      t.chain.restartHold = (s.chain.restartHold && decide (o.purpose ≠ .restart)) ∧
      (o.purpose = .restart → s.store.ready ≠ .starting → t.store.ready = .ready) ∧
      (o.purpose = .startUp → s.safe = false → t.store.ready = s.store.ready ∧ t.chain.op = some
        { kind := .verify, purpose := .startUp, phase := .shifting, image := o.image, changeSet := 0, length := s.policy.chainLength }) ∧
      (o.purpose = .startUp → s.safe = true → t.store.ready ≠ .starting) ∧
      (∀ l,
        let kept := (s.recordsOn l).filter fun x => x.state ≠ .breaking || o.image.getLsbD (crosspointBit x.pos l)
        let admitted (e : WaitEntry) : Prop := (s.standing e.pos (s.portOf l)).reclaim = none →
          (∃ h, t.recordAt e.pos l = some h ∧ h.route = e.route ∧ (h.state = .pending ∨ h.state = .making)) ∧
            ∀ y ∈ t.listOf l, y.pos ≠ e.pos
        let waits (e : WaitEntry) : Prop :=
          (∀ x ∈ kept, x.reroute = none ∧ (s.standing x.pos (s.portOf l)).reclaim = none) →
          (∀ y ∈ s.listOf l, (s.standing y.pos (s.portOf l)).reclaim = none) →
          ∃ y ∈ t.listOf l, y.pos = e.pos ∧ y.route = e.route
        (s.recordsOn l ≠ [] → kept = [] → ∀ e es, s.listOf l = e :: es →
          let same := es.filter fun x => s.portOf l = .aux && x.route = e.route
          admitted e ∧ (∀ x ∈ same.take ((s.lineOf l).ports - 1), admitted x) ∧
            ∀ x ∈ es, x ∉ same.take ((s.lineOf l).ports - 1) → waits x) ∧
        (s.portOf l = .aux → kept ≠ [] → kept.length < (s.recordsOn l).length → (∀ e ∈ s.listOf l, e.manner ≠ .take) →
          (∀ x ∈ kept, ∀ m, s.portOf m = .aux → ∀ e ∈ s.listOf m, e.pos ≠ x.pos) →
          ∀ r, (∀ x ∈ kept, x.route = r) →
            let same := (s.listOf l).filter fun x => x.route = r
            (∀ x ∈ same.take ((s.lineOf l).ports - kept.length), admitted x) ∧
              ∀ x ∈ s.listOf l, x ∉ same.take ((s.lineOf l).ports - kept.length) → waits x)) ∧
      (∀ x ∈ s.alloc.records, x.state = .breaking → o.image.getLsbD (crosspointBit x.pos x.line) = false →
        (s.standing x.pos x.kind).reclaim = some x.line →
        (t.standing x.pos x.kind).reclaim = none ∧ (s.safe = true → (t.standing x.pos x.kind).due = true) ∧
          (s.safe = false → s.isReady = true → s.WaitsNowhere x.pos → t.Followed x.pos x.kind)) ∧
      ∀ x ∈ s.alloc.records, s.AwaitsNoLine x.pos →
        let closed := o.image.getLsbD (crosspointBit x.pos x.line)
        let fits : Prop := closed = true ∧ o.image &&& selectMask x.line = s.routeSelects x.route x.line
        (x.state = .making → x.reroute = none → fits →
          t.recordAt x.pos x.line = some { x with state := .connected, latched := true } ∧
          (s.present x.pos = true → (t.link x.pos).queue.length < 6 →
            { kind := 0x41, payload := [byte x.kind.code, byte x.line.val, byte x.route.val] } ∈ (t.link x.pos).queue)) ∧
        (x.state = .making → ¬fits → t.recordAt x.pos x.line = some { x with latched := closed }) ∧
        (x.state = .breaking → closed = false → t.recordAt x.pos x.line = none) ∧
        (x.state = .breaking → closed = true → t.recordAt x.pos x.line = some { x with latched := true }) ∧
        (x.state = .connected → t.recordAt x.pos x.line = some { x with latched := closed }) ∧
        (x.state = .pending → t.recordAt x.pos x.line = some { x with latched := closed } ∨
          t.recordAt x.pos x.line = some { x with latched := closed, state := .making })

/-- The start rule (section 7.4, R141): with no operation in flight and start-up ended it starts what the first line of its table
that applies names, or the verify timer; a CHANGE that starts hands HOT_SWITCH to the Fault Log for each position whose RF sense is
on and whose path it is to move (section 5.7, R113). The last line closes an attempt whose repeat is due (R147). That an attempt whose
repeat is due stays open, and another RETRY starts, where the content is UNKNOWN again is assumption 25. VERIFY and RESYNC
(R144 and R145): the verify timer starts an ORDINARY VERIFY where none of R144's exceptions stands, and else only the start rule
follows; a VERIFY's end and a RESYNC's fill and pass leave the chain holding the latched image, but for a length written meanwhile
(R149), and relays as they were. The pass closes the attempt, repeats the CHANGE of a RETRY, ends a start-up sequence (R152), or
hands over the EXIT result, on which an unspoiled exit leaves safe state (section 8.6, R167 and R168) and each follow due is taken:
it is cleared, and its ring claim made where one is needed (section 4.4, R86). That a START-UP VERIFY with the content UNKNOWN runs to
its end and passes is assumption 9. A pin asserted as start-up ends is RestartTaken's. -/
def Obligations.VerifyAndResyncRun : Prop :=
  (∀ s : State, s.powered = true → s.chain.verifyTimer.isSome = true →
    let stopped : State := { s with chain := { s.chain with verifyTimer := none } }
    let may : Prop := s.chain.op = none ∧ s.chain.content ≠ none ∧ s.chain.pending = s.chain.latched ∧
      s.chain.heldForEntry = false ∧ s.safe = false
    (may → exec .verifyTimerExpiry s = .next { s with chain := { s.chain with
      verifyTimer := none
      op := some { kind := .verify, purpose := .ordinary, phase := .shifting, image := s.chain.latched, changeSet := 0,
                   length := s.policy.chainLength } } }) ∧
    (¬may → exec .verifyTimerExpiry s = .next (startRule stopped))) ∧
  (∀ s : State,
    let c := s.chain
    let running (k : OpKind) (why : Purpose) (ph : Phase) : Operation :=
      { kind := k, purpose := why, phase := ph, image := c.latched, changeSet := 0, length := s.policy.chainLength }
    let resyncs (why : Purpose) : Prop :=
      startRule s = { s with chain := { c with op := some (running .resync why .filling), verifyTimer := none } }
    (c.op.isSome = true ∨ s.store.ready = .starting → startRule s = s) ∧
    (c.op = none → s.store.ready ≠ .starting →
      if c.heldForEntry = true then startRule s = s
      else if s.safe = true ∧ c.exitRequest = true then resyncs .exit
      else if s.safe = true then startRule s = s
      else if c.content = none then resyncs (if c.attempt = none then .unknown else .retry)
      else if c.restartHold = true ∧ c.pending = 0 then s.ChangeStarts .restart (startRule s)
      else if c.pending ≠ c.latched then s.ChangeStarts .ordinary (startRule s)
      else if c.refreshDue = true then s.ChangeStarts .refresh (startRule s)
      else startRule s = { s with chain := { c with
        verifyTimer := if c.verifyTimer = none ∧ 0 < s.policy.tVerify then some (1000 * s.policy.tVerify) else c.verifyTimer
        attempt := c.attempt.filter fun a => !a.repeatDue } })) ∧
  (∀ (s : State) (o : Operation), s.powered = true → s.chain.op = some o → o.kind = .resync → o.phase = .filling →
    exec .resyncFillEnd s = .next { s with chain := { s.chain with
      content := some s.chain.latched, op := some { o with phase := .checking } } }) ∧
  ∀ (s : State) (o : Operation), s.powered = true → s.chain.op = some o → (s.store.ready = .starting → s.store.restartRaw = false) →
    (∀ b r, s.inbox ≠ .exitResult b :: r) →
    let holds (t : State) : Prop := t.chain.latched = s.chain.latched ∧
      t.chain.content = (if s.chain.lengthDue then none else some s.chain.latched)
    (o.kind = .verify → o.phase = .shifting → ∃ t, exec .verifyEnd s = .next t ∧ Moved (.store :: allocParts) s t ∧ holds t ∧
      t.chain.attempt = none ∧ (o.purpose = .startUp → t.store.ready ≠ .starting)) ∧
    (o.kind = .resync → o.phase = .checking → ∃ t, exec .resyncPass s = .next t ∧ Moved (.store :: logParts) s t ∧ holds t ∧
      (o.purpose = .unknown → t.chain.attempt = none) ∧
      (o.purpose = .retry → (∃ a, s.chain.attempt = some a ∧ a.kind = .change) → s.store.ready ≠ .starting → s.safe = false →
        s.chain.heldForEntry = false → s.chain.lengthDue = false → t.chain.pending ≠ t.chain.latched →
        (∃ c, t.chain.op = some c ∧ c.kind = .change ∧ c.image = t.chain.pending) ∧
          t.chain.attempt = some { kind := .change, repeatDue := false }) ∧
      (o.purpose = .retry → (∀ a, s.chain.attempt = some a → a.kind ≠ .change) →
        t.chain.attempt = none ∧ t.store.ready ≠ .starting) ∧
      (o.purpose = .exit → t.chain.exitRequest = false) ∧
      (o.purpose = .exit → s.inbox = [] → s.safe = true → s.SafeInhibited →
        t.log.exitPending = false ∧ t.log.exitSpoiled = false ∧ (t.safe = true ↔ s.log.exitSpoiled = true) ∧
        (s.log.exitSpoiled = false → s.isReady = true → s.AllocationKeyed → ∀ p k, (s.standing p k).due = true →
          (t.standing p k).due = false ∧ (s.WaitsNowhere p → t.Followed p k)) ∧
        (s.log.exitSpoiled = false → ∀ q, s.present q = true → (s.link q).queue.length < 6 →
          (s.link q).queue ++ [{ kind := 0x46, payload := [1] }] <+: (t.link q).queue)))

/-- A mismatch (section 7.5, R146 to R148): the operation ends with no image latched and the content UNKNOWN, and CHAIN_MISMATCH
is handed to the Fault Log, marked second within an open attempt. An EXIT fails; a first mismatch opens an attempt and,
configured MAJOR, starts the RETRY RESYNC outside safe state; configured FATAL, or second, it holds the driver for the entry, and
ends a start-up sequence, at the mismatch itself (assumption 12); that it stays held where a later write lowers the severity before the
Fault Log takes the occurrence is assumption 27. In safe state the attempt is closed. That an exit's FAILED result
waits behind the occurrence is assumption 4. -/
def Obligations.MismatchTaken : Prop :=
  ∀ (s : State) (o : Operation) (bit : Nat), s.powered = true → s.chain.op = some o → s.chain.content.isSome = true →
    bit < 8 * o.length →
    (o.kind = .change ∧ o.phase = .shifting ∧ o.purpose ≠ .startUp) ∨ o.kind = .verify ∨ (o.kind = .resync ∧ o.phase = .checking) →
    (∀ b r, s.inbox ≠ .exitResult b :: r) → (s.store.ready = .starting → s.store.restartRaw = false) →
    let second : Bool := decide (o.purpose ≠ .exit ∧ s.chain.attempt ≠ none)
    let fatal : Prop := o.purpose ≠ .exit ∧ (second = true ∨ (s.faultConfig .chainMismatch).severity = .fatal)
    ∃ t, exec (.mismatch bit) s = .next t ∧ Moved (.store :: allocParts) s t ∧ t.chain.latched = s.chain.latched ∧
      t.chain.content = none ∧ t.chain.settleTimer = none ∧
      s.inbox ++ [.occurred { kind := .chainMismatch, pos := none, line := none, band := none,
                              detail := .chain bit o.kind second }] <+: t.inbox ∧
      (o.purpose = .exit → t.chain.exitRequest = false ∧ LogEvent.exitResult false ∈ t.inbox) ∧
      (o.purpose ≠ .exit → second = false → ¬fatal → s.safe = false →
        t.chain.attempt = some { kind := o.kind, repeatDue := false } ∧ t.chain.op = some
          { kind := .resync, purpose := .retry, phase := .filling, image := s.chain.latched, changeSet := 0,
            length := s.policy.chainLength }) ∧
      (fatal → s.safe = false → t.chain.heldForEntry = true ∧ t.chain.op = none ∧ t.store.ready ≠ .starting ∧
        (t.chain.attempt.map fun a => a.kind) = if second then s.chain.attempt.map fun a => a.kind else some o.kind) ∧
      (o.purpose ≠ .exit → s.safe = true → t.chain.attempt = none)
end

