-- ==== Sys2Proof/Laws/State.lean ====
section
/-! SUPPORT. What each named update of the state leaves in each field, and reading a table entry after an update: every lemma
is a simp lemma, so that no later proof unfolds an update. -/

namespace Sys2Proof

/-! ## Tables of fixed length -/

@[simp] theorem get_put_self {α : Type} {n : Nat} (v : Vector α n) (i : Fin n) (x : α) : (put v i x).get i = x := by
  simp [put, Vector.get_eq_getElem]

theorem get_put_ne {α : Type} {n : Nat} (v : Vector α n) {i j : Fin n} (x : α) (h : j ≠ i) :
    (put v i x).get j = v.get j := by
  have : i.val ≠ j.val := fun e => h (Fin.ext e.symm)
  simp [put, Vector.get_eq_getElem, this]

theorem get_put {α : Type} {n : Nat} (v : Vector α n) (i j : Fin n) (x : α) :
    (put v i x).get j = if j = i then x else v.get j := by
  by_cases h : j = i
  · subst h; simp
  · simp [h, get_put_ne v x h]

@[simp] theorem get_mapFin {α β : Type} {n : Nat} (f : Fin n → α → β) (v : Vector α n) (i : Fin n) :
    (mapFin f v).get i = f i (v.get i) := by
  simp [mapFin, Vector.get, List.getElem_zipWith]
  rfl

@[simp] theorem get_replicate {α : Type} {n : Nat} (x : α) (i : Fin n) : (Vector.replicate n x).get i = x := by
  simp [Vector.get_eq_getElem]

theorem mem_allPositions (p : Position) : p ∈ allPositions := by revert p; decide

namespace Machine

/-! ## The nonvolatile image (R190, R193) -/

theorem otherSum_ne (v total : BitVec 16) : otherSum v total ≠ total := by
  unfold otherSum
  split <;> simp_all

/-- An image passes its tests exactly when its marker, its version and its sum are right. -/
theorem NvImage.good_iff (x : NvImage) : x.good = true ↔ x.marker = Config.formatMarker ∧
    (x.version = Config.formatVersion ∨ Config.readsVersion x.version = true) ∧ x.sum = x.total := by
  simp [NvImage.good, versionRead]
  tauto

@[simp] theorem NvImage.saved_marker (x : NvImage) (t : Table) : (x.saved t).marker = Config.formatMarker := rfl
@[simp] theorem NvImage.saved_version (x : NvImage) (t : Table) : (x.saved t).version = Config.formatVersion := rfl
@[simp] theorem NvImage.saved_table (x : NvImage) (t : Table) : (x.saved t).table = t := rfl
@[simp] theorem NvImage.saved_sum (x : NvImage) (t : Table) : (x.saved t).sum = (x.saved t).total := rfl
@[simp] theorem NvImage.saved_writes (x : NvImage) (t : Table) : (x.saved t).writes = x.writes := rfl

@[simp] theorem NvImage.unfinished_marker (x : NvImage) : x.unfinished.marker = x.marker := rfl
@[simp] theorem NvImage.unfinished_version (x : NvImage) : x.unfinished.version = x.version := rfl
@[simp] theorem NvImage.unfinished_table (x : NvImage) : x.unfinished.table = x.table := rfl
@[simp] theorem NvImage.unfinished_total (x : NvImage) : x.unfinished.total = x.total := rfl
@[simp] theorem NvImage.unfinished_writes (x : NvImage) : x.unfinished.writes = x.writes + 1 := rfl

theorem NvImage.unfinished_sum_ne (x : NvImage) : x.unfinished.sum ≠ x.total := otherSum_ne _ _

/-- The image that a save has written passes the tests. -/
@[simp] theorem NvImage.saved_good (x : NvImage) (t : Table) : (x.saved t).good = true := by simp [NvImage.good_iff]

/-- The image of a write that has not finished fails them (R190). -/
@[simp] theorem NvImage.unfinished_good (x : NvImage) : x.unfinished.good = false := by
  simp [NvImage.good, x.unfinished_sum_ne]

/-! ## mapLink -/

@[simp] theorem mapLink_pending (s : State) (p : Position) (f : Link → Link) : (s.mapLink p f).pending = s.pending := rfl
@[simp] theorem mapLink_powered (s : State) (p : Position) (f : Link → Link) : (s.mapLink p f).powered = s.powered := rfl
@[simp] theorem mapLink_table (s : State) (p : Position) (f : Link → Link) : (s.mapLink p f).table = s.table := rfl
@[simp] theorem mapLink_store (s : State) (p : Position) (f : Link → Link) : (s.mapLink p f).store = s.store := rfl
@[simp] theorem mapLink_freq (s : State) (p : Position) (f : Link → Link) : (s.mapLink p f).freq = s.freq := rfl
@[simp] theorem mapLink_alloc (s : State) (p : Position) (f : Link → Link) : (s.mapLink p f).alloc = s.alloc := rfl
@[simp] theorem mapLink_tx (s : State) (p : Position) (f : Link → Link) : (s.mapLink p f).tx = s.tx := rfl
@[simp] theorem mapLink_waiting (s : State) (p : Position) (f : Link → Link) : (s.mapLink p f).waiting = s.waiting := rfl
@[simp] theorem mapLink_advisory (s : State) (p : Position) (f : Link → Link) : (s.mapLink p f).advisory = s.advisory := rfl
@[simp] theorem mapLink_chain (s : State) (p : Position) (f : Link → Link) : (s.mapLink p f).chain = s.chain := rfl
@[simp] theorem mapLink_log (s : State) (p : Position) (f : Link → Link) : (s.mapLink p f).log = s.log := rfl
@[simp] theorem mapLink_inbox (s : State) (p : Position) (f : Link → Link) : (s.mapLink p f).inbox = s.inbox := rfl
@[simp] theorem mapLink_handed (s : State) (p : Position) (f : Link → Link) : (s.mapLink p f).handed = s.handed := rfl
@[simp] theorem mapLink_links (s : State) (p : Position) (f : Link → Link) : (s.mapLink p f).links = put s.links p (f (s.link p)) := rfl

/-! ## mapTx -/

@[simp] theorem mapTx_pending (s : State) (p : Position) (f : TxRecord → TxRecord) : (s.mapTx p f).pending = s.pending := rfl
@[simp] theorem mapTx_powered (s : State) (p : Position) (f : TxRecord → TxRecord) : (s.mapTx p f).powered = s.powered := rfl
@[simp] theorem mapTx_table (s : State) (p : Position) (f : TxRecord → TxRecord) : (s.mapTx p f).table = s.table := rfl
@[simp] theorem mapTx_store (s : State) (p : Position) (f : TxRecord → TxRecord) : (s.mapTx p f).store = s.store := rfl
@[simp] theorem mapTx_freq (s : State) (p : Position) (f : TxRecord → TxRecord) : (s.mapTx p f).freq = s.freq := rfl
@[simp] theorem mapTx_alloc (s : State) (p : Position) (f : TxRecord → TxRecord) : (s.mapTx p f).alloc = s.alloc := rfl
@[simp] theorem mapTx_tx (s : State) (p : Position) (f : TxRecord → TxRecord) : (s.mapTx p f).tx = put s.tx p (f (s.txOf p)) := rfl
@[simp] theorem mapTx_waiting (s : State) (p : Position) (f : TxRecord → TxRecord) : (s.mapTx p f).waiting = s.waiting := rfl
@[simp] theorem mapTx_advisory (s : State) (p : Position) (f : TxRecord → TxRecord) : (s.mapTx p f).advisory = s.advisory := rfl
@[simp] theorem mapTx_chain (s : State) (p : Position) (f : TxRecord → TxRecord) : (s.mapTx p f).chain = s.chain := rfl
@[simp] theorem mapTx_log (s : State) (p : Position) (f : TxRecord → TxRecord) : (s.mapTx p f).log = s.log := rfl
@[simp] theorem mapTx_inbox (s : State) (p : Position) (f : TxRecord → TxRecord) : (s.mapTx p f).inbox = s.inbox := rfl
@[simp] theorem mapTx_handed (s : State) (p : Position) (f : TxRecord → TxRecord) : (s.mapTx p f).handed = s.handed := rfl
@[simp] theorem mapTx_links (s : State) (p : Position) (f : TxRecord → TxRecord) : (s.mapTx p f).links = s.links := rfl

/-! ## mapFreq -/

@[simp] theorem mapFreq_pending (s : State) (p : Position) (f : FreqRecord → FreqRecord) : (s.mapFreq p f).pending = s.pending := rfl
@[simp] theorem mapFreq_powered (s : State) (p : Position) (f : FreqRecord → FreqRecord) : (s.mapFreq p f).powered = s.powered := rfl
@[simp] theorem mapFreq_table (s : State) (p : Position) (f : FreqRecord → FreqRecord) : (s.mapFreq p f).table = s.table := rfl
@[simp] theorem mapFreq_store (s : State) (p : Position) (f : FreqRecord → FreqRecord) : (s.mapFreq p f).store = s.store := rfl
@[simp] theorem mapFreq_freq (s : State) (p : Position) (f : FreqRecord → FreqRecord) : (s.mapFreq p f).freq = put s.freq p (f (s.freqOf p)) := rfl
@[simp] theorem mapFreq_alloc (s : State) (p : Position) (f : FreqRecord → FreqRecord) : (s.mapFreq p f).alloc = s.alloc := rfl
@[simp] theorem mapFreq_tx (s : State) (p : Position) (f : FreqRecord → FreqRecord) : (s.mapFreq p f).tx = s.tx := rfl
@[simp] theorem mapFreq_waiting (s : State) (p : Position) (f : FreqRecord → FreqRecord) : (s.mapFreq p f).waiting = s.waiting := rfl
@[simp] theorem mapFreq_advisory (s : State) (p : Position) (f : FreqRecord → FreqRecord) : (s.mapFreq p f).advisory = s.advisory := rfl
@[simp] theorem mapFreq_chain (s : State) (p : Position) (f : FreqRecord → FreqRecord) : (s.mapFreq p f).chain = s.chain := rfl
@[simp] theorem mapFreq_log (s : State) (p : Position) (f : FreqRecord → FreqRecord) : (s.mapFreq p f).log = s.log := rfl
@[simp] theorem mapFreq_inbox (s : State) (p : Position) (f : FreqRecord → FreqRecord) : (s.mapFreq p f).inbox = s.inbox := rfl
@[simp] theorem mapFreq_handed (s : State) (p : Position) (f : FreqRecord → FreqRecord) : (s.mapFreq p f).handed = s.handed := rfl
@[simp] theorem mapFreq_links (s : State) (p : Position) (f : FreqRecord → FreqRecord) : (s.mapFreq p f).links = s.links := rfl

/-! ## mapChain -/

@[simp] theorem mapChain_pending (s : State) (f : Chain → Chain) : (s.mapChain f).pending = s.pending := rfl
@[simp] theorem mapChain_powered (s : State) (f : Chain → Chain) : (s.mapChain f).powered = s.powered := rfl
@[simp] theorem mapChain_table (s : State) (f : Chain → Chain) : (s.mapChain f).table = s.table := rfl
@[simp] theorem mapChain_store (s : State) (f : Chain → Chain) : (s.mapChain f).store = s.store := rfl
@[simp] theorem mapChain_freq (s : State) (f : Chain → Chain) : (s.mapChain f).freq = s.freq := rfl
@[simp] theorem mapChain_alloc (s : State) (f : Chain → Chain) : (s.mapChain f).alloc = s.alloc := rfl
@[simp] theorem mapChain_tx (s : State) (f : Chain → Chain) : (s.mapChain f).tx = s.tx := rfl
@[simp] theorem mapChain_waiting (s : State) (f : Chain → Chain) : (s.mapChain f).waiting = s.waiting := rfl
@[simp] theorem mapChain_advisory (s : State) (f : Chain → Chain) : (s.mapChain f).advisory = s.advisory := rfl
@[simp] theorem mapChain_chain (s : State) (f : Chain → Chain) : (s.mapChain f).chain = f s.chain := rfl
@[simp] theorem mapChain_log (s : State) (f : Chain → Chain) : (s.mapChain f).log = s.log := rfl
@[simp] theorem mapChain_inbox (s : State) (f : Chain → Chain) : (s.mapChain f).inbox = s.inbox := rfl
@[simp] theorem mapChain_handed (s : State) (f : Chain → Chain) : (s.mapChain f).handed = s.handed := rfl
@[simp] theorem mapChain_links (s : State) (f : Chain → Chain) : (s.mapChain f).links = s.links := rfl

/-! ## mapAlloc -/

@[simp] theorem mapAlloc_pending (s : State) (f : Allocator → Allocator) : (s.mapAlloc f).pending = s.pending := rfl
@[simp] theorem mapAlloc_powered (s : State) (f : Allocator → Allocator) : (s.mapAlloc f).powered = s.powered := rfl
@[simp] theorem mapAlloc_table (s : State) (f : Allocator → Allocator) : (s.mapAlloc f).table = s.table := rfl
@[simp] theorem mapAlloc_store (s : State) (f : Allocator → Allocator) : (s.mapAlloc f).store = s.store := rfl
@[simp] theorem mapAlloc_freq (s : State) (f : Allocator → Allocator) : (s.mapAlloc f).freq = s.freq := rfl
@[simp] theorem mapAlloc_alloc (s : State) (f : Allocator → Allocator) : (s.mapAlloc f).alloc = f s.alloc := rfl
@[simp] theorem mapAlloc_tx (s : State) (f : Allocator → Allocator) : (s.mapAlloc f).tx = s.tx := rfl
@[simp] theorem mapAlloc_waiting (s : State) (f : Allocator → Allocator) : (s.mapAlloc f).waiting = s.waiting := rfl
@[simp] theorem mapAlloc_advisory (s : State) (f : Allocator → Allocator) : (s.mapAlloc f).advisory = s.advisory := rfl
@[simp] theorem mapAlloc_chain (s : State) (f : Allocator → Allocator) : (s.mapAlloc f).chain = s.chain := rfl
@[simp] theorem mapAlloc_log (s : State) (f : Allocator → Allocator) : (s.mapAlloc f).log = s.log := rfl
@[simp] theorem mapAlloc_inbox (s : State) (f : Allocator → Allocator) : (s.mapAlloc f).inbox = s.inbox := rfl
@[simp] theorem mapAlloc_handed (s : State) (f : Allocator → Allocator) : (s.mapAlloc f).handed = s.handed := rfl
@[simp] theorem mapAlloc_links (s : State) (f : Allocator → Allocator) : (s.mapAlloc f).links = s.links := rfl

/-! ## mapLog -/

@[simp] theorem mapLog_pending (s : State) (f : FaultLog → FaultLog) : (s.mapLog f).pending = s.pending := rfl
@[simp] theorem mapLog_powered (s : State) (f : FaultLog → FaultLog) : (s.mapLog f).powered = s.powered := rfl
@[simp] theorem mapLog_table (s : State) (f : FaultLog → FaultLog) : (s.mapLog f).table = s.table := rfl
@[simp] theorem mapLog_store (s : State) (f : FaultLog → FaultLog) : (s.mapLog f).store = s.store := rfl
@[simp] theorem mapLog_freq (s : State) (f : FaultLog → FaultLog) : (s.mapLog f).freq = s.freq := rfl
@[simp] theorem mapLog_alloc (s : State) (f : FaultLog → FaultLog) : (s.mapLog f).alloc = s.alloc := rfl
@[simp] theorem mapLog_tx (s : State) (f : FaultLog → FaultLog) : (s.mapLog f).tx = s.tx := rfl
@[simp] theorem mapLog_waiting (s : State) (f : FaultLog → FaultLog) : (s.mapLog f).waiting = s.waiting := rfl
@[simp] theorem mapLog_advisory (s : State) (f : FaultLog → FaultLog) : (s.mapLog f).advisory = s.advisory := rfl
@[simp] theorem mapLog_chain (s : State) (f : FaultLog → FaultLog) : (s.mapLog f).chain = s.chain := rfl
@[simp] theorem mapLog_log (s : State) (f : FaultLog → FaultLog) : (s.mapLog f).log = f s.log := rfl
@[simp] theorem mapLog_inbox (s : State) (f : FaultLog → FaultLog) : (s.mapLog f).inbox = s.inbox := rfl
@[simp] theorem mapLog_handed (s : State) (f : FaultLog → FaultLog) : (s.mapLog f).handed = s.handed := rfl
@[simp] theorem mapLog_links (s : State) (f : FaultLog → FaultLog) : (s.mapLog f).links = s.links := rfl

/-! ## mapStore -/

@[simp] theorem mapStore_pending (s : State) (f : Store → Store) : (s.mapStore f).pending = s.pending := rfl
@[simp] theorem mapStore_powered (s : State) (f : Store → Store) : (s.mapStore f).powered = s.powered := rfl
@[simp] theorem mapStore_table (s : State) (f : Store → Store) : (s.mapStore f).table = s.table := rfl
@[simp] theorem mapStore_store (s : State) (f : Store → Store) : (s.mapStore f).store = f s.store := rfl
@[simp] theorem mapStore_freq (s : State) (f : Store → Store) : (s.mapStore f).freq = s.freq := rfl
@[simp] theorem mapStore_alloc (s : State) (f : Store → Store) : (s.mapStore f).alloc = s.alloc := rfl
@[simp] theorem mapStore_tx (s : State) (f : Store → Store) : (s.mapStore f).tx = s.tx := rfl
@[simp] theorem mapStore_waiting (s : State) (f : Store → Store) : (s.mapStore f).waiting = s.waiting := rfl
@[simp] theorem mapStore_advisory (s : State) (f : Store → Store) : (s.mapStore f).advisory = s.advisory := rfl
@[simp] theorem mapStore_chain (s : State) (f : Store → Store) : (s.mapStore f).chain = s.chain := rfl
@[simp] theorem mapStore_log (s : State) (f : Store → Store) : (s.mapStore f).log = s.log := rfl
@[simp] theorem mapStore_inbox (s : State) (f : Store → Store) : (s.mapStore f).inbox = s.inbox := rfl
@[simp] theorem mapStore_handed (s : State) (f : Store → Store) : (s.mapStore f).handed = s.handed := rfl
@[simp] theorem mapStore_links (s : State) (f : Store → Store) : (s.mapStore f).links = s.links := rfl

/-! ## mapTable -/

@[simp] theorem mapTable_pending (s : State) (f : Table → Table) : (s.mapTable f).pending = s.pending := rfl
@[simp] theorem mapTable_powered (s : State) (f : Table → Table) : (s.mapTable f).powered = s.powered := rfl
@[simp] theorem mapTable_table (s : State) (f : Table → Table) : (s.mapTable f).table = f s.table := rfl
@[simp] theorem mapTable_store (s : State) (f : Table → Table) : (s.mapTable f).store = s.store := rfl
@[simp] theorem mapTable_freq (s : State) (f : Table → Table) : (s.mapTable f).freq = s.freq := rfl
@[simp] theorem mapTable_alloc (s : State) (f : Table → Table) : (s.mapTable f).alloc = s.alloc := rfl
@[simp] theorem mapTable_tx (s : State) (f : Table → Table) : (s.mapTable f).tx = s.tx := rfl
@[simp] theorem mapTable_waiting (s : State) (f : Table → Table) : (s.mapTable f).waiting = s.waiting := rfl
@[simp] theorem mapTable_advisory (s : State) (f : Table → Table) : (s.mapTable f).advisory = s.advisory := rfl
@[simp] theorem mapTable_chain (s : State) (f : Table → Table) : (s.mapTable f).chain = s.chain := rfl
@[simp] theorem mapTable_log (s : State) (f : Table → Table) : (s.mapTable f).log = s.log := rfl
@[simp] theorem mapTable_inbox (s : State) (f : Table → Table) : (s.mapTable f).inbox = s.inbox := rfl
@[simp] theorem mapTable_handed (s : State) (f : Table → Table) : (s.mapTable f).handed = s.handed := rfl
@[simp] theorem mapTable_links (s : State) (f : Table → Table) : (s.mapTable f).links = s.links := rfl

/-! ## raise -/

@[simp] theorem raise_pending (s : State) (o : Occurrence) : (raise o s).pending = s.pending := rfl
@[simp] theorem raise_powered (s : State) (o : Occurrence) : (raise o s).powered = s.powered := rfl
@[simp] theorem raise_table (s : State) (o : Occurrence) : (raise o s).table = s.table := rfl
@[simp] theorem raise_store (s : State) (o : Occurrence) : (raise o s).store = s.store := rfl
@[simp] theorem raise_freq (s : State) (o : Occurrence) : (raise o s).freq = s.freq := rfl
@[simp] theorem raise_alloc (s : State) (o : Occurrence) : (raise o s).alloc = s.alloc := rfl
@[simp] theorem raise_tx (s : State) (o : Occurrence) : (raise o s).tx = s.tx := rfl
@[simp] theorem raise_waiting (s : State) (o : Occurrence) : (raise o s).waiting = s.waiting := rfl
@[simp] theorem raise_advisory (s : State) (o : Occurrence) : (raise o s).advisory = s.advisory := rfl
@[simp] theorem raise_chain (s : State) (o : Occurrence) : (raise o s).chain = s.chain := rfl
@[simp] theorem raise_log (s : State) (o : Occurrence) : (raise o s).log = s.log := rfl
@[simp] theorem raise_inbox (s : State) (o : Occurrence) : (raise o s).inbox = s.inbox ++ [.occurred o] := rfl
@[simp] theorem raise_handed (s : State) (o : Occurrence) : (raise o s).handed = s.handed := rfl
@[simp] theorem raise_links (s : State) (o : Occurrence) : (raise o s).links = s.links := rfl

/-! ## raiseExit -/

@[simp] theorem raiseExit_pending (s : State) (b : Bool) : (raiseExit b s).pending = s.pending := rfl
@[simp] theorem raiseExit_powered (s : State) (b : Bool) : (raiseExit b s).powered = s.powered := rfl
@[simp] theorem raiseExit_table (s : State) (b : Bool) : (raiseExit b s).table = s.table := rfl
@[simp] theorem raiseExit_store (s : State) (b : Bool) : (raiseExit b s).store = s.store := rfl
@[simp] theorem raiseExit_freq (s : State) (b : Bool) : (raiseExit b s).freq = s.freq := rfl
@[simp] theorem raiseExit_alloc (s : State) (b : Bool) : (raiseExit b s).alloc = s.alloc := rfl
@[simp] theorem raiseExit_tx (s : State) (b : Bool) : (raiseExit b s).tx = s.tx := rfl
@[simp] theorem raiseExit_waiting (s : State) (b : Bool) : (raiseExit b s).waiting = s.waiting := rfl
@[simp] theorem raiseExit_advisory (s : State) (b : Bool) : (raiseExit b s).advisory = s.advisory := rfl
@[simp] theorem raiseExit_chain (s : State) (b : Bool) : (raiseExit b s).chain = s.chain := rfl
@[simp] theorem raiseExit_log (s : State) (b : Bool) : (raiseExit b s).log = s.log := rfl
@[simp] theorem raiseExit_inbox (s : State) (b : Bool) : (raiseExit b s).inbox = s.inbox ++ [.exitResult b] := rfl
@[simp] theorem raiseExit_handed (s : State) (b : Bool) : (raiseExit b s).handed = s.handed := rfl
@[simp] theorem raiseExit_links (s : State) (b : Bool) : (raiseExit b s).links = s.links := rfl

/-! ## A port's rate (R198) -/

@[simp] theorem settleRate_receiver (x : Link) : (x.settleRate).receiver = x.receiver := rfl
@[simp] theorem settleRate_slots (x : Link) : (x.settleRate).slots = x.slots := rfl
@[simp] theorem settleRate_queue (x : Link) : (x.settleRate).queue = x.queue := rfl
@[simp] theorem settleRate_present (x : Link) : (x.settleRate).present = x.present := rfl
@[simp] theorem settleRate_silenceTimer (x : Link) : (x.settleRate).silenceTimer = x.silenceTimer := rfl
@[simp] theorem settleRate_noticeLost (x : Link) : (x.settleRate).noticeLost = x.noticeLost := rfl
@[simp] theorem settleRate_divisorWait (x : Link) : (x.settleRate).divisorWait = x.divisorWait := rfl
@[simp] theorem settleRate_startBit (x : Link) : (x.settleRate).startBit = x.startBit := rfl
@[simp] theorem settleRate_looks (x : Link) : (x.settleRate).looks = x.looks := rfl
@[simp] theorem settleRate_sending (x : Link) : x.settleRate.sending = (x.sending || !x.queue.isEmpty) := rfl
@[simp] theorem look_receiver (b : Nat → Bool) (x : Link) : (x.look b).receiver = x.receiver := rfl
@[simp] theorem look_slots (b : Nat → Bool) (x : Link) : (x.look b).slots = x.slots := rfl
@[simp] theorem look_queue (b : Nat → Bool) (x : Link) : (x.look b).queue = x.queue := rfl
@[simp] theorem look_present (b : Nat → Bool) (x : Link) : (x.look b).present = x.present := rfl
@[simp] theorem look_silenceTimer (b : Nat → Bool) (x : Link) : (x.look b).silenceTimer = x.silenceTimer := rfl
@[simp] theorem look_noticeLost (b : Nat → Bool) (x : Link) : (x.look b).noticeLost = x.noticeLost := rfl
@[simp] theorem look_divisorWait (b : Nat → Bool) (x : Link) : (x.look b).divisorWait = x.divisorWait := rfl
@[simp] theorem look_sending (b : Nat → Bool) (x : Link) : (x.look b).sending = x.sending := rfl
@[simp] theorem look_divisor (b : Nat → Bool) (x : Link) : (x.look b).divisor = x.divisor := rfl
@[simp] theorem look_waitingDivisor (b : Nat → Bool) (x : Link) : (x.look b).waitingDivisor = x.waitingDivisor := rfl
@[simp] theorem revise_receiver (p : Position) (x : Link) : (x.revise p).receiver = x.receiver := rfl
@[simp] theorem revise_slots (p : Position) (x : Link) : (x.revise p).slots = x.slots := rfl
@[simp] theorem revise_queue (p : Position) (x : Link) : (x.revise p).queue = x.queue := rfl
@[simp] theorem revise_present (p : Position) (x : Link) : (x.revise p).present = x.present := rfl
@[simp] theorem revise_silenceTimer (p : Position) (x : Link) : (x.revise p).silenceTimer = x.silenceTimer := rfl
@[simp] theorem revise_noticeLost (p : Position) (x : Link) : (x.revise p).noticeLost = x.noticeLost := rfl
@[simp] theorem revise_divisorWait (p : Position) (x : Link) : (x.revise p).divisorWait = x.divisorWait := rfl
@[simp] theorem revise_sending (p : Position) (x : Link) : (x.revise p).sending = (x.sending || !x.queue.isEmpty) := rfl
@[simp] theorem reviseClear_receiver (x : Link) : (x.reviseClear).receiver = x.receiver := rfl
@[simp] theorem reviseClear_slots (x : Link) : (x.reviseClear).slots = x.slots := rfl
@[simp] theorem reviseClear_queue (x : Link) : (x.reviseClear).queue = x.queue := rfl
@[simp] theorem reviseClear_present (x : Link) : (x.reviseClear).present = x.present := rfl
@[simp] theorem reviseClear_silenceTimer (x : Link) : (x.reviseClear).silenceTimer = x.silenceTimer := rfl
@[simp] theorem reviseClear_noticeLost (x : Link) : (x.reviseClear).noticeLost = x.noticeLost := rfl
@[simp] theorem reviseClear_divisorWait (x : Link) : (x.reviseClear).divisorWait = x.divisorWait := rfl
@[simp] theorem reviseClear_looks (x : Link) : (x.reviseClear).looks = x.looks := rfl
@[simp] theorem reviseClear_startBit (x : Link) : x.reviseClear.startBit = false := rfl
@[simp] theorem reviseClear_sending (x : Link) : x.reviseClear.sending = (x.sending || !x.queue.isEmpty) := rfl
@[simp] theorem moveTo_receiver (x : Link) (r : Receiver) : (x.moveTo r).receiver = r := rfl
@[simp] theorem moveTo_slots (x : Link) (r : Receiver) : (x.moveTo r).slots = x.slots := rfl
@[simp] theorem moveTo_queue (x : Link) (r : Receiver) : (x.moveTo r).queue = x.queue := rfl
@[simp] theorem moveTo_present (x : Link) (r : Receiver) : (x.moveTo r).present = x.present := rfl
@[simp] theorem moveTo_silenceTimer (x : Link) (r : Receiver) : (x.moveTo r).silenceTimer = x.silenceTimer := rfl
@[simp] theorem moveTo_noticeLost (x : Link) (r : Receiver) : (x.moveTo r).noticeLost = x.noticeLost := rfl
@[simp] theorem moveTo_divisorWait (x : Link) (r : Receiver) : (x.moveTo r).divisorWait = x.divisorWait := rfl
@[simp] theorem moveTo_looks (x : Link) (r : Receiver) : (x.moveTo r).looks = x.looks := rfl
@[simp] theorem moveTo_startBit (x : Link) (r : Receiver) : (x.moveTo r).startBit = false := rfl

/-- All that the end of a port's event can do: a divisor that is ready is applied, and the transmitter sends what is queued. -/
theorem settleRate_cases (x : Link) :
    (x.divisorReady = true ∧ ∃ d, x.waitingDivisor = some d ∧
      x.settleRate = { x with divisor := d, waitingDivisor := none, sending := !x.queue.isEmpty }) ∨
    (x.divisorReady = false ∧ x.settleRate = { x with sending := x.sending || !x.queue.isEmpty }) := by
  cases h : x.divisorReady with
  | false => exact .inr ⟨rfl, by simp [Link.settleRate, h]⟩
  | true =>
    have hd : x.waitingDivisor.isSome = true ∧ x.sending = false := by
      simp only [Link.divisorReady, Link.divisorDue, Bool.and_eq_true, Bool.not_eq_true'] at h
      exact ⟨h.1.1.1.1, h.1.2⟩
    obtain ⟨d, hw⟩ := Option.isSome_iff_exists.mp hd.1
    exact .inl ⟨rfl, d, hw, by simp [Link.settleRate, h, hw, hd.2]⟩

/-- No event of a port ends with a divisor put off that R198 lets in. -/
theorem settleRate_not_ready (x : Link) : x.settleRate.divisorReady = false := by
  obtain ⟨-, d, -, e⟩ | ⟨h, e⟩ := settleRate_cases x
  · simp [e, Link.divisorReady, Link.divisorDue]
  · rw [e]
    cases hs : x.sending <;> cases hq : x.queue.isEmpty <;> simp_all [Link.divisorReady, Link.divisorDue]

theorem revise_not_ready (p : Position) (x : Link) : (x.revise p).divisorReady = false := settleRate_not_ready _

theorem reviseClear_not_ready (x : Link) : x.reviseClear.divisorReady = false := settleRate_not_ready _

/-! ## Reading a record after an update -/

theorem link_mapLink (s : State) (p q : Position) (f : Link → Link) :
    (s.mapLink p f).link q = if q = p then f (s.link p) else s.link q := by simp [State.link, get_put]

theorem txOf_mapTx (s : State) (p q : Position) (f : TxRecord → TxRecord) :
    (s.mapTx p f).txOf q = if q = p then f (s.txOf p) else s.txOf q := by simp [State.txOf, get_put]

theorem freqOf_mapFreq (s : State) (p q : Position) (f : FreqRecord → FreqRecord) :
    (s.mapFreq p f).freqOf q = if q = p then f (s.freqOf p) else s.freqOf q := by simp [State.freqOf, get_put]

theorem filterOf_mapFilter (s : State) (p q : Position) (f : FilterRecord → FilterRecord) :
    (s.mapFilter p f).filterOf q = if q = p then f (s.filterOf p) else s.filterOf q := by
  simp [State.filterOf, State.mapFilter, get_put]

@[simp] theorem link_mapLink_self (s : State) (p : Position) (f : Link → Link) : (s.mapLink p f).link p = f (s.link p) := by
  simp [link_mapLink]

@[simp] theorem txOf_mapTx_self (s : State) (p : Position) (f : TxRecord → TxRecord) :
    (s.mapTx p f).txOf p = f (s.txOf p) := by simp [txOf_mapTx]

@[simp] theorem freqOf_mapFreq_self (s : State) (p : Position) (f : FreqRecord → FreqRecord) :
    (s.mapFreq p f).freqOf p = f (s.freqOf p) := by simp [freqOf_mapFreq]

@[simp] theorem txOf_mapLink (s : State) (p : Position) (f : Link → Link) (q : Position) : (s.mapLink p f).txOf q = s.txOf q := rfl
@[simp] theorem freqOf_mapLink (s : State) (p : Position) (f : Link → Link) (q : Position) : (s.mapLink p f).freqOf q = s.freqOf q := rfl
@[simp] theorem filterOf_mapLink (s : State) (p : Position) (f : Link → Link) (q : Position) : (s.mapLink p f).filterOf q = s.filterOf q := rfl
@[simp] theorem policy_mapLink (s : State) (p : Position) (f : Link → Link) : (s.mapLink p f).policy = s.policy := rfl
@[simp] theorem safe_mapLink (s : State) (p : Position) (f : Link → Link) : (s.mapLink p f).safe = s.safe := rfl
@[simp] theorem link_mapTx (s : State) (p : Position) (f : TxRecord → TxRecord) (q : Position) : (s.mapTx p f).link q = s.link q := rfl
@[simp] theorem freqOf_mapTx (s : State) (p : Position) (f : TxRecord → TxRecord) (q : Position) : (s.mapTx p f).freqOf q = s.freqOf q := rfl
@[simp] theorem filterOf_mapTx (s : State) (p : Position) (f : TxRecord → TxRecord) (q : Position) : (s.mapTx p f).filterOf q = s.filterOf q := rfl
@[simp] theorem policy_mapTx (s : State) (p : Position) (f : TxRecord → TxRecord) : (s.mapTx p f).policy = s.policy := rfl
@[simp] theorem safe_mapTx (s : State) (p : Position) (f : TxRecord → TxRecord) : (s.mapTx p f).safe = s.safe := rfl
@[simp] theorem link_mapFreq (s : State) (p : Position) (f : FreqRecord → FreqRecord) (q : Position) : (s.mapFreq p f).link q = s.link q := rfl
@[simp] theorem txOf_mapFreq (s : State) (p : Position) (f : FreqRecord → FreqRecord) (q : Position) : (s.mapFreq p f).txOf q = s.txOf q := rfl
@[simp] theorem filterOf_mapFreq (s : State) (p : Position) (f : FreqRecord → FreqRecord) (q : Position) : (s.mapFreq p f).filterOf q = s.filterOf q := rfl
@[simp] theorem policy_mapFreq (s : State) (p : Position) (f : FreqRecord → FreqRecord) : (s.mapFreq p f).policy = s.policy := rfl
@[simp] theorem safe_mapFreq (s : State) (p : Position) (f : FreqRecord → FreqRecord) : (s.mapFreq p f).safe = s.safe := rfl
@[simp] theorem link_mapChain (s : State) (f : Chain → Chain) (q : Position) : (s.mapChain f).link q = s.link q := rfl
@[simp] theorem txOf_mapChain (s : State) (f : Chain → Chain) (q : Position) : (s.mapChain f).txOf q = s.txOf q := rfl
@[simp] theorem freqOf_mapChain (s : State) (f : Chain → Chain) (q : Position) : (s.mapChain f).freqOf q = s.freqOf q := rfl
@[simp] theorem policy_mapChain (s : State) (f : Chain → Chain) : (s.mapChain f).policy = s.policy := rfl
@[simp] theorem safe_mapChain (s : State) (f : Chain → Chain) : (s.mapChain f).safe = s.safe := rfl
@[simp] theorem link_mapAlloc (s : State) (f : Allocator → Allocator) (q : Position) : (s.mapAlloc f).link q = s.link q := rfl
@[simp] theorem txOf_mapAlloc (s : State) (f : Allocator → Allocator) (q : Position) : (s.mapAlloc f).txOf q = s.txOf q := rfl
@[simp] theorem freqOf_mapAlloc (s : State) (f : Allocator → Allocator) (q : Position) : (s.mapAlloc f).freqOf q = s.freqOf q := rfl
@[simp] theorem filterOf_mapAlloc (s : State) (f : Allocator → Allocator) (q : Position) : (s.mapAlloc f).filterOf q = s.filterOf q := rfl
@[simp] theorem policy_mapAlloc (s : State) (f : Allocator → Allocator) : (s.mapAlloc f).policy = s.policy := rfl
@[simp] theorem safe_mapAlloc (s : State) (f : Allocator → Allocator) : (s.mapAlloc f).safe = s.safe := rfl
@[simp] theorem link_mapLog (s : State) (f : FaultLog → FaultLog) (q : Position) : (s.mapLog f).link q = s.link q := rfl
@[simp] theorem txOf_mapLog (s : State) (f : FaultLog → FaultLog) (q : Position) : (s.mapLog f).txOf q = s.txOf q := rfl
@[simp] theorem freqOf_mapLog (s : State) (f : FaultLog → FaultLog) (q : Position) : (s.mapLog f).freqOf q = s.freqOf q := rfl
@[simp] theorem filterOf_mapLog (s : State) (f : FaultLog → FaultLog) (q : Position) : (s.mapLog f).filterOf q = s.filterOf q := rfl
@[simp] theorem policy_mapLog (s : State) (f : FaultLog → FaultLog) : (s.mapLog f).policy = s.policy := rfl
@[simp] theorem link_mapStore (s : State) (f : Store → Store) (q : Position) : (s.mapStore f).link q = s.link q := rfl
@[simp] theorem txOf_mapStore (s : State) (f : Store → Store) (q : Position) : (s.mapStore f).txOf q = s.txOf q := rfl
@[simp] theorem freqOf_mapStore (s : State) (f : Store → Store) (q : Position) : (s.mapStore f).freqOf q = s.freqOf q := rfl
@[simp] theorem filterOf_mapStore (s : State) (f : Store → Store) (q : Position) : (s.mapStore f).filterOf q = s.filterOf q := rfl
@[simp] theorem policy_mapStore (s : State) (f : Store → Store) : (s.mapStore f).policy = s.policy := rfl
@[simp] theorem safe_mapStore (s : State) (f : Store → Store) : (s.mapStore f).safe = s.safe := rfl
@[simp] theorem link_mapTable (s : State) (f : Table → Table) (q : Position) : (s.mapTable f).link q = s.link q := rfl
@[simp] theorem txOf_mapTable (s : State) (f : Table → Table) (q : Position) : (s.mapTable f).txOf q = s.txOf q := rfl
@[simp] theorem freqOf_mapTable (s : State) (f : Table → Table) (q : Position) : (s.mapTable f).freqOf q = s.freqOf q := rfl
@[simp] theorem filterOf_mapTable (s : State) (f : Table → Table) (q : Position) : (s.mapTable f).filterOf q = s.filterOf q := rfl
@[simp] theorem safe_mapTable (s : State) (f : Table → Table) : (s.mapTable f).safe = s.safe := rfl
@[simp] theorem link_raise (s : State) (o : Occurrence) (q : Position) : (raise o s).link q = s.link q := rfl
@[simp] theorem txOf_raise (s : State) (o : Occurrence) (q : Position) : (raise o s).txOf q = s.txOf q := rfl
@[simp] theorem freqOf_raise (s : State) (o : Occurrence) (q : Position) : (raise o s).freqOf q = s.freqOf q := rfl
@[simp] theorem filterOf_raise (s : State) (o : Occurrence) (q : Position) : (raise o s).filterOf q = s.filterOf q := rfl
@[simp] theorem policy_raise (s : State) (o : Occurrence) : (raise o s).policy = s.policy := rfl
@[simp] theorem safe_raise (s : State) (o : Occurrence) : (raise o s).safe = s.safe := rfl
@[simp] theorem link_raiseExit (s : State) (b : Bool) (q : Position) : (raiseExit b s).link q = s.link q := rfl
@[simp] theorem txOf_raiseExit (s : State) (b : Bool) (q : Position) : (raiseExit b s).txOf q = s.txOf q := rfl
@[simp] theorem freqOf_raiseExit (s : State) (b : Bool) (q : Position) : (raiseExit b s).freqOf q = s.freqOf q := rfl
@[simp] theorem filterOf_raiseExit (s : State) (b : Bool) (q : Position) : (raiseExit b s).filterOf q = s.filterOf q := rfl
@[simp] theorem policy_raiseExit (s : State) (b : Bool) : (raiseExit b s).policy = s.policy := rfl
@[simp] theorem safe_raiseExit (s : State) (b : Bool) : (raiseExit b s).safe = s.safe := rfl

end Machine

end Sys2Proof
end

