-- ==== Sys2Proof/Laws/Frame.lean ====
section
/-! SUPPORT. What each shared operation may change (`Moved`, Safety.lean): one lemma per operation. -/

namespace Sys2Proof.Machine

theorem LinkKept.refl (x : Link) : LinkKept x x := ⟨rfl, rfl, rfl, rfl, rfl, rfl, rfl, rfl, rfl, List.prefix_rfl, .inl ⟨rfl, rfl⟩⟩

theorem LinkKept.trans {x y z : Link} (h : LinkKept x y) (g : LinkKept y z) : LinkKept x z :=
  ⟨g.receiver.trans h.receiver, g.slots.trans h.slots, g.present.trans h.present, g.silence.trans h.silence,
   g.divisor.trans h.divisor, g.waitingDivisor.trans h.waitingDivisor, g.divisorWait.trans h.divisorWait,
   g.startBit.trans h.startBit, g.looks.trans h.looks, h.queue.trans g.queue,
   by
    obtain ⟨gs, gq⟩ | hg := g.sending
    · obtain ⟨hs, hq⟩ | ⟨hs, hq⟩ := h.sending
      · exact .inl ⟨gs.trans hs, gq.trans hq⟩
      · exact .inr ⟨gs.trans hs, gq ▸ hq⟩
    · exact .inr hg⟩

namespace Moved

variable {ps qs : List Part} {s t u : State}

theorem refl (ps : List Part) (s : State) : Moved ps s s :=
  ⟨fun x _ => by cases x <;> rfl, List.prefix_rfl, fun _ => .refl _⟩

theorem trans (h : Moved ps s t) (g : Moved ps t u) : Moved ps s u :=
  ⟨fun x hx => by
    have a := h.same x hx
    have b := g.same x hx
    cases x <;> exact b.trans a,
   h.inbox.trans g.inbox, fun q => (h.links q).trans (g.links q)⟩

theorem mono (h : Moved ps s t) (hs : ps ⊆ qs) : Moved qs s t :=
  ⟨fun x hx => h.same x fun hp => hx (hs hp), h.inbox, h.links⟩

theorem foldl {α : Type} (f : State → α → State) (hf : ∀ s a, Moved ps s (f s a)) :
    ∀ (l : List α) (s : State), Moved ps s (l.foldl f s)
  | [], s => refl ps s
  | a :: l, s => (hf s a).trans (foldl f hf l _)

/-- Agreement in every other part, with the inbox and the ports untouched. -/
theorem of_eq (h : ∀ x, x ∉ ps → s.same t x) (hi : t.inbox = s.inbox) (hl : t.links = s.links) : Moved ps s t :=
  ⟨h, by rw [hi], fun q => by simp only [State.link, hl]; exact .refl _⟩

theorem pending (h : Moved ps s t) (hx : Part.pending ∉ ps) : t.pending = s.pending := h.same _ hx
theorem powered (h : Moved ps s t) (hx : Part.powered ∉ ps) : t.powered = s.powered := h.same _ hx
theorem table (h : Moved ps s t) (hx : Part.table ∉ ps) : t.table = s.table := h.same _ hx
theorem store (h : Moved ps s t) (hx : Part.store ∉ ps) : t.store = s.store := h.same _ hx
theorem freq (h : Moved ps s t) (hx : Part.freq ∉ ps) : t.freq = s.freq := h.same _ hx
theorem alloc (h : Moved ps s t) (hx : Part.alloc ∉ ps) : t.alloc = s.alloc := h.same _ hx
theorem tx (h : Moved ps s t) (hx : Part.tx ∉ ps) : t.tx = s.tx := h.same _ hx
theorem waiting (h : Moved ps s t) (hx : Part.waiting ∉ ps) : t.waiting = s.waiting := h.same _ hx
theorem advisory (h : Moved ps s t) (hx : Part.advisory ∉ ps) : t.advisory = s.advisory := h.same _ hx
theorem chain (h : Moved ps s t) (hx : Part.chain ∉ ps) : t.chain = s.chain := h.same _ hx
theorem log (h : Moved ps s t) (hx : Part.log ∉ ps) : t.log = s.log := h.same _ hx
theorem handed (h : Moved ps s t) (hx : Part.handed ∉ ps) : t.handed = s.handed := h.same _ hx
theorem present (h : Moved ps s t) (p : Position) : t.present p = s.present p := (h.links p).present

end Moved

/-! ## The parts that the start rule changes -/

/-- The start rule. -/
abbrev startParts : List Part := [.chain, .inbox]

/-! ## Primitive updates -/

theorem moved_mapTx (s : State) (p : Position) (f : TxRecord → TxRecord) : Moved [.tx] s (s.mapTx p f) :=
  .of_eq (fun x hx => by cases x <;> first | rfl | simp at hx) rfl rfl

theorem moved_mapFreq (s : State) (p : Position) (f : FreqRecord → FreqRecord) : Moved [.freq] s (s.mapFreq p f) :=
  .of_eq (fun x hx => by cases x <;> first | rfl | simp at hx) rfl rfl

theorem moved_mapChain (s : State) (f : Chain → Chain) : Moved [.chain] s (s.mapChain f) :=
  .of_eq (fun x hx => by cases x <;> first | rfl | simp at hx) rfl rfl

theorem moved_mapAlloc (s : State) (f : Allocator → Allocator) : Moved [.alloc] s (s.mapAlloc f) :=
  .of_eq (fun x hx => by cases x <;> first | rfl | simp at hx) rfl rfl

theorem moved_mapStanding (s : State) (p : Position) (k : PortKind) (f : Standing → Standing) :
    Moved [.alloc] s (s.mapStanding p k f) := moved_mapAlloc _ _

theorem moved_mapLog (s : State) (f : FaultLog → FaultLog) : Moved [.log] s (s.mapLog f) :=
  .of_eq (fun x hx => by cases x <;> first | rfl | simp at hx) rfl rfl

theorem moved_mapStore (s : State) (f : Store → Store) : Moved [.store] s (s.mapStore f) :=
  .of_eq (fun x hx => by cases x <;> first | rfl | simp at hx) rfl rfl

theorem moved_mapTable (s : State) (f : Table → Table) : Moved [.table] s (s.mapTable f) :=
  .of_eq (fun x hx => by cases x <;> first | rfl | simp at hx) rfl rfl

theorem moved_raise (o : Occurrence) (s : State) : Moved [.inbox] s (raise o s) :=
  ⟨fun x hx => by cases x <;> first | rfl | simp at hx, List.prefix_append _ _, fun _ => .refl _⟩

theorem moved_raiseExit (b : Bool) (s : State) : Moved [.inbox] s (raiseExit b s) :=
  ⟨fun x hx => by cases x <;> first | rfl | simp at hx, List.prefix_append _ _, fun _ => .refl _⟩

/-! ## Frames and notices -/

theorem moved_sendFrame (p : Position) (f : Frame) (s : State) : Moved [.links] s (sendFrame p f s) := by
  refine ⟨fun x hx => by cases x <;> first | rfl | simp at hx, List.prefix_rfl, fun q => ?_⟩
  simp only [sendFrame, link_mapLink]
  split
  · rename_i h; subst h; exact ⟨rfl, rfl, rfl, rfl, rfl, rfl, rfl, rfl, rfl, List.prefix_append _ _, .inr ⟨rfl, by simp⟩⟩
  · exact .refl _

theorem moved_reply (p : Position) (k : Byte) (c : Code) (d : List Byte) (s : State) : Moved [.links] s (reply p k c d s) :=
  moved_sendFrame _ _ _

theorem moved_answer (p : Position) (f : Frame) (c : Code) (s : State) : Moved [.links] s (answer p f c s) :=
  moved_reply _ _ _ _ _

theorem moved_replyParts (p : Position) (k : Byte) (c : Code) (d : List Byte) (s : State) :
    Moved [.links] s (replyParts p k c d s) := .foldl _ (fun t f => moved_sendFrame p f t) _ _

theorem moved_notify (p : Position) (n : Notice) (s : State) : Moved [.links, .inbox] s (notify p n s) := by
  unfold notify
  split
  · split
    · exact (moved_sendFrame _ _ _).mono (by decide)
    · have h : Moved [.links, .inbox] s (s.mapLink p fun x => { x with noticeLost := true }) := by
        refine ⟨fun x hx => by cases x <;> first | rfl | simp at hx, List.prefix_rfl, fun q => ?_⟩
        simp only [link_mapLink]
        split
        · rename_i h; subst h; exact ⟨rfl, rfl, rfl, rfl, rfl, rfl, rfl, rfl, rfl, List.prefix_rfl, .inl ⟨rfl, rfl⟩⟩
        · exact .refl _
      cases n <;> first
        | exact h
        | exact h.trans ((moved_raise _ _).mono (by decide))
  · exact .refl _ _

theorem moved_notifyAll (n : Notice) (s : State) : Moved [.links, .inbox] s (notifyAll n s) :=
  .foldl _ (fun t p => moved_notify p n t) _ _

theorem moved_notifyEach (ns : List (Position × Notice)) (s : State) : Moved [.links, .inbox] s (notifyEach ns s) :=
  .foldl _ (fun t (x : Position × Notice) => moved_notify x.1 x.2 t) _ _

/-! ## The Harmonic Check Unit and the interlock -/

theorem moved_beginEpisode (x : Position × Position) (s : State) : Moved advisoryParts s (beginEpisode x s) := by
  unfold beginEpisode
  split
  · exact (((moved_notify _ _ _).mono (by decide)).trans ((moved_notify _ _ _).mono (by decide))).trans
      ((moved_raise _ _).mono (by decide))
  · exact .refl _ _

theorem moved_evaluateAdvisories (s : State) : Moved advisoryParts s (evaluateAdvisories s) := by
  unfold evaluateAdvisories
  refine Moved.trans (t := { s with advisory := pairs.filter s.advisoryHolds }) ?_ (.foldl _ (fun t x => moved_beginEpisode x t) _ _)
  exact .of_eq (fun x hx => by cases x <;> first | rfl | simp at hx) rfl rfl

theorem moved_endTail (p : Position) (s : State) : Moved [.tx, .inbox] s (endTail p s) := by
  unfold endTail
  split
  · exact ((moved_mapTx _ _ _).mono (by decide)).trans ((moved_raise _ _).mono (by decide))
  · exact (moved_mapTx _ _ _).mono (by decide)

theorem moved_startTail (p : Position) (s : State) : Moved [.tx, .inbox] s (startTail p s) := by
  unfold startTail
  split
  · exact moved_endTail _ _
  · exact (moved_mapTx _ _ _).mono (by decide)

theorem moved_leaveSlot (p : Position) (n : TxState) (s : State) : Moved [.tx, .inbox] s (leaveSlot p n s) :=
  ((moved_mapTx s p _).mono (by decide)).trans (moved_startTail _ _)

theorem moved_leaveAir (p : Position) (n : TxState) (s : State) : Moved airParts s (leaveAir p n s) :=
  ((moved_leaveSlot p n s).mono (by decide)).trans ((moved_evaluateAdvisories _).mono (by decide))

theorem moved_withdrawGrant (p : Position) (c : RevocationCause) (s : State) : Moved [.tx, .inbox] s (withdrawGrant p c s) := by
  unfold withdrawGrant
  split
  · exact ((moved_mapTx _ _ _).mono (by decide)).trans (moved_leaveSlot _ _ _)
  · exact ((moved_mapTx _ _ _).mono (by decide)).trans (moved_leaveSlot _ _ _)
  · exact .refl _ _

theorem moved_revoke (p : Position) (c : RevocationCause) (s : State) : Moved airParts s (revoke p c s) := by
  unfold revoke
  split
  · exact ((moved_withdrawGrant _ _ _).mono (by decide)).trans ((moved_evaluateAdvisories _).mono (by decide))
  · exact .refl _ _

theorem moved_leaveEvents (b s : State) : Moved advisoryParts s (leaveEvents b s) :=
  .foldl _ (fun s p => by split; exacts [moved_evaluateAdvisories _, .refl _ _]) _ _

theorem moved_revokeAll (c : RevocationCause) (s : State) : Moved airParts s (revokeAll c s) :=
  ((Moved.foldl _ (fun s p => moved_withdrawGrant p c s) _ _).mono (by decide)).trans
    ((moved_leaveEvents _ _).mono (by decide))

theorem moved_putOnAir (p : Position) (s : State) : Moved [.tx, .waiting] s (putOnAir p s) :=
  .of_eq (fun x hx => by cases x <;> first | rfl | simp at hx) rfl rfl

theorem moved_grant (p : Position) (s : State) : Moved airParts s (grant p s) :=
  ((moved_putOnAir p s).mono (by decide)).trans ((moved_evaluateAdvisories _).mono (by decide))

theorem moved_arbiterPass : ∀ (l : List Position) (s : State), Moved airParts s (arbiterPass l s).1
  | [], s => .refl _ s
  | p :: l, s => by
    unfold arbiterPass
    split
    · exact (moved_grant _ _).trans (moved_arbiterPass l _)
    · exact ((moved_mapTx _ _ _).mono (by decide)).trans (moved_arbiterPass l _)

theorem moved_arbiterPasses : ∀ (n : Nat) (s : State), Moved airParts s (arbiterPasses n s)
  | 0, s => .refl _ s
  | n + 1, s => by
    unfold arbiterPasses
    have h := moved_arbiterPass s.waiting s
    split
    · rename_i t e; rw [e] at h; exact h.trans (moved_arbiterPasses n t)
    · rename_i t e; rw [e] at h; exact h

theorem moved_arbiter (s : State) : Moved airParts s (arbiter s) := moved_arbiterPasses _ _

theorem moved_revokeAndRun (p : Position) (c : RevocationCause) (s : State) : Moved airParts s (revokeAndRun p c s) := by
  unfold revokeAndRun
  split
  · exact (moved_revoke _ _ _).trans (moved_arbiter _)
  · exact .refl _ _

theorem moved_takeMainRelease (p : Position) (s : State) : Moved airParts s (takeMainRelease p s) := by
  unfold takeMainRelease
  split
  · exact (moved_mapTx _ _ _).mono (by decide)
  · exact (moved_leaveAir _ _ _).trans (moved_arbiter _)
  · exact .refl _ _

theorem moved_takeTxiEvent (e : TxiEvent) (s : State) : Moved airParts s (takeTxiEvent e s) := by
  cases e
  · exact moved_arbiter _
  · exact moved_takeMainRelease _ _
  · exact moved_revokeAndRun _ _ _
  · exact moved_arbiter _

theorem moved_takeTxiEvents (es : List TxiEvent) (s : State) : Moved airParts s (takeTxiEvents es s) :=
  .foldl _ (fun t e => moved_takeTxiEvent e t) _ _

theorem moved_reportEvent (s : State) : Moved airParts s (reportEvent s) :=
  (moved_arbiter _).trans ((moved_evaluateAdvisories _).mono (by decide))

theorem moved_policyEvent (s : State) : Moved airParts s (policyEvent s) :=
  (moved_arbiter _).trans ((moved_evaluateAdvisories _).mono (by decide))

/-! ## The Relay Chain Driver -/

theorem moved_takeStart (im : Image) (s : State) : Moved [.inbox] s (takeStart im s) :=
  .foldl _ (fun t p => by dsimp only; split; exacts [moved_raise _ _, .refl _ _]) _ _

theorem moved_recompose (s : State) : Moved [.chain] s (recompose s) := moved_mapChain _ _

theorem moved_filterMove (p : Position) (s : State) : Moved [.chain] s (filterMove p s) := by
  unfold filterMove
  split
  · exact (moved_mapChain _ _).trans (moved_recompose _)
  · exact .refl _ _

theorem moved_setTarget (p : Position) (f : Option FilterNo) (s : State) : Moved [.chain] s (setTarget p f s) :=
  (moved_mapChain s _).trans (moved_filterMove _ _)

theorem moved_filterMoveAll (s : State) : Moved [.chain] s (filterMoveAll s) :=
  .foldl _ (fun t p => moved_filterMove p t) _ _

theorem moved_refreshFilters (s : State) : Moved [.chain] s (refreshFilters s) := moved_mapChain _ _

theorem moved_startChange (w : Purpose) (s : State) : Moved startParts s (startChange w s) :=
  ((moved_mapChain s _).mono (by decide)).trans ((moved_takeStart _ _).mono (by decide))

theorem moved_startVerify (w : Purpose) (s : State) : Moved [.chain] s (startVerify w s) := moved_mapChain _ _

theorem moved_startResync (w : Purpose) (s : State) : Moved [.chain] s (startResync w s) := moved_mapChain _ _

theorem moved_startNothing (s : State) : Moved [.chain] s (startNothing s) := moved_mapChain _ _

theorem moved_startRule (s : State) : Moved startParts s (startRule s) := by
  unfold startRule
  dsimp only
  split
  · exact .refl _ _
  split
  · split
    · exact (moved_startResync _ _).mono (by decide)
    · exact .refl _ _
  split
  · exact (moved_startResync _ _).mono (by decide)
  split
  · exact moved_startChange _ _
  split
  · exact moved_startChange _ _
  split
  · exact moved_startChange _ _
  · exact (moved_startNothing _).mono (by decide)

theorem moved_endOperation (c : Option Image) (s : State) : Moved [.chain] s (endOperation c s) :=
  (moved_mapChain s _).trans (moved_mapChain _ _)

theorem moved_closeAttempt (s : State) : Moved [.chain] s (closeAttempt s) := moved_mapChain _ _

theorem moved_endStartUp (s : State) : Moved [.store] s (endStartUp s) := moved_mapStore _ _

theorem moved_restartChainEvent (s : State) : Moved [.store] s (restartChainEvent s) := moved_mapStore _ _

end Sys2Proof.Machine
end

