-- ==== Sys2Proof/Laws/AllocFrame.lean ====
section
/-! SUPPORT. What the operations of the Line Allocator, the Band Decoder, the Fault Log and the close of a step may change
(`Moved`, Laws/Frame.lean). An operation on a `Work` changes the allocator alone. -/

namespace Sys2Proof.Machine

/-! ## Operations on a work: the allocator alone -/

/-- The work's state has changed in the allocator alone. -/
structure Worked (w v : Work) : Prop where
  moved : Moved [.alloc] w.s v.s

namespace Worked

theorem refl (w : Work) : Worked w w := ⟨.refl _ _⟩

theorem trans {w v u : Work} (h : Worked w v) (g : Worked v u) : Worked w u := ⟨h.moved.trans g.moved⟩

theorem foldl {α : Type} (f : Work → α → Work) (hf : ∀ w a, Worked w (f w a)) :
    ∀ (l : List α) (w : Work), Worked w (l.foldl f w)
  | [], w => refl w
  | a :: l, w => (hf w a).trans (foldl f hf l _)

end Worked

/-- A work whose state is as it was but for the allocator. -/
theorem worked_of_alloc {w v : Work} (a : Allocator) (h : { w.s with alloc := a } = v.s) : Worked w v :=
  ⟨h ▸ moved_mapAlloc w.s fun _ => a⟩

theorem worked_mapLists (f : State → Line → List WaitEntry → List WaitEntry) (w : Work) :
    Worked w (w.map fun s => mapLists (f s) s) := worked_of_alloc _ rfl

theorem worked_mapRecord (p : Position) (l : Line) (f : Holder → Holder) (w : Work) : Worked w (w.mapRecord p l f) :=
  worked_of_alloc _ rfl

theorem worked_mapStanding (p : Position) (k : PortKind) (f : Standing → Standing) (w : Work) :
    Worked w (w.mapStanding p k f) := ⟨moved_mapStanding _ _ _ _⟩

theorem worked_event (e : TxiEvent) (w : Work) : Worked w (w.event e) := ⟨.refl _ _⟩

theorem worked_note (p : Position) (n : Notice) (w : Work) : Worked w (w.note p n) := ⟨.refl _ _⟩

theorem worked_free (l : Line) (w : Work) : Worked w (w.free l) := ⟨.refl _ _⟩

theorem moved_refreshMoves (p : Position) (k : PortKind) (s : State) : Moved [.alloc] s (refreshMoves p k s) :=
  moved_mapAlloc s fun _ => (refreshMoves p k s).alloc

theorem worked_removeRecord (p : Position) (l : Line) (w : Work) : Worked w (removeRecord p l w) :=
  ⟨(moved_mapAlloc w.s fun a => { a with records := a.records.filter fun r => !(r.pos = p && r.line = l) }).trans
    (moved_refreshMoves p (w.s.portOf l) _)⟩

theorem worked_toBreaking (p : Position) (l : Line) (w : Work) : Worked w (toBreaking p l w) := worked_mapRecord _ _ _ _

theorem worked_noteRelease (p : Position) (k : PortKind) (w : Work) : Worked w (noteRelease p k w) := by
  cases k
  · exact worked_event _ _
  · exact .refl w

theorem worked_dropNeverClosed (r : Holder) (w : Work) : Worked w (dropNeverClosed r w) := by
  unfold dropNeverClosed
  split
  · exact worked_removeRecord _ _ _
  · exact .refl w

theorem worked_goBreaking (p : Position) (l : Line) (w : Work) : Worked w (goBreaking p l w) := by
  unfold goBreaking
  split
  · exact .refl w
  · split
    · exact worked_removeRecord _ _ _
    · exact .refl w
    all_goals exact ((worked_toBreaking _ _ _).trans (worked_noteRelease _ _ _)).trans (worked_dropNeverClosed _ _)

theorem worked_releaseOthers (p : Position) (k : PortKind) (l : Line) (w : Work) : Worked w (releaseOthers p k l w) :=
  .foldl _ (fun w (r : Holder) => worked_goBreaking p r.line w) _ _

theorem worked_withdraw (p : Position) (k : PortKind) (x : Option Line) (w : Work) : Worked w (withdraw p k x w) :=
  worked_mapLists _ w

theorem worked_createRecord (p : Position) (r : Route) (w : Work) : Worked w (createRecord p r w) := worked_of_alloc _ rfl

theorem worked_lose (p : Position) (k : PortKind) (l : Line) (y : LostReason) (w : Work) : Worked w (lose p k l y w) := by
  unfold lose
  split
  · exact worked_note _ _ _
  · exact worked_mapStanding _ _ _ _

theorem worked_admitEntry (l : Line) (e : WaitEntry) (w : Work) : Worked w (admitEntry l e w) := by
  unfold admitEntry
  dsimp only
  split
  · exact ((worked_withdraw _ _ _ _).trans (worked_createRecord _ _ _)).trans (worked_releaseOthers _ _ _ _)
  · exact (worked_withdraw _ _ _ _).trans (worked_createRecord _ _ _)

theorem worked_admitSame (l : Line) (r : Route) : ∀ (es : List WaitEntry) (w : Work), Worked w (admitSame l r es w)
  | [], w => .refl w
  | e :: es, w => by
    unfold admitSame
    split
    · exact (worked_admitEntry _ _ _).trans (worked_admitSame l r es _)
    · exact worked_admitSame l r es _

theorem worked_admitLine (l : Line) (w : Work) : Worked w (admitLine l w) := by
  unfold admitLine
  split
  · exact .refl w
  · dsimp only
    split
    · split
      · exact (worked_admitEntry _ _ _).trans (worked_admitSame _ _ _ _)
      · exact worked_admitEntry _ _ _
    · split
      · split
        · exact worked_admitSame _ _ _ _
        · exact .refl w
      · exact .refl w

theorem worked_admitAll : ∀ (n : Nat) (w : Work), Worked w (admitAll n w)
  | 0, w => .refl w
  | n + 1, w => by
    unfold admitAll
    split
    · exact .refl w
    · rename_i l ls _
      have h : Worked w { w with freed := ls } := ⟨.refl _ _⟩
      exact (h.trans (worked_admitLine l _)).trans (worked_admitAll n _)

theorem worked_admitFreed (w : Work) : Worked w (admitFreed w) := worked_admitAll _ _

theorem worked_makeTests (w : Work) : Worked w (makeTests w) := worked_of_alloc _ rfl

theorem worked_freeIfAux (l : Line) (w : Work) : Worked w (freeIfAux l w) := by
  unfold freeIfAux
  split
  · exact worked_free _ _
  · exact .refl w

theorem worked_applyReroutes (p : Position) (w : Work) : Worked w (applyReroutes p w) := by
  unfold applyReroutes
  split
  · exact .refl w
  · exact .foldl _ (fun w (r : Holder) => (worked_mapRecord p r.line _ w).trans (worked_freeIfAux _ _)) _ _

theorem worked_enqueueWait (p : Position) (r : Route) (w : Work) : Worked w (enqueueWait p r w) :=
  (worked_withdraw _ _ _ w).trans (worked_of_alloc (enqueueWait p r w).s.alloc rfl)

theorem worked_assign (p : Position) (r : Route) (w : Work) : Worked w (assign p r w) :=
  ((worked_withdraw _ _ _ _).trans (worked_releaseOthers _ _ _ _)).trans (worked_createRecord _ _ _)

theorem worked_setReclaim (q : Position) (l : Line) (w : Work) : Worked w (setReclaim q l w) := worked_mapStanding _ _ _ _

theorem worked_takeFrom (l : Line) (q : Position) (w : Work) : Worked w (takeFrom l q w) :=
  (((worked_setReclaim q l w).trans (worked_event _ _)).trans (worked_goBreaking _ _ _)).trans (worked_lose _ _ _ _ _)

theorem worked_takeLine (l : Line) (w : Work) : Worked w (takeLine l w) :=
  .foldl _ (fun w (r : Holder) => worked_takeFrom l r.pos w) _ _

theorem worked_takeMain (p : Position) (r : Route) (w : Work) : Worked w (takeMain p r w).1 := by
  unfold takeMain
  dsimp only
  split
  · exact ((worked_takeLine _ _).trans (worked_assign _ _ _)).trans (worked_admitFreed _)
  · exact .refl w

theorem worked_putTake (p : Position) (r : Route) (w : Work) : Worked w (putTake p r w) := worked_of_alloc _ rfl

theorem worked_takeRx (p : Position) (r : Route) (w : Work) : Worked w (takeRx p r w).1 := by
  unfold takeRx
  dsimp only
  split
  · exact .refl w
  · split
    · exact .refl w
    · exact (((worked_takeLine _ _).trans (worked_withdraw _ _ _ _)).trans (worked_putTake _ _ _)).trans (worked_admitFreed _)

theorem worked_replaceRoute (p : Position) (l : Line) (r : Route) (st : HolderState) (w : Work) :
    Worked w (replaceRoute p l r st w) :=
  ((worked_mapRecord _ _ _ _).trans (worked_freeIfAux _ _)).trans (worked_admitFreed _)

theorem worked_storeReroute (p : Position) (l : Line) (r : Route) (w : Work) : Worked w (storeReroute p l r w) :=
  worked_mapRecord _ _ _ _

theorem worked_rerouteBy (p : Position) (r : Route) (h : Holder) (w : Work) : Worked w (rerouteBy p r h w).1 := by
  unfold rerouteBy
  split
  · exact worked_replaceRoute _ _ _ _ _
  · exact worked_replaceRoute _ _ _ _ _
  · split
    · exact worked_replaceRoute _ _ _ _ _
    · exact worked_storeReroute _ _ _ _
  · exact .refl w

theorem worked_rerouteRecord (p : Position) (r : Route) (h : Holder) (w : Work) : Worked w (rerouteRecord p r h w).1 := by
  unfold rerouteRecord
  split
  · exact .refl w
  · exact (worked_withdraw _ _ _ _).trans (worked_rerouteBy _ _ _ _)

theorem worked_claimRoute (p : Position) (r : Route) (m : Manner) (w : Work) : Worked w (claimRoute p r m w).1 := by
  unfold claimRoute
  dsimp only
  split
  · split
    · exact (worked_mapRecord _ _ _ _).trans (worked_withdraw _ _ _ _)
    · exact worked_rerouteRecord _ _ _ _
  · split
    · exact (worked_assign _ _ _).trans (worked_admitFreed _)
    · cases m
      · exact worked_enqueueWait _ _ _
      · exact .refl w
      · dsimp only
        split
        · exact worked_takeMain _ _ _
        · exact worked_takeRx _ _ _

theorem worked_loseFollowed (p : Position) (k : PortKind) (l : Line) (b : List Line) (w : Work) :
    Worked w (loseFollowed p k l b w) := .foldl _ (fun w i => worked_lose p k i _ w) _ _

theorem worked_settleRing (p : Position) (k : PortKind) (w : Work) : Worked w (settleRing p k w) := worked_mapStanding _ _ _ _

theorem worked_setDue (p : Position) (k : PortKind) (on : Bool) (w : Work) : Worked w (setDue p k on w) :=
  worked_mapStanding _ _ _ _

theorem worked_noteNoRoute (p : Position) (k : PortKind) (b : Band) (w : Work) : Worked w (noteNoRoute p k b w) := by
  unfold noteNoRoute
  split
  · exact worked_note _ _ _
  · exact .refl w

theorem worked_ringClaim (p : Position) (k : PortKind) (b : Band) (told : Bool) (w : Work) :
    Worked w (ringClaim p k b told w).1 := by
  unfold ringClaim
  dsimp only
  split
  · split
    · exact ((worked_claimRoute _ _ _ _).trans (worked_loseFollowed _ _ _ _ _)).trans (worked_settleRing _ _ _)
    · exact (worked_claimRoute _ _ _ _).trans (worked_settleRing _ _ _)
  · split
    · exact (worked_claimRoute _ _ _ _).trans (worked_settleRing _ _ _)
    · exact worked_noteNoRoute _ _ _ _

theorem worked_calledClaim (p : Position) (k : PortKind) (b : Band) (w : Work) : Worked w (calledClaim p k b w) := by
  unfold calledClaim
  split
  · exact worked_setDue _ _ _ _
  · split
    · exact .refl w
    · exact worked_ringClaim _ _ _ _ _

theorem worked_claimIfNeeded (p : Position) (k : PortKind) (w : Work) : Worked w (claimIfNeeded p k w) := by
  unfold claimIfNeeded
  split
  · split
    · exact worked_calledClaim _ _ _ _
    · exact .refl w
  · exact .refl w

theorem worked_reclaimOne (p : Position) (k : PortKind) (w : Work) : Worked w (reclaimOne p k w) := by
  unfold reclaimOne
  split
  · split
    · dsimp only
      split
      · exact (worked_mapStanding _ _ _ _).trans (worked_setDue _ _ _ _)
      · exact (worked_mapStanding _ _ _ _).trans (worked_claimIfNeeded _ _ _)
    · exact .refl w
  · exact .refl w

theorem worked_eachPort (f : Position → PortKind → Work → Work) (hf : ∀ p k w, Worked w (f p k w)) (w : Work) :
    Worked w (eachPort f w) :=
  .foldl _ (fun w p => (hf p .main w).trans (hf p .aux _)) _ _

theorem worked_reclaims (w : Work) : Worked w (reclaims w) := worked_eachPort _ worked_reclaimOne w

theorem worked_switchingEnded (b : State) (w : Work) : Worked w (switchingEnded b w) :=
  .foldl _ (fun w p => by
    split
    · exact worked_event _ _
    · exact .refl w) _ _

theorem worked_removeWhere (t : Holder → Bool) (w : Work) : Worked w (removeWhere t w) :=
  .foldl _ (fun w (r : Holder) => worked_removeRecord r.pos r.line w) _ _

theorem worked_takeDue (p : Position) (k : PortKind) (w : Work) : Worked w (takeDue p k w) := by
  unfold takeDue
  split
  · exact (worked_setDue _ _ _ _).trans (worked_claimIfNeeded _ _ _)
  · exact .refl w

theorem worked_followBand (p : Position) (k : PortKind) (w : Work) : Worked w (followBand p k w) := by
  unfold followBand
  split
  · split
    · split
      · exact worked_calledClaim _ _ _ _
      · exact worked_setDue _ _ _ _
    · exact worked_setDue _ _ _ _
  · exact .refl w

theorem worked_breakAbsent (p : Position) (w : Work) : Worked w (breakAbsent p w) :=
  .foldl _ (fun w (r : Holder) => (worked_mapStanding p r.kind _ w).trans (worked_goBreaking _ _ _)) _ _

theorem worked_dropEntries (p : Position) (w : Work) : Worked w (dropEntries p w) :=
  (worked_withdraw _ _ _ _).trans (worked_withdraw _ _ _ _)

theorem worked_takeFlags (w : Work) : Worked w (takeFlags w) := worked_of_alloc _ rfl

theorem worked_connectOne (r : Holder) (w : Work) : Worked w (connectOne r w) :=
  ((worked_mapRecord _ _ _ _).trans (worked_note _ _ _)).trans (worked_event _ _)

theorem worked_connectMade (w : Work) : Worked w (connectMade w) := .foldl _ (fun w (r : Holder) => worked_connectOne r w) _ _

theorem worked_requestBreaks (p : Position) (w : Work) : Worked w (requestBreaks p w) := worked_of_alloc _ rfl

theorem worked_clearClaims (w : Work) : Worked w (clearClaims w) := worked_of_alloc _ rfl

theorem worked_loseToRestart (r : Holder) (w : Work) : Worked w (loseToRestart r w) := by
  unfold loseToRestart
  split
  · exact worked_note _ _ _
  · exact .refl w

/-! ## Whole events of the allocator -/

theorem moved_closeWork (b : State) (w : Work) : Moved [.alloc, .chain] w.s (closeWork b w).s := by
  have h : Moved [.alloc, .chain] w.s (makeTests (admitFreed w)).s :=
    ((worked_admitFreed w).trans (worked_makeTests _)).moved.mono (by decide)
  have g : Moved [.alloc, .chain] (makeTests (admitFreed w)).s ((makeTests (admitFreed w)).map recompose).s :=
    (moved_recompose _).mono (by decide)
  have k : Moved [.alloc, .chain] ((makeTests (admitFreed w)).map recompose).s (closeWork b w).s :=
    (worked_switchingEnded b _).moved.mono (by decide)
  exact (h.trans g).trans k

theorem moved_handOn (w : Work) : Moved airParts w.s (handOn w) :=
  (((moved_notifyEach w.grants w.s).mono (by decide)).trans (moved_takeTxiEvents _ _)).trans
    ((moved_notifyEach _ _).mono (by decide))

theorem moved_allocEvent (f : Work → Work) (hf : ∀ w, Worked w (f w)) (s : State) : Moved allocParts s (allocEvent f s) := by
  have h : Moved allocParts s (reclaims (admitFreed (f (Work.start s)))).s :=
    (((hf (Work.start s)).trans (worked_admitFreed _)).trans (worked_reclaims _)).moved.mono (by decide)
  exact (h.trans ((moved_closeWork s _).mono (by decide))).trans ((moved_handOn _).mono (by decide))

theorem moved_closeRequest (b : State) (a : State → State) (ha : ∀ s, Moved [.links] s (a s)) (w : Work) :
    Moved allocParts w.s (closeRequest b a w) := by
  have h : Moved allocParts w.s (closeWork b w).s := (moved_closeWork b w).mono (by decide)
  have g : Moved allocParts (closeWork b w).s (a (closeWork b w).s) := (ha _).mono (by decide)
  exact ((h.trans g).trans ((moved_handOn ((closeWork b w).map a)).mono (by decide))).trans (moved_allocEvent id Worked.refl _)

theorem moved_allocPathQuiet (p : Position) (s : State) : Moved allocParts s (allocPathQuiet p s) :=
  moved_allocEvent _ (fun w => (worked_requestBreaks p w).trans (worked_applyReroutes _ _)) s

theorem moved_allocBandChange (p : Position) (s : State) : Moved allocParts s (allocBandChange p s) :=
  moved_allocEvent _ (fun w => (worked_followBand p .main w).trans (worked_followBand _ _ _)) s

theorem moved_allocCompletion (s : State) : Moved allocParts s (allocCompletion s) :=
  moved_allocEvent _ (fun w => ((worked_takeFlags w).trans (worked_connectMade _)).trans (worked_removeWhere _ _)) s

theorem moved_allocEnd (s : State) : Moved allocParts s (allocEnd s) :=
  moved_allocEvent _ (fun w => worked_removeWhere _ w) s

theorem moved_allocEntry (s : State) : Moved allocParts s (allocEntry s) :=
  moved_allocEvent _
    (fun w => .foldl _ (fun w (r : Holder) => (worked_goBreaking r.pos r.line w).trans (worked_lose _ _ _ _ _)) _ w) s

theorem moved_allocExit (s : State) : Moved allocParts s (allocExit s) :=
  moved_allocEvent _ (fun w =>
    (((worked_makeTests w).trans (Worked.foldl _ (fun w p => worked_applyReroutes p w) _ _)).trans (worked_admitFreed _)).trans
      (worked_eachPort _ worked_takeDue _)) s

theorem moved_allocAbsence (p : Position) (s : State) : Moved allocParts s (allocAbsence p s) :=
  moved_allocEvent _ (fun w =>
    (((worked_settleRing p .main w).trans (worked_settleRing _ _ _)).trans (worked_dropEntries _ _)).trans
      (worked_breakAbsent _ _)) s

theorem moved_allocReturn (p : Position) (s : State) : Moved [.alloc, .links, .inbox] s (allocReturn p s) :=
  Moved.foldl _ (fun s k => by
    split
    · exact ((moved_mapStanding s p k _).mono (by decide)).trans ((moved_notify _ _ _).mono (by decide))
    · exact .refl _ _) _ _

theorem moved_allocRestart (s : State) : Moved allocParts s (allocRestart s) :=
  moved_allocEvent _ (fun w =>
    (worked_clearClaims w).trans
      (.foldl _ (fun w (r : Holder) => (worked_goBreaking r.pos r.line w).trans (worked_loseToRestart r _)) _ _)) s

/-! ## Requests of the allocator -/

theorem worked_releaseKinds (p : Position) (ks : List PortKind) (w : Work) : Worked w (releaseKinds p ks w) :=
  .foldl _ (fun w (r : Holder) => worked_goBreaking p r.line w) _ _

theorem moved_setFollow (p : Position) (ks : List PortKind) (on : Bool) (s : State) : Moved [.alloc] s (setFollow p ks on s) :=
  .foldl _ (fun s k => moved_mapStanding s p k _) _ _

theorem worked_followKind (p : Position) (k : PortKind) (w : Work) : Worked w (followKind p k w).1 := by
  unfold followKind
  split
  · exact .refl w
  · split
    · exact worked_ringClaim _ _ _ _ _
    · exact .refl w

theorem worked_followPart (p : Position) (k : PortKind) (ks : List PortKind) (w : Work) : Worked w (followPart p k ks w).1 := by
  unfold followPart
  split
  · exact worked_followKind _ _ _
  · exact .refl w

/-! ## The Band Decoder -/

theorem moved_bandTaken (p : Position) (s : State) : Moved allocParts s (bandTaken p s) :=
  (((moved_arbiter s).mono (by decide)).trans ((moved_setTarget _ _ _).mono (by decide))).trans (moved_allocBandChange _ _)

theorem moved_bandChange (p : Position) (s : State) : Moved allocParts s (bandChange p s) :=
  ((moved_revoke p .band s).mono (by decide)).trans (moved_bandTaken _ _)

theorem moved_bandChangeFrom (o : Option Band) (p : Position) (s : State) : Moved allocParts s (bandChangeFrom o p s) := by
  unfold bandChangeFrom
  split
  · exact .refl _ _
  · exact moved_bandChange _ _

theorem moved_bandNotice (p : Position) (s : State) : Moved [.freq, .links, .inbox] s (bandNotice p s) := by
  unfold bandNotice
  dsimp only
  split
  · exact ((moved_mapFreq s _ _).mono (by decide)).trans ((moved_notify _ _ _).mono (by decide))
  · exact .refl _ _

theorem moved_redecodeOne (b : State) (p : Position) (s : State) : Moved (.freq :: allocParts) s (redecodeOne b p s) := by
  unfold redecodeOne retarget
  split
  · split
    · exact (moved_setTarget _ _ _).mono (by decide)
    · exact .refl _ _
  · exact (moved_bandTaken _ _).mono (by decide)

theorem moved_redecodeRevokes (b s : State) : Moved airParts s (redecodeRevokes b s) :=
  .foldl _ (fun s p => by
    split
    · exact .refl _ _
    · exact moved_revoke _ _ _) _ _

theorem moved_redecodeNotices (s : State) : Moved [.freq, .links, .inbox] s (redecodeNotices s) :=
  .foldl _ (fun s p => moved_bandNotice p s) _ _

theorem moved_redecode (b s : State) : Moved (.freq :: allocParts) s (redecode b s) := by
  have h : Moved (.freq :: allocParts) s (redecodeRecords s) :=
    .of_eq (fun x hx => by cases x <;> first | rfl | simp at hx) rfl rfl
  exact (((h.trans ((moved_redecodeRevokes b _).mono (by decide))).trans ((moved_redecodeNotices _).mono (by decide))).trans
    (.foldl _ (fun s p => moved_redecodeOne b p s) _ _)).trans
    (.foldl _ (fun s _ => (moved_reportEvent s).mono (by decide)) _ _)

/-! ## The Fault Log -/

theorem moved_endWithoutLatch (s : State) : Moved allocParts s (endWithoutLatch s) :=
  (moved_allocEnd s).trans ((moved_arbiter _).mono (by decide))

theorem moved_reportFault (o : Occurrence) (v : Severity) (s : State) :
    Moved [.log, .links, .inbox] s (reportFault o v s) := by
  unfold reportFault
  split
  · exact ((moved_mapLog _ _).mono (by decide)).trans ((moved_notifyAll _ _).mono (by decide))
  · exact .refl _ _

theorem moved_interlockEntry (s : State) : Moved airParts s (interlockEntry s) :=
  (moved_revokeAll .safe s).trans (moved_arbiter _)

theorem moved_chainEntry (s : State) : Moved (.store :: allocParts) s (chainEntry s) := by
  unfold chainEntry
  dsimp only
  split
  · split
    · exact (moved_mapChain _ _).mono (by decide)
    · exact ((((moved_mapChain s _).trans (moved_endOperation _ _)).mono (by decide)).trans
        ((moved_endWithoutLatch _).mono (by decide))).trans ((moved_endStartUp _).mono (by decide))
  · exact (moved_mapChain _ _).mono (by decide)

theorem moved_enterSafe (s : State) : Moved logParts s (enterSafe s) :=
  (((((moved_mapLog s _).mono (by decide)).trans ((moved_notifyAll _ _).mono (by decide))).trans
    ((moved_interlockEntry _).mono (by decide))).trans ((moved_chainEntry _).mono (by decide))).trans
      ((moved_allocEntry _).mono (by decide))

theorem moved_spoilExit (s : State) : Moved [.log] s (spoilExit s) := by
  unfold spoilExit
  split
  · exact moved_mapLog _ _
  · exact .refl _ _

theorem moved_takeFatal (s : State) : Moved logParts s (takeFatal s) := by
  have h : Moved logParts s (spoilExit s) := (moved_spoilExit s).mono (by decide)
  unfold takeFatal
  split
  · exact h
  · exact h.trans (moved_enterSafe _)

theorem moved_recordOccurrence (o : Occurrence) (s : State) : Moved [.log, .links, .inbox] s (recordOccurrence o s) := by
  unfold recordOccurrence
  split
  · exact .refl _ _
  · exact ((moved_mapLog s _).mono (by decide)).trans (moved_reportFault _ _ _)

theorem moved_takeOccurrence (o : Occurrence) (s : State) : Moved logParts s (takeOccurrence o s) := by
  have h : Moved logParts s (recordOccurrence o s) := (moved_recordOccurrence o s).mono (by decide)
  unfold takeOccurrence
  split
  · exact .refl _ _
  · split
    · exact h.trans (moved_takeFatal _)
    · exact h

theorem moved_leaveSafe (s : State) : Moved logParts s (leaveSafe s) :=
  ((((moved_mapLog s _).mono (by decide)).trans ((moved_notifyAll _ _).mono (by decide))).trans
    ((moved_allocExit _).mono (by decide))).trans ((moved_arbiter _).mono (by decide))

theorem moved_takeExitResult (b : Bool) (s : State) : Moved logParts s (takeExitResult b s) := by
  unfold takeExitResult
  dsimp only
  split
  · split
    · exact ((moved_mapLog s _).trans (moved_mapLog _ _)).mono (by decide)
    · exact ((moved_mapLog s _).mono (by decide)).trans (moved_leaveSafe _)
  · exact (moved_mapLog _ _).mono (by decide)

/-! ## The close of a step -/

theorem moved_pathQuietEvent (p : Position) (s : State) : Moved allocParts s (pathQuietEvent p s) :=
  (moved_allocPathQuiet p s).trans ((moved_filterMove _ _).mono (by decide))

theorem moved_quietEvents (b : State) : ∀ (n : Nat) (d : List Position) (s : State), Moved allocParts s (quietEvents b n d s)
  | 0, _, s => .refl _ s
  | n + 1, d, s => by
    unfold quietEvents
    split
    · exact (moved_pathQuietEvent _ _).trans (moved_quietEvents b n _ _)
    · exact .refl _ _

theorem moved_deliverQuiet (b s : State) : Moved allocParts s (deliverQuiet b s) := moved_quietEvents _ _ _ _

theorem watchPin_same (b s : State) (h : s.store.ready = b.store.ready) : watchPin b s = s := by
  unfold watchPin
  rw [if_neg]
  simp [h]

theorem moved_closeStep (b s : State) (h : s.store.ready = b.store.ready) : Moved allocParts s (closeStep b s) := by
  unfold closeStep
  rw [watchPin_same b s h]
  exact (moved_deliverQuiet b s).trans ((moved_startRule _).mono (by decide))

theorem moved_waitAbsent (p : Position) (s : State) : Moved airParts s (waitAbsent p s) := by
  unfold waitAbsent
  split
  · exact (moved_mapTx _ _ _).mono (by decide)
  · exact .refl _ _

end Sys2Proof.Machine
end

