-- ==== Sys2Proof/WellFormed.lean ====
section
/-! DEFINITION. Which commands are well formed. Positions, characters and levels carry their range in their type; the one
operand that is a plain number is the chain bit of a MISMATCH. -/

namespace Sys2Proof

/-- A command is well formed when its chain bit, if it has one, is a bit of the relay image (R136). -/
def WellFormed : Instr → Bool
  | .poll _ | .freq _ | .claimWait _ | .claimNow _ | .claimTake _ | .release _ | .cancel _ => true
  | .followOn _ | .followOff _ | .step _ | .query _ | .tableRead _ | .bandWrite _ => true
  | .feedLineWrite _ | .elementWrite _ | .routeWrite _ | .ringWrite _ => true
  | .stationPolicyWrite _ | .positionSettingsWrite _ | .faultConfigurationWrite _ => true
  | .save _ | .faultRead _ | .faultClear _ | .restartRequest _ | .unknownRequestKind _ => true
  | .frameArrival _ _ | .frameError _ _ | .gapExpiry _ | .skippingStart _ | .frameSent _ => true
  | .divisorChange _ | .linkSilenceExpiry _ | .absence _ _ | .positionReturn _ _ => true
  | .pttLevelChange _ _ | .rfSenseLevelChange _ _ | .pttOn _ | .pttOff _ | .rfOn _ | .rfOff _ => true
  | .hangExpiry _ | .tailExpiry _ | .staleExpiry _ | .lockLevelChange _ | .lockDebounceExpiry => true
  | .restartNLevelChange _ | .restartPin | .powerOn | .verifyTimerExpiry | .changeShiftEnd => true
  | .changeCompletion | .verifyEnd | .resyncFillEnd | .resyncPass => true
  | .mismatch bit => decide (bit < Config.imageBits)
  | .saveWriteEnd _ | .occurrence | .goodCharacter _ _ | .restartNDebouncedRelease | .powerLoss => true

end Sys2Proof
end

