-- ==== Sys2Proof/Tests/Slice0.lean ====
section
/-! SUPPORT. Tests of the part on small states, their expected values worked out from the manual, and for each statement that has
hypotheses a witness: concrete states and operands that meet them. -/

namespace Sys2Proof.Tests

open Sys2Proof.Machine

-- One theorem at a time: each runs the kernel's evaluator on a stack of its own.
set_option Elab.async false

/-! ## Well-formedness -/

theorem test_mismatch_bit_past_the_image_is_ill_formed : WellFormed (.mismatch 256) = false := by decide

theorem test_mismatch_last_bit_is_well_formed : WellFormed (.mismatch 255) = true := by decide

/-! ## A small station -/

/-- The factory table with MAIN lines 2 and 3, an RX line 8 of two splitter ports, an element and a route on each, a second on the RX
line, all for band 4, rings for P0 and P1, and priority 3 for P1. -/
def siteTable : Table :=
  let main : LineEntry := { kind := .main, ports := 1, reserved := none, enabled := true }
  let element (l : Line) (x : Select) : ElementEntry := { line := l, select := x, bands := 0x10, enabled := true }
  let route (l : Line) (x : Element) : RouteEntry := { line := l, elements := [x], label := [], enabled := true, bands := 0x10 }
  let rings (p : Position) (v : Vector (List Route) 144) :=
    put (put v (ringIndex p 4 .main) [10, 12]) (ringIndex p 4 .aux) [30, 31]
  { factoryTable with
    lines := put (put (put factoryTable.lines 2 main) 3 main) 8 { main with kind := .rx, ports := 2 }
    elements := put (put (put (put factoryTable.elements 4 (element 2 0)) 5 (element 3 0)) 20 (element 8 0)) 21 (element 8 1)
    routes := put (put (put (put factoryTable.routes 10 (route 2 4)) 12 (route 3 5)) 30 (route 8 20)) 31 (route 8 21)
    rings := rings 1 (rings 0 factoryTable.rings)
    settings := put factoryTable.settings 1 { factorySettings with priority := 3 } }

/-- The part READY and unlocked with that table, every position PRESENT with 14.025 MHz reported and band 4 confirmed, every relay
open, and nothing in flight. -/
def site : State :=
  { State.reset with
    powered := true
    table := siteTable
    store := { State.reset.store with ready := .ready, lock := false }
    freq := Vector.replicate 6 { clearFreq with rx := some 1402500, band := some 4, staleTimer := some 10000 }
    links := Vector.replicate 6 { clearLink (26, 5) with present := true, silenceTimer := some 5000 }
    chain := { clearChain with content := some 0, refreshDue := false, verifyTimer := some 2000 } }

/-- Port `p` has one request in its slots. -/
def asks (p : Position) (k : Byte) (pl : List Byte) (s : State) : State :=
  s.withLink p { s.link p with slots := [{ kind := k, payload := pl }] }

/-- A position has a record with the route, on the route's line. -/
def holds (p : Position) (r : Route) (x : HolderState) (s : State) : State :=
  s.mapAlloc fun a => { a with records := a.records ++
    [{ pos := p, line := (s.routeOf r).line, route := r, kind := s.portOf (s.routeOf r).line, state := x, latched := x ≠ .pending,
       breakRequested := false, reroute := none }] }

/-- A position has an entry at the end of the list of the route's line. -/
def queues (p : Position) (r : Route) (m : Manner) (s : State) : State :=
  mapLists (fun l xs => if l = (s.routeOf r).line then
    xs ++ [{ pos := p, route := r, manner := m, move := false, priority := (s.settingsOf p).priority }] else xs) s

/-- A position's transmit record in a state, coherent with it. -/
def keyed (p : Position) (x : TxState) (s : State) : State :=
  let t := s.mapTx p fun r => { r with
    state := x, ptt := x = .waiting || x = .granted || x = .revoked, pttRaw := x = .waiting || x = .granted || x = .revoked
    hangTimer := if x = .hang then some 300 else none }
  if x = .waiting then { t with waiting := t.waiting ++ [p] } else t

/-- The state after a command. -/
def after (s : State) (c : Instr) : State :=
  match exec c s with
  | .next t => t
  | _ => s

/-- The part in safe state. -/
def unsafeSite : State := site.mapLog fun l => { l with safe := true }

/-- An operation in flight that carries an image. -/
def runs (k : OpKind) (why : Purpose) (ph : Phase) (im : Image) (s : State) : State :=
  s.mapChain fun c => { c with
    op := some { kind := k, purpose := why, phase := ph, image := im, changeSet := im ^^^ c.latched, length := 26 }
    settleTimer := if ph = .settling then some 15 else none
    verifyTimer := none }

theorem asks_offers {s : State} {p : Position} (k : Byte) (pl : List Byte) (n : Nat) (hp : s.powered = true)
    (ha : s.awaits p = false) (hq : (s.link p).queue.length + n ≤ 8) : Offers (asks p k pl s) p ⟨k, pl⟩ n := by
  have h : ((asks p k pl s).link p) = { s.link p with slots := [{ kind := k, payload := pl }] } := by
    simp [asks, State.link, State.withLink]
  exact ⟨hp, by rw [h]; rfl, ha, by rw [h]; exact hq⟩

theorem site_offers (p : Position) (k : Byte) (pl : List Byte) (n : Nat) (h : n ≤ 8) : Offers (asks p k pl site) p ⟨k, pl⟩ n :=
  asks_offers k pl n rfl rfl (by simpa [site, State.link, clearLink] using h)

theorem site_keyed : site.AllocationKeyed := by constructor <;> decide +kernel

theorem site_coherent : site.TransmitCoherent :=
  ⟨by constructor <;> decide +kernel, fun p => by constructor <;> revert p <;> decide +kernel⟩

/-! ## One step of each command -/

/-- Section 9.4: the reply to POLL is READY, not in safe state, not locked. -/
theorem test_poll : ((after (asks 0 1 [] site) (.poll 0)).link 0).queue = [⟨0x81, [0, 1, 0, 0]⟩] := by decide +kernel

/-- Section 2.4, with a confirm count of 2: one report on 7.025 MHz makes band 2 the candidate and leaves the band. -/
theorem test_freq_first_report_is_a_candidate :
    ((after (asks 0 2 [0, 0x0A, 0xB8, 0x24, 3] site) (.freq 0)).freqOf 0).candidate = some 2 ∧
      ((after (asks 0 2 [0, 0x0A, 0xB8, 0x24, 3] site) (.freq 0)).freqOf 0).band = some 4 := by decide +kernel

/-- R59: a WAIT claim of a line that P1 holds is queued in place 1. -/
theorem test_claim_wait_queues :
    ((after (asks 0 3 [10, 0] (holds 1 10 .connected site)) (.claimWait 0)).link 0).queue = [⟨0x83, [1, 1]⟩] := by decide +kernel

/-- R58, R42: a NOW claim of a free line makes the record at once, the path being quiet. -/
theorem test_claim_now_makes :
    ((after (asks 0 3 [10, 1] site) (.claimNow 0)).recordAt 0 2).map (fun r => (r.route, r.state)) = some (10, .making) := by
  decide +kernel

/-- R61, R107: P1 takes the line under P0's transmission. -/
theorem test_claim_take_revokes :
    ((after (asks 1 3 [10, 2] (keyed 0 .granted (holds 0 10 .connected site))) (.claimTake 1)).txOf 0).state = .revoked := by
  decide +kernel

/-- R67, R44: the released record is BREAKING, its break requested at once on a quiet path. -/
theorem test_release_breaks :
    ((after (asks 0 4 [0] (holds 0 10 .connected site)) (.release 0)).recordAt 0 2).map (fun r => (r.state, r.breakRequested)) =
      some (.breaking, true) := by decide +kernel

/-- R69. -/
theorem test_cancel_leaves_the_list :
    (after (asks 0 5 [0] (queues 0 10 .wait (holds 1 10 .connected site))) (.cancel 0)).listOf 2 = [] := by decide +kernel

/-- R78, R81: the ring claim of band 4 assigns route 10, the first candidate of the MAIN ring. -/
theorem test_follow_on_assigns :
    (((after (asks 0 6 [0, 1] site) (.followOn 0)).link 0).queue.head?) = some ⟨0x86, [0, 1, 10, 0xFF, 0xFF, 0xFF, 0xFF]⟩ := by
  decide +kernel

/-- R78: FOLLOW off for AUX alone. -/
theorem test_follow_off_answers_none :
    ((after (asks 0 6 [1, 0] site) (.followOff 0)).link 0).queue = [⟨0x86, [0, 0xFF, 0xFF, 0xFF, 0, 0xFF, 0xFF]⟩] := by
  decide +kernel

/-- R89, R90: from route 10 the walk forward comes to route 12. -/
theorem test_step_goes_to_the_next_route :
    ((after (asks 0 7 [0, 0] (holds 0 10 .connected site)) (.step 0)).link 0).queue.head? = some ⟨0x87, [0, 12]⟩ := by
  decide +kernel

/-- R180: position 6 does not exist; a refused part reply is one frame. -/
theorem test_query_past_the_positions :
    ((after (asks 0 8 [1, 6] site) (.query 0)).link 0).queue = [⟨0x88, [24, 0x11]⟩] := by decide +kernel

/-- R4, R25: band 4 of the factory table, 140,000 to 143,500, filter 3, label "20 m". -/
theorem test_table_read_of_band_4 :
    ((after (asks 0 9 [0, 4] site) (.tableRead 0)).link 0).queue =
      [⟨0x89, [0, 0x02, 0x22, 0xE0, 0x02, 0x30, 0x8C, 3, 0x32, 0x30, 0x20, 0x6D, 0, 0, 1]⟩] := by decide +kernel

/-- R36: band 4 moved to filter 4 gives every position on it a new target. -/
theorem test_band_write_retargets :
    ((after (asks 0 0x0A [0, 4, 0x02, 0x22, 0xE0, 0x02, 0x30, 0x8C, 4, 0, 0, 0, 0, 0, 0, 1] site) (.bandWrite 0)).filterOf 5).target =
      some 4 := by decide +kernel

/-- R8: an RX line of 5 splitter ports is INVALID. -/
theorem test_feed_line_write_of_five_ports :
    ((after (asks 0 0x0A [1, 8, 1, 5, 0xFF, 1] site) (.feedLineWrite 0)).link 0).queue = [⟨0x8A, [23]⟩] := by decide +kernel

/-- R14: an element's new band set is the band set of the route that lists it alone. -/
theorem test_element_write_recomputes :
    ((after (asks 0 0x0A [2, 4, 2, 0, 0, 0x14, 1] site) (.elementWrite 0)).routeOf 10).bands = 0x14 := by decide +kernel

/-- R13: a route may not list an element of another line. -/
theorem test_route_write_with_a_foreign_element :
    ((after (asks 0 0x0A [3, 10, 2, 5, 0xFF, 0xFF, 0xFF, 0, 0, 0, 0, 0, 0, 0, 0, 1] site) (.routeWrite 0)).link 0).queue =
      [⟨0x8A, [23]⟩] := by decide +kernel

/-- R16. -/
theorem test_ring_write_stores :
    (after (asks 0 0x0A [4, 5, 11, 0, 2, 12, 10] site) (.ringWrite 0)).ringOf 5 11 .main = [12, 10] := by decide +kernel

/-- R19: K of 9 is brought to 6, and the write ADJUSTED. -/
theorem test_policy_write_clamps :
    ((after (asks 0 0x0A [5, 4, 15, 10, 30, 10, 5, 2, 9, 2, 3, 10, 1, 26, 1] site) (.stationPolicyWrite 0)).link 0).queue =
      [⟨0x8A, [2]⟩] ∧
    (after (asks 0 0x0A [5, 4, 15, 10, 30, 10, 5, 2, 9, 2, 3, 10, 1, 26, 1] site) (.stationPolicyWrite 0)).policy.k = 6 := by
  decide +kernel

/-- R22, R198: a divisor written while the port receives a frame waits, and is applied when the frame has ended in error. -/
theorem test_settings_write_waits_for_the_frame :
    let s := asks 0 0x0A [6, 3, 1, 1, 0, 52, 2] (site.mapLink 3 fun x => { x with receiver := .length })
    ((after s (.positionSettingsWrite 0)).link 3).divisor = (26, 5) ∧
      ((after (after s (.positionSettingsWrite 0)) (.frameError 3 .framing)).link 3).divisor = (52, 2) := by decide +kernel

/-- R198: an idle port takes its divisor with the write, unless a start bit is being confirmed. -/
theorem test_settings_write_of_an_idle_port :
    ((clearLink (26, 5)).writeDivisor 3 (52, 2) false).divisor = if Config.startBit 3 0 then (26, 5) else (52, 2) := by
  simp [Link.writeDivisor, Link.revise, Link.look, Link.settleRate, Link.divisorReady, Link.divisorDue, clearLink]
  cases Config.startBit 3 0 <;> rfl

/-- R23: UNGRANTED_RF stays FATAL. -/
theorem test_fault_write_of_a_minor_kind_1 :
    ((after (asks 0 0x0A [7, 1, 0, 0, 0, 0] site) (.faultConfigurationWrite 0)).link 0).queue = [⟨0x8A, [23]⟩] := by decide +kernel

/-- R191. -/
theorem test_save_starts : (after (asks 0 0x0B [] site) (.save 0)).store.saving = true := by decide +kernel

/-- R165, R178: 30 and 18 bytes, after code and part byte. -/
theorem test_fault_read_parts :
    ((after (asks 0 0x0C [] site) (.faultRead 0)).link 0).queue.map (fun f => f.payload.length) = [32, 20] := by decide +kernel

/-- R166, R151: in safe state the EXIT RESYNC starts. -/
theorem test_fault_clear_in_safe_state :
    (after (asks 0 0x0D [] unsafeSite) (.faultClear 0)).purpose = some .exit := by decide +kernel

/-- R194, R196. -/
theorem test_restart_request : (after (asks 0 0x0E [] site) (.restartRequest 0)).store.ready = .restarting := by decide +kernel

/-- R177: 0x0F is no request kind. -/
theorem test_unknown_request_kind :
    ((after (asks 0 0x0F [] site) (.unknownRequestKind 0)).link 0).queue = [⟨0xFF, [25]⟩] := by decide +kernel

/-- R173: a POLL frame is C3 01 01 FE. -/
theorem test_frame_arrival :
    ((runAll [.goodCharacter 0 0xC3, .goodCharacter 0 1, .goodCharacter 0 1, .frameArrival 0 0xFE] site).map fun t =>
      (t.link 0).slots) = some [⟨1, []⟩] := by decide +kernel

/-- R174: a length of 34 ends the frame in error. -/
theorem test_frame_error_of_length_34 :
    (after (site.mapLink 0 fun x => { x with receiver := .length }) (.frameError 0 (.character 34))).inbox =
      [.occurred { kind := .linkFrame, pos := some 0, line := none, band := none, detail := .frame .length }] := by decide +kernel

/-- R174. -/
theorem test_gap_expiry_ends_the_frame :
    ((after (site.mapLink 0 fun x => { x with receiver := .length }) (.gapExpiry 0)).link 0).receiver = .hunting ∧
      after site (.gapExpiry 0) = site := by decide +kernel

/-- R176. -/
theorem test_skipping_start :
    ((after (site.mapLink 0 fun x => { x with slots := [⟨1, []⟩, ⟨1, []⟩] }) (.skippingStart 0)).link 0).receiver =
      .skipping none := by decide +kernel

/-- R181. -/
theorem test_frame_sent :
    ((after (site.mapLink 0 fun x => { x with queue := [⟨1, []⟩, ⟨2, []⟩], sending := true }) (.frameSent 0)).link 0).queue =
      [⟨2, []⟩] := by decide +kernel

/-- R198: between two frames the divisor is applied, unless a start bit is being confirmed, and the second frame starts. -/
theorem test_frame_sent_before_a_change :
    let x := ({ clearLink (26, 5) with queue := [⟨1, []⟩, ⟨2, []⟩], sending := true, waitingDivisor := some (52, 2),
                                       divisorWait := 1 } : Link).frameSent 0
    x.sending = true ∧ x.divisor = if Config.startBit 0 0 then (26, 5) else (52, 2) := by
  simp [Link.frameSent, Link.revise, Link.look, Link.settleRate, Link.divisorReady, Link.divisorDue, clearLink]
  cases Config.startBit 0 0 <;> rfl

/-- R198. -/
theorem test_divisor_change :
    ((after (site.mapLink 0 fun x => { x with waitingDivisor := some (52, 2) }) (.divisorChange 0)).link 0).divisor = (52, 2) := by
  decide +kernel

/-- R183: three blocks are told of the absence. -/
theorem test_link_silence :
    (after site (.linkSilenceExpiry 2)).handed =
      [.absence .bandDecoder 2, .absence .lineAllocator 2, .absence .transmitInterlock 2] := by decide +kernel

/-- R72. -/
theorem test_absence_at_the_allocator_stores_the_loss :
    ((after { holds 0 10 .connected site with handed := [.absence .lineAllocator 0] } (.absence .lineAllocator 0)).standing 0
      .main).loss = some 2 := by decide +kernel

/-- R110. -/
theorem test_absence_at_the_interlock_keeps_the_waiter :
    let t := after { keyed 0 .waiting site with handed := [.absence .transmitInterlock 0] } (.absence .transmitInterlock 0)
    (t.txOf 0).reason = some .absent ∧ t.waiting = [0] := by decide +kernel

/-- R73: LOST for MAIN on L2, reason ABSENT. -/
theorem test_return_tells_the_loss :
    ((after { site.mapStanding 0 .main (fun x => { x with loss := some 2 }) with handed := [.positionReturn .lineAllocator 0] }
      (.positionReturn .lineAllocator 0)).link 0).queue = [⟨0x42, [0, 2, 1]⟩] := by decide +kernel

/-- R93: the PTT debounce of 4 ms. -/
theorem test_ptt_level : ((after site (.pttLevelChange 0 true)).txOf 0).pttTimer = some 4 := by decide +kernel

/-- R93. -/
theorem test_rf_level_back_stops_the_timer :
    ((after (after site (.rfSenseLevelChange 0 true)) (.rfSenseLevelChange 0 false)).txOf 0).rfTimer = none := by decide +kernel

/-- R95, R102: without a MAIN record the waiter's reason is NO-LINE. -/
theorem test_ptt_on_without_a_line :
    ((after (after site (.pttLevelChange 0 true)) (.pttOn 0)).txOf 0).reason = some .noLine := by decide +kernel

/-- R96: the hang time of 300 ms. -/
theorem test_ptt_off_hangs :
    ((after (after (keyed 0 .granted site) (.pttLevelChange 0 false)) (.pttOff 0)).txOf 0).hangTimer = some 300 := by decide +kernel

/-- R112. -/
theorem test_rf_on_ungranted :
    (after (after site (.rfSenseLevelChange 0 true)) (.rfOn 0)).inbox =
      [.occurred { kind := .ungrantedRf, pos := some 0, line := none, band := some 4, detail := .rf .rfOn }] := by decide +kernel

/-- R106: the end of RF makes the path quiet, which requests the break. -/
theorem test_rf_off_requests_the_break :
    ((after ((holds 0 10 .breaking site).mapTx 0 fun x => { x with rf := true, rfTimer := some 4 }) (.rfOff 0)).recordAt 0 2).map
      (fun r => r.breakRequested) = some true := by decide +kernel

/-- R97, R98: a tail of 10 ms. -/
theorem test_hang_expiry_starts_the_tail : ((after (keyed 0 .hang site) (.hangExpiry 0)).txOf 0).tailTimer = some 10 := by
  decide +kernel

/-- R98, R112. -/
theorem test_tail_expiry_under_rf :
    (after (site.mapTx 0 fun x => { x with tailTimer := some 10, rf := true }) (.tailExpiry 0)).inbox =
      [.occurred { kind := .ungrantedRf, pos := some 0, line := none, band := some 4, detail := .rf .tail }] := by decide +kernel

/-- R34. -/
theorem test_stale_expiry : ((after site (.staleExpiry 0)).freqOf 0).stale = true := by decide +kernel

/-- R24. -/
theorem test_lock_level : (after site (.lockLevelChange true)).store.lockTimer = some 4 := by decide +kernel

/-- R24. -/
theorem test_lock_debounced : (after (after site (.lockLevelChange true)) .lockDebounceExpiry).locked = true := by decide +kernel

/-- R196. -/
theorem test_restart_n_level : (after site (.restartNLevelChange true)).store.restartTimer = some 4 := by decide +kernel

/-- R196, R119: a transmission is revoked by RESTART. -/
theorem test_restart_pin_revokes :
    ((after (after (keyed 0 .granted site) (.restartNLevelChange true)) .restartPin).txOf 0).lastRevocation = some .restart := by
  decide +kernel

/-- R196. -/
theorem test_restart_n_release :
    (after ({ site with store := { site.store with restart := true, restartTimer := some 4 } }) .restartNDebouncedRelease).store.restart =
      false := by decide +kernel

/-- R193, R152: power-on ends with the START-UP CHANGE in flight. -/
theorem test_power_on : (after State.reset .powerOn).purpose = some .startUp := by decide +kernel

/-- R192: the image outlives the power. -/
theorem test_power_loss_keeps_the_image :
    (after { site with store := { site.store with nv := site.store.nv.saved siteTable } } .powerLoss).store.nv =
      site.store.nv.saved siteTable := rfl

/-- R190: the sum takes in every byte of the marker, the version and the table. -/
theorem test_saved_sum :
    (site.store.nv.saved siteTable).sum = byteSum (Config.formatMarker ++ Config.formatVersion ++ siteTable.bytes) := rfl

/-- R190: 300 bytes of 0xFF and one of 10 come to 76,510, which is 10,974 modulo 65,536. -/
theorem test_byte_sum : byteSum (List.replicate 300 0xFF ++ [10]) = 10974 := by decide +kernel

/-- R190, R193: a loss of power during a save leaves an image that the load rejects. -/
theorem test_power_loss_during_save :
    (after (after (asks 0 0x0B [] site) (.save 0)) .powerLoss).store.nv.good = false :=
  NvImage.unfinished_good site.store.nv

/-- R144. -/
theorem test_verify_timer_starts_a_verify : (after site .verifyTimerExpiry).inPhase .verify .shifting = true := by decide +kernel

/-- R142: the settle interval of 15 ms. -/
theorem test_shift_end : (after (runs .change .ordinary .shifting 1 site) .changeShiftEnd).chain.settleTimer = some 15 := by
  decide +kernel

/-- R142, R43: P0's crosspoint on L2 and select 0 of L2 are latched, and the record CONNECTED. -/
theorem test_completion_connects :
    ((after (runs .change .ordinary .settling (bitImage 2 ||| bitImage 104) (holds 0 10 .making site)) .changeCompletion).recordAt 0
      2).map (fun r => r.state) = some .connected := by decide +kernel

/-- R152: the START-UP VERIFY's end makes the part READY. -/
theorem test_verify_end_of_start_up :
    (after (runs .verify .startUp .shifting 0 { site with store := { site.store with ready := .starting } }) .verifyEnd).store.ready =
      .ready := by decide +kernel

/-- R145. -/
theorem test_fill_end : (after (runs .resync .unknown .filling 0 site) .resyncFillEnd).inPhase .resync .checking = true := by
  decide +kernel

/-- R167, R168: the pass of an EXIT ends safe state. -/
theorem test_exit_pass_leaves_safe_state :
    (after (runs .resync .exit .checking 0 (unsafeSite.mapLog fun l => { l with exitPending := true })) .resyncPass).safe = false := by
  decide +kernel

/-- R146, R147: with CHAIN_MISMATCH configured FATAL the driver is held for the entry. -/
theorem test_mismatch_holds_for_entry : (after (runs .verify .ordinary .shifting 0 site) (.mismatch 207)).chain.heldForEntry = true := by
  decide +kernel

/-- Assumption 27: where CHAIN_MISMATCH is set to MAJOR between the mismatch and the taking of its occurrence, R157 brings no entry and the
driver stays held. -/
theorem test_severity_lowered_after_mismatch :
    let held := after (runs .verify .ordinary .shifting 0 site) (.mismatch 207)
    let t := after (held.mapTable fun x => { x with faults := put x.faults 2 ⟨false, false, .major, .a⟩ }) .occurrence
    t.safe = false ∧ t.chain.heldForEntry = true ∧ (after held .occurrence).safe = true := by decide +kernel

/-- R192: a failed save is a STORE_FAULT of its requester. -/
theorem test_save_failed :
    (after (after (asks 4 0x0B [] site) (.save 4)) (.saveWriteEnd .failed)).inbox =
      [.occurred { kind := .storeFault, pos := some 4, line := none, band := none, detail := .store .write }] := by decide +kernel

/-- R157, R164: UNGRANTED_RF is FATAL. -/
theorem test_occurrence_enters_safe_state :
    (after (raise (ungrantedRf 0 .rfOn site) site) .occurrence).safe = true := by decide +kernel

/-- Section 9.1: the rates produced by the manual's three divisors. -/
theorem test_bit_rates : [(106, 5), (26, 5), (8, 7)].map bitRate = [9604, 38460, 115380] := by decide

/-- Section 7.1: a shift sends the highest chain bit first; the first returning bit of a 26-board chain is bit 207. -/
theorem test_shift_order : (shiftBits 1 1, returningBit 26 0) =
    ([false, false, false, false, false, false, false, true], 207) := by decide

/-- R173: a start byte in HUNTING. -/
theorem test_good_character : ((after site (.goodCharacter 0 0xC3)).link 0).receiver = .length := by decide +kernel

/-- R160: an idle step is a millisecond of the log clock, which wraps. -/
theorem test_idle_step_wraps_the_clock :
    (match step (site.mapLog fun l => { l with clock := 0xFFFFFFFF }) with
      | .next t => t.log.clock
      | _ => 1) = 0 := by decide +kernel

/-! ## Witnesses: states and operands that meet the hypotheses of the statements -/

/-- A command has a next state, which `after` gives. -/
theorem next_after {c : Instr} {s : State} (h : (match exec c s with | .next _ => true | _ => false) = true) :
    exec c s = .next (after s c) := by
  unfold after
  cases e : exec c s <;> simp_all

/-- P0 transmits on route 10, P1 is keyed and waits for its line, P2's record on L3 is BREAKING and is P2's re-claim line, and a CHANGE is
shifting. -/
def busy : State :=
  { runs .change .ordinary .shifting (bitImage 2) <|
      (queues 1 10 .wait <| holds 2 12 .breaking <| keyed 1 .waiting <| keyed 0 .granted <| holds 0 10 .connected site).mapStanding 2
        .main fun x => { x with follow := true, reclaim := some 3 } with
    pending := [.changeShiftEnd] }

/-- P0 waits, and every condition of R102 holds for it: its route and its filter are latched. -/
def eligible : State :=
  let s := keyed 0 .waiting (holds 0 10 .connected site)
  s.mapChain fun c => { c with
    latched := bitImage 2 ||| bitImage 104 ||| bitImage 163, pending := bitImage 2 ||| bitImage 104 ||| bitImage 163
    filters := put c.filters 0 { current := some 3, target := some 3, image := some 3 } }

/-- P0 transmits on 14.025 MHz while P1 receives on 28.05 MHz, its second harmonic. -/
def harmonious : State := (keyed 0 .granted site).mapFreq 1 fun r => { r with rx := some 2805000 }

theorem witness_StepRunsFrontCommand : busy.pending = .changeShiftEnd :: [] := rfl

theorem witness_IdleAndUnpowered :
    (site.pending = [] ∧ site.powered = true) ∧ (State.reset.pending = [] ∧ State.reset.powered = false) ∧
      (Instr.poll 0 ≠ .powerOn ∧ (∀ p on, Instr.poll 0 ≠ .pttLevelChange p on) ∧ (∀ p on, Instr.poll 0 ≠ .rfSenseLevelChange p on) ∧
        (∀ on, Instr.poll 0 ≠ .lockLevelChange on) ∧ ∀ on, Instr.poll 0 ≠ .restartNLevelChange on) := by
  refine ⟨⟨rfl, rfl⟩, ⟨rfl, rfl⟩, by decide, ?_, ?_, ?_, ?_⟩ <;> intros <;> simp

theorem witness_step_of_busy : ∃ t, step busy = .next t := ⟨_, rfl⟩

/-- A state in whose inbox no result waits. -/
theorem no_results {s : State} (h : s.inbox.head?.all (fun e => match e with | .exitResult _ => false | _ => true) = true) :
    s.ResultsTaken := fun _ _ e => by simp [e] at h

theorem witness_BoundsKept : busy.QueuesBounded ∧ busy.CountersBounded ∧ busy.ResultsTaken ∧ busy.PortsInStep := by
  exact ⟨by unfold State.QueuesBounded; decide +kernel, by unfold State.CountersBounded; decide +kernel,
    no_results (by decide +kernel), fun p => by constructor <;> revert p <;> decide +kernel⟩

theorem witness_SafeInhibitedKept :
    unsafeSite.SafeInhibited ∧ unsafeSite.safe = true ∧ ∃ t, step { unsafeSite with pending := [.poll 0] } = .next t :=
  ⟨by unfold State.SafeInhibited; decide +kernel, rfl, _, rfl⟩

theorem witness_SlotsWithinLimitKept : busy.SlotsWithinLimit ∧ busy.onAirCount = 1 := by
  unfold State.SlotsWithinLimit; decide +kernel

theorem witness_TransmitCoherentKept : busy.TransmitCoherent ∧ busy.waiting = [1] :=
  ⟨⟨by constructor <;> decide +kernel, fun p => by constructor <;> revert p <;> decide +kernel⟩, by decide +kernel⟩

theorem witness_ChainLegalKept : busy.ChainLegal := by
  exact ⟨fun o ho => by cases ho; rfl, fun o ho hk => by cases ho; exact absurd rfl hk, ⟨fun x => absurd x (by decide +kernel), fun ⟨o, ho, hp⟩ => by cases ho; cases hp⟩,
    fun _ => rfl, fun x => absurd x (by decide +kernel)⟩

theorem imageLegal_of_bit : ImageLegal (bitImage 2) := ⟨by decide +kernel, by decide +kernel⟩

theorem witness_ImagesLegalKept : busy.ImagesLegal :=
  ⟨⟨by decide +kernel, by decide +kernel⟩, ⟨by decide +kernel, by decide +kernel⟩, fun o ho => by cases ho; exact imageLegal_of_bit⟩

theorem busy_keyed : busy.AllocationKeyed := by constructor <;> decide +kernel

theorem witness_AllocationKept : busy.AllocationKeyed ∧ busy.ListsOrdered :=
  ⟨busy_keyed, by unfold State.ListsOrdered ListOrdered; decide +kernel⟩

theorem busy_reclaims : busy.ReclaimsHeld := by intro q k; cases k <;> revert q <;> decide +kernel

theorem witness_ExclusionKept : busy.AllocationKeyed ∧ busy.MainExclusive ∧ busy.ReclaimsHeld ∧ busy.LinesShared ∧
    busy.OneHeld :=
  ⟨busy_keyed, by unfold State.MainExclusive; decide +kernel, busy_reclaims,
    { counts := by
        rintro T (rfl | h | rfl)
        · decide +kernel
        · cases h
        · decide +kernel
      waited := by decide +kernel
      ports := by decide +kernel
      oneRoute := by decide +kernel }, by constructor <;> decide +kernel⟩

theorem witness_OnlyWritesChangeTable : (∃ t, exec (.poll 0) site = .next t) ∧ writesTable (.poll 0) = false := ⟨⟨_, rfl⟩, rfl⟩

/-- R190, R192: SAVE spoils the image's sum, and a good end of its write puts the saved table in. -/
theorem witness_OnlyWritesChangeTable_image :
    (let s := asks 0 0x0B [] site
     exec (.save 0) s = .next (after s (.save 0)) ∧ (after s (.save 0)).store.nv ≠ s.store.nv) ∧
      (let s : State := { site with store := { site.store with
         saving := true, snapshot := some siteTable, requester := some 4, nv := site.store.nv.unfinished } }
       s.ImageBadWhileSaving ∧ s.store.saving = true ∧ (∃ t, step { s with pending := [.poll 0] } = .next t) ∧
         (after s (.saveWriteEnd .ok)).store.nv = s.store.nv.saved siteTable) :=
  ⟨⟨next_after (by decide +kernel), fun h => absurd (congrArg NvImage.writes h) (by decide +kernel)⟩,
    fun _ => NvImage.unfinished_good site.store.nv, rfl, ⟨_, rfl⟩, rfl⟩

theorem witness_OnlyCompletionsMoveRelays :
    exec .changeCompletion (runs .change .ordinary .settling 1 site) =
        .next (after (runs .change .ordinary .settling 1 site) .changeCompletion) ∧
      (after (runs .change .ordinary .settling 1 site) .changeCompletion).chain.latched ≠
        (runs .change .ordinary .settling 1 site).chain.latched :=
  ⟨next_after (by decide +kernel), by decide +kernel⟩

/-- P0 transmits on route 10 and filter 3 while a CHANGE settles that carries P2's make on route 12; its completion is commanded. -/
def travelling : State :=
  let still : Image := bitImage 2 ||| bitImage 104 ||| bitImage 163
  let moved : Image := still ||| bitImage 35 ||| bitImage 108
  let s := holds 2 12 .making (keyed 0 .granted (holds 0 10 .connected site))
  { runs .change .ordinary .settling moved <| s.mapChain fun c => { c with
      latched := still, pending := moved, filters := put c.filters 0 { current := some 3, target := some 3, image := some 3 } } with
    alloc := { s.alloc with records := s.alloc.records.map fun x => { x with latched := x.state = .connected } }
    pending := [.changeCompletion] }

theorem travelling_relays : travelling.RelaysHeld where
  composed := by decide +kernel
  flags := by decide +kernel
  owned p l h := by
    have key : ∀ p l, (travelling.chain.latched.getLsbD (crosspointBit p l) = true ∨
        (travelling.chain.op.any fun o => o.image.getLsbD (crosspointBit p l)) = true) →
        ∃ x ∈ travelling.alloc.records, x.pos = p ∧ x.line = l ∧ x.state ≠ .pending := by decide +kernel
    exact key p l (h.imp_right fun ⟨o, ho, hb⟩ => by rw [ho]; exact hb)
  filters := by decide +kernel
  oneCrosspoint l _ im h p q hp hq := by
    have latched : ∀ p l, travelling.chain.latched.getLsbD (crosspointBit p l) = true → (p = 0 ∧ l = 2) ∨ p = 2 ∧ l = 3 := by
      decide +kernel
    have moved : ∀ p l, travelling.chain.pending.getLsbD (crosspointBit p l) = true → (p = 0 ∧ l = 2) ∨ p = 2 ∧ l = 3 := by
      decide +kernel
    have one : ∀ p q : Position, ((p = 0 ∧ l = 2) ∨ p = 2 ∧ l = 3) → ((q = 0 ∧ l = 2) ∨ q = 2 ∧ l = 3) → p = q := by
      rintro p q (⟨rfl, rfl⟩ | ⟨rfl, rfl⟩) (⟨rfl, h⟩ | ⟨rfl, h⟩) <;> first | rfl | exact absurd h (by decide)
    rcases h with rfl | rfl | ⟨o, ho, rfl⟩
    · exact one p q (latched p l hp) (latched q l hq)
    · exact one p q (moved p l hp) (moved q l hq)
    · cases ho
      exact one p q (moved p l hp) (moved q l hq)

theorem travelling_paths : travelling.PathsHeld where
  unswitched := by unfold State.Engaged; decide +kernel
  still p b he hb := by
    have only : ∀ p, travelling.onAir p = true ∨ (travelling.txOf p).tailTimer.isSome = true → p = 0 := by decide +kernel
    obtain rfl := only p he
    have agree : ∀ b, travelling.chain.pending.getLsbD b = travelling.chain.latched.getLsbD b →
        travelling.chain.pending.getLsbD b = travelling.chain.latched.getLsbD b ∧
          ∀ o, travelling.chain.op = some o → o.image.getLsbD b = travelling.chain.latched.getLsbD b := by
      intro b h
      exact ⟨h, fun o ho => by cases ho; exact h⟩
    apply agree
    rcases hb with ⟨l, rfl⟩ | ⟨i, rfl⟩ | ⟨x, hx, hp, -, i, rfl⟩
    · revert l; decide +kernel
    · revert i; decide +kernel
    · have selects : ∀ x ∈ travelling.alloc.records, x.pos = 0 → ∀ i, travelling.chain.pending.getLsbD (selectBit x.line i) =
          travelling.chain.latched.getLsbD (selectBit x.line i) := by decide +kernel
      exact selects x hx hp i
  filter := by decide +kernel
  line := by decide +kernel

theorem witness_OnlyCompletionsMoveRelays_held :
    travelling.AllocationKeyed ∧ travelling.MainExclusive ∧ travelling.ReclaimsHeld ∧ travelling.LinesShared ∧ travelling.ImagesLegal ∧
      travelling.RelaysHeld ∧ travelling.PathsHeld ∧ (∃ t, step travelling = .next t) ∧ travelling.Engaged 0 ∧ travelling.OnPath 0 104 :=
  ⟨by constructor <;> decide +kernel, by unfold State.MainExclusive; decide +kernel,
    by intro q k; cases k <;> revert q <;> decide +kernel,
    { counts := by
        rintro T (rfl | h | rfl)
        · decide +kernel
        · cases h
        · decide +kernel
      waited := by decide +kernel
      ports := by decide +kernel
      oneRoute := by decide +kernel },
    ⟨⟨by decide +kernel, by decide +kernel⟩, ⟨by decide +kernel, by decide +kernel⟩, fun o ho => by
      cases ho; exact ⟨by decide +kernel, by decide +kernel⟩⟩,
    travelling_relays, travelling_paths, ⟨_, rfl⟩, .inl (by decide +kernel), .inr (.inr (by decide +kernel))⟩

/-- That completion connects P2 and moves its relays, and no relay of P0's path (R143). -/
theorem test_completion_beside_a_transmission :
    (after travelling .changeCompletion).chain.latched ^^^ travelling.chain.latched = bitImage 35 ||| bitImage 108 ∧
      (after travelling .changeCompletion).onAir 0 = true := by decide +kernel

theorem witness_SafeStateChanges_entered :
    exec .occurrence (raise (ungrantedRf 0 .rfOn site) site) = .next (after (raise (ungrantedRf 0 .rfOn site) site) .occurrence) ∧
      (raise (ungrantedRf 0 .rfOn site) site).safe = false ∧ (after (raise (ungrantedRf 0 .rfOn site) site) .occurrence).safe = true :=
  ⟨next_after (by decide +kernel), by decide +kernel⟩

theorem witness_SafeStateChanges_left :
    exec .resyncPass (runs .resync .exit .checking 0 unsafeSite) = .next (after (runs .resync .exit .checking 0 unsafeSite) .resyncPass) ∧
      (runs .resync .exit .checking 0 unsafeSite).safe = true ∧
      (after (runs .resync .exit .checking 0 unsafeSite) .resyncPass).safe = false ∧
      (runs .resync .exit .checking 0 unsafeSite).ResultsTaken :=
  ⟨next_after (by decide +kernel), by decide +kernel, by decide +kernel, no_results (by decide +kernel)⟩

/-- An occurrence of a kind that is MINOR by the factory table. -/
def minorOccurrence : Occurrence := { kind := .oobPtt, pos := some 0, line := none, band := none, detail := .none }

/-- A minor occurrence waits in safe state with the pending exit's result behind it. -/
def passing : State :=
  { unsafeSite.mapLog (fun l => { l with exitPending := true }) with inbox := [.occurred minorOccurrence, .exitResult true] }

theorem witness_SafeStateChanges_behind :
    exec .occurrence passing = .next (after passing .occurrence) ∧ passing.safe = true ∧ (after passing .occurrence).safe = false ∧
      passing.ResultsTaken :=
  ⟨next_after (by decide +kernel), by decide +kernel, by decide +kernel, no_results (by decide +kernel)⟩

theorem witness_OnlyWaitersGoOnAir :
    exec (.staleExpiry 1) eligible = .next (after eligible (.staleExpiry 1)) ∧ eligible.onAir 0 = false ∧
      (after eligible (.staleExpiry 1)).onAir 0 = true :=
  ⟨next_after (by decide +kernel), by decide +kernel⟩

theorem witness_ArbiterLeavesNoEligibleWaiter :
    (keyed 0 .waiting site).waiting.Nodup ∧ 0 ∈ (arbiter (keyed 0 .waiting site)).waiting := by decide +kernel

theorem witness_JudgeIsTheEightConditions : site.safe = false ∧ site.present 0 = true := by decide +kernel

theorem witness_AdvisoryFlagsExact :
    (0, 1) ∈ (evaluateAdvisories harmonious).advisory ∧ ((0, 1) : Position × Position) ∉ harmonious.advisory ∧
      harmonious.present 0 = true ∧ (harmonious.link 0).queue.length < 6 := by decide +kernel

theorem witness_HarmonicTestExact : (2 ≤ 2 ∧ 2 ≤ 5) ∧ (2 ≤ 5 ∧ 5 ≤ 5) := by decide

theorem witness_BandLookup :
    (∀ i j : Band, i ≠ j → (factoryTable.bands.get i).enabled = true → (factoryTable.bands.get j).enabled = true →
      ∀ v, ¬((factoryTable.bands.get i).lower ≤ v ∧ v ≤ (factoryTable.bands.get i).upper ∧
        (factoryTable.bands.get j).lower ≤ v ∧ v ≤ (factoryTable.bands.get j).upper)) ∧
    (site.reported 0 { rx := 1400000, width := 0, tx := none }).transmit = some 1400000 := by
  constructor
  · intro i j hn hi hj v hv
    have h : ∀ i j : Band, i ≠ j → (factoryTable.bands.get i).enabled = true → (factoryTable.bands.get j).enabled = true →
        (factoryTable.bands.get i).upper < (factoryTable.bands.get j).lower ∨
          (factoryTable.bands.get j).upper < (factoryTable.bands.get i).lower := by decide +kernel
    have := h i j hn hi hj
    omega
  · decide +kernel

/-- R171, R172: the line's levels for 0xC3, a glitch before them, and a low stop bit. -/
theorem test_line_samples :
    (Sampler.watching true).receive ([false, true, true, true, true, true, true, true] ++ samples (characterLevels 0xC3)) =
        [.good 0xC3] ∧
      (Sampler.watching true).receive (samples (List.replicate 12 false ++ [true] ++ characterLevels 5)) = [.framing, .good 5] := by
  decide +kernel

theorem witness_CharacterSamples : ([false, true, false, false, true, true] : List Bool).length = 6 ∧ 152 ≤ 160 := by decide

theorem witness_FrameReceivedWhole :
    let s := site.mapLink 0 fun x => { x with slots := [⟨1, []⟩] }
    s.powered = true ∧ (s.link 0).receiver = .hunting ∧ (s.link 0).slots.length < 2 ∧ (List.replicate 32 (0 : Byte)).length ≤ 32 := by
  decide +kernel

/-! ### Requests -/

/-- Port `p` of a part has `n` frames queued. -/
def queued (p : Position) (n : Nat) (s : State) : State :=
  s.mapLink p fun x => { x with queue := List.replicate n { kind := 0x41, payload := [0, 2, 10] }, sending := true }

/-- The part with the debounced LOCK asserted, so locked. -/
def lockedSite : State := { site with store := { site.store with lock := true } }

/-- The part with a save in progress that P4 asked for. -/
def savingSite : State :=
  { site with store := { site.store with
      saving := true, snapshot := some siteTable, requester := some 4, nv := site.store.nv.unfinished } }

/-- The part before READY. -/
def startingSite : State := { site with store := { site.store with ready := .starting } }

theorem queued_offers (p : Position) (k : Byte) (pl : List Byte) (n m : Nat) (h : m + n ≤ 8) :
    Offers (asks p k pl (queued p m site)) p ⟨k, pl⟩ n := by
  refine asks_offers k pl n rfl ?_ ?_
  · rfl
  · simpa [queued, State.link, State.mapLink] using h

theorem witness_PollReplies :
    Offers (asks 0 1 [] (queued 0 7 site)) 0 ⟨1, []⟩ 1 ∧ Offers (asks 0 1 [0] site) 0 ⟨1, [0]⟩ 1 :=
  ⟨queued_offers 0 1 [] 1 7 (by decide), site_offers 0 1 [0] 1 (by decide)⟩

theorem witness_QueryAndUnknownAnswered :
    (∀ pl, Offers (asks 0 8 pl (queued 0 4 site)) 0 ⟨8, pl⟩ 4) ∧
      (3 < (4 : Byte).toNat ∧ (1 : Byte) ≠ 0 ∧ 6 ≤ (6 : Byte).toNat ∧ 16 ≤ (16 : Byte).toNat ∧
        site.policy.chainLength ≤ (26 : Byte).toNat) ∧
      ((site.queryData 0 0).isSome = true ∧ (site.queryData 1 5).isSome = true ∧ (site.queryData 2 15).isSome = true ∧
        (site.queryData 3 25).isSome = true) ∧
      Offers (asks 0 0 [] site) 0 ⟨0, []⟩ 1 ∧ Offers (asks 0 0x0F [] site) 0 ⟨0x0F, []⟩ 1 ∧ 14 < (0x0F : Byte).toNat :=
  ⟨fun pl => queued_offers 0 8 pl 4 4 (by decide), by decide +kernel, by decide +kernel, site_offers 0 0 [] 1 (by decide),
    site_offers 0 0x0F [] 1 (by decide), by decide⟩

theorem witness_TableReadAnswers :
    (∀ pl, Offers (asks 0 9 pl site) 0 ⟨9, pl⟩ 1) ∧ 8 ≤ (8 : Byte).toNat ∧
      ((7 : Byte).toNat < 8 ∧ ([] : List Byte).length ≠ 1) ∧
      ([byte (11 : Band).val] = [11] ∧ [byte (15 : Line).val] = [15] ∧ [byte (31 : Element).val] = [31] ∧
        [byte (47 : Route).val] = [47] ∧ [byte (5 : Position).val, byte (11 : Band).val, byte PortKind.aux.code] = [5, 11, 1] ∧
        [byte FaultKind.noticeDrop.number] = [11]) ∧
      (12 ≤ (12 : Byte).toNat ∧ 16 ≤ (16 : Byte).toNat ∧ 32 ≤ (32 : Byte).toNat ∧ 48 ≤ (48 : Byte).toNat ∧
        6 ≤ (6 : Byte).toNat ∧ 12 ≤ (12 : Byte).toNat ∧ 2 ≤ (2 : Byte).toNat) :=
  ⟨fun pl => site_offers 0 9 pl 1 (by decide), by decide, by decide, by decide +kernel, by decide⟩

theorem witness_FaultReadReports :
    Offers (asks 0 0x0C [] (queued 0 6 site)) 0 ⟨0x0C, []⟩ 2 ∧ Offers (asks 0 0x0C [0] (queued 0 7 site)) 0 ⟨0x0C, [0]⟩ 1 :=
  ⟨queued_offers 0 0x0C [] 2 6 (by decide), queued_offers 0 0x0C [0] 1 7 (by decide)⟩

/-- For each row of TABLE_WRITE, a payload after its subject byte of the right length. -/
def sample : Fin 8 → List Byte
  | 0 => List.replicate 15 0
  | 1 => List.replicate 5 0
  | 2 => List.replicate 6 0
  | 3 => List.replicate 15 0
  | 4 => [0, 0, 0, 2, 10, 12]
  | 5 => List.replicate 14 0
  | 6 => List.replicate 6 0
  | 7 => [1, 0, 0, 2, 0]

/-- For each row of TABLE_WRITE but the station policy's, which has no index, the sample with its first index past the range. -/
def sampleOutside : Fin 8 → List Byte
  | 0 => [12] ++ List.replicate 14 0
  | 1 => [16] ++ List.replicate 4 0
  | 2 => [32] ++ List.replicate 5 0
  | 3 => [48] ++ List.replicate 14 0
  | 4 => [0, 0, 2, 0]
  | 5 => List.replicate 14 0
  | 6 => [6] ++ List.replicate 5 0
  | 7 => [12, 0, 0, 2, 0]

/-- For each row of TABLE_WRITE the sample with one field just outside its set. -/
def sampleUnset : Fin 8 → List Byte
  | 0 => [0, 0, 0, 0, 0, 0, 0, 8, 0, 0, 0, 0, 0, 0, 0]
  | 1 => [0, 0, 1, 6, 0]
  | 2 => [0, 0, 4, 0, 0, 0]
  | 3 => [0, 0, 32, 0xFF, 0xFF, 0xFF, 0, 0, 0, 0, 0, 0, 0, 0, 0]
  | 4 => [0, 0, 0, 1, 48]
  | 5 => [0, 0, 0, 0, 0, 0, 0, 0, 0, 0, 0, 3, 0, 0]
  | 6 => [0, 0, 2, 0, 0, 0]
  | 7 => [1, 0, 0, 3, 0]

theorem site_open : site.WritesOpen := by unfold State.WritesOpen; decide +kernel

theorem witness_WriteTests_offers :
    (∀ pl, Offers (asks 0 0x0A pl site) 0 ⟨0x0A, pl⟩ 1) ∧ (∀ pl, (asks 0 0x0A pl site).WritesOpen) ∧
      (∀ pl, Offers (asks 0 0x0A pl lockedSite) 0 ⟨0x0A, pl⟩ 1 ∧ (asks 0 0x0A pl lockedSite).locked = true) ∧
      ∀ pl, Offers (asks 0 0x0A pl savingSite) 0 ⟨0x0A, pl⟩ 1 ∧ (asks 0 0x0A pl savingSite).locked = false ∧
        (asks 0 0x0A pl savingSite).store.saving = true :=
  ⟨fun pl => site_offers 0 0x0A pl 1 (by decide), fun _ => site_open,
    fun pl => ⟨asks_offers 0x0A pl 1 rfl rfl (by decide +kernel), rfl⟩,
    fun pl => ⟨asks_offers 0x0A pl 1 rfl rfl (by decide +kernel), rfl, rfl⟩⟩

theorem witness_WriteTests_lengths :
    (∀ k, (sample k).length = writeLength (sample k) k) ∧ (∀ k, ((sample k).drop 1).length ≠ writeLength ((sample k).drop 1) k) ∧
      (∀ k, (sampleOutside k).length = writeLength (sampleOutside k) k) ∧
      ∀ k, (sampleUnset k).length = writeLength (sampleUnset k) k := by decide +kernel

theorem witness_WriteTests_indexes :
    12 ≤ byteAt (sampleOutside 0) 0 ∧ 16 ≤ byteAt (sampleOutside 1) 0 ∧ 32 ≤ byteAt (sampleOutside 2) 0 ∧
      48 ≤ byteAt (sampleOutside 3) 0 ∧ 2 ≤ byteAt (sampleOutside 4) 2 ∧ 6 ≤ byteAt (sampleOutside 6) 0 ∧
      12 ≤ byteAt (sampleOutside 7) 0 ∧ byteAt (sample 0) 0 < 12 ∧ byteAt (sampleUnset 7) 0 ≠ 0 := by decide +kernel

theorem witness_WriteTests_fields :
    8 ≤ byteAt (sampleUnset 0) 7 ∧ (6 ≤ byteAt (sampleUnset 1) 3 ∧ byteAt (sampleUnset 1) 3 ≤ 254) ∧ 4 ≤ byteAt (sampleUnset 2) 2 ∧
      (32 ≤ byteAt (sampleUnset 3) 2 ∧ byteAt (sampleUnset 3) 2 ≤ 254) ∧ (∃ b ∈ (sampleUnset 4).drop 4, 48 ≤ b.toNat) ∧
      3 ≤ byteAt (sampleUnset 5) 11 ∧ 2 ≤ byteAt (sampleUnset 6) 2 ∧ 3 ≤ byteAt (sampleUnset 7) 3 := by decide +kernel

/-- A write's witnesses share these: the request stands at the port, and writes are open. -/
theorem site_writes (pl : List Byte) : Offers (asks 0 0x0A pl site) 0 ⟨0x0A, pl⟩ 1 ∧ (asks 0 0x0A pl site).WritesOpen :=
  ⟨site_offers 0 0x0A pl 1 (by decide), site_open⟩

theorem witness_FeedLineWriteStores :
    let e : LineEntry := { kind := .rx, ports := 4, reserved := none, enabled := true }
    let s := asks 0 0x0A ([1, byte (8 : Line).val] ++ e.bytes) site
    let t := holds 0 30 .connected s
    (e.ports < 256 ∧ (e.kind = .main → e.ports = 1) ∧ (e.kind = .rx → 1 ≤ e.ports ∧ e.ports ≤ 4) ∧ e.enabled = true ∧
      s.fits { s.table with lines := put s.table.lines 8 e } = true ∧ s.recordsOn 8 = [] ∧ s.listOf 8 = []) ∧
    t.recordsOn 8 ≠ [] ∧ ¬({ e with ports := 5 }.ports ≤ 4) := by decide +kernel

theorem witness_ElementWriteStores :
    let e : ElementEntry := { line := 2, select := 0, bands := 0x14, enabled := true }
    let s := asks 0 0x0A ([2, byte (4 : Element).val] ++ e.bytes) site
    ((e.bands >>> 12 = 0 ∧ (s.table.lines.get e.line).enabled = true ∧
      (∀ y : Element, y ≠ 4 → (s.table.elements.get y).enabled = true →
        ¬((s.table.elements.get y).line = e.line ∧ (s.table.elements.get y).select = e.select)) ∧
      ∀ r : Route, 4 ∈ (s.table.routes.get r).elements → (s.table.routes.get r).line = e.line ∧
        ∀ y ∈ (s.table.routes.get r).elements, y ≠ 4 → (s.table.elements.get y).select ≠ e.select) ∧
      s.fits (s.table.setElement 4 e) = true ∧ s.recordsOn 2 = [] ∧ s.listOf 2 = []) ∧
    (holds 0 10 .connected s).recordsOn 2 ≠ [] ∧ (0x1000 : BandSet).getLsbD 12 ≠ false := by decide +kernel

theorem witness_RouteWriteStores :
    let e : RouteEntry := { line := 8, elements := [20, 21], label := [0x41], enabled := true, bands := 0 }
    let xs : List Byte := [0xFF, 20, 0xFF, 21]
    let cs : List Byte := [0x41, 0, 0x42, 0xFF, 0, 0, 0, 1]
    let s := asks 0 0x0A ([3, byte (31 : Route).val, byte e.line.val] ++ xs ++ cs ++ [flag e.enabled]) site
    (xs.length = 4 ∧ xs.filter (fun x => x ≠ 0xFF) = e.elements.map (fun x => byte x.val) ∧ cs.length = 8 ∧
      e.label = cs.takeWhile (fun c => c ≠ 0)) ∧
    (e.elements ≠ [] ∧ e.elements.Nodup ∧ (∀ x ∈ e.elements, (s.table.elements.get x).line = e.line) ∧
      (e.elements.map fun x => (s.table.elements.get x).select).Nodup ∧ (∀ c ∈ e.label, 0x20 ≤ c.toNat ∧ c.toNat ≤ 0x7E) ∧
      s.fits (s.table.setRoute 31 e) = true) ∧
    (s.recordsOn 8 = [] ∧ s.listOf 8 = [] ∧ (∀ h ∈ s.alloc.records, h.route ≠ 31 ∧ h.reroute ≠ some 31) ∧
      ∀ l, ∀ w ∈ s.listOf l, w.route ≠ 31) ∧
    (holds 0 30 .connected s).recordsOn 8 ≠ [] ∧ ¬([20, 20] : List Element).Nodup := by decide +kernel

theorem witness_RingAndFaultWritesStore :
    let s := asks 0 0x0A [] site
    ([10, 12, 30, 31].length ≤ 4 ∧ ([12, 10] : List Route).length < 256 ∧ ([12, 10] : List Route).Nodup ∧
      ∀ r ∈ ([12, 10] : List Route), s.portOf (s.routeOf r).line = .main) ∧
    ¬([10, 12, 10, 12, 10] : List Route).length ≤ 4 ∧ Severity.minor ≠ .fatal := by decide +kernel

theorem witness_SaveTaken :
    (Offers (asks 0 0x0B [] site) 0 ⟨0x0B, []⟩ 1 ∧ Offers (asks 0 0x0B [0] site) 0 ⟨0x0B, [0]⟩ 1) ∧
      (site.store.ready = .ready ∧ site.locked = false ∧ site.store.saving = false) ∧
      Offers (asks 0 0x0B [] startingSite) 0 ⟨0x0B, []⟩ 1 ∧ Offers (asks 0 0x0B [] lockedSite) 0 ⟨0x0B, []⟩ 1 ∧
      Offers (asks 0 0x0B [] savingSite) 0 ⟨0x0B, []⟩ 1 ∧
      (savingSite.powered = true ∧ savingSite.store.saving = true ∧ savingSite.store.snapshot = some siteTable ∧
        savingSite.store.requester = some 4 ∧ savingSite.present 4 = true ∧ (savingSite.link 4).queue.length < 6) ∧
      ((queued 4 6 savingSite).store.saving = true ∧ (queued 4 6 savingSite).present 4 = true ∧
        ¬((queued 4 6 savingSite).link 4).queue.length < 6) :=
  ⟨⟨site_offers 0 0x0B [] 1 (by decide), site_offers 0 0x0B [0] 1 (by decide)⟩, ⟨rfl, by decide +kernel, rfl⟩,
    asks_offers 0x0B [] 1 rfl rfl (by decide +kernel), asks_offers 0x0B [] 1 rfl rfl (by decide +kernel),
    asks_offers 0x0B [] 1 rfl rfl (by decide +kernel), ⟨rfl, rfl, rfl, rfl, by decide +kernel⟩, by decide +kernel⟩

theorem witness_BandWriteRedecodes :
    let e : BandEntry := { lower := 140000, upper := 600000, filter := 3, label := [0x41], enabled := false }
    let cs : List Byte := [0x41, 0, 0x42, 0xFF, 0, 1]
    let s := asks 0 0x0A ([0, byte (4 : Band).val] ++ bigEndian 3 e.lower ++ bigEndian 3 e.upper ++ [byte e.filter.val] ++ cs ++
      [flag e.enabled]) site
    (e.lower < 2 ^ 24 ∧ e.upper < 2 ^ 24 ∧ cs.length = 6 ∧ e.label = cs.takeWhile (fun c => c ≠ 0)) ∧
    (e.lower ≤ 600000 ∧ e.upper ≤ 600000 ∧ e.lower ≤ e.upper ∧ (∀ c ∈ e.label, 0x20 ≤ c.toNat ∧ c.toNat ≤ 0x7E) ∧
      e.enabled = false ∧ s.fits (s.table.setBand 4 e) = true) ∧
    s.anyOnAir = false ∧ (keyed 0 .granted s).anyOnAir = true ∧ ¬600001 ≤ 600000 := by decide +kernel

theorem witness_PolicyWriteClamps :
    let q : Policy := { factoryPolicy with k := 7, chainLength := 33 }
    let s := asks 0 0x0A (5 :: q.bytes) site
    (∀ n ∈ [q.tDeb, q.tSettle, q.tTail, q.tHang, q.tStale, q.tLink, q.tVerify, q.k, q.c, q.nMax, q.gBase, q.chainLength], n < 256) ∧
    (s.fits { s.table with policy := q.clamped } = true ∧ s.onAirCount ≤ q.clamped.k ∧
      q.clamped.chainLength ≠ s.policy.chainLength ∧ s.chain.op = none) ∧
    s.fits { s.table with policy := { q.clamped with chainLength := 1 } } = false ∧
    ({ factoryPolicy with k := 1 } : Policy).k < (keyed 1 .granted (keyed 0 .granted s)).onAirCount ∧
    busy.chain.op.isSome = true := by decide +kernel

/-- R21: a change of t_verify from 0 to 2 s starts the verify timer. -/
theorem witness_PolicyWriteClamps_verify :
    let q : Policy := { factoryPolicy with tVerify := 2 }
    let s := asks 0 0x0A (5 :: q.bytes) ((site.mapTable fun t => { t with policy := { t.policy with tVerify := 0 } }).mapChain
      fun c => { c with verifyTimer := none })
    (s.policy.tVerify = 0 ∧ s.chain.op = none ∧ s.safe = false ∧ (after s (.stationPolicyWrite 0)).chain.op = none ∧
      (after s (.stationPolicyWrite 0)).chain.verifyTimer = some 2000) ∧
    let r := asks 0 0x0A (5 :: { factoryPolicy with tVerify := 7 }.bytes) site
    r.policy.tVerify ≠ 0 ∧ r.chain.verifyTimer = some 2000 ∧ (after r (.stationPolicyWrite 0)).chain.op = r.chain.op := by
  decide +kernel

theorem witness_SettingsWriteClamps :
    let x : Settings := { priority := 4, protect := true, divisor := 4096, eighths := 8 }
    x.priority < 256 ∧ x.divisor < 65536 ∧ x.eighths < 256 ∧
      ((3 : Position) ≠ 0 ∧ (site.link 3).receiver = .hunting ∧ (site.link 3).queue = [] ∧ (site.link 3).sending = false) ∧
      ((queued 3 1 site).link 3).sending = true ∧ (0 : Position) ≠ 3 ∧ ((queued 0 1 site).link 0).divisorWait ≤ 1 := by decide +kernel

theorem witness_FreqReportTaken :
    let pl : List Byte := bigEndian 4 6000001 ++ [byte 31] ++ bigEndian 4 0
    (Offers (asks 0 2 pl (keyed 0 .granted site)) 0 ⟨2, pl⟩ 1 ∧ Offers (asks 0 2 [0] site) 0 ⟨2, [0]⟩ 1) ∧
      (6000001 < 2 ^ 32 ∧ 31 < 256 ∧ ∀ n, some 0 = some n → n < 2 ^ 32) ∧ (asks 0 2 pl site).TransmitCoherent ∧
      ((after (asks 0 2 [0, 0x0A, 0xB8, 0x24, 3] ((keyed 0 .granted site).mapFreq 0 fun r =>
        { r with candidate := some 2, count := 1 })) (.freq 0)).freqOf 0).band = some 2 := by
  refine ⟨⟨asks_offers 2 _ 1 rfl rfl (by decide +kernel), site_offers 0 2 [0] 1 (by decide)⟩,
    ⟨by decide, by decide, fun n h => by cases h; decide⟩, site_coherent, by decide +kernel⟩

/-- P0 follows on MAIN, stands on band 2, and has one report of band 4 behind it. -/
def moving (s : State) : State :=
  (s.mapFreq 0 fun r => { r with band := some 2, sentBand := some 2, candidate := some 4, count := 1 }).mapStanding 0 .main
    fun x => { x with follow := true }

/-- P0 reports 14.025 MHz. -/
def reports (s : State) : State := asks 0 2 (bigEndian 4 1402500 ++ [byte 3] ++ bigEndian 4 0) (moving s)

theorem witness_FreqReportTaken_follows :
    let s := reports site
    let none_ := reports (holds 1 12 .connected (holds 1 10 .connected site))
    ((after s (.freq 0)).freqOf 0).band = some 4 ∧ s.AllocationKeyed ∧ s.ReclaimsHeld ∧ s.TransmitCoherent ∧
      (s.standing 0 .main).follow = true ∧ s.claimNeeded 0 .main 4 = true ∧ (s.isReady = true ∧ s.safe = false) ∧
      (s.ringOf 0 4 .main = [] ++ 10 :: [12] ∧ s.candidateEntry 0 .main 10 = true ∧ s.covers 10 4 = true ∧
        s.qualifies 0 10 = true) ∧
      (none_.candidateEntry 0 .main 10 = true ∧ ∀ x ∈ none_.ringOf 0 4 .main, none_.qualifies 0 x = false) ∧
      ((reports unsafeSite).safe = true ∧ (reports unsafeSite).claimNeeded 0 .main 4 = true) ∧
      (s.link 0).queue.length < 5 ∧ s.WaitsNowhere 0 ∧ 0 < s.policy.tTail ∧ s.OneHeld :=
  ⟨by decide +kernel, by constructor <;> decide +kernel, by intro q k; cases k <;> revert q <;> decide +kernel,
    ⟨by constructor <;> decide +kernel, fun p => by constructor <;> revert p <;> decide +kernel⟩, by decide +kernel,
    by decide +kernel, by decide +kernel, by decide +kernel, by decide +kernel, by decide +kernel, by decide +kernel,
    by unfold State.WaitsNowhere; decide +kernel, by decide +kernel, by constructor <;> decide +kernel⟩

/-- R39, section 2.7: the reply, then the BAND notice of the sent values, then what the ring claim tells. -/
theorem test_freq_tells_the_band :
    ((after (reports site) (.freq 0)).link 0).queue.take 2 = [⟨0x82, [0]⟩, ⟨0x43, [4, 0, 0]⟩] ∧
      ((after (reports site) (.freq 0)).recordAt 0 2).map (fun r => r.route) = some 10 := by decide +kernel

theorem witness_FreqReportTaken_runs :
    let r : FreqRecord := { clearFreq with rx := some 1402500, candidate := some 4, count := 1 }
    decodeBand factoryTable.bands 1402500 = some 4 ∧ decodeBand factoryTable.bands 1435010 = none ∧ r.outOfBand = false ∧
      r.band ≠ some 4 ∧ 2 ≤ r.count + 1 ∧ ¬3 ≤ r.count + 1 ∧ clearFreq.tx = none ∧ clearFreq.rx = none := by decide +kernel

theorem witness_StaleExpiryTaken :
    site.powered = true ∧ (site.freqOf 0).staleTimer.isSome = true ∧ site.present 0 = true ∧ (site.freqOf 0).sentStale = false ∧
      (site.link 0).queue.length < 6 ∧ 6 ≤ ((queued 0 6 site).link 0).queue.length := by decide +kernel

/-! ### Claims, RELEASE, CANCEL, FOLLOW, STEP -/

/-- The hypotheses that the claims share: the request at the port of a READY part outside safe state. -/
theorem site_claims (pl : List Byte) :
    Offers (asks 0 3 pl site) 0 ⟨3, pl⟩ 1 ∧ (asks 0 3 pl site).isReady = true ∧ (asks 0 3 pl site).safe = false ∧
      (asks 0 3 pl site).AllocationKeyed :=
  ⟨site_offers 0 3 pl 1 (by decide), rfl, rfl,
    ⟨site_keyed.records, site_keyed.routed, site_keyed.stored, site_keyed.lists, site_keyed.placed, site_keyed.oneList,
      site_keyed.apart⟩⟩

/-- P1's CONNECTED record on L2 and on RX line 8, P2's entry in the list of L2, P3's record on L3. -/
def taken : State := queues 2 10 .wait (holds 3 12 .connected (holds 1 30 .connected (holds 1 10 .connected site)))

theorem taken_keyed : taken.AllocationKeyed := by constructor <;> decide +kernel

theorem taken_coherent : taken.TransmitCoherent :=
  ⟨by constructor <;> decide +kernel, fun p => by constructor <;> revert p <;> decide +kernel⟩

theorem taken_reclaims : taken.ReclaimsHeld := by intro q k; cases k <;> revert q <;> decide +kernel

theorem taken_ordered : taken.ListsOrdered := by unfold State.ListsOrdered ListOrdered; decide +kernel

theorem site_reclaims : site.ReclaimsHeld := by intro q k; cases k <;> revert q <;> decide +kernel

theorem witness_ClaimAssignsLine :
    (site.routeEnabled 10 = true ∧ site.reservedFrom 2 0 = false ∧ site.recordAt 0 2 = none ∧ site.recordsOn 2 = []) ∧
      (∀ x ∈ site.alloc.records, x.pos = 0 → x.kind ≠ .main) ∧
      (taken.portOf 8 = .aux ∧ (∀ x ∈ taken.recordsOn 8, x.route = 30 ∧ x.reroute = none) ∧
        (taken.recordsOn 8).length < (taken.lineOf 8).ports ∧ ∀ e ∈ taken.listOf 8, e.manner ≠ .take) ∧
      site.ReclaimsHeld :=
  ⟨by decide +kernel, by decide +kernel, by decide +kernel, site_reclaims⟩

theorem witness_ClaimOfHeldLine :
    let s := asks 1 3 [10, 0] taken
    (s.reservedFrom 2 1 = false ∧ (s.recordAt 1 2).map (fun h => (h.route, h.state)) = some (10, .connected)) ∧
      s.portOf 2 = .main ∧ (s.portOf 8 = .aux ∧ ∀ x ∈ s.recordsOn 8, x.pos = 1) ∧ s.pathQuiet 1 = true ∧
      (keyed 1 .granted s).pathQuiet 1 = false := by decide +kernel

theorem witness_ClaimsTurnedAway :
    let shared := holds 0 30 .connected taken
    (Offers (asks 0 3 [10, 3] site) 0 ⟨3, [10, 3]⟩ 1 ∧ startingSite.isReady = false ∧ unsafeSite.safe = true ∧
      48 ≤ (48 : Byte).toNat) ∧
      site.routeEnabled 0 = false ∧
      (site.mapTable fun t => { t with lines := put t.lines 2 ⟨.main, 1, some 5, true⟩ }).reservedFrom 2 0 = true ∧
      (holds 0 10 .breaking site).breakingOn 0 2 = true ∧
      ((shared.recordAt 0 8).map (fun h => decide (h.route ≠ 31)) = some true ∧ ∃ x ∈ shared.recordsOn 8, x.pos ≠ 0) ∧
      (taken.recordAt 0 2 = none ∧ taken.canBeHad 2 10 = false) ∧
      ((queues 2 31 .take taken).canBeHad 8 31 = false ∧ ∃ e ∈ (queues 2 31 .take taken).listOf 8, e.manner = .take) ∧
      ∃ x ∈ taken.recordsOn 2, (taken.settingsOf 0).priority ≤ (taken.settingsOf x.pos).priority :=
  ⟨⟨site_offers 0 3 _ 1 (by decide), by decide +kernel⟩, by decide +kernel, by decide +kernel, by decide +kernel, by decide +kernel,
    by decide +kernel, by decide +kernel, by decide +kernel⟩

theorem witness_ClaimWaitQueues :
    Offers (asks 0 3 [10, 0] taken) 0 ⟨3, [10, 0]⟩ 1 ∧
      (taken.isReady = true ∧ taken.safe = false ∧ taken.routeEnabled 10 = true ∧ taken.reservedFrom 2 0 = false ∧
        taken.recordAt 0 2 = none ∧ taken.canBeHad 2 10 = false) ∧
      (∀ e ∈ taken.listOf 2, e.pos ≠ 0) ∧ (∃ e ∈ taken.listOf 2, e.pos = 2) ∧ taken.AllocationKeyed ∧ taken.ListsOrdered ∧
      taken.ReclaimsHeld :=
  ⟨asks_offers 3 _ 1 rfl rfl (by decide +kernel), by decide +kernel, by decide +kernel, by decide +kernel, taken_keyed, taken_ordered,
    taken_reclaims⟩

/-- P0's own WAIT entry in the list of L2, and its own TAKE entry in that of RX line 8. -/
def standing : State := queues 0 31 .take (queues 0 10 .wait taken)

theorem witness_ClaimWaitQueues_own :
    (Offers (asks 0 3 [10, 0] standing) 0 ⟨3, [10, 0]⟩ 1 ∧ Offers (asks 0 3 [30, 0] standing) 0 ⟨3, [30, 0]⟩ 1) ∧
      ((standing.isReady = true ∧ standing.safe = false ∧ standing.routeEnabled 10 = true ∧ standing.routeEnabled 30 = true ∧
        standing.reservedFrom 2 0 = false ∧ standing.reservedFrom 8 0 = false) ∧
      (standing.recordAt 0 2 = none ∧ standing.recordAt 0 8 = none) ∧ (standing.canBeHad 2 10 = false ∧ standing.canBeHad 8 30 = false) ∧
      (∃ e ∈ standing.listOf 2, e.pos = 0 ∧ e.manner = .wait) ∧ ∃ e ∈ standing.listOf 8, e.pos = 0 ∧ e.manner = .take) ∧
      standing.AllocationKeyed ∧ standing.ListsOrdered ∧ standing.ReclaimsHeld :=
  ⟨⟨asks_offers 3 _ 1 rfl rfl (by decide +kernel), asks_offers 3 _ 1 rfl rfl (by decide +kernel)⟩, by decide +kernel,
    by constructor <;> decide +kernel, by unfold State.ListsOrdered ListOrdered; decide +kernel,
    by intro q k; cases k <;> revert q <;> decide +kernel⟩

theorem witness_ClaimTakesLine :
    let s := keyed 3 .granted taken
    Offers (asks 1 3 [12, 2] s) 1 ⟨3, [12, 2]⟩ 1 ∧ s.TransmitCoherent ∧
      (s.routeEnabled 12 = true ∧ s.reservedFrom 3 1 = false ∧ s.recordAt 1 3 = none ∧ s.canBeHad 3 12 = false ∧
        s.portOf 3 = .main ∧ ∀ x ∈ s.recordsOn 3, (s.settingsOf x.pos).priority < (s.settingsOf 1).priority) ∧
      (let r := holds 3 31 .connected site
       r.canBeHad 8 30 = false ∧ r.recordAt 1 8 = none ∧ (∀ e ∈ r.listOf 8, e.manner ≠ .take) ∧
         ∀ x ∈ r.recordsOn 8, (r.settingsOf x.pos).priority < (r.settingsOf 1).priority) ∧
      ∃ x ∈ s.recordsOn 3, x.state ≠ .breaking ∧ (s.txOf x.pos).state = .granted ∧ (s.standing x.pos .main).follow = false :=
  ⟨asks_offers 3 _ 1 rfl rfl (by decide +kernel),
    ⟨by constructor <;> decide +kernel, fun p => by constructor <;> revert p <;> decide +kernel⟩, by decide +kernel,
    by decide +kernel, by decide +kernel⟩

theorem witness_StepClaimsNext :
    let s := holds 0 10 .connected site
    Offers (asks 0 7 [0, 0] s) 0 ⟨7, [0, 0]⟩ 1 ∧ (s.freqOf 0).band = some 4 ∧ s.ringOf 0 4 .main ≠ [] ∧
      (walk (s.ringOf 0 4 .main) (s.currentRoute 0 .main) true = [] ++ 12 :: [] ∧ s.stepQualifies 0 .main 12 = true) ∧
      (∀ r ∈ walk (s.ringOf 0 4 .main) (s.currentRoute 0 .main) true,
        (holds 1 12 .connected s).stepQualifies 0 .main r = false) ∧
      (walk (site.ringOf 0 4 .main) none true = [10] ++ 12 :: [] ∧ (holds 1 10 .connected site).stepQualifies 0 .main 10 = false) ∧
      (s.OneHeld ∧ (∃ x ∈ s.alloc.records, x.pos = 0 ∧ x.kind = .main ∧ x.state ≠ .breaking) ∧
        ∀ x ∈ s.alloc.records, x.pos = 1 → x.kind = .main → x.state = .breaking) ∧
      s.ringOf 2 4 .main = [] ∧ ([10, 12] : List Route).Nodup ∧ ([0, 2] : List Byte).length = 2 ∧ 2 ≤ byteAt [0, 2] 1 :=
  ⟨asks_offers 7 _ 1 rfl rfl (by decide +kernel), by decide +kernel, by decide +kernel, by decide +kernel, by decide +kernel,
    by decide +kernel, ⟨by constructor <;> decide +kernel, by decide +kernel, by decide +kernel⟩, by decide +kernel, by decide, by decide,
    by decide⟩

theorem witness_FollowOnClaims :
    let both := holds 1 12 .connected (holds 1 10 .connected site)
    (Offers (asks 0 6 [0, 1] site) 0 ⟨6, [0, 1]⟩ 1 ∧ Offers (asks 0 6 [2, 1] site) 0 ⟨6, [2, 1]⟩ 1 ∧
      Offers (asks 0 6 [3, 1] site) 0 ⟨6, [3, 1]⟩ 1) ∧
      (Offers (asks 0 6 [2, 1] startingSite) 0 ⟨6, [2, 1]⟩ 1 ∧ Offers (asks 0 6 [2, 1] unsafeSite) 0 ⟨6, [2, 1]⟩ 1 ∧
        startingSite.isReady = false ∧ unsafeSite.safe = true ∧ site.ReclaimsHeld ∧ site.claimNeeded 0 .aux 4 = true ∧
        site.ringOf 0 4 .aux = [] ++ 30 :: [31] ∧ site.RingCandidate 0 .aux 4 30 ∧ site.qualifies 0 30 = true) ∧
      (site.claimNeeded 0 .main 4 = true ∧ (holds 0 10 .connected site).claimNeeded 0 .main 4 = false) ∧
      (site.ringOf 0 4 .main = [] ++ 10 :: [12] ∧ site.candidateEntry 0 .main 10 = true ∧ site.covers 10 4 = true ∧
        site.qualifies 0 10 = true) ∧
      (both.ringOf 0 4 .main = [] ++ 10 :: [12] ∧ both.candidateEntry 0 .main 10 = true ∧
        ∀ x ∈ both.ringOf 0 4 .main, both.qualifies 0 x = false) ∧
      site.ringOf 2 4 .main = [] ∧ ((site.mapFreq 0 fun r => { r with band := none }).freqOf 0).band = none :=
  ⟨⟨site_offers 0 6 _ 1 (by decide), site_offers 0 6 _ 1 (by decide), site_offers 0 6 _ 1 (by decide)⟩,
    ⟨asks_offers 6 _ 1 rfl rfl (by decide +kernel), asks_offers 6 _ 1 rfl rfl (by decide +kernel), by decide +kernel, by decide +kernel,
      site_reclaims, by decide +kernel, by decide +kernel, by unfold State.RingCandidate; decide +kernel, by decide +kernel⟩, by decide +kernel,
    by decide +kernel, by decide +kernel, by decide +kernel, by decide +kernel⟩

theorem witness_ReleaseSendsBreaking :
    (Offers (asks 0 4 [0] busy) 0 ⟨4, [0]⟩ 1 ∧ Offers (asks 0 4 [3] site) 0 ⟨4, [3]⟩ 1) ∧
      busy.AllocationKeyed ∧ busy.ReclaimsHeld ∧ (busy.txOf 0).state = .granted ∧
      (∃ x ∈ busy.alloc.records, x.pos = 0 ∧ x.kind = .main ∧ x.state = .connected) ∧
      (holds 0 10 .connected site).pathQuiet 0 = true ∧
      let s := queues 1 10 .wait (holds 0 10 .pending site)
      ∃ x ∈ s.alloc.records, x.state = .pending ∧ s.recordsOn x.line = [x] ∧ (s.listOf x.line).map (fun e => e.pos) = [1] ∧
        let m := (holds 0 10 .making site).mapAlloc fun a => { a with records := a.records.map fun r => { r with latched := false } }
        m.chain.op = none ∧ ∃ x ∈ m.alloc.records, x.pos = 0 ∧ x.state = .making ∧ x.latched = false :=
  ⟨⟨asks_offers 4 _ 1 rfl rfl (by decide +kernel), site_offers 0 4 _ 1 (by decide)⟩, busy_keyed, busy_reclaims, by decide +kernel,
    by decide +kernel, by decide +kernel, by decide +kernel⟩

theorem witness_CancelAndFollowOff :
    (∀ pl, Offers (asks 0 5 pl site) 0 ⟨5, pl⟩ 1) ∧ (∀ pl, Offers (asks 0 6 pl site) 0 ⟨6, pl⟩ 1) ∧
      3 ≤ byteAt [3] 0 ∧ 2 ≤ byteAt [0, 2] 1 :=
  ⟨fun pl => site_offers 0 5 pl 1 (by decide), fun pl => site_offers 0 6 pl 1 (by decide), by decide, by decide⟩

/-! ### Ports, inputs, transmit events -/

theorem witness_CharactersTaken :
    ((site.link 0).receiver = .hunting ∧ (site.link 0).slots.length < 2 ∧ 2 ≤ ([⟨1, []⟩, ⟨1, []⟩] : List Frame).length) ∧
      (1 ≤ (33 : Byte).toNat ∧ (33 : Byte).toNat ≤ 33 ∧ 34 ≤ (34 : Byte).toNat ∧ (0 : Byte).toNat = 0) ∧
      (1 + (([1] : List Byte).map fun b => b.toNat).sum + (0xFD : Byte).toNat) % 256 ≠ 0 ∧ site.powered = true := by
  decide +kernel

theorem witness_TransmitterAndSilence :
    ((queued 0 1 site).link 0).sending = true ∧ (site.link 0).silenceTimer.isSome = true ∧
      (let x := (site.mapLink 0 fun x => { x with waitingDivisor := some (52, 2) }).link 0
       x.waitingDivisor = some (52, 2) ∧ x.divisorWait = 0 ∧ x.receiver = .hunting ∧ x.sending = false) ∧
      (site.link 0).waitingDivisor = none := by decide +kernel

theorem witness_AbsenceAndReturnTaken :
    let s : State := { busy with handed := [.absence .bandDecoder 0, .absence .lineAllocator 0, .absence .transmitInterlock 0] }
    (s.isNext (.absence .bandDecoder 0) = true ∧ s.isNext (.absence .lineAllocator 0) = true ∧
      s.isNext (.absence .transmitInterlock 0) = true ∧ s.onAir 0 = true ∧ s.powered = true) ∧
    s.AllocationKeyed ∧ s.TransmitCoherent ∧
    (let t : State := { site with handed := [.positionReturn .lineAllocator 0, .positionReturn .transmitInterlock 0] }
     t.isNext (.positionReturn .lineAllocator 0) = true ∧ t.isNext (.positionReturn .transmitInterlock 0) = true ∧
       t.present 0 = true ∧ (t.link 0).queue.length < 5) :=
  ⟨by decide +kernel, by constructor <;> decide +kernel,
    ⟨by constructor <;> decide +kernel, fun p => by constructor <;> revert p <;> decide +kernel⟩, by decide +kernel⟩

theorem witness_InputLevels :
    ((site.txOf 0).pttRaw ≠ true ∧ (site.txOf 0).rfRaw ≠ true ∧ site.store.lockRaw ≠ true ∧ site.store.restartRaw ≠ true) ∧
      (State.reset.powered = false ∧ site.powered = true) ∧
      (after lockedSite (.lockLevelChange true)).store.lockRaw = true ∧ (after site (.lockLevelChange true)).store.lockTimer.isSome = true ∧
      (let s : State := { site with store := { site.store with restart := true, restartTimer := some 4 } }
       s.store.ready ≠ .starting ∧ s.store.restartTimer.isSome = true ∧ s.store.restartRaw = false ∧ s.store.restart = true) := by
  decide +kernel

theorem witness_PowerTaken :
    State.reset.powered = false ∧
      (let x := State.reset.store.nv
       x.sum ≠ byteSum (x.marker ++ x.version ++ x.table.bytes)) ∧ site.powered = true ∧
      (let x := State.reset.store.nv.saved siteTable
       x.marker = Config.formatMarker ∧ x.version = Config.formatVersion ∧
         x.sum = byteSum (x.marker ++ x.version ++ x.table.bytes)) :=
  ⟨rfl, by decide +kernel, rfl, rfl, rfl, rfl⟩

/-- P0's PTT has been confirmed down but for the debounce's end, P0 in the given state with its key up. -/
def pressed (x : TxState) (s : State) : State := (keyed 0 x s).mapTx 0 fun r => { r with pttRaw := true, pttTimer := some 4 }

/-- P0's PTT has been confirmed up but for the debounce's end, P0 in the given state with its key down. -/
def lifted (x : TxState) (s : State) : State := (keyed 0 x s).mapTx 0 fun r => { r with pttRaw := false, pttTimer := some 4 }

theorem witness_PttTaken :
    ((pressed .idle site).TransmitCoherent ∧ (pressed .hang site).TransmitCoherent ∧ (lifted .granted site).TransmitCoherent) ∧
      (((pressed .idle site).txOf 0).ptt = false ∧ ((pressed .hang site).txOf 0).ptt = false ∧ (pressed .idle site).waiting = []) ∧
      (((lifted .waiting site).txOf 0).ptt = true ∧ ((lifted .granted site).txOf 0).skipHang = false ∧ 0 < site.policy.tHang) ∧
      (lifted .granted site).AllocationKeyed := by
  refine ⟨⟨?_, ?_, ?_⟩, by decide +kernel, by decide +kernel, by constructor <;> decide +kernel⟩ <;>
    exact ⟨by constructor <;> decide +kernel, fun p => by constructor <;> revert p <;> decide +kernel⟩

theorem witness_RfAndTimersTaken :
    let on := site.mapTx 0 fun x => { x with rfRaw := true, rfTimer := some 4 }
    let moving := runs .change .ordinary .shifting (bitImage 3) on
    ((moving.txOf 0).rfTimer.isSome = true ∧ (moving.txOf 0).rf = false ∧
      (∃ o, moving.chain.op = some o ∧ o.image.getLsbD 3 ≠ moving.chain.latched.getLsbD 3 ∧ (moving.pathMask 0).getLsbD 3 = true) ∧
      moving.onAir 0 = false ∧ (moving.txOf 0).tailTimer = none) ∧
    (let off := (holds 0 10 .breaking site).mapTx 0 fun x => { x with rf := true, rfTimer := some 4 }
     (off.txOf 0).rfRaw = false ∧ (off.txOf 0).rf = true ∧ off.onAir 0 = false ∧ ∃ x ∈ off.alloc.records, x.state = .breaking) ∧
    (let tail := site.mapTx 0 fun x => { x with tailTimer := some 10 }
     (tail.txOf 0).tailTimer.isSome = true ∧ (tail.txOf 0).rf = false) ∧
    (((keyed 0 .hang site).txOf 0).hangTimer.isSome = true ∧ ((keyed 0 .hang site).txOf 0).state = .hang) :=
  ⟨⟨by decide +kernel, by decide +kernel, ⟨_, rfl, by decide +kernel, by decide +kernel⟩, by decide +kernel, by decide +kernel⟩,
    by decide +kernel, by decide +kernel, by decide +kernel⟩

/-- P0's tail runs, with a stored reroute on its RX record, a PENDING MAIN record, and a filter target. -/
def trailing : State :=
  let s := holds 0 10 .pending (holds 0 30 .connected site)
  ((s.mapAlloc fun a => { a with records := a.records.map fun r => if r.line = 8 then { r with reroute := some 31 } else r }).mapTx 0
    fun x => { x with tailTimer := some 10 }).mapFilter 0 fun f => { f with target := some 3 }

theorem witness_RfAndTimersTaken_quiet :
    (trailing.txOf 0).rf = false ∧ trailing.onAir 0 = false ∧ trailing.safe = false ∧ trailing.WaitsNowhere 0 ∧
      trailing.AllocationKeyed ∧ trailing.ReclaimsHeld ∧ trailing.chain.restartHold = false ∧
      (∀ y ∈ trailing.recordsOn 8, y.pos = 0) ∧ ∀ y ∈ trailing.recordsOn 2, y.pos = 0 :=
  ⟨by decide +kernel, by decide +kernel, rfl, by unfold State.WaitsNowhere; decide +kernel, by constructor <;> decide +kernel,
    by intro q k; cases k <;> revert q <;> decide +kernel, rfl, by decide +kernel, by decide +kernel⟩

/-- R57, R42, R139: the path-quiet event of the tail's end. -/
theorem test_path_quiet :
    let t := after trailing (.tailExpiry 0)
    (t.recordAt 0 8).map (fun r => (r.route, r.reroute, r.state)) = some (31, none, .making) ∧
      (t.recordAt 0 2).map (fun r => r.state) = some .making ∧ (t.filterOf 0).image = some 3 ∧
      t.chain.pending.getLsbD (filterBit 0 3) = true := by decide +kernel

/-! ### Safe state, RESTART, the relay chain -/

theorem witness_FaultClearTaken :
    (Offers (asks 0 0x0D [] site) 0 ⟨0x0D, []⟩ 1 ∧ Offers (asks 0 0x0D [0] site) 0 ⟨0x0D, [0]⟩ 1) ∧
      (Offers (asks 0 0x0D [] lockedSite) 0 ⟨0x0D, []⟩ 1 ∧ lockedSite.locked = true) ∧
      (Offers (asks 0 0x0D [] unsafeSite) 0 ⟨0x0D, []⟩ 1 ∧ unsafeSite.locked = false ∧ ∀ q, (unsafeSite.txOf q).rf = false) ∧
      (unsafeSite.chain.op = none ∧ unsafeSite.store.ready ≠ .starting ∧ unsafeSite.chain.heldForEntry = false ∧
        unsafeSite.log.exitPending = false) ∧
      ((unsafeSite.mapTx 5 fun x => { x with rf := true }).txOf 5).rf = true :=
  ⟨⟨site_offers 0 0x0D _ 1 (by decide), site_offers 0 0x0D _ 1 (by decide)⟩,
    ⟨asks_offers 0x0D _ 1 rfl rfl (by decide +kernel), rfl⟩,
    ⟨asks_offers 0x0D _ 1 rfl rfl (by decide +kernel), by decide +kernel, by decide +kernel⟩, by decide +kernel, by decide +kernel⟩

theorem witness_OccurrenceTaken_result :
    passing.powered = true ∧ passing.safe = true ∧ passing.SafeInhibited ∧
      passing.inbox = .occurred minorOccurrence :: .exitResult true :: [] ∧ passing.log.exitSpoiled = false ∧
      effectiveSeverity minorOccurrence passing ≠ .fatal ∧
      effectiveSeverity (ungrantedRf 0 .rfOn passing) passing = .fatal ∧ dropped (ungrantedRf 0 .rfOn passing) passing = false :=
  ⟨rfl, rfl, by unfold State.SafeInhibited; decide +kernel, rfl, rfl, by decide +kernel, by decide +kernel, by decide +kernel⟩

theorem witness_OccurrenceTaken :
    ((raise minorOccurrence site).inbox = .occurred minorOccurrence :: [] ∧
      ∀ b r, ([] : List LogEvent) ≠ .exitResult b :: r) ∧
      ((site.faultConfig .oobPtt).detectMask = false ∧ (site.faultConfig .oobPtt).severity = .minor ∧
        (site.faultConfig .linkSilent).severity = .major ∧ (site.faultConfig .linkSilent).reportMask = false) ∧
      (({ site with table := { siteTable with faults := put siteTable.faults 8 ⟨true, false, .minor, .b⟩ } } : State).faultConfig
        .oobPtt).detectMask = true ∧
      (site.safe = false ∧ unsafeSite.safe = true ∧ site.store.restartRaw = false ∧ site.TransmitCoherent ∧ site.AllocationKeyed) :=
  ⟨⟨rfl, fun _ _ h => by cases h⟩, by decide +kernel, by decide +kernel, rfl, rfl, rfl, site_coherent, site_keyed⟩

theorem witness_RestartTaken :
    (Offers (asks 0 0x0E [] site) 0 ⟨0x0E, []⟩ 1 ∧ Offers (asks 0 0x0E [0] site) 0 ⟨0x0E, [0]⟩ 1 ∧ site.isReady = true ∧
      site.locked = false ∧ site.AllocationKeyed ∧ site.TransmitCoherent) ∧
      (Offers (asks 0 0x0E [] startingSite) 0 ⟨0x0E, []⟩ 1 ∧ startingSite.isReady = false) ∧
      (Offers (asks 0 0x0E [] lockedSite) 0 ⟨0x0E, []⟩ 1 ∧ lockedSite.locked = true) ∧
      (let s : State := { site with store := { site.store with restartRaw := true, restartTimer := some 4 } }
       s.powered = true ∧ s.store.ready ≠ .starting ∧ s.store.restartTimer.isSome = true ∧ s.store.restartRaw = true ∧
         s.store.restart = false) :=
  ⟨⟨site_offers 0 0x0E _ 1 (by decide), site_offers 0 0x0E _ 1 (by decide), rfl, by decide +kernel, site_keyed, site_coherent⟩,
    ⟨asks_offers 0x0E _ 1 rfl rfl (by decide +kernel), by decide +kernel⟩,
    ⟨asks_offers 0x0E _ 1 rfl rfl (by decide +kernel), rfl⟩, by decide +kernel⟩

/-- The start-up sequence at an operation, with RESTART_N asserted. -/
def held (k : OpKind) (why : Purpose) (ph : Phase) (s : State) : State :=
  runs k why ph 0 { s with store := { s.store with ready := .starting, restartRaw := true } }

theorem witness_RestartTaken_pin :
    (exec .verifyEnd (held .verify .startUp .shifting site) = .next (after (held .verify .startUp .shifting site) .verifyEnd) ∧
      (after (held .verify .startUp .shifting site) .verifyEnd).store.ready ≠ .starting ∧
      (held .verify .startUp .shifting site).AllocationKeyed ∧ (held .verify .startUp .shifting site).TransmitCoherent ∧ (held .verify .startUp .shifting site).ResultsTaken) ∧
    ((held .change .startUp .settling unsafeSite).chain.settleTimer.isSome = true ∧
      (held .change .startUp .settling unsafeSite).safe = true) ∧
    (held .resync .retry .checking site).chain.attempt = none ∧
    ((held .verify .startUp .shifting site).chain.content.isSome = true ∧
      ((held .verify .startUp .shifting site).faultConfig .chainMismatch).severity = .fatal) ∧
    let s := raise (ungrantedRf 0 .rfOn site) (held .verify .startUp .shifting site)
    s.inbox = .occurred (ungrantedRf 0 .rfOn site) :: [] ∧ effectiveSeverity (ungrantedRf 0 .rfOn site) s = .fatal ∧
      dropped (ungrantedRf 0 .rfOn site) s = false :=
  ⟨⟨next_after (by decide +kernel), by decide +kernel, by constructor <;> decide +kernel,
      ⟨by constructor <;> decide +kernel, fun p => by constructor <;> revert p <;> decide +kernel⟩, no_results (by decide +kernel)⟩,
    by decide +kernel, by decide +kernel, by decide +kernel, by decide +kernel⟩

/-- A CHANGE settles that latches P0's path on L2 and leaves P1's crosspoint on L3 open. -/
def settling : State :=
  runs .change .ordinary .settling (bitImage 2 ||| bitImage 104) (holds 1 12 .breaking (holds 0 10 .making site))

theorem witness_ChangeRuns :
    ((runs .change .ordinary .shifting 1 site).chain.op.map (fun o => (o.kind, o.phase)) = some (.change, .shifting) ∧
      site.safe = false) ∧
      (settling.chain.op.map (fun o => (o.kind, o.phase)) = some (.change, .settling) ∧ settling.chain.settleTimer.isSome = true ∧
        settling.store.ready ≠ .starting) ∧ settling.AllocationKeyed ∧ (settling.AwaitsNoLine 0 ∧ settling.AwaitsNoLine 1) ∧
      (∃ x ∈ settling.alloc.records, x.state = .making ∧ x.reroute = none ∧
        (bitImage 2 ||| bitImage 104).getLsbD (crosspointBit x.pos x.line) = true ∧
        (bitImage 2 ||| bitImage 104) &&& selectMask x.line = settling.routeSelects x.route x.line) ∧
      ∃ x ∈ settling.alloc.records, x.state = .breaking ∧
        (bitImage 2 ||| bitImage 104).getLsbD (crosspointBit x.pos x.line) = false := by
  refine ⟨by decide +kernel, by decide +kernel, by constructor <;> decide +kernel, ⟨⟨by decide +kernel, ?_⟩, by decide +kernel, ?_⟩,
    by decide +kernel, by decide +kernel⟩ <;> intro k <;> cases k <;> decide +kernel

/-- `settling` with P4 in the list of L3, which is P1's re-claim line. -/
def vacating : State := (queues 4 12 .wait settling).mapStanding 1 .main fun x => { x with follow := true, reclaim := some 3 }

theorem witness_ChangeRuns_admits :
    (vacating.recordsOn 3 ≠ [] ∧
      ((vacating.recordsOn 3).filter fun x => x.state ≠ .breaking || (bitImage 2 ||| bitImage 104).getLsbD (crosspointBit x.pos 3)) = [] ∧
      (vacating.listOf 3).map (fun e => e.pos) = [4] ∧ (vacating.standing 4 .main).reclaim = none) ∧
    (∃ x ∈ vacating.alloc.records, x.state = .breaking ∧
      (bitImage 2 ||| bitImage 104).getLsbD (crosspointBit x.pos x.line) = false ∧
      (vacating.standing x.pos x.kind).reclaim = some x.line) ∧
    (vacating.safe = false ∧ vacating.isReady = true ∧ vacating.WaitsNowhere 1) ∧ vacating.AllocationKeyed ∧
    let s := queues 4 30 .wait (queues 3 30 .wait (runs .change .ordinary .settling (bitImage (crosspointBit 0 8))
      (holds 1 30 .breaking (holds 0 30 .connected site))))
    s.portOf 8 = .aux ∧ ((s.recordsOn 8).filter fun x => x.state ≠ .breaking ||
      (bitImage (crosspointBit 0 8)).getLsbD (crosspointBit x.pos 8)).map (fun x => x.route) = [30] ∧
      (s.recordsOn 8).length = 2 ∧ (s.lineOf 8).ports = 2 ∧ (s.listOf 8).map (fun e => (e.pos, e.route)) = [(3, 30), (4, 30)] ∧
      (∀ x ∈ s.recordsOn 8, x.reroute = none) ∧ (∀ q, (s.standing q .aux).reclaim = none) ∧ ∀ m, ∀ e ∈ s.listOf m, e.pos ≠ 0 :=
  ⟨by decide +kernel, by decide +kernel, ⟨by decide +kernel, by decide +kernel, by unfold State.WaitsNowhere; decide +kernel⟩,
    by constructor <;> decide +kernel, by decide +kernel⟩

theorem witness_VerifyAndResyncRun :
    (site.chain.verifyTimer.isSome = true ∧ site.chain.op = none ∧ site.chain.content ≠ none ∧
      site.chain.pending = site.chain.latched ∧ site.chain.heldForEntry = false ∧ site.safe = false) ∧
      (site.mapChain fun c => { c with content := none }).chain.content = none ∧
      (runs .resync .retry .filling 0 site).inPhase .resync .filling = true ∧
      (runs .verify .startUp .shifting 0 startingSite).inPhase .verify .shifting = true ∧
      (let s := (runs .resync .retry .checking 0 site).mapChain fun c => { c with attempt := some ⟨.change, false⟩ }
       s.inPhase .resync .checking = true ∧ s.chain.attempt.map (fun a => a.kind) = some .change ∧ s.chain.lengthDue = false) ∧
      (let s := (runs .resync .exit .checking 0 unsafeSite).mapStanding 0 .main fun x => { x with follow := true, due := true }
       s.WaitsNowhere 0 ∧ s.isReady = true ∧ s.AllocationKeyed ∧ (s.standing 0 .main).due = true ∧ s.inPhase .resync .checking = true ∧ s.inbox = [] ∧ s.safe = true ∧ s.log.exitSpoiled = false) ∧
      unsafeSite.SafeInhibited :=
  ⟨by decide +kernel, by decide +kernel, by decide +kernel, by decide +kernel, by decide +kernel,
    ⟨by unfold State.WaitsNowhere; decide +kernel, by decide +kernel, by constructor <;> decide +kernel, by decide +kernel,
      by decide +kernel⟩, by unfold State.SafeInhibited; decide +kernel⟩

/-- R141, R113: P0's RF sense is on, and its crosspoint on L2 (chain bit 2) is to close. -/
theorem witness_VerifyAndResyncRun_start :
    let s := (site.mapTx 0 fun x => { x with rf := true }).mapChain fun c => { c with pending := bitImage 2 }
    s.chain.op = none ∧ s.store.ready ≠ .starting ∧ s.chain.heldForEntry = false ∧ s.safe = false ∧ s.chain.content ≠ none ∧
      s.chain.pending ≠ s.chain.latched ∧ s.MovesFirst 0 2 ∧
      (startRule s).inbox = [.occurred { kind := .hotSwitch, pos := some 0, line := none, band := some 4, detail := .hot .start 2 }] := by
  refine ⟨rfl, by decide, rfl, rfl, by decide, by decide, ⟨⟨by decide, .inl ⟨2, rfl⟩, by decide +kernel⟩, ?_⟩, by decide +kernel⟩
  intro i hi _
  have h : ∀ i : Fin 2, (bitImage 2).getLsbD i.val = (0 : Image).getLsbD i.val := by decide +kernel
  exact h ⟨i, hi⟩

/-- The lines of R141 that no other witness meets: held for entry, an exit request in safe state, the content UNKNOWN with an attempt
whose repeat is due, the restart hold, the refresh; and a START-UP VERIFY with the content UNKNOWN. -/
theorem witness_VerifyAndResyncRun_lines :
    (site.chain.op = none ∧ site.store.ready ≠ .starting) ∧
      (site.mapChain fun c => { c with heldForEntry := true }).chain.heldForEntry = true ∧
      (let s := unsafeSite.mapChain fun c => { c with exitRequest := true, verifyTimer := none }
       s.safe = true ∧ s.chain.exitRequest = true ∧ s.chain.heldForEntry = false) ∧
      (let s := site.mapChain fun c => { c with content := none, attempt := some ⟨.change, true⟩ }
       s.chain.content = none ∧ s.chain.attempt = some ⟨.change, true⟩ ∧ (startRule s).purpose = some .retry ∧
         (startRule s).chain.attempt = some ⟨.change, true⟩) ∧
      (let s := site.mapChain fun c => { c with restartHold := true }
       s.chain.content ≠ none ∧ s.chain.restartHold = true ∧ s.chain.pending = 0 ∧ (startRule s).purpose = some .restart) ∧
      (let s := site.mapChain fun c => { c with refreshDue := true }
       s.chain.pending = s.chain.latched ∧ s.chain.restartHold = false ∧ (startRule s).purpose = some .refresh) ∧
      (let s := (runs .verify .startUp .shifting 0 startingSite).mapChain fun c => { c with content := none }
       s.inPhase .verify .shifting = true ∧ s.purpose = some .startUp ∧ s.chain.content = none ∧ s.store.restartRaw = false ∧
         s.inbox = [] ∧ (after s .verifyEnd).store.ready = .ready) := by decide +kernel

theorem witness_MismatchTaken :
    let s := runs .change .ordinary .shifting 1 site
    (s.chain.content.isSome = true ∧ 207 < 8 * 26 ∧ s.inbox = [] ∧ s.chain.attempt = none ∧
      (s.faultConfig .chainMismatch).severity = .fatal) ∧
      (s.mapChain fun c => { c with attempt := some ⟨.change, false⟩ }).chain.attempt ≠ none ∧
      ((s.mapTable fun t => { t with faults := put t.faults 2 ⟨false, false, .major, .a⟩ }).faultConfig .chainMismatch).severity =
        .major := by decide +kernel

end Sys2Proof.Tests
end

