-- ==== Sys2Proof/Proofs/BandLookup.lean ====
section
/-! What a report decodes to (section 2.3, R30), and how a decoded record shows it. -/

namespace Sys2Proof.Machine

/-! ## The lookup -/

theorem decodeBand_top (bands : Vector BandEntry 12) : decodeBand bands 6000000 = none := rfl

/-- Below the top count the lookup is the first enabled band whose edges hold the f100. -/
theorem decodeBand_of_ne_top (bands : Vector BandEntry 12) {f : Nat} (hf : f ≠ 6000000) :
    decodeBand bands f = (List.finRange 12).find? fun b =>
      (bands.get b).enabled && (bands.get b).lower ≤ f / 10 && f / 10 ≤ (bands.get b).upper :=
  if_neg hf

theorem holds_of_decodeBand_eq_some {bands : Vector BandEntry 12} {f : Nat} {b : Band} (h : decodeBand bands f = some b) :
    f ≠ 6000000 ∧ (bands.get b).enabled = true ∧ (bands.get b).lower ≤ f / 10 ∧ f / 10 ≤ (bands.get b).upper := by
  have hf : f ≠ 6000000 := by
    rintro rfl
    simp [decodeBand_top] at h
  rw [decodeBand_of_ne_top bands hf] at h
  have holds := List.find?_some h
  simp only [Bool.and_eq_true, decide_eq_true_eq, and_assoc] at holds
  exact ⟨hf, holds⟩

theorem decodeBand_eq_none_iff (bands : Vector BandEntry 12) (f : Nat) :
    decodeBand bands f = none ↔
      f = 6000000 ∨
        ∀ b, (bands.get b).enabled = true → ¬((bands.get b).lower ≤ f / 10 ∧ f / 10 ≤ (bands.get b).upper) := by
  by_cases hf : f = 6000000
  · simp [hf, decodeBand_top]
  · simp [decodeBand_of_ne_top bands hf, hf]

/-- Where no two enabled bands share a value (R6), the band that holds the f100 is the one found: the lookup finds some band, and
that band holds the f100 too. -/
theorem decodeBand_eq_some_iff {bands : Vector BandEntry 12}
    (apart : ∀ i j, i ≠ j → (bands.get i).enabled = true → (bands.get j).enabled = true →
      ∀ v, ¬((bands.get i).lower ≤ v ∧ v ≤ (bands.get i).upper ∧ (bands.get j).lower ≤ v ∧ v ≤ (bands.get j).upper))
    (f : Nat) (b : Band) :
    decodeBand bands f = some b ↔
      f ≠ 6000000 ∧ (bands.get b).enabled = true ∧ (bands.get b).lower ≤ f / 10 ∧ f / 10 ≤ (bands.get b).upper := by
  refine ⟨holds_of_decodeBand_eq_some, fun ⟨hf, enabled, lower, upper⟩ => ?_⟩
  cases found : decodeBand bands f with
  | none =>
    obtain top | noneHolds := (decodeBand_eq_none_iff bands f).1 found
    · exact absurd top hf
    · exact absurd ⟨lower, upper⟩ (noneHolds b enabled)
  | some c =>
    obtain ⟨-, enabled', lower', upper'⟩ := holds_of_decodeBand_eq_some found
    by_contra different
    exact apart c b (fun same => different (congrArg some same)) enabled' enabled (f / 10) ⟨lower', upper', lower, upper⟩

/-! ## The decoded record -/

/-- A report that decodes to a band leaves the record in band, or with that band as candidate (R31, R33). -/
theorem FreqRecord.report_inBand_or_candidate (r : FreqRecord) (need : Nat) (c : Band) :
    (r.report need c).outOfBand = false ∨ (r.report need c).candidate = some c := by
  unfold FreqRecord.report
  split
  next current =>
    simp only [Bool.and_eq_true, Bool.not_eq_true'] at current
    exact .inl current.1
  next =>
    split
    · exact .inl rfl
    · exact .inr rfl

@[simp] theorem FreqRecord.transmit_report (r : FreqRecord) (need : Nat) (c : Band) :
    (r.report need c).transmit = r.transmit := by
  unfold FreqRecord.report
  split
  · rfl
  · split <;> rfl

@[simp] theorem FreqRecord.transmit_decoded (r : FreqRecord) (bands : Vector BandEntry 12) (need : Nat) :
    (r.decoded bands need).transmit = r.transmit := by
  unfold FreqRecord.decoded
  split
  · rfl
  · split
    · rfl
    · exact r.transmit_report need _

/-- A record whose transmit frequency has a value is out of band without a candidate after its decoding exactly when that
frequency decodes to no band (R31 to R33). -/
theorem FreqRecord.decodeBand_eq_none_iff_decoded (r : FreqRecord) (bands : Vector BandEntry 12) (need : Nat) {f : Nat}
    (hf : r.transmit = some f) :
    decodeBand bands f = none ↔
      (r.decoded bands need).outOfBand = true ∧ (r.decoded bands need).candidate = none := by
  cases found : decodeBand bands f with
  | none => simp [FreqRecord.decoded, hf, found]
  | some c =>
    have decoded : r.decoded bands need = r.report need c := by simp [FreqRecord.decoded, hf, found]
    obtain inBand | candidate := r.report_inBand_or_candidate need c
    · simp [decoded, inBand]
    · simp [decoded, candidate]

/-- Settles O21: the lookup by its first enabled band that holds the f100, unique by R6; the manual's four worked values by
evaluation; and the decoded record by R31 to R33. -/
theorem bandLookup : Obligations.BandLookup := by
  refine ⟨fun bands f apart => ⟨decodeBand_eq_some_iff apart f, decodeBand_eq_none_iff bands f⟩,
    by decide, by decide, by decide, by decide, fun s p x f hf => ?_⟩
  exact FreqRecord.decodeBand_eq_none_iff_decoded _ _ _ ((FreqRecord.transmit_decoded _ _ _).symm.trans hf)

end Sys2Proof.Machine
end

