-- ==== Sys2Proof/Proofs/PollReplies.lean ====
section
/-! A request that a port takes and that is answered with one frame (R175, R177, R178), and POLL (R179). -/

namespace Sys2Proof

theorem put_put {α : Type} {n : Nat} (v : Vector α n) (i : Fin n) (x y : α) : put (put v i x) i y = put v i y := by
  simp [put]

namespace Machine

/-- Two changes of one port are one change. -/
theorem mapLink_mapLink (s : State) (p : Position) (f g : Link → Link) :
    (s.mapLink p f).mapLink p g = s.mapLink p fun x => g (f x) := by
  simp only [State.mapLink, State.link, get_put_self, put_put]

/-! ## Taking a request -/

theorem Offers.mayTake {s : State} {p : Position} {f : Frame} {need : Nat} (offered : Offers s p f need) :
    s.mayTake p need = true := by
  simp [State.mayTake, offered.settled, offered.room]

/-- A port that offers a request of a row takes it: the block serves it and the slot is freed. -/
theorem takeRequest_of_offers {s : State} {p : Position} {f : Frame} {fits : Frame → Bool} {need : Frame → Nat}
    (offered : Offers s p f (need f)) (fit : fits f = true) (serve : Frame → State → State) :
    takeRequest p fits need serve s = freeSlot p (serve f s) := by
  obtain ⟨rest, slots⟩ := List.head?_eq_some_iff.1 offered.oldest
  simp [takeRequest, slots, fit, offered.mayTake]

/-- The slot is freed after a reply of one frame: HOLD_n and the position's presence, which decide on the silence timer, are as they
were before the reply. -/
theorem freeSlot_reply (p : Position) (f : Frame) (c : Code) (d : List Byte) (s : State) :
    freeSlot p (reply p f.kind c d s) = s.answered p [f.reply c d] := by
  simp only [freeSlot, reply, sendFrame, mapLink_mapLink, policy_mapLink, List.drop_one]
  rfl

/-! ## POLL -/

theorem servePoll_of_empty {f : Frame} (empty : f.payload = []) (p : Position) (s : State) :
    servePoll p f s = reply p f.kind .ok [flag s.isReady, flag s.safe, flag s.locked] s :=
  if_pos empty

theorem servePoll_of_payload {f : Frame} (payload : f.payload ≠ []) (p : Position) (s : State) :
    servePoll p f s = reply p f.kind .badRequest [] s :=
  if_neg payload

theorem exec_poll (p : Position) (s : State) : exec (.poll p) s = execPoll p s := rfl

theorem flag_isReady (s : State) : flag s.isReady = if s.store.ready = .ready then 1 else 0 := by
  simp [flag, State.isReady]

/-- A POLL that a port offers is served, and its slot freed, whatever its payload. -/
theorem exec_poll_of_offers {s : State} {p : Position} {f : Frame} (offered : Offers s p f 1) (kind : f.kind = kindPoll) :
    exec (.poll p) s = .next (freeSlot p (servePoll p f s)) := by
  have taken : takeSimple p (isKind kindPoll) (servePoll p) s = freeSlot p (servePoll p f s) :=
    takeRequest_of_offers offered (by simp [isKind, kind]) _
  simp [exec_poll, execPoll, whilePowered, offered.powered, taken]

/-- Settles O24: the request is taken and served, by the case of its payload, and the reply and the freed slot are all that changes. -/
theorem pollReplies : Obligations.PollReplies := by
  intro s p f offered kind
  rw [exec_poll_of_offers offered kind]
  constructor
  · intro empty
    rw [servePoll_of_empty empty, freeSlot_reply, flag_isReady]
    rfl
  · intro payload
    rw [servePoll_of_payload payload, freeSlot_reply]

end Machine

end Sys2Proof
end

section
/-! The step and its queue, the idle step, and the input levels (R24, R93, R160, R196). -/

namespace Sys2Proof.Machine

/-- Settles O1: the step executes the head of the queue on the state with the tail as queue. -/
theorem stepRunsFrontCommand : Obligations.StepRunsFrontCommand := by
  intro c rest s waits
  simp only [step, waits]

/-! ## Unpowered parts -/

theorem whilePowered_of_powered (body : State → State) {s : State} (on : s.powered = true) :
    whilePowered body s = .next (body s) := by
  simp [whilePowered, on]

theorem whilePowered_of_unpowered (body : State → State) {s : State} (off : s.powered = false) :
    whilePowered body s = .next s := by
  simp [whilePowered, off]

theorem wholeStep_of_powered (body : State → State) {s : State} (on : s.powered = true) :
    wholeStep body s = .next (closeStep s (body s)) :=
  whilePowered_of_powered _ on

theorem wholeStep_of_unpowered (body : State → State) {s : State} (off : s.powered = false) :
    wholeStep body s = .next s :=
  whilePowered_of_unpowered _ off

/-- Every command but POWER_ON and the four raw level changes asks for power before it does anything (assumption 1). -/
theorem exec_of_unpowered {s : State} (off : s.powered = false) (c : Instr) (notOn : c ≠ .powerOn)
    (notPtt : ∀ p on, c ≠ .pttLevelChange p on) (notRf : ∀ p on, c ≠ .rfSenseLevelChange p on)
    (notLock : ∀ on, c ≠ .lockLevelChange on) (notRestart : ∀ on, c ≠ .restartNLevelChange on) :
    exec c s = .next s := by
  cases c
  case powerOn => exact absurd rfl notOn
  case pttLevelChange p on => exact absurd rfl (notPtt p on)
  case rfSenseLevelChange p on => exact absurd rfl (notRf p on)
  case lockLevelChange on => exact absurd rfl (notLock on)
  case restartNLevelChange on => exact absurd rfl (notRestart on)
  all_goals simp only [exec, whilePowered_of_unpowered _ off, wholeStep_of_unpowered _ off,
    execPoll, execFreq, execClaimWait, execClaimNow, execClaimTake, execRelease, execCancel, execFollowOn,
    execFollowOff, execStep, execQuery, execTableRead, execBandWrite, execFeedLineWrite, execElementWrite,
    execRouteWrite, execRingWrite, execStationPolicyWrite, execPositionSettingsWrite, execFaultConfigurationWrite,
    execSave, execFaultRead, execFaultClear, execRestartRequest, execUnknownRequestKind, execFrameArrival,
    execFrameError, execGapExpiry, execSkippingStart, execFrameSent, execDivisorChange, execLinkSilenceExpiry,
    execAbsence, execPositionReturn, execPttOn, execPttOff, execRfOn, execRfOff, execHangExpiry, execTailExpiry,
    execStaleExpiry, execLockDebounceExpiry, execRestartPin, execVerifyTimerExpiry, execChangeShiftEnd,
    execChangeCompletion, execVerifyEnd, execResyncFillEnd, execResyncPass, execMismatch, execSaveWriteEnd,
    execOccurrence, execGoodCharacter, execRestartNDebouncedRelease, execPowerLoss]

theorem idle_of_powered {s : State} (on : s.powered = true) :
    idle s = { s with log := { s.log with clock := s.log.clock + 1 } } := by
  simp [idle, on, State.mapLog]

theorem idle_of_unpowered {s : State} (off : s.powered = false) : idle s = s := by
  simp [idle, off]

theorem step_of_nothing {s : State} (nothing : s.pending = []) : step s = .next (idle s) := by
  simp [step, nothing]

/-- Settles O2: the idle step by the state of the power, and an unpowered part command by command. -/
theorem idleAndUnpowered : Obligations.IdleAndUnpowered := by
  refine ⟨fun s nothing on => ?_, fun s nothing off => ?_, fun c s off => exec_of_unpowered off c⟩
  · rw [step_of_nothing nothing, idle_of_powered on]
  · rw [step_of_nothing nothing, idle_of_unpowered off]

/-! ## Input levels -/

theorem rawChange_eq (powered on debounced : Bool) (q : Policy) :
    rawChange powered on debounced q = if powered = true ∧ on ≠ debounced then some q.tDeb else none := by
  cases powered <;> by_cases same : on = debounced <;> simp [rawChange, debounce, Policy.debMs, same]

theorem debounce_if_eq (watched on debounced : Bool) (q : Policy) :
    (if watched then debounce on debounced q else none) = if watched = true ∧ on ≠ debounced then some q.tDeb else none :=
  rawChange_eq watched on debounced q

theorem watchesPin_iff (s : State) : s.watchesPin = true ↔ s.powered = true ∧ s.store.ready ≠ .starting := by
  simp [State.watchesPin]

/-- Settles O51: a raw level that changes sets its record's level and timer; the two confirmations set the debounced level. -/
theorem inputLevels : Obligations.InputLevels := by
  intro s
  refine ⟨fun p on new => ?_, fun p on new => ?_, fun on new => ?_, fun on new => ?_, fun on timer => ?_,
    fun on ended timer released held => ?_⟩
  · simp only [exec, execPttLevelChange, if_neg new, rawChange_eq]
    rfl
  · simp only [exec, execRfSenseLevelChange, if_neg new, rawChange_eq]
    rfl
  · simp only [exec, execLockLevelChange, if_neg new, debounce_if_eq]
    rfl
  · simp only [exec, execRestartNLevelChange, if_neg new, debounce_if_eq]
    simp only [watchesPin_iff]
    rfl
  · simp [exec, execLockDebounceExpiry, whilePowered_of_powered _ on, timer, State.mapStore]
  · have watched := (watchesPin_iff s).2 ⟨on, ended⟩
    simp [exec, execRestartNDebouncedRelease, whilePowered_of_powered _ on, watched, timer, released, held, State.mapStore]

end Sys2Proof.Machine
end

section
/-! The conflict test and the chain length (R18, R121, R122). -/

namespace Sys2Proof.Machine

theorem difference_eq (x y : Nat) : (difference x y : Int) = |((x : Nat) : Int) - (y : Int)| := by
  rw [difference]
  rcases le_total x y with h | h
  · rw [abs_of_nonpos (by omega)]; omega
  · rw [abs_of_nonneg (by omega)]; omega

theorem conflictAt_iff (g w ft fr n : Nat) :
    conflictAt g w ft fr n = true ↔ |((n * ft : Nat) : Int) - (fr : Int)| ≤ ((g + n * w : Nat) : Int) := by
  rw [← difference_eq]
  rw [conflictAt, decide_eq_true_iff, guardAt, Nat.cast_le]

/-- The test asks the harmonics from 2 to Nmax, which is at most 5, in order. -/
theorem harmonicResult_eq_none_iff (g nMax w ft fr : Nat) (top : nMax ≤ 5) :
    harmonicResult g nMax w ft fr = none ↔ ∀ n, 2 ≤ n → n ≤ nMax → conflictAt g w ft fr n = false := by
  unfold harmonicResult
  split
  next n found =>
    have holds := List.find?_some found
    have asked := List.mem_of_find?_eq_some found
    simp only [Bool.and_eq_true, decide_eq_true_eq] at holds
    simp only [reduceCtorEq, false_iff, not_forall]
    refine ⟨n, ?_, holds.1, by simp [holds.2]⟩
    simp at asked
    omega
  next none =>
    simp only [true_iff]
    intro n low high
    have asked : n ∈ [2, 3, 4, 5] := by simp; omega
    have := List.find?_eq_none.1 none n asked
    simpa [high] using this

theorem harmonicResult_eq_some_iff (g nMax w ft fr n m : Nat) (top : nMax ≤ 5) :
    harmonicResult g nMax w ft fr = some (n, m) ↔
      2 ≤ n ∧ n ≤ nMax ∧ conflictAt g w ft fr n = true ∧ m = guardAt g w n - difference (n * ft) fr ∧
        ∀ k, 2 ≤ k → k < n → conflictAt g w ft fr k = false := by
  have found : ([2, 3, 4, 5].find? fun n => n ≤ nMax && conflictAt g w ft fr n) = some n ↔
      2 ≤ n ∧ n ≤ nMax ∧ conflictAt g w ft fr n = true ∧ ∀ k, 2 ≤ k → k < n → conflictAt g w ft fr k = false := by
    rw [List.find?_eq_some_iff_append]
    constructor
    · rintro ⟨holds, front, back, split, before⟩
      simp only [Bool.and_eq_true, decide_eq_true_eq] at holds
      have sorted : (front ++ n :: back).Pairwise (· < ·) := split ▸ by decide
      have asked : n ∈ [2, 3, 4, 5] := split ▸ by simp
      refine ⟨by simp at asked; omega, holds.1, holds.2, fun k low lower => ?_⟩
      have earlier : k ∈ front ++ n :: back := split ▸ by simp at asked ⊢; omega
      have inFront : k ∈ front := by
        obtain inFront | inBack := List.mem_append.1 earlier
        · exact inFront
        · obtain rfl | inBack := List.mem_cons.1 inBack
          · omega
          · have := (List.pairwise_cons.1 (List.pairwise_append.1 sorted).2.1).1 k inBack
            omega
      have := before k inFront
      simpa [show k ≤ nMax by omega] using this
    · rintro ⟨low, high, holds, before⟩
      refine ⟨by simp [high, holds], (List.range' 2 (n - 2)), List.range' (n + 1) (5 - n), ?_, fun k inFront => ?_⟩
      · have cases : n = 2 ∨ n = 3 ∨ n = 4 ∨ n = 5 := by omega
        obtain rfl | rfl | rfl | rfl := cases <;> rfl
      · obtain ⟨i, small, rfl⟩ := List.mem_range'.1 inFront
        have lower := before (2 + 1 * i) (by omega) (by omega)
        simp_all
  unfold harmonicResult
  split
  next n' at_n' =>
    simp only [Option.some.injEq, Prod.mk.injEq]
    rw [at_n', Option.some.injEq] at found
    constructor
    · rintro ⟨rfl, rfl⟩
      obtain ⟨low, high, holds, before⟩ := found.1 rfl
      exact ⟨low, high, holds, rfl, before⟩
    · rintro ⟨low, high, holds, rfl, before⟩
      obtain rfl := found.2 ⟨low, high, holds, before⟩
      exact ⟨rfl, rfl⟩
  next none =>
    rw [none] at found
    simp only [reduceCtorEq, false_iff] at found ⊢
    rintro ⟨low, high, holds, -, before⟩
    exact found ⟨low, high, holds, before⟩

/-- Settles O20: the first harmonic from 2 to Nmax whose difference lies within its guard. -/
theorem harmonicTestExact : Obligations.HarmonicTestExact := by
  intro g nMax w ft fr _ top
  have outside (k : Nat) : conflictAt g w ft fr k = false ↔
      ((g + k * w : Nat) : Int) < |((k * ft : Nat) : Int) - (fr : Int)| := by
    rw [← Bool.not_eq_true, conflictAt_iff, not_le]
  constructor
  · intro n m
    simp only [harmonicResult_eq_some_iff g nMax w ft fr n m top, outside, conflictAt_iff]
    have margin (within : |((n * ft : Nat) : Int) - (fr : Int)| ≤ ((g + n * w : Nat) : Int)) :
        m = guardAt g w n - difference (n * ft) fr ↔
          (m : Int) = ((g + n * w : Nat) : Int) - |((n * ft : Nat) : Int) - (fr : Int)| := by
      rw [← difference_eq] at within ⊢
      unfold guardAt
      omega
    constructor
    · rintro ⟨low, high, within, eq, before⟩
      exact ⟨low, high, within, (margin within).1 eq, before⟩
    · rintro ⟨low, high, within, eq, before⟩
      exact ⟨low, high, within, (margin within).2 eq, before⟩
  · rw [harmonicResult_eq_none_iff g nMax w ft fr top]
    simp only [outside]

/-! ## Bits of an image -/

theorem getLsbD_open (b : Nat) : (0 : Image).getLsbD b = false := by simp

/-- A fold each of whose steps only adds relays to an image closes a relay exactly where the first image or one of the steps does. -/
theorem getLsbD_foldl {α : Type} {b : Nat} {g : Image → α → Image} {P : α → Prop}
    (step : ∀ im x, (g im x).getLsbD b = true ↔ im.getLsbD b = true ∨ P x) : ∀ (xs : List α) (im : Image),
    (xs.foldl g im).getLsbD b = true ↔ im.getLsbD b = true ∨ ∃ x ∈ xs, P x
  | [], im => by simp
  | x :: xs, im => by
    rw [List.foldl_cons, getLsbD_foldl step xs, step, or_assoc, List.exists_mem_cons_iff]

theorem getLsbD_bitImage (i b : Nat) (small : i < 256) : (bitImage i).getLsbD b = true ↔ b = i := by
  simp only [bitImage, BitVec.getLsbD_shiftLeft, BitVec.getLsbD_one]
  simp
  omega

theorem crosspointBit_lt (p : Position) (l : Line) : crosspointBit p l < 96 := by
  unfold crosspointBit; omega

theorem selectBit_bounds (l : Line) (x : Select) : 96 ≤ selectBit l x ∧ selectBit l x < 160 := by
  unfold selectBit; omega

theorem filterBit_bounds (p : Position) (f : FilterNo) : 160 ≤ filterBit p f ∧ filterBit p f < 208 := by
  unfold filterBit; omega

@[simp] theorem getLsbD_bitImage_crosspoint (p : Position) (l : Line) (b : Nat) :
    (bitImage (crosspointBit p l)).getLsbD b = true ↔ b = crosspointBit p l :=
  getLsbD_bitImage _ _ (by have := crosspointBit_lt p l; omega)

@[simp] theorem getLsbD_bitImage_select (l : Line) (x : Select) (b : Nat) :
    (bitImage (selectBit l x)).getLsbD b = true ↔ b = selectBit l x :=
  getLsbD_bitImage _ _ (by have := selectBit_bounds l x; omega)

@[simp] theorem getLsbD_bitImage_filter (p : Position) (f : FilterNo) (b : Nat) :
    (bitImage (filterBit p f)).getLsbD b = true ↔ b = filterBit p f :=
  getLsbD_bitImage _ _ (by have := filterBit_bounds p f; omega)

/-- Bit `bit p` of each position closed. -/
theorem getLsbD_foldl_positions (bit : Position → Nat) (small : ∀ p, bit p < 256) (im : Image) (b : Nat) :
    (allPositions.foldl (fun im p => im ||| bitImage (bit p)) im).getLsbD b = true ↔
      im.getLsbD b = true ∨ ∃ p, b = bit p := by
  rw [getLsbD_foldl (P := fun p => b = bit p)]
  · simp [mem_allPositions]
  · intro im p
    simp [getLsbD_bitImage, small]

/-! ## The relays in use (R18) -/

theorem getLsbD_lineBits (t : Table) (b : Nat) :
    t.lineBits.getLsbD b = true ↔ ∃ p l, (t.lines.get l).enabled = true ∧ b = crosspointBit p l := by
  unfold Table.lineBits
  rw [getLsbD_foldl (P := fun l => (t.lines.get l).enabled = true ∧ ∃ p, b = crosspointBit p l)]
  · simp only [getLsbD_open, Bool.false_eq_true, false_or, List.mem_finRange, true_and]
    exact ⟨fun ⟨l, on, p, at_b⟩ => ⟨p, l, on, at_b⟩, fun ⟨p, l, on, at_b⟩ => ⟨l, on, p, at_b⟩⟩
  · intro im l
    split
    next on => simp [on, getLsbD_foldl_positions _ fun p => lt_trans (crosspointBit_lt p l) (by decide)]
    next off => simp [off]

theorem exists_mem_toList {α : Type} {n : Nat} (v : Vector α n) (P : α → Prop) :
    (∃ x ∈ v.toList, P x) ↔ ∃ i, P (v.get i) := by
  simp only [Vector.mem_toList_iff, Vector.mem_iff_getElem, Vector.get_eq_getElem]
  constructor
  · rintro ⟨x, ⟨i, small, rfl⟩, holds⟩
    exact ⟨⟨i, small⟩, holds⟩
  · rintro ⟨i, holds⟩
    exact ⟨_, ⟨i.val, i.isLt, rfl⟩, holds⟩

theorem getLsbD_elementBits (t : Table) (b : Nat) :
    t.elementBits.getLsbD b = true ↔
      ∃ x, (t.elements.get x).enabled = true ∧ b = selectBit (t.elements.get x).line (t.elements.get x).select := by
  unfold Table.elementBits
  rw [getLsbD_foldl (P := fun e => e.enabled = true ∧ b = selectBit e.line e.select)]
  · simp only [getLsbD_open, Bool.false_eq_true, false_or,
      exists_mem_toList t.elements fun e => e.enabled = true ∧ b = selectBit e.line e.select]
  · intro im e
    split
    next on => simp [on]
    next off => simp [off]

theorem getLsbD_bandBits (t : Table) (b : Nat) :
    t.bandBits.getLsbD b = true ↔ ∃ p i, (t.bands.get i).enabled = true ∧ b = filterBit p (t.bands.get i).filter := by
  unfold Table.bandBits
  rw [getLsbD_foldl (P := fun e => e.enabled = true ∧ ∃ p, b = filterBit p e.filter)]
  · simp only [getLsbD_open, Bool.false_eq_true, false_or,
      exists_mem_toList t.bands fun e => e.enabled = true ∧ ∃ p, b = filterBit p e.filter]
    exact ⟨fun ⟨i, on, p, at_b⟩ => ⟨p, i, on, at_b⟩, fun ⟨p, i, on, at_b⟩ => ⟨i, on, p, at_b⟩⟩
  · intro im e
    split
    next on => simp [on, getLsbD_foldl_positions _ fun p => lt_trans (filterBit_bounds p e.filter).2 (by decide)]
    next off => simp [off]

theorem getLsbD_closedBits (c : Chain) (b : Nat) :
    c.closedBits.getLsbD b = true ↔ c.latched.getLsbD b = true ∨ c.pending.getLsbD b = true ∨
      ∃ o, c.op = some o ∧ o.image.getLsbD b = true := by
  unfold Chain.closedBits
  cases op : c.op <;> simp [or_assoc]

/-- A shifted image is empty exactly where every closed relay lies below the shift. -/
theorem shiftRight_eq_zero_iff (im : Image) (n : Nat) : im >>> n = 0 ↔ ∀ b, im.getLsbD b = true → b < n := by
  constructor
  · intro empty b closed
    by_contra beyond
    have : (im >>> n).getLsbD (b - n) = true := by
      rw [BitVec.getLsbD_ushiftRight, Nat.add_sub_cancel' (by omega)]
      exact closed
    simp [empty] at this
  · intro below
    apply BitVec.eq_of_getLsbD_eq
    intro i _
    rw [BitVec.getLsbD_ushiftRight, getLsbD_open, Bool.eq_false_iff]
    intro closed
    have := below _ closed
    omega

theorem getLsbD_inUse (s : State) (t : Table) (b : Nat) :
    (t.lineBits ||| t.elementBits ||| t.bandBits ||| s.chain.closedBits).getLsbD b = true ↔ s.BitInUse t b := by
  simp only [BitVec.getLsbD_or, Bool.or_eq_true, getLsbD_lineBits, getLsbD_elementBits, getLsbD_bandBits,
    getLsbD_closedBits, State.BitInUse, or_assoc]

/-- Settles O22: the shift by 8 times the length leaves no relay in use. -/
theorem chainHoldsBitsInUse : Obligations.ChainHoldsBitsInUse := by
  intro s t
  simp only [State.fits, decide_eq_true_eq, shiftRight_eq_zero_iff, getLsbD_inUse]
  refine ⟨fun below b _ inUse => below b inUse, fun below b inUse => below b ?_ inUse⟩
  by_contra beyond
  have closed := (getLsbD_inUse s t b).2 inUse
  rw [BitVec.getLsbD_of_ge _ _ (by omega)] at closed
  cases closed

/-! ## The composed image (R47, R138) -/

theorem getLsbD_routeSelects (s : State) (r : Route) (l : Line) (b : Nat) :
    (s.routeSelects r l).getLsbD b = true ↔
      ∃ e ∈ (s.routeOf r).elements, (s.table.elements.get e).line = l ∧ b = selectBit l (s.table.elements.get e).select := by
  unfold State.routeSelects
  rw [getLsbD_foldl (P := fun e => (s.table.elements.get e).line = l ∧ b = selectBit l (s.table.elements.get e).select)]
  · simp
  · intro im e
    dsimp only
    split
    next on => simp [on]
    next off => simp [off]

theorem Holder.closes_iff (r : Holder) :
    r.closes = true ↔ r.state = .making ∨ r.state = .connected ∨ (r.state = .breaking ∧ r.breakRequested = false) := by
  cases state : r.state <;> simp [Holder.closes, state]

theorem HolderState.drives_iff (x : HolderState) : x.drives = true ↔ x ≠ .pending := by
  cases x <;> simp [HolderState.drives]

theorem getLsbD_contribution (s : State) (b : Nat) :
    s.contribution.getLsbD b = true ↔
      (∃ x ∈ s.alloc.records, b = crosspointBit x.pos x.line ∧ x.closes = true) ∨
      ∃ x ∈ s.alloc.records, x.state ≠ .pending ∧ ∃ e ∈ (s.routeOf x.route).elements,
        (s.table.elements.get e).line = x.line ∧ b = selectBit x.line (s.table.elements.get e).select := by
  unfold State.contribution
  rw [getLsbD_foldl (P := fun x => (b = crosspointBit x.pos x.line ∧ x.closes = true) ∨
    (x.state ≠ .pending ∧ (s.routeSelects x.route x.line).getLsbD b = true))]
  · simp only [getLsbD_open, Bool.false_eq_true, false_or, and_or_left, exists_or, getLsbD_routeSelects]
  · intro im x
    rw [← HolderState.drives_iff]
    cases x.closes <;> cases x.state.drives <;> simp [or_assoc]

theorem getLsbD_filterImage (s : State) (b : Nat) :
    s.filterImage.getLsbD b = true ↔ ∃ p f, (s.filterOf p).image = some f ∧ b = filterBit p f := by
  unfold State.filterImage
  rw [getLsbD_foldl (P := fun p => ∃ f, (s.filterOf p).image = some f ∧ b = filterBit p f)]
  · simp [mem_allPositions]
  · intro im p
    split
    next f on => simp [on]
    next off => simp [off]

/-- The relays that the composed image closes (R138). -/
theorem getLsbD_composed (s : State) (b : Nat) :
    s.composed.getLsbD b = true ↔
      (∃ x ∈ s.alloc.records, b = crosspointBit x.pos x.line ∧
        (x.state = .making ∨ x.state = .connected ∨ (x.state = .breaking ∧ x.breakRequested = false))) ∨
      (∃ x ∈ s.alloc.records, x.state ≠ .pending ∧ ∃ e ∈ (s.routeOf x.route).elements,
        (s.table.elements.get e).line = x.line ∧ b = selectBit x.line (s.table.elements.get e).select) ∨
      ∃ p f, (s.filterOf p).image = some f ∧ b = filterBit p f := by
  simp only [State.composed, BitVec.getLsbD_or, Bool.or_eq_true, getLsbD_contribution, getLsbD_filterImage,
    Holder.closes_iff, or_assoc]

end Sys2Proof.Machine
end

section
/-! The settled path and the eight conditions (R102, R103), and the arbiter run (R101). -/

namespace Sys2Proof.Machine

/-! ## The relays of a path (R103) -/

/-- A run of `k` closed relays from relay `n` on. -/
theorem getLsbD_run (k n b : Nat) (fits : n + k ≤ 256) :
    (BitVec.ofNat 256 (2 ^ k - 1) <<< n).getLsbD b = true ↔ n ≤ b ∧ b < n + k := by
  simp only [BitVec.getLsbD_shiftLeft, BitVec.getLsbD_ofNat, Nat.testBit_two_pow_sub_one, Bool.and_eq_true, decide_eq_true_eq,
    Bool.not_eq_true', decide_eq_false_iff_not]
  omega

theorem getLsbD_crosspointMask (p : Position) (b : Nat) :
    (crosspointMask p).getLsbD b = true ↔ ∃ l, b = crosspointBit p l := by
  rw [show crosspointMask p = BitVec.ofNat 256 (2 ^ 16 - 1) <<< (p.val * 16) from rfl, getLsbD_run _ _ _ (by omega)]
  unfold crosspointBit
  constructor
  · intro within
    exact ⟨⟨b - p.val * 16, by omega⟩, by simp; omega⟩
  · rintro ⟨l, rfl⟩
    omega

theorem getLsbD_selectMask (l : Line) (b : Nat) : (selectMask l).getLsbD b = true ↔ ∃ i, b = selectBit l i := by
  rw [show selectMask l = BitVec.ofNat 256 (2 ^ 4 - 1) <<< (96 + l.val * 4) from rfl, getLsbD_run _ _ _ (by omega)]
  unfold selectBit
  constructor
  · intro within
    exact ⟨⟨b - (96 + l.val * 4), by omega⟩, by simp; omega⟩
  · rintro ⟨i, rfl⟩
    omega

theorem getLsbD_filterMask (p : Position) (b : Nat) : (filterMask p).getLsbD b = true ↔ ∃ i, b = filterBit p i := by
  rw [show filterMask p = BitVec.ofNat 256 (2 ^ 8 - 1) <<< (160 + p.val * 8) from rfl, getLsbD_run _ _ _ (by omega)]
  unfold filterBit
  constructor
  · intro within
    exact ⟨⟨b - (160 + p.val * 8), by omega⟩, by simp; omega⟩
  · rintro ⟨i, rfl⟩
    omega

theorem getLsbD_pathMask (s : State) (p : Position) (b : Nat) : (s.pathMask p).getLsbD b = true ↔ s.OnPath p b := by
  unfold State.pathMask State.OnPath
  rw [getLsbD_foldl (P := fun x => x.pos = p ∧ (x.state = .making ∨ x.state = .connected ∨ x.state = .breaking) ∧
    ∃ i, b = selectBit x.line i)]
  · rw [BitVec.getLsbD_or, Bool.or_eq_true, getLsbD_crosspointMask, getLsbD_filterMask, or_assoc]
  · intro im x
    rw [← getLsbD_selectMask]
    by_cases here : x.pos = p <;> cases state : x.state <;> simp [here, HolderState.drives]

/-- Two images agree under a mask exactly where they agree at each of its relays. -/
theorem and_eq_and_iff (x y m : Image) :
    x &&& m = y &&& m ↔ ∀ b, b < 256 → m.getLsbD b = true → x.getLsbD b = y.getLsbD b := by
  constructor
  · intro same b _ masked
    have := congrArg (fun im => im.getLsbD b) same
    simpa [BitVec.getLsbD_and, masked] using this
  · intro same
    apply BitVec.eq_of_getLsbD_eq
    intro b small
    rw [BitVec.getLsbD_and, BitVec.getLsbD_and]
    cases masked : m.getLsbD b with
    | false => simp
    | true => simpa using same b small masked

/-! ## The settled path (R103) -/

theorem switching_eq_false_iff (s : State) (p : Position) :
    s.switching p = false ↔ ∀ x ∈ s.alloc.records, x.pos = p →
      x.state ≠ .making ∧ ¬(x.state = .breaking ∧ x.breakRequested = true ∧ x.latched = true) := by
  simp only [State.switching, List.any_eq_false, Bool.and_eq_true, Bool.or_eq_true, decide_eq_true_eq, not_and, not_or, and_assoc]

theorem filterSettled_iff (s : State) (p : Position) :
    s.filterSettled p = true ↔ (s.filterOf p).image = (s.filterOf p).current ∧
      ∃ b, (s.freqOf p).band = some b ∧ (s.filterOf p).current = some (s.table.bands.get b).filter := by
  rw [State.filterSettled, Bool.and_eq_true, Bool.and_eq_true, FilterRecord.settled, decide_eq_true_iff, decide_eq_true_iff,
    and_assoc, State.bandFilter]
  refine and_congr_right fun _ => ?_
  cases (s.freqOf p).band with
  | none =>
    simp only [Option.map_none, reduceCtorEq, false_and, exists_false, iff_false, not_and]
    intro some none
    simp [none] at some
  | some b =>
    simp only [Option.map_some, Option.some.injEq, exists_eq_left', and_iff_right_iff_imp]
    intro same
    simp [same]

theorem imagesAgree_iff (s : State) (p : Position) :
    s.imagesAgree p = true ↔ ∀ b, b < 256 → s.OnPath p b →
      s.chain.pending.getLsbD b = s.chain.latched.getLsbD b ∧
        ∀ o, s.chain.op = some o → o.image.getLsbD b = s.chain.latched.getLsbD b := by
  have agrees (x : Image) : x &&& s.pathMask p = s.chain.latched &&& s.pathMask p ↔
      ∀ b, b < 256 → s.OnPath p b → x.getLsbD b = s.chain.latched.getLsbD b := by
    simp only [and_eq_and_iff, getLsbD_pathMask]
  have both : s.imagesAgree p = true ↔ s.chain.pending &&& s.pathMask p = s.chain.latched &&& s.pathMask p ∧
      ∀ o, s.chain.op = some o → o.image &&& s.pathMask p = s.chain.latched &&& s.pathMask p := by
    rw [State.imagesAgree, Bool.and_eq_true, decide_eq_true_iff, eq_comm]
    refine and_congr_right fun _ => ?_
    split
    next o op => rw [decide_eq_true_iff, op]; simp
    next none => simp [none]
  rw [both, agrees]
  simp only [agrees]
  exact ⟨fun ⟨pends, flies⟩ b small on => ⟨pends b small on, fun o op => flies o op b small on⟩,
    fun held => ⟨fun b small on => (held b small on).1, fun o op b small on => (held b small on).2 o op⟩⟩

/-- The three conditions of R103. -/
theorem pathSettled_iff (s : State) (p : Position) :
    s.pathSettled p = true ↔
      (∀ x ∈ s.alloc.records, x.pos = p →
        x.state ≠ .making ∧ ¬(x.state = .breaking ∧ x.breakRequested = true ∧ x.latched = true)) ∧
      ((s.filterOf p).image = (s.filterOf p).current ∧
        ∃ b, (s.freqOf p).band = some b ∧ (s.filterOf p).current = some (s.table.bands.get b).filter) ∧
      ∀ b, b < 256 → s.OnPath p b →
        s.chain.pending.getLsbD b = s.chain.latched.getLsbD b ∧
          ∀ o, s.chain.op = some o → o.image.getLsbD b = s.chain.latched.getLsbD b := by
  rw [← switching_eq_false_iff, ← filterSettled_iff, ← imagesAgree_iff, State.pathSettled, Bool.and_eq_true, Bool.and_eq_true,
    Bool.not_eq_true', and_assoc]

/-! ## The conditions of a judgment (R102) -/

theorem bandBusy_eq_false_iff (s : State) (p : Position) :
    s.bandBusy p = false ↔ ∀ q, s.onAir q = true → (s.freqOf q).band ≠ (s.freqOf p).band := by
  simp [State.bandBusy, mem_allPositions]

theorem harmonicConflict_eq_false_iff (s : State) (p : Position) :
    s.harmonicConflict p = false ↔ ∀ r, s.protectedFrom p r = true → s.harmonicTest p r = none := by
  simp [State.harmonicConflict, mem_allPositions]

/-- Condition 3 holds: a CONNECTED MAIN record whose route covers the position's band. -/
theorem lineReason_eq_none_iff (s : State) (p : Position) :
    s.lineReason p = none ↔ ∃ r b, s.connectedMain p = some r ∧ (s.freqOf p).band = some b ∧ s.covers r.route b = true := by
  unfold State.lineReason
  split
  next r connected =>
    split
    next none => simp [connected, none]
    next b band => simp [connected, band]
  next none =>
    split <;> simp [none]

/-- The line's own reasons are among the four of condition 3. -/
theorem lineReason_mem (s : State) (p : Position) {r : WaiterReason} (fails : s.lineReason p = some r) :
    r = .noBand ∨ r = .noCover ∨ r = .switching ∨ r = .noLine := by
  unfold State.lineReason at fails
  split at fails
  · split at fails
    · simp_all
    · split at fails <;> simp_all
  · split at fails <;> simp_all

theorem lineReason_eq_noBand_iff (s : State) (p : Position) :
    s.lineReason p = some .noBand ↔ (s.connectedMain p).isSome = true ∧ (s.freqOf p).band = none := by
  unfold State.lineReason
  split
  next r connected =>
    split
    next none => simp [connected, none]
    next b band => simp [connected, band]
  next none =>
    split <;> simp [none]

theorem lineReason_eq_noCover_iff (s : State) (p : Position) :
    s.lineReason p = some .noCover ↔
      ∃ r b, s.connectedMain p = some r ∧ (s.freqOf p).band = some b ∧ s.covers r.route b = false := by
  unfold State.lineReason
  split
  next r connected =>
    split
    next none => simp [connected, none]
    next b band => simp [connected, band]
  next none =>
    split <;> simp [none]

theorem lineReason_eq_noLine_iff (s : State) (p : Position) :
    s.lineReason p = some .noLine ↔
      s.connectedMain p = none ∧ ∀ r ∈ s.recordsOf p .main, r.state ≠ .pending ∧ r.state ≠ .making := by
  unfold State.lineReason
  split
  next r connected =>
    split
    next none => simp [connected]
    next b band => simp [connected]
  next none =>
    simp [none, not_or]

theorem lineReason_eq_switching (s : State) (p : Position) (none : s.connectedMain p = none)
    (made : ∃ r ∈ s.recordsOf p .main, r.state = .pending ∨ r.state = .making) : s.lineReason p = some .switching := by
  have any : ((s.recordsOf p .main).any fun r => r.state = .pending || r.state = .making) = true := by
    simpa using made
  simp only [State.lineReason, none, any, if_true]

/-- The judgment of a waiter outside safe state and PRESENT, once its line is judged (R102). -/
def State.judgePath (s : State) (p : Position) : Option WaiterReason :=
  if (s.freqOf p).outOfBand then some .outOfBand
  else if !s.pathSettled p then some .switching
  else if s.policy.k ≤ s.onAirCount then some .limit
  else if s.bandBusy p then some .bandBusy
  else if s.policy.harmonic = .block && s.harmonicConflict p then some .harmonic
  else none

theorem judge_of_safe {s : State} (safe : s.safe = true) (p : Position) : judge s p = some .safe := by
  simp [judge, safe]

theorem judge_of_absent {s : State} {p : Position} (safe : s.safe = false) (absent : s.present p = false) :
    judge s p = some .absent := by
  simp [judge, safe, absent]

theorem judge_of_present {s : State} {p : Position} (safe : s.safe = false) (present : s.present p = true) :
    judge s p = (s.lineReason p).or (s.judgePath p) := by
  simp only [judge, safe, present, State.judgePath]
  cases s.lineReason p <;> rfl

theorem judgePath_eq_none_iff (s : State) (p : Position) :
    s.judgePath p = none ↔ (s.freqOf p).outOfBand = false ∧ s.pathSettled p = true ∧ s.onAirCount < s.policy.k ∧
      (∀ q, s.onAir q = true → (s.freqOf q).band ≠ (s.freqOf p).band) ∧
      (s.policy.harmonic = .block → ∀ r, s.protectedFrom p r = true → s.harmonicTest p r = none) := by
  rw [← bandBusy_eq_false_iff, ← harmonicConflict_eq_false_iff, ← not_le]
  unfold State.judgePath
  cases (s.freqOf p).outOfBand <;> cases s.pathSettled p <;> by_cases limit : s.policy.k ≤ s.onAirCount <;>
    cases s.bandBusy p <;> by_cases block : s.policy.harmonic = .block <;> cases s.harmonicConflict p <;> simp [limit, block]

/-- Past condition 3 a judgment gives none of the reasons of the first three. -/
theorem judgePath_mem (s : State) (p : Position) {r : WaiterReason} (fails : s.judgePath p = some r) :
    r = .outOfBand ∨ r = .switching ∨ r = .limit ∨ r = .bandBusy ∨ r = .harmonic := by
  unfold State.judgePath at fails
  split_ifs at fails <;> simp_all

/-- A waiter is eligible exactly where the eight conditions hold (R102). -/
theorem judge_eq_none_iff (s : State) (p : Position) :
    judge s p = none ↔
      s.safe = false ∧ s.present p = true ∧
      (∃ r b, s.connectedMain p = some r ∧ (s.freqOf p).band = some b ∧ s.covers r.route b = true) ∧
      (s.freqOf p).outOfBand = false ∧ s.pathSettled p = true ∧ s.onAirCount < s.policy.k ∧
      (∀ q, s.onAir q = true → (s.freqOf q).band ≠ (s.freqOf p).band) ∧
      (s.policy.harmonic = .block → ∀ r, s.protectedFrom p r = true → s.harmonicTest p r = none) := by
  rw [← judgePath_eq_none_iff, ← lineReason_eq_none_iff]
  cases safe : s.safe with
  | true => simp [judge_of_safe safe]
  | false =>
    cases present : s.present p with
    | false => simp [judge_of_absent safe present]
    | true => simp [judge_of_present safe present]

theorem judge_eq_safe_iff (s : State) (p : Position) : judge s p = some .safe ↔ s.safe = true := by
  cases safe : s.safe with
  | true => simp [judge_of_safe safe]
  | false =>
    cases present : s.present p with
    | false => simp [judge_of_absent safe present]
    | true =>
      rw [judge_of_present safe present, Option.or_eq_some_iff]
      have line := lineReason_mem s p (r := .safe)
      have path := judgePath_mem s p (r := .safe)
      simp_all

theorem judge_eq_absent_iff (s : State) (p : Position) :
    judge s p = some .absent ↔ s.safe = false ∧ s.present p = false := by
  cases safe : s.safe with
  | true => simp [judge_of_safe safe]
  | false =>
    cases present : s.present p with
    | false => simp [judge_of_absent safe present]
    | true =>
      rw [judge_of_present safe present, Option.or_eq_some_iff]
      have line := lineReason_mem s p (r := .absent)
      have path := judgePath_mem s p (r := .absent)
      simp_all

/-- A reason that no condition past the third gives is that of condition 3. -/
theorem judge_eq_some_iff_lineReason {s : State} {p : Position} (safe : s.safe = false) (present : s.present p = true)
    (r : WaiterReason) (early : ∀ x, s.judgePath p = some x → x ≠ r) : judge s p = some r ↔ s.lineReason p = some r := by
  rw [judge_of_present safe present, Option.or_eq_some_iff, or_iff_left]
  rintro ⟨-, late⟩
  exact early r late rfl

/-- Settles O18: the settled path by its relays, and the judgment condition by condition. -/
theorem judgeIsTheEightConditions : Obligations.JudgeIsTheEightConditions := by
  refine ⟨pathSettled_iff, fun s p => ⟨judge_eq_none_iff s p, judge_eq_safe_iff s p, judge_eq_absent_iff s p,
    fun safe present => ?_⟩⟩
  have early (r : WaiterReason) (not : ¬(r = .outOfBand ∨ r = .switching ∨ r = .limit ∨ r = .bandBusy ∨ r = .harmonic)) :
      judge s p = some r ↔ s.lineReason p = some r :=
    judge_eq_some_iff_lineReason safe present r fun x fails same => not (same ▸ judgePath_mem s p fails)
  refine ⟨(early _ (by simp)).trans (lineReason_eq_noBand_iff s p), (early _ (by simp)).trans (lineReason_eq_noCover_iff s p),
    (early _ (by simp)).trans (lineReason_eq_noLine_iff s p), fun none made => ?_, fun covered => ?_⟩
  · rw [judge_of_present safe present, lineReason_eq_switching s p none made, Option.some_or]
  · have past : judge s p = s.judgePath p := by
      rw [judge_of_present safe present, (lineReason_eq_none_iff s p).2 covered, Option.none_or]
    rw [past]
    unfold State.judgePath
    refine ⟨fun out => by simp [out], fun inBand => ⟨fun moving => by simp [inBand, moving], fun settled => ⟨fun full => ?_,
      fun room => ⟨fun busy => ?_, fun free block conflict => ?_⟩⟩⟩⟩
    · simp [inBand, settled, full]
    · have busy' : s.bandBusy p = true := by simpa [State.bandBusy, mem_allPositions] using busy
      simp [inBand, settled, not_le.2 room, busy']
    · have free' := (bandBusy_eq_false_iff s p).2 free
      have conflict' : s.harmonicConflict p = true := by simpa [State.harmonicConflict, mem_allPositions] using conflict
      simp [inBand, settled, not_le.2 room, free', block, conflict']

end Sys2Proof.Machine
end

section
/-! The notices that a port is handed (R181, R182), the advisory evaluation (R126 to R128), and the arbiter run (R101). -/

namespace Sys2Proof.Machine

/-! ## Notices -/

theorem mem_queue_of_moved {ps : List Part} {s t : State} (moved : Moved ps s t) {p : Position} {f : Frame}
    (queued : f ∈ (s.link p).queue) : f ∈ (t.link p).queue :=
  (moved.links p).queue.subset queued

theorem link_sendFrame (p q : Position) (f : Frame) (s : State) :
    (sendFrame p f s).link q =
      if q = p then { s.link p with queue := (s.link p).queue ++ [f], sending := true } else s.link q :=
  link_mapLink _ _ _ _

/-- A notice to a PRESENT position whose queue then still takes notices has been queued. -/
theorem mem_notify {p : Position} {n : Notice} {s : State} (present : s.present p = true)
    (room : ((notify p n s).link p).queue.length < 6) : n.frame ∈ ((notify p n s).link p).queue := by
  by_cases small : (s.link p).queue.length < Config.noticeLimit
  · simp [notify, present, small, link_sendFrame]
  · have kept : ((notify p n s).link p).queue = (s.link p).queue := by
      unfold notify
      rw [if_pos present, if_neg small]
      cases n <;> simp
    rw [kept] at room
    exact absurd room small

/-- So it is, whatever the part does afterwards. -/
theorem mem_of_notify {p : Position} {n : Notice} {s t : State} {ps : List Part} (after : Moved ps (notify p n s) t)
    (present : s.present p = true) (room : (t.link p).queue.length < 6) : n.frame ∈ (t.link p).queue :=
  mem_queue_of_moved after (mem_notify present (lt_of_le_of_lt (after.links p).queue.length_le room))

/-! ## The advisory evaluation (R126 to R128) -/

theorem moved_beginEpisode_told (x : Position × Position) (s : State) : Moved [.links, .inbox] s (beginEpisode x s) := by
  unfold beginEpisode
  split
  · exact ((moved_notify _ _ _).trans (moved_notify _ _ _)).trans ((moved_raise _ _).mono (by decide))
  · exact .refl _ _

theorem mem_pairs_iff (x : Position × Position) : x ∈ pairs ↔ x.2 ≠ x.1 := by
  revert x; decide

theorem State.advisoryHolds_iff (s : State) (t r : Position) :
    s.advisoryHolds (t, r) = true ↔
      s.policy.harmonic ≠ .off ∧ s.onAir t = true ∧ r ≠ t ∧ s.present r = true ∧ (s.settingsOf r).protect = true ∧
        (s.freqOf r).rx.isSome = true ∧ (s.freqOf r).stale = false ∧ s.onAir r = false ∧ (s.harmonicTest t r).isSome = true := by
  simp [State.advisoryHolds, State.protectedFrom, and_assoc]

/-- The pairs whose episode an evaluation begins, in the order of R127. -/
def State.freshPairs (s : State) : List (Position × Position) :=
  (pairs.filter s.advisoryHolds).filter fun x => !s.advisory.contains x

theorem mem_freshPairs {s : State} {x : Position × Position} :
    x ∈ s.freshPairs ↔ (x ∈ pairs ∧ s.advisoryHolds x = true) ∧ x ∉ s.advisory := by
  simp [State.freshPairs]
  tauto

theorem evaluateAdvisories_eq (s : State) :
    evaluateAdvisories s = s.freshPairs.foldl (fun t x => beginEpisode x t) { s with advisory := pairs.filter s.advisoryHolds } :=
  rfl

theorem moved_episodes (xs : List (Position × Position)) (s : State) :
    Moved [.links, .inbox] s (xs.foldl (fun t x => beginEpisode x t) s) :=
  .foldl _ (fun t x => moved_beginEpisode_told x t) _ _

theorem advisory_evaluateAdvisories (s : State) : (evaluateAdvisories s).advisory = pairs.filter s.advisoryHolds := by
  rw [evaluateAdvisories_eq]
  exact (moved_episodes _ _).advisory (by decide)

/-- The occurrence of an episode (R128, R156). -/
def State.harmonicTx (s : State) (x : Position × Position) (n : Nat) : Occurrence :=
  { kind := .harmonicTx, pos := some x.1, line := s.transmitLine x.1, band := (s.freqOf x.1).band, detail := .harmonic x.2 n }

theorem beginEpisode_of_conflict {s : State} {x : Position × Position} {n m : Nat} (conflict : s.harmonicTest x.1 x.2 = some (n, m)) :
    beginEpisode x s = raise (s.harmonicTx x n) (notify x.2 (.harmonic x.1 x.2 n m) (notify x.1 (.harmonic x.1 x.2 n m) s)) := by
  simp only [beginEpisode, conflict, State.harmonicTx]

/-- An episode that begins is handed to the Fault Log. -/
theorem mem_inbox_beginEpisode {s : State} {x : Position × Position} {n m : Nat}
    (conflict : s.harmonicTest x.1 x.2 = some (n, m)) :
    LogEvent.occurred (s.harmonicTx x n) ∈ (beginEpisode x s).inbox := by
  simp [beginEpisode_of_conflict conflict]

/-- An episode that begins is told to its transmitter and to its receiver. -/
theorem mem_queue_beginEpisode {s : State} {x : Position × Position} {n m : Nat}
    (conflict : s.harmonicTest x.1 x.2 = some (n, m)) {q : Position} (named : q = x.1 ∨ q = x.2) (present : s.present q = true)
    (room : ((beginEpisode x s).link q).queue.length < 6) :
    (Notice.harmonic x.1 x.2 n m).frame ∈ ((beginEpisode x s).link q).queue := by
  rw [beginEpisode_of_conflict conflict] at room ⊢
  have after := moved_raise (s.harmonicTx x n) (notify x.2 (.harmonic x.1 x.2 n m) (notify x.1 (.harmonic x.1 x.2 n m) s))
  have first := moved_notify x.1 (.harmonic x.1 x.2 n m) s
  obtain rfl | rfl := named
  · exact mem_of_notify (((moved_notify _ _ _).trans (after.mono (by decide)))) present room
  · exact mem_of_notify after ((first.present _).trans present) room

theorem transmitLine_of_moved {s t : State} (moved : Moved [.links, .inbox] s t) (p : Position) :
    t.transmitLine p = s.transmitLine p := by
  simp only [State.transmitLine, State.recordsOf, moved.alloc (by decide)]

theorem freqOf_of_moved {ps : List Part} {s t : State} (moved : Moved ps s t) (kept : Part.freq ∉ ps) (p : Position) :
    t.freqOf p = s.freqOf p := by
  simp only [State.freqOf, moved.freq kept]

theorem policy_of_moved {ps : List Part} {s t : State} (moved : Moved ps s t) (kept : Part.table ∉ ps) :
    t.policy = s.policy := by
  simp only [State.policy, moved.table kept]

theorem harmonicTest_of_moved {ps : List Part} {s t : State} (moved : Moved ps s t) (freq : Part.freq ∉ ps) (table : Part.table ∉ ps)
    (p q : Position) : t.harmonicTest p q = s.harmonicTest p q := by
  simp only [State.harmonicTest, freqOf_of_moved moved freq, policy_of_moved moved table]

theorem harmonicTx_of_moved {s t : State} (moved : Moved [.links, .inbox] s t) (x : Position × Position) (n : Nat) :
    t.harmonicTx x n = s.harmonicTx x n := by
  simp only [State.harmonicTx, transmitLine_of_moved moved, freqOf_of_moved moved (by decide)]

/-- Settles O19: the flags are those of the pairs whose condition holds; a fresh pair's episode stands among the others, which only
add to inbox and queues; and without a fresh pair nothing is told. -/
theorem advisoryFlagsExact : Obligations.AdvisoryFlagsExact := by
  intro s t r
  refine ⟨?_, fun flagged unflagged => ?_, fun none => ?_⟩
  · rw [advisory_evaluateAdvisories, List.mem_filter, ← s.advisoryHolds_iff, and_iff_right_iff_imp, mem_pairs_iff]
    exact fun holds => ((s.advisoryHolds_iff t r).1 holds).2.2.1
  · rw [advisory_evaluateAdvisories, List.mem_filter] at flagged
    have conflicts : (s.harmonicTest t r).isSome = true := ((s.advisoryHolds_iff t r).1 flagged.2).2.2.2.2.2.2.2.2
    obtain ⟨⟨n, m⟩, conflict⟩ := Option.isSome_iff_exists.1 conflicts
    obtain ⟨front, back, split⟩ := List.append_of_mem (mem_freshPairs.2 ⟨flagged, unflagged⟩)
    let begun : State := { s with advisory := pairs.filter s.advisoryHolds }
    let u := front.foldl (fun t x => beginEpisode x t) begun
    have before : Moved [.links, .inbox] begun u := moved_episodes _ _
    have whole : evaluateAdvisories s = back.foldl (fun t x => beginEpisode x t) (beginEpisode (t, r) u) := by
      rw [evaluateAdvisories_eq, split, List.foldl_append, List.foldl_cons]
    have after : Moved [.links, .inbox] (beginEpisode (t, r) u) (evaluateAdvisories s) := whole ▸ moved_episodes _ _
    have conflict' : u.harmonicTest t r = some (n, m) :=
      (harmonicTest_of_moved before (by decide) (by decide) t r).trans conflict
    refine ⟨n, m, conflict, ?_, fun q named present room => ?_⟩
    · have told := mem_inbox_beginEpisode (x := (t, r)) conflict'
      rw [harmonicTx_of_moved before] at told
      exact after.inbox.subset told
    · exact mem_queue_of_moved after (mem_queue_beginEpisode (x := (t, r)) conflict' named ((before.present q).trans present)
        (lt_of_le_of_lt (after.links q).queue.length_le room))
  · have nothing : s.freshPairs = [] := by
      refine List.eq_nil_iff_forall_not_mem.2 fun x fresh => ?_
      obtain ⟨flagged, unflagged⟩ := mem_freshPairs.1 fresh
      exact unflagged (none x.1 x.2 (by rw [advisory_evaluateAdvisories]; exact List.mem_filter.2 flagged))
    rw [evaluateAdvisories_eq, nothing]
    rfl

/-! ## The arbiter run (R101) -/

theorem onAir_mapTx_reason (s : State) (p : Position) (r : Option WaiterReason) :
    (s.mapTx p fun x => { x with reason := r }).onAir = s.onAir := by
  funext q
  simp only [State.onAir, txOf_mapTx]
  split
  next same => subst same; rfl
  next => rfl

/-- A waiter's reason is no condition of a judgment. -/
@[simp] theorem judge_mapTx_reason (s : State) (p q : Position) (r : Option WaiterReason) :
    judge (s.mapTx p fun x => { x with reason := r }) q = judge s q := by
  simp only [judge, State.onAirCount, State.bandBusy, State.harmonicConflict, State.protectedFrom, onAir_mapTx_reason]
  rfl

theorem waiting_putOnAir (p : Position) (s : State) : (putOnAir p s).waiting = s.waiting.filter fun q => q ≠ p := rfl

theorem waiting_grant (p : Position) (s : State) : (grant p s).waiting = s.waiting.filter fun q => q ≠ p :=
  (moved_evaluateAdvisories (putOnAir p s)).waiting (by decide)

/-- A pass takes waiters off the waiting set and adds none. -/
theorem waiting_arbiterPass_sublist : ∀ (ps : List Position) (s : State), (arbiterPass ps s).1.waiting.Sublist s.waiting
  | [], s => List.Sublist.refl _
  | p :: ps, s => by
    unfold arbiterPass
    split
    · exact (waiting_arbiterPass_sublist ps _).trans (by rw [waiting_grant]; exact List.filter_sublist)
    · exact waiting_arbiterPass_sublist ps _

/-- A pass over waiters of the waiting set that grants one leaves fewer. -/
theorem length_waiting_of_granted : ∀ (ps : List Position) (s : State), (∀ p ∈ ps, p ∈ s.waiting) →
    (arbiterPass ps s).2 = true → (arbiterPass ps s).1.waiting.length < s.waiting.length
  | [], s, _, granted => by cases granted
  | p :: ps, s, waits, granted => by
    unfold arbiterPass at granted ⊢
    split
    next eligible =>
      refine lt_of_le_of_lt (waiting_arbiterPass_sublist ps _).length_le ?_
      rw [waiting_grant]
      exact List.length_filter_lt_length_iff_exists.2 ⟨p, waits p (by simp), by simp⟩
    next r held =>
      rw [held] at granted
      exact length_waiting_of_granted ps _ (fun q hq => waits q (by simp [hq])) granted

/-- A pass that grants nobody judges each of its waiters and leaves the judgment as the waiter's reason. -/
theorem arbiterPass_of_no_grant : ∀ (ps : List Position) (s : State), (arbiterPass ps s).2 = false →
    (∀ q, judge (arbiterPass ps s).1 q = judge s q) ∧
      (∀ q, q ∉ ps → ((arbiterPass ps s).1.txOf q).reason = (s.txOf q).reason) ∧
      ∀ q ∈ ps, ∃ r, judge s q = some r ∧ ((arbiterPass ps s).1.txOf q).reason = some r
  | [], s, _ => by simp [arbiterPass]
  | p :: ps, s, idle => by
    cases held : judge s p with
    | none => simp [arbiterPass, held] at idle
    | some r =>
      have pass : arbiterPass (p :: ps) s = arbiterPass ps (s.mapTx p fun x => { x with reason := some r }) := by
        simp [arbiterPass, held]
      rw [pass] at idle ⊢
      obtain ⟨judged, others, own⟩ := arbiterPass_of_no_grant ps _ idle
      simp only [judge_mapTx_reason] at judged own
      refine ⟨judged, fun q out => ?_, fun q named => ?_⟩
      · simp only [List.mem_cons, not_or] at out
        rw [others q out.2, txOf_mapTx, if_neg out.1]
      · by_cases later : q ∈ ps
        · exact own q later
        · obtain rfl : q = p := by simpa [later] using named
          exact ⟨r, held, by rw [others q later, txOf_mapTx, if_pos rfl]⟩

/-- Passes as many as waiters, and one more, end with one that grants nobody. -/
theorem arbiterPasses_settles (n : Nat) : ∀ s : State, s.waiting.length < n →
    ∀ p ∈ (arbiterPasses n s).waiting,
      ∃ r, judge (arbiterPasses n s) p = some r ∧ ((arbiterPasses n s).txOf p).reason = some r := by
  induction n with
  | zero => intro s few; omega
  | succ n ih =>
    intro s few
    have fewer := length_waiting_of_granted s.waiting s (fun _ => id)
    have settled := arbiterPass_of_no_grant s.waiting s
    have left := waiting_arbiterPass_sublist s.waiting s
    rw [arbiterPasses]
    generalize arbiterPass s.waiting s = pass at fewer settled left
    obtain ⟨t, granted⟩ := pass
    cases granted with
    | true => exact ih t (by have := fewer rfl; dsimp only at this; omega)
    | false =>
      obtain ⟨judged, -, own⟩ := settled rfl
      intro p waits
      obtain ⟨r, held, reason⟩ := own p (left.subset waits)
      exact ⟨r, (judged p).trans held, reason⟩

theorem length_le_of_nodup {ps : List Position} (once : ps.Nodup) : ps.length ≤ 6 := by
  simpa using once.length_le_card

/-- Settles O17: six waiters at most, and seven passes. -/
theorem arbiterLeavesNoEligibleWaiter : Obligations.ArbiterLeavesNoEligibleWaiter := by
  intro s once
  exact arbiterPasses_settles Config.arbiterPasses s (Nat.lt_succ_of_le (length_le_of_nodup once))

end Sys2Proof.Machine
end

section
/-! Requests that a port takes and answers (R175, R177, R178), and the close of a step that moves no path (R106, R141). -/

namespace Sys2Proof.Machine

/-! ## Taking a request -/

theorem whilePowered_takeRequest_of_offers {s : State} {p : Position} {f : Frame} {fits : Frame → Bool} {need : Frame → Nat}
    (offered : Offers s p f (need f)) (fit : fits f = true) (serve : Frame → State → State) :
    whilePowered (takeRequest p fits need serve) s = .next (freeSlot p (serve f s)) := by
  rw [whilePowered_of_powered _ offered.powered, takeRequest_of_offers offered fit]

theorem wholeStep_takeRequest_of_offers {s : State} {p : Position} {f : Frame} {fits : Frame → Bool} {need : Frame → Nat}
    (offered : Offers s p f (need f)) (fit : fits f = true) (serve : Frame → State → State) :
    wholeStep (takeRequest p fits need serve) s = .next (closeStep s (freeSlot p (serve f s))) := by
  rw [wholeStep_of_powered _ offered.powered, takeRequest_of_offers offered fit]

theorem freeSlot_answer (p : Position) (f : Frame) (c : Code) (s : State) :
    freeSlot p (answer p f c s) = s.answered p [f.reply c []] :=
  freeSlot_reply p f c [] s

/-- Frames queued one after another are queued together. -/
theorem foldl_sendFrame (p : Position) (fs : List Frame) (s : State) (some : fs ≠ []) :
    fs.foldl (fun t f => sendFrame p f t) s =
      s.mapLink p fun x => { x with queue := x.queue ++ fs, sending := true } := by
  induction fs generalizing s with
  | nil => exact absurd rfl some
  | cons f fs ih =>
    rw [List.foldl_cons]
    cases fs with
    | nil => rfl
    | cons g fs =>
      rw [ih _ (by simp), sendFrame, mapLink_mapLink]
      simp

theorem freeSlot_foldl_sendFrame (p : Position) (fs : List Frame) (s : State) (some : fs ≠ []) :
    freeSlot p (fs.foldl (fun t f => sendFrame p f t) s) = s.answered p fs := by
  rw [foldl_sendFrame p fs s some, freeSlot, mapLink_mapLink, policy_mapLink]
  simp only [List.drop_one]
  rfl

theorem splitParts_ne_nil (n : Nat) (bs : List Byte) : splitParts (n + 1) bs ≠ [] := by
  unfold splitParts
  split <;> simp

theorem partFrames_ne_nil (k : Byte) (c : Code) (d : List Byte) : partFrames k c d ≠ [] := by
  simpa [partFrames, Config.maxReplyFrames] using splitParts_ne_nil 3 d

theorem freeSlot_replyParts (p : Position) (f : Frame) (c : Code) (d : List Byte) (s : State) :
    freeSlot p (replyParts p f.kind c d s) = s.answered p (partFrames f.kind c d) :=
  freeSlot_foldl_sendFrame p _ s (partFrames_ne_nil _ _ _)

/-! ## The close of a step -/

/-- A step that leaves the transmit records leaves every path as quiet as it was. -/
theorem deliverQuiet_of_tx {b s : State} (same : s.tx = b.tx) : deliverQuiet b s = s := by
  have none : newlyQuiet b [] s = none := by
    have quiet : s.pathQuiet = b.pathQuiet := by
      funext p
      simp only [State.pathQuiet, State.txOf, same]
    simp [newlyQuiet, List.find?_eq_none, quiet]
  simp [deliverQuiet, quietEvents, none, allPositions]

theorem closeStep_of_tx {b s : State} (tx : s.tx = b.tx) (ready : s.store.ready = b.store.ready) :
    closeStep b s = startRule s := by
  rw [closeStep, watchPin_same b s ready, deliverQuiet_of_tx tx]

theorem closeStep_answered (p : Position) (fs : List Frame) (s : State) :
    closeStep s (s.answered p fs) = startRule (s.answered p fs) :=
  closeStep_of_tx rfl rfl

/-! ## Bytes and numbers (R185) -/

@[simp] theorem toNat_byte (n : Nat) : (byte n).toNat = n % 256 := rfl

theorem below_eq_some {n v : Nat} (small : v < n) : below n v = some ⟨v, small⟩ := dif_pos small

theorem below_eq_none {n v : Nat} (large : n ≤ v) : below n v = none := dif_neg (not_lt.2 large)

@[simp] theorem below_byte {n : Nat} (i : Fin n) (few : n ≤ 256) : below n (byte i.val).toNat = some i := by
  have small : (byte i.val).toNat = i.val := Nat.mod_eq_of_lt (by omega)
  rw [small, below_eq_some i.isLt]

theorem ofBigEndian_append (xs : List Byte) (b : Byte) : ofBigEndian (xs ++ [b]) = ofBigEndian xs * 256 + b.toNat := by
  simp [ofBigEndian]

/-- A number's bytes spell the number, as far as they reach. -/
theorem ofBigEndian_bigEndian (n v : Nat) : ofBigEndian (bigEndian n v) = v % 256 ^ n := by
  induction n generalizing v with
  | zero => simp [bigEndian, ofBigEndian, Nat.mod_one]
  | succ n ih =>
    rw [bigEndian, ofBigEndian_append, ih, pow_succ, mul_comm (256 ^ n), Nat.mod_mul]
    simp only [BitVec.toNat_ofNat]
    omega

@[simp] theorem length_bigEndian (n v : Nat) : (bigEndian n v).length = n := by
  induction n generalizing v with
  | zero => rfl
  | succ n ih => simp [bigEndian, ih]

@[simp] theorem flagOf_toNat_flag (b : Bool) : flagOf (flag b).toNat = some b := by
  cases b <;> rfl

theorem flagOf_eq_none {n : Nat} (large : 2 ≤ n) : flagOf n = none := by
  obtain ⟨k, rfl⟩ := Nat.exists_eq_add_of_le' large
  rfl

theorem byteAt_drop (bs : List Byte) (i j : Nat) : byteAt (bs.drop i) j = byteAt bs (i + j) := by
  simp [byteAt, List.getD_eq_getElem?_getD, List.getElem?_drop]

/-! ## FAULT_READ (R165, R185) -/

theorem exec_faultRead_of_offers {s : State} {p : Position} {f : Frame} (offered : Offers s p f (faultReadFrames f))
    (kind : f.kind = 0x0C) : exec (.faultRead p) s = .next (freeSlot p (serveFaultRead p f s)) :=
  whilePowered_takeRequest_of_offers offered (by simp [isKind, kind, kindFaultRead]) _

theorem length_logRecordBytes (r : Option LogRecord) : (logRecordBytes r).length = 12 := by
  cases r with
  | none => rfl
  | some r => cases d : r.occ.detail <;> simp [logRecordBytes, Detail.bytes, d]

theorem length_bytes (l : FaultLog) : l.bytes.length = 48 := by
  simp [FaultLog.bytes, length_logRecordBytes]

/-- Data of more than one part and at most two go out in two parts. -/
theorem partFrames_of_two (f : Frame) (c : Code) (d : List Byte) (more : 30 < d.length) (most : d.length ≤ 60) :
    partFrames f.kind c d = [f.reply c (0x12 :: d.take 30), f.reply c (0x22 :: d.drop 30)] := by
  have parts : splitParts Config.maxReplyFrames d = [d.take 30, d.drop 30] := by
    simp [splitParts, Config.maxReplyFrames, Config.partBytes, not_le.2 more]
    omega
  simp only [partFrames, parts]
  rfl

/-- Settles O27: the 48 bytes in two parts, and one frame where a payload is refused. -/
theorem faultReadReports : Obligations.FaultReadReports := by
  refine ⟨fun s p f offered kind empty => ?_, fun s p f offered kind payload => ?_, fun l => ⟨rfl, length_bytes l⟩⟩
  · rw [exec_faultRead_of_offers (by simpa [faultReadFrames, empty] using offered) kind]
    simp only [serveFaultRead, empty, if_true]
    rw [freeSlot_replyParts, partFrames_of_two _ _ _ (by rw [length_bytes]; decide) (by rw [length_bytes]; decide)]
  · rw [exec_faultRead_of_offers (by simpa [faultReadFrames, payload] using offered) kind]
    simp only [serveFaultRead, payload, if_false, refuseParts]
    rw [freeSlot_reply]

/-! ## TABLE_READ (R4, R186) -/

theorem exec_tableRead_of_offers {s : State} {p : Position} {f : Frame} (offered : Offers s p f 1) (kind : f.kind = 0x09) :
    exec (.tableRead p) s = .next (freeSlot p (serveTableRead p f s)) :=
  whilePowered_takeRequest_of_offers (need := fun _ => 1) offered (by simp [isKind, kind, kindTableRead]) _

theorem indexBytes_of_ge {n : Nat} (large : 8 ≤ n) : indexBytes n = none := by
  obtain ⟨k, rfl⟩ := Nat.exists_eq_add_of_le' large
  rfl

theorem indexBytes_of_lt {b : Byte} (small : b.toNat < 8) :
    indexBytes b.toNat = some (if b = 4 then 3 else if b = 5 then 0 else 1) := by
  have cases : b = 0 ∨ b = 1 ∨ b = 2 ∨ b = 3 ∨ b = 4 ∨ b = 5 ∨ b = 6 ∨ b = 7 := by bv_omega
  obtain rfl | rfl | rfl | rfl | rfl | rfl | rfl | rfl := cases <;> rfl

/-- A read of an entry that stands in the table, by its subject and its index bytes. -/
theorem serveTableRead_of_entry {p : Position} {f : Frame} {b : Byte} {bs d : List Byte} (payload : f.payload = b :: bs)
    (length : indexBytes b.toNat = some bs.length) {s : State} (entry : s.table.entryBytes b.toNat bs = some d) :
    serveTableRead p f s = reply p f.kind .ok d s := by
  simp [serveTableRead, payload, length, entry]

theorem serveTableRead_of_noEntry {p : Position} {f : Frame} {b : Byte} {bs : List Byte} (payload : f.payload = b :: bs)
    (length : indexBytes b.toNat = some bs.length) {s : State} (entry : s.table.entryBytes b.toNat bs = none) :
    serveTableRead p f s = answer p f .badIndex s := by
  simp [serveTableRead, payload, length, entry]

theorem portKindOf_code (k : PortKind) : portKindOf k.code = some k := by
  cases k <;> rfl

theorem faultKindOf_number (k : FaultKind) : faultKindOf k.number = some k := by
  cases k <;> rfl

theorem faultKindOf_eq_none {n : Nat} (out : n = 0 ∨ 12 ≤ n) : faultKindOf n = none := by
  obtain rfl | large := out
  · rfl
  · have beyond : faultKinds.length ≤ n - 1 := by show 11 ≤ n - 1; omega
    simp [faultKindOf, beyond, show n ≠ 0 by omega]

theorem ringAt_bytes (p : Position) (b : Band) (k : PortKind) (rest : List Byte) :
    ringAt (byte p.val :: byte b.val :: byte k.code :: rest) = some (p, b, k) := by
  have code : (byte k.code).toNat = k.code := by cases k <;> rfl
  simp [ringAt, byteAt, -toNat_byte, code, portKindOf_code]

theorem ringAt_eq_none {bs : List Byte} (out : 6 ≤ byteAt bs 0 ∨ 12 ≤ byteAt bs 1 ∨ 2 ≤ byteAt bs 2) : ringAt bs = none := by
  unfold ringAt
  by_cases hp : 6 ≤ byteAt bs 0
  · simp [below_eq_none hp]
  · by_cases hb : 12 ≤ byteAt bs 1
    · simp [below_eq_none hb]
    · have hk : portKindOf (byteAt bs 2) = none := by
        obtain ⟨k, hk⟩ := Nat.exists_eq_add_of_le' (show 2 ≤ byteAt bs 2 by omega)
        rw [hk]
        rfl
      simp [hk]

/-- Settles O26: the entry by subject and index, and each refusal by the test that it fails. -/
theorem tableReadAnswers : Obligations.TableReadAnswers := by
  intro s p f b bs offered kind payload answers
  have of_serve {c : Code} {d : List Byte} (served : serveTableRead p f s = reply p f.kind c d s) : answers c d := by
    show exec _ _ = _
    rw [exec_tableRead_of_offers offered kind, served, freeSlot_reply]
  have entry {d : List Byte} (length : indexBytes b.toNat = some bs.length) (found : s.table.entryBytes b.toNat bs = some d) :
      answers .ok d := of_serve (serveTableRead_of_entry payload length found)
  have noEntry (length : indexBytes b.toNat = some bs.length) (found : s.table.entryBytes b.toNat bs = none) :
      answers .badIndex [] := of_serve (serveTableRead_of_noEntry payload length found)
  refine ⟨fun large => of_serve (by simp [serveTableRead, payload, indexBytes_of_ge large, answer]), fun small length => of_serve ?_,
    fun i hb hbs => entry (by subst hb hbs; rfl) ?_, fun i hb hbs => entry (by subst hb hbs; rfl) ?_,
    fun i hb hbs => entry (by subst hb hbs; rfl) ?_, fun i hb hbs => entry (by subst hb hbs; rfl) ?_,
    fun q i k hb hbs => entry (by subst hb hbs; rfl) ?_, fun hb hbs => entry (by subst hb hbs; rfl) (by subst hb; rfl),
    fun q hb hbs => entry (by subst hb hbs; rfl) ?_, fun k hb hbs => entry (by subst hb hbs; rfl) ?_,
    fun n hbs out => noEntry ?_ ?_, fun x y z hb hbs out => noEntry (by subst hb hbs; rfl) ?_⟩
  case refine_1 =>
    unfold serveTableRead
    rw [payload]
    simp only [indexBytes_of_lt small, if_pos length]
    rfl
  case refine_6 =>
    subst hb hbs
    exact congrArg (Option.map _) (ringAt_bytes q i k [])
  case refine_8 =>
    subst hb hbs
    have number : (byte k.number).toNat = k.number := by cases k <;> rfl
    exact congrArg (Option.map _) ((congrArg faultKindOf number).trans (faultKindOf_number k))
  case refine_9 =>
    subst hbs
    obtain ⟨rfl, -⟩ | ⟨rfl, -⟩ | ⟨rfl, -⟩ | ⟨rfl, -⟩ | ⟨rfl, -⟩ | ⟨rfl, -⟩ := out <;> rfl
  case refine_10 =>
    subst hbs
    obtain ⟨rfl, out⟩ | ⟨rfl, out⟩ | ⟨rfl, out⟩ | ⟨rfl, out⟩ | ⟨rfl, out⟩ | ⟨rfl, out⟩ := out
    case inr.inr.inr.inr.inr =>
      have out' : n.toNat = 0 ∨ 12 ≤ n.toNat := out.imp_left fun zero => by simp [zero]
      exact congrArg (Option.map _) (faultKindOf_eq_none out')
    all_goals exact congrArg (Option.map _) (below_eq_none out)
  case refine_11 =>
    subst hb hbs
    exact congrArg (Option.map _) (ringAt_eq_none (bs := [x, y, z]) out)
  all_goals
    subst hb hbs
    exact congrArg (Option.map _) (below_byte _ (by decide))

end Sys2Proof.Machine
end

section
/-! TABLE_WRITE: the tests of R2, and the writes of feed lines, elements, routes, rings and fault configurations (chapter 1). -/

namespace Sys2Proof.Machine

/-! ## The tests of R2 -/

/-- The test of a row's payload length. -/
def writeSize : Fin 8 → List Byte → Bool
  | 0 => hasLength 15
  | 1 => hasLength 5
  | 2 => hasLength 6
  | 3 => hasLength 15
  | 4 => ringSize
  | 5 => hasLength 14
  | 6 => hasLength 6
  | 7 => hasLength 5

/-- A row's part from the index test on. -/
def writeAccept : Fin 8 → Position → Frame → List Byte → State → State
  | 0 => acceptBand
  | 1 => acceptLine
  | 2 => acceptElement
  | 3 => acceptRoute
  | 4 => acceptRing
  | 5 => acceptPolicy
  | 6 => acceptSettings
  | 7 => acceptFault

theorem writeSize_iff (k : Fin 8) (bs : List Byte) : writeSize k bs = true ↔ bs.length = writeLength bs k := by
  match k with
  | 0 | 1 | 2 | 3 | 5 | 6 | 7 => exact decide_eq_true_iff
  | 4 =>
    show ringSize bs = true ↔ bs.length = 4 + byteAt bs 3
    simp only [ringSize, Bool.and_eq_true, decide_eq_true_eq, and_iff_right_iff_imp]
    omega

/-- The rows of band and policy close their step as a whole; the others end with their reply. -/
theorem exec_writeCommand_of_offers {s : State} {p : Position} {f : Frame} (offered : Offers s p f 1) (k : Fin 8)
    (fit : writeFits k.val f = true) :
    exec (writeCommand p k) s = .next (
      if k = 0 ∨ k = 5 then closeStep s (freeSlot p (serveWrite (writeSize k) (writeAccept k) p f s))
      else freeSlot p (serveWrite (writeSize k) (writeAccept k) p f s)) := by
  match k with
  | 0 | 5 => exact wholeStep_takeRequest_of_offers (need := fun _ => 1) offered fit _
  | 1 | 2 | 3 | 4 | 6 | 7 => exact whilePowered_takeRequest_of_offers (need := fun _ => 1) offered fit _

/-- A write that is refused changes nothing but its port. -/
theorem exec_writeCommand_of_refused {s : State} {p : Position} {f : Frame} (offered : Offers s p f 1) {k : Fin 8} {c : Code}
    (fit : writeFits k.val f = true) (refused : serveWrite (writeSize k) (writeAccept k) p f s = answer p f c s) :
    exec (writeCommand p k) s = .next (if k = 0 ∨ k = 5 then startRule (s.answered p [f.reply c []])
                                       else s.answered p [f.reply c []]) := by
  rw [exec_writeCommand_of_offers offered k fit, refused, freeSlot_answer, closeStep_answered]

theorem writeFits_nil {f : Frame} (kind : f.kind = 0x0A) (empty : f.payload = []) (n : Nat) : writeFits n f = true := by
  simp [writeFits, kind, kindTableWrite, empty]

theorem writeFits_cons {f : Frame} (kind : f.kind = 0x0A) {b : Byte} {bs : List Byte} (payload : f.payload = b :: bs) {n : Nat}
    (names : b.toNat = n ∨ 8 ≤ b.toNat) : writeFits n f = true := by
  simpa [writeFits, kind, kindTableWrite, payload] using names

/-- A write that passes the first four tests comes to its subject's own. -/
theorem serveWrite_of_open {s : State} (writable : s.WritesOpen) {f : Frame} {k : Fin 8} {b : Byte} {bs : List Byte}
    (payload : f.payload = b :: bs) (subject : b.toNat = k.val) (length : bs.length = writeLength bs k) (p : Position) :
    serveWrite (writeSize k) (writeAccept k) p f s = writeAccept k p f bs s := by
  obtain ⟨unlocked, idle⟩ := writable
  have size := (writeSize_iff k bs).2 length
  simp [serveWrite, payload, size, unlocked, idle, show ¬8 ≤ b.toNat by omega]

/-! ## Fields outside their sets -/

theorem lineKindOf_eq_none {n : Nat} (large : 2 ≤ n) : lineKindOf n = none := by
  obtain ⟨k, rfl⟩ := Nat.exists_eq_add_of_le' large
  rfl

theorem harmonicPolicyOf_eq_none {n : Nat} (large : 3 ≤ n) : harmonicPolicyOf n = none := by
  obtain ⟨k, rfl⟩ := Nat.exists_eq_add_of_le' large
  rfl

theorem lockModeOf_eq_none {n : Nat} (large : 2 ≤ n) : lockModeOf n = none := by
  obtain ⟨k, rfl⟩ := Nat.exists_eq_add_of_le' large
  rfl

theorem severityOf_eq_none {n : Nat} (large : 3 ≤ n) : severityOf n = none := by
  obtain ⟨k, rfl⟩ := Nat.exists_eq_add_of_le' large
  rfl

theorem alarmLineOf_eq_none {n : Nat} (large : 2 ≤ n) : alarmLineOf n = none := by
  obtain ⟨k, rfl⟩ := Nat.exists_eq_add_of_le' large
  rfl

theorem optPositionOf_eq_none {n : Nat} (low : 6 ≤ n) (high : n ≤ 254) : optPositionOf n = none := by
  rw [optPositionOf, if_neg (by omega), below_eq_none low, Option.map_none]

theorem bandOf_eq_none {bs : List Byte} (out : 8 ≤ byteAt bs 6 ∨ 2 ≤ byteAt bs 13) : bandOf bs = none := by
  obtain out | out := out
  · simp [bandOf, below_eq_none out]
  · simp [bandOf, flagOf_eq_none out]

theorem lineEntryOf_eq_none {bs : List Byte}
    (out : 2 ≤ byteAt bs 0 ∨ (6 ≤ byteAt bs 2 ∧ byteAt bs 2 ≤ 254) ∨ 2 ≤ byteAt bs 3) : lineEntryOf bs = none := by
  obtain out | ⟨low, high⟩ | out := out
  · simp [lineEntryOf, lineKindOf_eq_none out]
  · simp [lineEntryOf, optPositionOf_eq_none low high]
  · simp [lineEntryOf, flagOf_eq_none out]

theorem elementOf_eq_none {bs : List Byte} (out : 16 ≤ byteAt bs 0 ∨ 4 ≤ byteAt bs 1 ∨ 2 ≤ byteAt bs 4) : elementOf bs = none := by
  obtain out | out | out := out
  · simp [elementOf, below_eq_none out]
  · simp [elementOf, below_eq_none out]
  · simp [elementOf, flagOf_eq_none out]

theorem elementsOf_eq_none {xs : List Byte} (out : ∃ b ∈ xs, 32 ≤ b.toNat ∧ b.toNat ≤ 254) : elementsOf xs = none := by
  induction xs with
  | nil => simp at out
  | cons b bs ih =>
    obtain ⟨low, high⟩ | later := List.exists_mem_cons_iff .. |>.1 out
    · have used : b ≠ noneByte := by rintro rfl; exact absurd high (by decide)
      simp [elementsOf, used, below_eq_none low]
    · simp [elementsOf, ih later]

theorem routeEntryOf_eq_none {bs : List Byte}
    (out : 16 ≤ byteAt bs 0 ∨ (∃ b ∈ field bs 1 4, 32 ≤ b.toNat ∧ b.toNat ≤ 254) ∨ 2 ≤ byteAt bs 13) :
    routeEntryOf bs = none := by
  obtain out | out | out := out
  · simp [routeEntryOf, below_eq_none out]
  · simp [routeEntryOf, elementsOf_eq_none out]
  · simp [routeEntryOf, flagOf_eq_none out]

theorem routesOf_eq_none {xs : List Byte} (out : ∃ b ∈ xs, 48 ≤ b.toNat) : routesOf xs = none := by
  induction xs with
  | nil => simp at out
  | cons b bs ih =>
    obtain large | later := List.exists_mem_cons_iff .. |>.1 out
    · simp [routesOf, below_eq_none large]
    · simp [routesOf, ih later]

theorem policyOf_eq_none {bs : List Byte} (out : 3 ≤ byteAt bs 11 ∨ 2 ≤ byteAt bs 13) : policyOf bs = none := by
  obtain out | out := out
  · simp [policyOf, harmonicPolicyOf_eq_none out]
  · simp [policyOf, lockModeOf_eq_none out]

theorem settingsEntryOf_eq_none {bs : List Byte} (out : 2 ≤ byteAt bs 1) : settingsEntryOf bs = none := by
  simp [settingsEntryOf, flagOf_eq_none out]

theorem faultEntryOf_eq_none {bs : List Byte}
    (out : 2 ≤ byteAt bs 0 ∨ 2 ≤ byteAt bs 1 ∨ 3 ≤ byteAt bs 2 ∨ 2 ≤ byteAt bs 3) : faultEntryOf bs = none := by
  obtain out | out | out | out := out
  · simp [faultEntryOf, flagOf_eq_none out]
  · simp [faultEntryOf, flagOf_eq_none out]
  · simp [faultEntryOf, severityOf_eq_none out]
  · simp [faultEntryOf, alarmLineOf_eq_none out]

theorem faultKindOf_eq_some {n : Nat} (low : n ≠ 0) (high : n < 12) : ∃ k, faultKindOf n = some k := by
  interval_cases n <;> first | exact absurd rfl low | exact ⟨_, rfl⟩

theorem portKindOf_eq_some {n : Nat} (small : n < 2) : ∃ k, portKindOf n = some k := by
  interval_cases n <;> exact ⟨_, rfl⟩

theorem ringAt_eq_some {bs : List Byte} (p : byteAt bs 0 < 6) (b : byteAt bs 1 < 12) (k : byteAt bs 2 < 2) :
    ∃ x, ringAt bs = some x := by
  obtain ⟨kind, named⟩ := portKindOf_eq_some k
  exact ⟨_, by simp [ringAt, below_eq_some p, below_eq_some b, named]; rfl⟩

theorem byteAt_mem_field {bs : List Byte} {i n k : Nat} (low : k ≤ i) (high : i < k + n) (inside : i < bs.length) :
    ∃ b ∈ field bs k n, b.toNat = byteAt bs i := by
  refine ⟨bs[i], ?_, by simp [byteAt, inside]⟩
  rw [field, List.mem_iff_getElem?]
  refine ⟨i - k, ?_⟩
  rw [List.getElem?_take_of_lt (by omega), List.getElem?_drop, Nat.add_sub_cancel' low, List.getElem?_eq_getElem inside]

/-- Settles O28: the first four tests for every row, then the index and the fields row by row. -/
theorem writeTests : Obligations.WriteTests := by
  constructor
  · intro s p f k offered kind answers
    have refused {c : Code} (fit : writeFits k.val f = true)
        (served : serveWrite (writeSize k) (writeAccept k) p f s = answer p f c s) : answers c :=
      exec_writeCommand_of_refused offered fit served
    refine ⟨fun empty => refused (writeFits_nil kind empty _) (by simp [serveWrite, empty]), fun b bs payload => ?_⟩
    have fit (names : b.toNat = k.val ∨ 8 ≤ b.toNat) : writeFits k.val f = true := writeFits_cons kind payload names
    have size := writeSize_iff k bs
    refine ⟨fun large => refused (fit (.inr large)) (by simp [serveWrite, payload, large]), fun subject length => ?_,
      fun subject length locked => ?_, fun subject length unlocked saving => ?_⟩
    · have wrong : writeSize k bs = false := by rwa [← Bool.not_eq_true, size]
      exact refused (fit (.inl subject)) (by simp [serveWrite, payload, wrong, show ¬8 ≤ b.toNat by omega])
    · exact refused (fit (.inl subject))
        (by simp [serveWrite, payload, size.2 length, locked, show ¬8 ≤ b.toNat by omega])
    · exact refused (fit (.inl subject))
        (by simp [serveWrite, payload, size.2 length, unlocked, saving, show ¬8 ≤ b.toNat by omega])
  · intro s p f k bs offered writable kind payload length answers outside unset
    have subject : (byte k.val).toNat = k.val := Nat.mod_eq_of_lt (by omega)
    have refused {c : Code} (accepted : writeAccept k p f bs s = answer p f c s) : answers c :=
      exec_writeCommand_of_refused offered (writeFits_cons kind payload (.inl subject))
        ((serveWrite_of_open writable payload subject length p).trans accepted)
    have next (i : Nat) : byteAt (bs.drop 1) i = byteAt bs (i + 1) := (byteAt_drop bs 1 i).trans (by rw [add_comm])
    constructor
    · intro out
      simp only [outside] at out
      apply refused
      clear refused answers outside unset subject
      match k, out with
      | 0, out => simp [writeAccept, acceptBand, below_eq_none (show 12 ≤ byteAt bs 0 from out)]
      | 1, out => simp [writeAccept, acceptLine, below_eq_none (show 16 ≤ byteAt bs 0 from out)]
      | 2, out => simp [writeAccept, acceptElement, below_eq_none (show 32 ≤ byteAt bs 0 from out)]
      | 3, out => simp [writeAccept, acceptRoute, below_eq_none (show 48 ≤ byteAt bs 0 from out)]
      | 4, out => simp [writeAccept, acceptRing, ringAt_eq_none (bs := bs) out]
      | 5, out => exact False.elim out
      | 6, out => simp [writeAccept, acceptSettings, below_eq_none (show 6 ≤ byteAt bs 0 from out)]
      | 7, out => simp [writeAccept, acceptFault, faultKindOf_eq_none (n := byteAt bs 0) out]
    · intro inside out
      simp only [outside] at inside
      simp only [unset] at out
      apply refused
      clear refused answers outside unset subject
      match k, length, inside, out with
      | 0, length, inside, out =>
        have index := below_eq_some (not_le.1 inside : byteAt bs 0 < 12)
        have entry := bandOf_eq_none (bs := bs.drop 1) (by rw [next, next]; exact out)
        simp [writeAccept, acceptBand, index, ← List.drop_one, entry]
      | 1, length, inside, out =>
        have index := below_eq_some (not_le.1 inside : byteAt bs 0 < 16)
        have entry := lineEntryOf_eq_none (bs := bs.drop 1) (by rw [next, next, next]; exact out)
        simp [writeAccept, acceptLine, index, ← List.drop_one, entry]
      | 2, length, inside, out =>
        have index := below_eq_some (not_le.1 inside : byteAt bs 0 < 32)
        have entry := elementOf_eq_none (bs := bs.drop 1) (by rw [next, next, next]; exact out)
        simp [writeAccept, acceptElement, index, ← List.drop_one, entry]
      | 3, length, inside, out =>
        have index := below_eq_some (not_le.1 inside : byteAt bs 0 < 48)
        have entry := routeEntryOf_eq_none (bs := bs.drop 1) (by
          rw [next, next]
          refine Or.imp_right (Or.imp_left ?_) out
          rintro ⟨i, low, high, large, small⟩
          have length' : bs.length = 15 := length
          obtain ⟨b, hb, hi⟩ := byteAt_mem_field (bs := bs.drop 1) (i := i - 1) (n := 4) (k := 1) (by omega) (by omega)
            (by rw [List.length_drop]; omega)
          rw [next, Nat.sub_add_cancel (by omega)] at hi
          exact ⟨b, hb, by omega, by omega⟩)
        simp [writeAccept, acceptRoute, index, ← List.drop_one, entry]
      | 4, length, inside, out =>
        have inside' : ¬(6 ≤ byteAt bs 0 ∨ 12 ≤ byteAt bs 1 ∨ 2 ≤ byteAt bs 2) := inside
        simp only [not_or, not_le] at inside'
        obtain ⟨x, index⟩ := ringAt_eq_some inside'.1 inside'.2.1 inside'.2.2
        have entry := routesOf_eq_none (xs := bs.drop 4) out
        simp [writeAccept, acceptRing, index, entry]
      | 5, length, inside, out => simp [writeAccept, acceptPolicy, policyOf_eq_none (bs := bs) out]
      | 6, length, inside, out =>
        have index := below_eq_some (not_le.1 inside : byteAt bs 0 < 6)
        have entry := settingsEntryOf_eq_none (bs := bs.drop 1) (by rw [next]; exact out)
        simp [writeAccept, acceptSettings, index, ← List.drop_one, entry]
      | 7, length, inside, out =>
        have inside' : ¬(byteAt bs 0 = 0 ∨ 12 ≤ byteAt bs 0) := inside
        simp only [not_or, not_le] at inside'
        obtain ⟨x, index⟩ := faultKindOf_eq_some inside'.1 inside'.2
        have entry := faultEntryOf_eq_none (bs := bs.drop 1) (by rw [next, next, next, next]; exact out)
        simp [writeAccept, acceptFault, index, ← List.drop_one, entry]

end Sys2Proof.Machine
end

section
/-! The writes of feed lines, elements, routes, rings and fault configurations (sections 1.3 to 1.6 and 1.10). -/

namespace Sys2Proof.Machine

/-! ## A write that is taken -/

/-- What a row's write comes to, whose payload names its subject and has its length (R2). -/
theorem exec_write_of_open {s : State} {p : Position} {f : Frame} (offered : Offers s p f 1) (writable : s.WritesOpen)
    (kind : f.kind = 0x0A) (k : Fin 8) {bs : List Byte} (payload : f.payload = byte k.val :: bs)
    (length : bs.length = writeLength bs k) :
    exec (writeCommand p k) s = .next (
      if k = 0 ∨ k = 5 then closeStep s (freeSlot p (writeAccept k p f bs s)) else freeSlot p (writeAccept k p f bs s)) := by
  have subject : (byte k.val).toNat = k.val := Nat.mod_eq_of_lt (by omega)
  rw [exec_writeCommand_of_offers offered k (writeFits_cons kind payload (.inl subject)),
    serveWrite_of_open writable payload subject length]

/-- A reply behind a change of the table that keeps the policy. -/
theorem freeSlot_answer_mapTable (p : Position) (f : Frame) (c : Code) (g : Table → Table) (s : State)
    (policy : (g s.table).policy = s.table.policy) :
    freeSlot p (answer p f c (s.mapTable g)) = { s.answered p [f.reply c []] with table := g s.table } := by
  rw [freeSlot_answer, State.answered, State.policy, mapTable_table, policy]
  rfl

/-- A write in three ways: INVALID where its entry is inconsistent, BUSY where it is in use, and else stored, with OK. -/
theorem write_trichotomy {s t : State} {p : Position} {f : Frame} {valid busy : Bool} {consistent unused : Prop} {g : Table → Table}
    (valid_iff : valid = true ↔ consistent) (busy_iff : busy = false ↔ unused) (policy : (g s.table).policy = s.table.policy)
    {o : Host.Outcome State Fault Refusal}
    (outcome : o = .next (freeSlot p (
      if !valid then answer p f .invalid s else if busy then answer p f .busy s else answer p f .ok (s.mapTable g)))) :
    (¬consistent → o = .next (s.answered p [f.reply .invalid []])) ∧
    (consistent → ¬unused → o = .next (s.answered p [f.reply .busy []])) ∧
    (consistent → unused → o = .next { s.answered p [f.reply .ok []] with table := g s.table }) := by
  rw [outcome, ← valid_iff, ← busy_iff]
  refine ⟨fun invalid => ?_, fun valid inUse => ?_, fun valid free => ?_⟩
  · rw [if_pos (by simpa using invalid), freeSlot_answer]
  · rw [if_neg (by simpa using valid), if_pos (by simpa using inUse), freeSlot_answer]
  · rw [if_neg (by simpa using valid), if_neg (by simpa using free), freeSlot_answer_mapTable _ _ _ _ _ policy]

theorem lineInUse_eq_false_iff (s : State) (l : Line) : s.lineInUse l = false ↔ s.Unused l := by
  simp [State.lineInUse, State.Unused]

theorem forall_mem_toList {α : Type} {n : Nat} (v : Vector α n) (P : α → Prop) :
    (∀ x ∈ v.toList, P x) ↔ ∀ i, P (v.get i) := by
  simpa using not_congr (exists_mem_toList v fun x => ¬P x)

/-! ## Feed lines (section 1.3) -/

theorem optPositionOf_optByte (r : Option Position) : optPositionOf (optByte (r.map (·.val))).toNat = some r := by
  cases r with
  | none => rfl
  | some q => decide +revert

theorem lineEntryOf_bytes (e : LineEntry) (small : e.ports < 256) : lineEntryOf e.bytes = some e := by
  obtain ⟨k, ports, reserved, on⟩ := e
  have who := optPositionOf_optByte reserved
  have kind : lineKindOf (byte k.code).toNat = some k := by cases k <;> rfl
  have size : (byte ports).toNat = ports := Nat.mod_eq_of_lt small
  simp [LineEntry.bytes, lineEntryOf, byteAt, -toNat_byte, who, kind, size]

theorem LineEntry.valid_iff (e : LineEntry) :
    e.valid = true ↔ (e.kind = .main → e.ports = 1) ∧ (e.kind = .rx → 1 ≤ e.ports ∧ e.ports ≤ 4) := by
  unfold LineEntry.valid
  cases e.kind <;> simp

theorem lineClear_iff (t : Table) (l : Line) (e : LineEntry) :
    t.lineClear l e = true ↔
      (e.enabled = false → ∀ x, (t.elements.get x).enabled = true → (t.elements.get x).line ≠ l) := by
  rw [Table.lineClear, Bool.or_eq_true, List.all_eq_true, forall_mem_toList t.elements]
  cases e.enabled <;> simp [imp_iff_not_or]

/-- Settles O29. -/
theorem feedLineWriteStores : Obligations.FeedLineWriteStores := by
  intro s p f l e offered writable kind small payload consistent
  have taken := exec_write_of_open offered writable kind 1 (bs := byte l.val :: e.bytes) (payload.trans (by rfl)) rfl
  refine write_trichotomy (p := p) (f := f) (t := s) (g := fun t => t.setLine l e) (busy := s.lineInUse l)
    (valid := e.valid && s.table.lineClear l e && s.fits (s.table.setLine l e)) ?_ (lineInUse_eq_false_iff s l) rfl
    (taken.trans ?_)
  · simp only [Bool.and_eq_true, LineEntry.valid_iff, lineClear_iff, and_assoc]
    rfl
  · have index : below 16 (byteAt (byte l.val :: e.bytes) 0) = some l := below_byte l (by decide)
    simp only [writeAccept, acceptLine, index, List.drop_succ_cons, List.drop_zero, lineEntryOf_bytes e small]
    rfl

/-! ## Elements (section 1.4) -/

theorem elementOf_bytes (e : ElementEntry) : elementOf e.bytes = some e := by
  obtain ⟨l, x, bands, on⟩ := e
  have line : below 16 (byte l.val).toNat = some l := below_byte l (by decide)
  have select : below 4 (byte x.val).toNat = some x := below_byte x (by decide)
  have set : BitVec.ofNat 16 (ofBigEndian (bigEndian 2 bands.toNat)) = bands := by
    rw [ofBigEndian_bigEndian, Nat.mod_eq_of_lt (show bands.toNat < 256 ^ 2 from bands.isLt), BitVec.ofNat_toNat, BitVec.setWidth_eq]
  have flags : byteAt (byte l.val :: byte x.val :: (bigEndian 2 bands.toNat ++ [flag on])) 4 = (flag on).toNat := rfl
  have inner : field (byte l.val :: byte x.val :: (bigEndian 2 bands.toNat ++ [flag on])) 2 2 = bigEndian 2 bands.toNat := rfl
  simp only [ElementEntry.bytes, elementOf, List.cons_append, List.nil_append, flags, inner, set, flagOf_toNat_flag]
  simp only [byteAt, List.getD_cons_zero, List.getD_cons_succ, line, select]
  rfl

theorem elementClear_iff (t : Table) (x : Element) (e : ElementEntry) :
    t.elementClear x e = true ↔ (e.enabled = true → (t.lines.get e.line).enabled = true ∧
      ∀ y, y ≠ x → (t.elements.get y).enabled = true →
        ¬((t.elements.get y).line = e.line ∧ (t.elements.get y).select = e.select)) := by
  cases on : e.enabled with
  | false => simp [Table.elementClear, on]
  | true =>
    simp only [Table.elementClear, on, Bool.not_true, Bool.false_or, Bool.and_eq_true, List.all_eq_true, List.mem_finRange,
      forall_const, true_implies, Bool.or_eq_true, decide_eq_true_eq, Bool.not_eq_true', not_and, ne_eq]
    refine and_congr_right fun _ => forall_congr' fun y => ?_
    by_cases same : y = x <;> by_cases hl : (t.elements.get y).line = e.line <;> cases (t.elements.get y).enabled <;> simp [same, hl]

theorem routesFit_iff (t : Table) (x : Element) (e : ElementEntry) :
    t.routesFit x e = true ↔ ∀ r, x ∈ (t.routes.get r).elements → (t.routes.get r).line = e.line ∧
      ∀ y ∈ (t.routes.get r).elements, y ≠ x → (t.elements.get y).select ≠ e.select := by
  rw [Table.routesFit, List.all_eq_true, forall_mem_toList t.routes]
  refine forall_congr' fun r => ?_
  by_cases listed : x ∈ (t.routes.get r).elements
  · simp [listed, or_iff_not_imp_left]
  · simp [listed]

theorem shiftRight_bands_eq_zero_iff (x : BandSet) : x >>> 12 = 0 ↔ ∀ b, 12 ≤ b → x.getLsbD b = false := by
  constructor
  · intro empty b high
    have := congrArg (fun y => y.getLsbD (b - 12)) empty
    simpa [BitVec.getLsbD_ushiftRight, Nat.add_sub_cancel' high] using this
  · intro clear
    apply BitVec.eq_of_getLsbD_eq
    intro i _
    rw [BitVec.getLsbD_ushiftRight, clear _ (Nat.le_add_right _ _)]
    simp

theorem setElement_eq (t : Table) (x : Element) (e : ElementEntry) :
    t.setElement x e = { t with
      elements := put t.elements x e
      routes := mapFin (fun _ r => if x ∈ r.elements then
        { r with bands := bandSetOf (put t.elements x e) r.elements } else r) t.routes } := by
  simp only [Table.setElement, List.contains_iff_mem]

/-- Settles O30. -/
theorem elementWriteStores : Obligations.ElementWriteStores := by
  intro s p f x e offered writable kind payload after consistent unused
  have taken := exec_write_of_open offered writable kind 2 (bs := byte x.val :: e.bytes) (payload.trans (by rfl))
    (by simp [writeLength, ElementEntry.bytes])
  have stored : s.table.setElement x e = after := setElement_eq _ _ _
  rw [← stored]
  refine write_trichotomy (p := p) (f := f) (t := s) (g := fun t => t.setElement x e)
    (busy := s.lineInUse (s.table.elements.get x).line || s.lineInUse e.line)
    (valid := e.bands >>> 12 = 0 && s.table.elementClear x e && s.table.routesFit x e && s.fits (s.table.setElement x e))
    ?_ ?_ rfl (taken.trans ?_)
  · rw [Bool.and_eq_true, Bool.and_eq_true, Bool.and_eq_true, elementClear_iff, routesFit_iff, decide_eq_true_iff,
      shiftRight_bands_eq_zero_iff, stored, and_assoc, and_assoc]
  · rw [Bool.or_eq_false_iff, lineInUse_eq_false_iff, lineInUse_eq_false_iff]
  · have index : below 32 (byteAt (byte x.val :: e.bytes) 0) = some x := below_byte x (by decide)
    simp only [writeAccept, acceptElement, index, List.drop_succ_cons, List.drop_zero, elementOf_bytes e]
    rfl

/-! ## Routes (section 1.5) -/

/-- The element bytes of a route, wherever the unused ones stand among them. -/
theorem elementsOf_eq_some {xs : List Byte} {es : List Element}
    (used : xs.filter (fun x => x ≠ 0xFF) = es.map fun x => byte x.val) : elementsOf xs = some es := by
  induction xs generalizing es with
  | nil =>
    obtain rfl : es = [] := by simpa using used.symm
    rfl
  | cons b bs ih =>
    by_cases unused : b = 0xFF
    · rw [List.filter_cons_of_neg (by simpa using unused)] at used
      have skipped : elementsOf (b :: bs) = elementsOf bs := if_pos unused
      rw [skipped, ih used]
    · rw [List.filter_cons_of_pos (by simpa using unused)] at used
      cases es with
      | nil => simp at used
      | cons e es =>
        obtain ⟨rfl, rest⟩ := List.cons.inj used
        have named : below 32 (byte e.val).toNat = some e := below_byte e (by decide)
        have taken : elementsOf (byte e.val :: bs) = (do
          let x ← below 32 (byte e.val).toNat
          let xs ← elementsOf bs
          pure (x :: xs)) := if_neg unused
        rw [taken, named, ih rest]
        rfl

theorem distinct_iff {α : Type} [DecidableEq α] (xs : List α) : distinct xs = true ↔ xs.Nodup := by
  induction xs with
  | nil => simp [distinct]
  | cons x xs ih => simp [distinct, ih]

theorem labelOk_iff (cs : List Byte) : labelOk cs = true ↔ ∀ c ∈ cs, 0x20 ≤ c.toNat ∧ c.toNat ≤ 0x7E := by
  simp [labelOk]

theorem routeEntryOf_bytes (e : RouteEntry) {xs cs : List Byte} (four : xs.length = 4) (eight : cs.length = 8)
    (used : xs.filter (fun x => x ≠ 0xFF) = e.elements.map fun x => byte x.val)
    (label : e.label = cs.takeWhile fun c => c ≠ 0) :
    routeEntryOf (byte e.line.val :: xs ++ cs ++ [flag e.enabled]) = some { e with bands := 0 } := by
  have line : below 16 (byte e.line.val).toNat = some e.line := below_byte e.line (by decide)
  have elements : field (byte e.line.val :: xs ++ cs ++ [flag e.enabled]) 1 4 = xs := by
    simp [field, ← four]
  have text : field (byte e.line.val :: xs ++ cs ++ [flag e.enabled]) 5 8 = cs := by
    have dropped : (byte e.line.val :: xs ++ cs ++ [flag e.enabled]).drop 5 = cs ++ [flag e.enabled] := by
      simp [List.drop_append, four]
    rw [field, dropped, ← eight, List.take_left]
  have last : byteAt (byte e.line.val :: xs ++ cs ++ [flag e.enabled]) 13 = (flag e.enabled).toNat := by
    have at13 : (byte e.line.val :: xs ++ cs).length = 13 := by simp [four, eight]
    rw [byteAt, List.getD_eq_getElem?_getD, ← at13, List.getElem?_concat_length, Option.getD_some]
  have first : byteAt (byte e.line.val :: xs ++ cs ++ [flag e.enabled]) 0 = (byte e.line.val).toNat := rfl
  simp only [routeEntryOf, elements, text, last, first, line, elementsOf_eq_some used, flagOf_toNat_flag, labelChars, ← label]
  rfl

theorem routeValid_iff (t : Table) (e : RouteEntry) :
    t.routeValid e = true ↔ e.elements ≠ [] ∧ e.elements.Nodup ∧ (∀ x ∈ e.elements, (t.elements.get x).line = e.line) ∧
      (e.elements.map fun x => (t.elements.get x).select).Nodup ∧ ∀ c ∈ e.label, 0x20 ≤ c.toNat ∧ c.toNat ≤ 0x7E := by
  simp [Table.routeValid, distinct_iff, labelOk_iff, and_assoc]

theorem routeNamed_eq_false_iff (s : State) (r : Route) :
    s.routeNamed r = false ↔
      (∀ h ∈ s.alloc.records, h.route ≠ r ∧ h.reroute ≠ some r) ∧ ∀ l, ∀ w ∈ s.listOf l, w.route ≠ r := by
  have lists : (s.alloc.lists.toList.any fun xs => xs.any fun e => e.route = r) = false ↔
      ∀ l, ∀ w ∈ s.listOf l, w.route ≠ r := by
    rw [List.any_eq_false, forall_mem_toList s.alloc.lists]
    simp [State.listOf]
  simp only [State.routeNamed, Bool.or_eq_false_iff, lists]
  simp

/-- Settles O31. -/
theorem routeWriteStores : Obligations.RouteWriteStores := by
  intro s p f r e xs cs offered writable kind four used eight label payload after consistent unused
  have taken := exec_write_of_open offered writable kind 3
    (bs := byte r.val :: (byte e.line.val :: xs ++ cs ++ [flag e.enabled])) (payload.trans (by rfl))
    (by simp [writeLength, four, eight])
  have stored : s.table.setRoute r { e with bands := 0 } = after := rfl
  rw [← stored]
  refine write_trichotomy (p := p) (f := f) (t := s) (g := fun t => t.setRoute r { e with bands := 0 })
    (busy := s.lineInUse (s.routeOf r).line || s.lineInUse e.line || s.routeNamed r)
    (valid := s.table.routeValid { e with bands := 0 } && s.fits (s.table.setRoute r { e with bands := 0 }))
    ?_ ?_ rfl (taken.trans ?_)
  · rw [Bool.and_eq_true, routeValid_iff, stored, and_assoc, and_assoc, and_assoc, and_assoc]
  · rw [Bool.or_eq_false_iff, Bool.or_eq_false_iff, lineInUse_eq_false_iff, lineInUse_eq_false_iff, routeNamed_eq_false_iff,
      and_assoc]
  · have index : below 48 (byteAt (byte r.val :: (byte e.line.val :: xs ++ cs ++ [flag e.enabled])) 0) = some r :=
      below_byte r (by decide)
    simp only [writeAccept, acceptRoute, index, List.drop_succ_cons, List.drop_zero, routeEntryOf_bytes e four eight used label]
    rfl

/-! ## Rings and fault configurations (sections 1.6 and 1.10) -/

theorem routesOf_bytes (rs : List Route) : routesOf (rs.map fun r => byte r.val) = some rs := by
  induction rs with
  | nil => rfl
  | cons r rs ih =>
    have named : below 48 (byte r.val).toNat = some r := below_byte r (by decide)
    simp only [List.map_cons, routesOf, named, ih]
    rfl

theorem ringValid_iff (s : State) (k : PortKind) (rs : List Route) :
    s.table.ringValid k rs = true ↔ rs.length ≤ 4 ∧ rs.Nodup ∧ ∀ r ∈ rs, s.portOf (s.routeOf r).line = k := by
  simp [Table.ringValid, distinct_iff, and_assoc, State.portOf, State.lineOf, State.routeOf]

theorem ringIndex_injective {p q : Position} {b c : Band} {k m : PortKind} (same : ringIndex p b k = ringIndex q c m) :
    (p, b, k) = (q, c, m) := by
  have places : p.val * 24 + b.val * 2 + k.code = q.val * 24 + c.val * 2 + m.code := congrArg Fin.val same
  have codes : k.code < 2 ∧ m.code < 2 := by cases k <;> cases m <;> decide
  obtain ⟨hk, hm⟩ := codes
  have hb := b.isLt
  have hc := c.isLt
  have positions : p = q := Fin.ext (by omega)
  have bands : b = c := Fin.ext (by omega)
  have kinds : k.code = m.code := by omega
  have same : k = m := by cases k <;> cases m <;> simp [PortKind.code] at kinds ⊢
  rw [positions, bands, same]

theorem faultEntryOf_bytes (c : FaultConfig) : faultEntryOf c.bytes = some c := by
  obtain ⟨d, r, sev, out⟩ := c
  cases d <;> cases r <;> cases sev <;> cases out <;> rfl

/-- Settles O32. -/
theorem ringAndFaultWritesStore : Obligations.RingAndFaultWritesStore := by
  constructor
  · intro s p f q b k rs offered writable kind few payload consistent
    have taken := exec_write_of_open offered writable kind 4
      (bs := byte q.val :: byte b.val :: byte k.code :: byte rs.length :: rs.map fun r => byte r.val) (payload.trans (by rfl))
      (by simp [writeLength, byteAt, Nat.mod_eq_of_lt few]; omega)
    have accepted : writeAccept 4 p f (byte q.val :: byte b.val :: byte k.code :: byte rs.length :: rs.map fun r => byte r.val) s =
        if !s.table.ringValid k rs then answer p f .invalid s else answer p f .ok (s.mapTable fun t => t.setRing q b k rs) := by
      simp only [writeAccept, acceptRing, ringAt_bytes, List.drop_succ_cons, List.drop_zero, routesOf_bytes]
    rw [accepted, if_neg (by decide)] at taken
    constructor
    · intro invalid
      refine taken.trans ?_
      rw [if_pos (by simpa using (not_congr (ringValid_iff s k rs)).2 invalid), freeSlot_answer]
    · intro valid
      rw [if_neg (by simpa using (ringValid_iff s k rs).2 valid), freeSlot_answer_mapTable _ _ _ _ _ rfl] at taken
      refine ⟨_, taken, rfl, rfl, get_put_self _ _ _, fun q' b' k' other => get_put_ne _ _ fun same => other ?_⟩
      exact ringIndex_injective same
  · intro s p f k c offered writable kind payload allowed
    have taken := exec_write_of_open offered writable kind 7 (bs := byte k.number :: c.bytes) (payload.trans (by rfl)) rfl
    have kindOf : faultKindOf (byteAt (byte k.number :: c.bytes) 0) = some k := by
      have number : (byte k.number).toNat = k.number := by cases k <;> rfl
      exact (congrArg faultKindOf number).trans (faultKindOf_number k)
    have accepted : writeAccept 7 p f (byte k.number :: c.bytes) s =
        if !k.allows c.severity then answer p f .invalid s else answer p f .ok (s.mapTable fun t => t.setFault k c) := by
      simp only [writeAccept, acceptFault, kindOf, List.drop_succ_cons, List.drop_zero, faultEntryOf_bytes]
    have allows : k.allows c.severity = true ↔ allowed := by
      simp only [allowed]
      cases k <;> cases c.severity <;> simp [FaultKind.allows]
    rw [accepted, if_neg (by decide)] at taken
    constructor
    · intro invalid
      refine taken.trans ?_
      rw [if_pos (by simpa using (not_congr allows).2 invalid), freeSlot_answer]
    · intro valid
      refine taken.trans ?_
      rw [if_neg (by simpa using allows.2 valid), freeSlot_answer_mapTable _ _ _ _ _ rfl]
      rfl

end Sys2Proof.Machine
end

section
/-! What each operation of the Line Allocator does to the holder records, the wait lists and the standings (chapter 3): one rule for each
reading after each operation. -/

namespace Sys2Proof.Machine

/-! ## Reading records -/

theorem recordAt_eq_none_iff (s : State) (p : Position) (l : Line) :
    s.recordAt p l = none ↔ ∀ r ∈ s.alloc.records, r.pos = p → r.line ≠ l := by
  simp [State.recordAt, List.find?_eq_none]

theorem mem_of_recordAt {s : State} {p : Position} {l : Line} {h : Holder} (held : s.recordAt p l = some h) :
    h ∈ s.alloc.records ∧ h.pos = p ∧ h.line = l := by
  have found := List.find?_some held
  simp only [Bool.and_eq_true, decide_eq_true_eq] at found
  exact ⟨List.mem_of_find?_eq_some held, found⟩

/-- Where the records stand each once, a record is the one that stands at its position and line. -/
theorem recordAt_of_mem {s : State} (once : (s.alloc.records.map fun r => (r.pos, r.line)).Nodup) {h : Holder}
    (mem : h ∈ s.alloc.records) : s.recordAt h.pos h.line = some h := by
  obtain ⟨front, back, split⟩ := List.append_of_mem mem
  rw [split, List.map_append, List.map_cons, List.nodup_append] at once
  obtain ⟨-, -, apart⟩ := once
  rw [State.recordAt, split, List.find?_append, List.find?_eq_none.2, Option.none_or, List.find?_cons_of_pos] <;> try simp
  intro r inFront same line
  exact apart _ (List.mem_map_of_mem inFront) (h.pos, h.line) (by simp) (by rw [same, line])

theorem recordAt_eq_some_iff {s : State} (once : (s.alloc.records.map fun r => (r.pos, r.line)).Nodup) {p : Position} {l : Line} {h : Holder} :
    s.recordAt p l = some h ↔ h ∈ s.alloc.records ∧ h.pos = p ∧ h.line = l := by
  constructor
  · exact mem_of_recordAt
  · rintro ⟨mem, rfl, rfl⟩
    exact recordAt_of_mem once mem

theorem mem_recordsOn (s : State) (l : Line) (h : Holder) : h ∈ s.recordsOn l ↔ h ∈ s.alloc.records ∧ h.line = l := by
  simp [State.recordsOn]

theorem mem_recordsOf (s : State) (p : Position) (k : PortKind) (h : Holder) :
    h ∈ s.recordsOf p k ↔ h ∈ s.alloc.records ∧ h.pos = p ∧ h.kind = k := by
  simp [State.recordsOf]

theorem recordAt_of_alloc {s t : State} (same : t.alloc.records = s.alloc.records) (p : Position) (l : Line) :
    t.recordAt p l = s.recordAt p l := by rw [State.recordAt, same]; rfl

theorem recordsOn_of_alloc {s t : State} (same : t.alloc.records = s.alloc.records) (l : Line) : t.recordsOn l = s.recordsOn l := by
  rw [State.recordsOn, same]; rfl

theorem listOf_of_alloc {s t : State} (same : t.alloc.lists = s.alloc.lists) (l : Line) : t.listOf l = s.listOf l := by
  rw [State.listOf, same]; rfl

/-! ## Changes of the lists and the standings -/

theorem listOf_mapLists (g : Line → List WaitEntry → List WaitEntry) (s : State) (l : Line) :
    (mapLists g s).listOf l = g l (s.listOf l) := by
  simp [mapLists, State.listOf]

theorem standing_mapStanding (s : State) (p : Position) (k : PortKind) (g : Standing → Standing) (q : Position) (j : PortKind) :
    (s.mapStanding p k g).standing q j = if q = p ∧ j = k then g (s.standing p k) else s.standing q j := by
  simp only [State.mapStanding, State.standing, mapAlloc_alloc, get_put]
  by_cases same : q = p
  · subst same
    cases k <;> cases j <;> simp [Standings.setOn, Standings.on]
  · simp [same]

/-! ## A record changed in place -/

theorem records_mapRecord (p : Position) (l : Line) (f : Holder → Holder) (s : State) :
    (mapRecord p l f s).alloc.records = s.alloc.records.map fun r => if r.pos = p ∧ r.line = l then f r else r := by
  simp only [mapRecord, mapAlloc_alloc, Bool.and_eq_true, decide_eq_true_eq]

/-- A change of a record that leaves it at its position and line. -/
def Placed (f : Holder → Holder) : Prop := ∀ r, (f r).pos = r.pos ∧ (f r).line = r.line ∧ (f r).kind = r.kind

theorem recordAt_mapRecord {f : Holder → Holder} (placed : Placed f) (p : Position) (l : Line) (s : State) (q : Position) (j : Line) :
    (mapRecord p l f s).recordAt q j = if q = p ∧ j = l then (s.recordAt q j).map f else s.recordAt q j := by
  rw [State.recordAt, records_mapRecord, List.find?_map, State.recordAt]
  have test : (fun r : Holder => decide (r.pos = q) && decide (r.line = j)) ∘ (fun r => if r.pos = p ∧ r.line = l then f r else r) =
      fun r => decide (r.pos = q) && decide (r.line = j) := by
    funext r
    obtain ⟨pos, line, -⟩ := placed r
    rw [Function.comp]
    split <;> simp only [pos, line]
  rw [test]
  cases found : s.alloc.records.find? fun r => decide (r.pos = q) && decide (r.line = j) with
  | none => simp
  | some r =>
    have key := List.find?_some found
    simp only [Bool.and_eq_true, decide_eq_true_eq] at key
    simp only [Option.map_some, key.1, key.2]
    split <;> rfl

/-! ## A record removed (R45) -/

/-- The state without the record of `p` on `l` (R45). -/
def State.without (s : State) (p : Position) (l : Line) : State :=
  refreshMoves p (s.portOf l) (s.mapAlloc fun a => { a with records := a.records.filter fun r => !(r.pos = p && r.line = l) })

theorem removeRecord_s (p : Position) (l : Line) (w : Work) : (removeRecord p l w).s = w.s.without p l := rfl

theorem records_without (s : State) (p : Position) (l : Line) :
    (s.without p l).alloc.records = s.alloc.records.filter fun r => !(decide (r.pos = p) && decide (r.line = l)) := rfl

theorem mem_records_without (s : State) (p : Position) (l : Line) (r : Holder) :
    r ∈ (s.without p l).alloc.records ↔ r ∈ s.alloc.records ∧ ¬(r.pos = p ∧ r.line = l) := by
  rw [records_without, List.mem_filter]
  simp only [Bool.not_eq_true', Bool.and_eq_false_iff, decide_eq_false_iff_not, not_and_or]

theorem recordAt_without (s : State) (p q : Position) (l j : Line) :
    (s.without p l).recordAt q j = if q = p ∧ j = l then none else s.recordAt q j := by
  split
  · next same =>
    rw [recordAt_eq_none_iff]
    intro r mem pos line
    obtain ⟨-, other⟩ := (mem_records_without s p l r).1 mem
    exact other ⟨pos.trans same.1, line.trans same.2⟩
  · next other =>
    rw [State.recordAt, records_without, List.find?_filter, State.recordAt]
    congr 1
    funext r
    by_cases key : r.pos = q ∧ r.line = j
    · have kept : (decide (q = p) && decide (j = l)) = false := by simpa using other
      simp [key.1, key.2, kept]
    · have out : (decide (r.pos = q) && decide (r.line = j)) = false := by simpa using key
      simp [out]

/-- A wait entry of list `j` after the removal of the record of `p` on `l`: its move flag may be cleared (R51). -/
def State.moveRefreshed (s : State) (p : Position) (l j : Line) (e : WaitEntry) : WaitEntry :=
  if s.portOf j = s.portOf l ∧ e.pos = p then
    { e with move := e.move && (s.recordsOf p (s.portOf l)).any fun r => !(decide (r.line = l)) && decide (r.line ≠ j) }
  else e

theorem listOf_without (s : State) (p : Position) (l j : Line) :
    (s.without p l).listOf j = (s.listOf j).map (s.moveRefreshed p l j) := by
  rw [State.without, refreshMoves, listOf_mapLists]
  have flags : (s.mapAlloc fun a => { a with records := a.records.filter fun r => !(r.pos = p && r.line = l) }).recordsOf p (s.portOf l) =
      (s.recordsOf p (s.portOf l)).filter fun r => !decide (r.line = l) := by
    rw [State.recordsOf, State.recordsOf, mapAlloc_alloc, List.filter_filter, List.filter_filter]
    refine List.filter_congr fun r _ => ?_
    by_cases pos : r.pos = p <;> simp [pos, Bool.and_comm]
  show (if s.portOf j = s.portOf l then _ else _) = _
  by_cases kind : s.portOf j = s.portOf l
  · rw [if_pos kind]
    refine List.map_congr_left fun e _ => ?_
    rw [State.moveRefreshed, flags, List.any_filter]
    simp only [kind, true_and]
  · rw [if_neg kind]
    refine (List.map_id'' (fun e => ?_) _).symm
    rw [State.moveRefreshed, if_neg fun both => kind both.1]

@[simp] theorem moveRefreshed_pos (s : State) (p : Position) (l j : Line) (e : WaitEntry) : (s.moveRefreshed p l j e).pos = e.pos := by
  unfold State.moveRefreshed; split <;> rfl

@[simp] theorem moveRefreshed_route (s : State) (p : Position) (l j : Line) (e : WaitEntry) : (s.moveRefreshed p l j e).route = e.route := by
  unfold State.moveRefreshed; split <;> rfl

@[simp] theorem moveRefreshed_manner (s : State) (p : Position) (l j : Line) (e : WaitEntry) :
    (s.moveRefreshed p l j e).manner = e.manner := by
  unfold State.moveRefreshed; split <;> rfl

@[simp] theorem moveRefreshed_priority (s : State) (p : Position) (l j : Line) (e : WaitEntry) :
    (s.moveRefreshed p l j e).priority = e.priority := by
  unfold State.moveRefreshed; split <;> rfl

theorem moveRefreshed_of_ne {s : State} {p : Position} {l j : Line} {e : WaitEntry} (other : e.pos ≠ p ∨ s.portOf j ≠ s.portOf l) :
    s.moveRefreshed p l j e = e := if_neg fun both => other.elim (fun h => h both.2) fun h => h both.1

/-! ## Entries withdrawn (R51) -/

/-- The state with the entries of `p` of a kind withdrawn, but for those on `keep` (R51). -/
def State.withdrawn (s : State) (p : Position) (k : PortKind) (keep : Option Line) : State :=
  mapLists (fun l xs => if s.portOf l = k && keep ≠ some l then xs.filter fun e => e.pos ≠ p else xs) s

theorem withdraw_s (p : Position) (k : PortKind) (keep : Option Line) (w : Work) : (withdraw p k keep w).s = w.s.withdrawn p k keep := rfl

theorem listOf_withdrawn (s : State) (p : Position) (k : PortKind) (keep : Option Line) (j : Line) :
    (s.withdrawn p k keep).listOf j =
      if s.portOf j = k ∧ keep ≠ some j then (s.listOf j).filter fun e => e.pos ≠ p else s.listOf j := by
  rw [State.withdrawn, listOf_mapLists]
  simp only [Bool.and_eq_true, decide_eq_true_eq]

/-! ## A record created (R41) -/

/-- The record that a position is given on a route's line (R41). -/
def State.newRecord (s : State) (p : Position) (r : Route) : Holder :=
  { pos := p, line := (s.routeOf r).line, route := r, kind := s.portOf (s.routeOf r).line, state := .pending,
    latched := false, breakRequested := false, reroute := none }

/-- The state with a PENDING record of `p` with route `r` (R41). -/
def State.withRecord (s : State) (p : Position) (r : Route) : State :=
  s.mapAlloc fun a => { a with records := a.records ++ [s.newRecord p r] }

theorem createRecord_s (p : Position) (r : Route) (w : Work) : (createRecord p r w).s = w.s.withRecord p r := rfl

theorem records_withRecord (s : State) (p : Position) (r : Route) :
    (s.withRecord p r).alloc.records = s.alloc.records ++ [s.newRecord p r] := rfl

theorem listOf_withRecord (s : State) (p : Position) (r : Route) (j : Line) : (s.withRecord p r).listOf j = s.listOf j := rfl

theorem recordAt_withRecord (s : State) (p : Position) (r : Route) (q : Position) (j : Line) :
    (s.withRecord p r).recordAt q j =
      (s.recordAt q j).or (if q = p ∧ j = (s.routeOf r).line then some (s.newRecord p r) else none) := by
  rw [State.recordAt, records_withRecord, List.find?_append, State.recordAt]
  congr 1
  by_cases key : q = p ∧ j = (s.routeOf r).line
  · simp [State.newRecord, key.1, key.2]
  · rw [if_neg key, List.find?_eq_none]
    simp only [List.mem_singleton, forall_eq, State.newRecord, Bool.and_eq_true, decide_eq_true_eq]
    exact fun both => key ⟨both.1.symm, both.2.symm⟩

/-! ## Entries put in a list (R50, R59, R62) -/

/-- The list of the claimed line with the claim's entry: one of the position takes the route, else a new one is inserted (R51, R59). -/
def State.queueFor (s : State) (p : Position) (r : Route) (xs : List WaitEntry) : List WaitEntry :=
  if xs.any fun e => e.pos = p then xs.map fun e => if e.pos = p then { e with route := r } else e else insertWait (newEntry p r .wait s) xs

/-- The state with an entry of `p` for route `r` in its line's list, once its other entries of the kind are withdrawn (R59). -/
def State.enqueued (s : State) (p : Position) (r : Route) : State :=
  let t := s.withdrawn p (s.portOf (s.routeOf r).line) (some (s.routeOf r).line)
  mapLists (fun i xs => if i ≠ (s.routeOf r).line then xs else t.queueFor p r xs) t

theorem enqueueWait_s (p : Position) (r : Route) (w : Work) : (enqueueWait p r w).s = w.s.enqueued p r := rfl

theorem listOf_enqueued (s : State) (p : Position) (r : Route) (j : Line) :
    (s.enqueued p r).listOf j =
      if j = (s.routeOf r).line then s.queueFor p r (s.listOf j)
      else if s.portOf j = s.portOf (s.routeOf r).line then (s.listOf j).filter fun e => e.pos ≠ p else s.listOf j := by
  rw [State.enqueued, listOf_mapLists, listOf_withdrawn]
  by_cases same : j = (s.routeOf r).line
  · subst same
    simp only [ne_eq, not_true_eq_false, if_false, if_true, and_false]
    rfl
  · have other : some (s.routeOf r).line ≠ some j := fun h => same (Option.some.inj h).symm
    simp only [ne_eq, same, not_false_eq_true, if_true, other, and_true, if_false]

/-- The state with a TAKE entry of `p` at the head of its line's list (R62). -/
def State.takeQueued (s : State) (p : Position) (r : Route) : State :=
  mapLists (fun i xs => if i = (s.routeOf r).line then newEntry p r .take s :: xs else xs) s

theorem putTake_s (p : Position) (r : Route) (w : Work) : (putTake p r w).s = w.s.takeQueued p r := rfl

theorem listOf_takeQueued (s : State) (p : Position) (r : Route) (j : Line) :
    (s.takeQueued p r).listOf j = if j = (s.routeOf r).line then newEntry p r .take s :: s.listOf j else s.listOf j := by
  rw [State.takeQueued, listOf_mapLists]

/-- An entry is inserted somewhere in the list. -/
theorem insertWait_split (e : WaitEntry) : ∀ xs : List WaitEntry, ∃ front back, xs = front ++ back ∧ insertWait e xs = front ++ e :: back ∧
    (∀ x ∈ front, x.manner = .take ∨ e.priority ≤ x.priority) ∧
    ∀ x, back.head? = some x → x.manner ≠ .take ∧ x.priority < e.priority
  | [] => ⟨[], [], rfl, rfl, by simp, by simp⟩
  | x :: xs => by
    unfold insertWait
    split
    · next before =>
      simp only [Bool.and_eq_true, decide_eq_true_eq] at before
      exact ⟨[], x :: xs, rfl, rfl, by simp, fun y head => by cases head; exact before⟩
    · next behind =>
      obtain ⟨front, back, split, inserted, all, next⟩ := insertWait_split e xs
      refine ⟨x :: front, back, by rw [split]; rfl, by rw [inserted]; rfl, fun y mem => ?_, next⟩
      obtain rfl | mem := List.mem_cons.1 mem
      · simp only [Bool.and_eq_true, decide_eq_true_eq, not_and_or, not_not, not_lt] at behind
        exact behind
      · exact all y mem

end Sys2Proof.Machine
end

section
/-! The changes that the Line Allocator makes to records, lists and standings, one by one, each by a position and port kind: what each keeps
of the allocation's laws, and that it leaves every other position and kind alone. -/

namespace Sys2Proof.Machine

/-! ## Moves of the allocator -/

/-- The state with the record of `p` on `l` sent BREAKING (R44). -/
def State.broken (s : State) (p : Position) (l : Line) : State :=
  mapRecord p l (fun r => { r with state := .breaking, reroute := none, breakRequested := s.pathQuiet p }) s

/-- The state after every PENDING record has been examined (R42). -/
def State.made (s : State) : State :=
  s.mapAlloc fun a => { a with records := a.records.map fun r =>
    if r.state = .pending && s.mayMake r then { r with state := .making } else r }

/-- The state with the breaks of a position's BREAKING records requested (R106). -/
def State.requested (s : State) (p : Position) : State :=
  s.mapAlloc fun a => { a with records := a.records.map fun r =>
    if r.pos = p && r.state = .breaking then { r with breakRequested := true } else r }

/-- The state with wait lists, standings and stored reroutes cleared (R76). -/
def State.claimsCleared (s : State) : State :=
  s.mapAlloc fun a =>
    { records := a.records.map fun r => { r with reroute := none }
      lists := mapFin (fun _ _ => []) a.lists
      standings := mapFin (fun _ _ => { main := clearStanding, aux := clearStanding }) a.standings }

/-- A record with `route` may be created on its line: the line has none, or, once a TAKE has emptied a MAIN line, BREAKING ones alone, or,
on an RX line, records with that route alone (R58, R61, R65). -/
def State.Roomy (s : State) (r : Route) : Prop :=
  s.recordsOn (s.routeOf r).line = [] ∨
    (s.portOf (s.routeOf r).line = .main ∧ ∀ x ∈ s.recordsOn (s.routeOf r).line, x.state = .breaking) ∨
    (s.portOf (s.routeOf r).line = .aux ∧ ∀ x ∈ s.recordsOn (s.routeOf r).line, x.route = r)

/-- One change of the allocator, for a position and kind that `A` admits; BREAKING records are removed where `B` holds alone. -/
inductive Move (A : Position → PortKind → Prop) (B : Prop) : State → State → Prop
  | withdraw {s : State} {p : Position} {k : PortKind} (keep : Option Line) (actor : A p k) : Move A B s (s.withdrawn p k keep)
  | standing {s : State} {p : Position} {k : PortKind} (f : Standing → Standing) (actor : A p k) : Move A B s (s.mapStanding p k f)
  | leave {s : State} {p : Position} {l : Line} {h : Holder} (actor : A p (s.portOf l)) (held : s.recordAt p l = some h)
      (stands : h.state = .making ∨ h.state = .connected) : Move A B s (s.broken p l)
  | remove {s : State} {p : Position} {l : Line} {h : Holder} (actor : A p (s.portOf l)) (held : s.recordAt p l = some h)
      (gone : h.state = .pending ∨ neverClosed h s = true) (breaks : h.state = .breaking → B) : Move A B s (s.without p l)
  | create {s : State} {p : Position} {r : Route} (actor : A p (s.portOf (s.routeOf r).line))
      (none : s.recordAt p (s.routeOf r).line = none) (apart : ∀ e ∈ s.listOf (s.routeOf r).line, e.pos ≠ p) (room : s.Roomy r) :
      Move A B s (s.withRecord p r)
  | enqueue {s : State} {p : Position} {r : Route} (actor : A p (s.portOf (s.routeOf r).line))
      (none : s.recordAt p (s.routeOf r).line = none) : Move A B s (s.enqueued p r)
  | take {s : State} {p : Position} {r : Route} (actor : A p (s.portOf (s.routeOf r).line))
      (none : s.recordAt p (s.routeOf r).line = none)
      (apart : ∀ j, s.portOf j = s.portOf (s.routeOf r).line → ∀ e ∈ s.listOf j, e.pos ≠ p)
      (first : hasTake (s.listOf (s.routeOf r).line) = false) : Move A B s (s.takeQueued p r)
  | unstore {s : State} {p : Position} (l : Line) (actor : A p (s.portOf l)) :
      Move A B s (mapRecord p l (fun x => { x with reroute := none }) s)
  | store {s : State} {p : Position} {r : Route} {h : Holder} (actor : A p (s.portOf (s.routeOf r).line))
      (held : s.recordAt p (s.routeOf r).line = some h) (connected : h.state = .connected) :
      Move A B s (mapRecord p (s.routeOf r).line (fun x => { x with reroute := some r }) s)
  | replace {s : State} {p : Position} {r : Route} {h : Holder} (st : HolderState) (actor : A p (s.portOf (s.routeOf r).line))
      (held : s.recordAt p (s.routeOf r).line = some h)
      (rule : (st = h.state ∧ (st = .pending ∨ st = .making)) ∨ (st = .making ∧ h.state = .connected ∧ s.pathQuiet p = true))
      (alone : s.portOf (s.routeOf r).line = .aux → ∀ x ∈ s.recordsOn (s.routeOf r).line, x.pos = p) :
      Move A B s (mapRecord p (s.routeOf r).line (fun x => { x with route := r, reroute := none, state := st }) s)
  | connect {s : State} {p : Position} {l : Line} {h : Holder} (actor : A p (s.portOf l)) (held : s.recordAt p l = some h)
      (making : h.state = .making) (latched : s.latchedAs h = true) :
      Move A B s (mapRecord p l (fun x => { x with state := .connected }) s)
  | request {s : State} {p : Position} (actor : ∀ k, A p k) (quiet : s.pathQuiet p = true) : Move A B s (s.requested p)
  | make (s : State) : Move A B s s.made
  | clear {s : State} (all : ∀ q k, A q k) : Move A B s s.claimsCleared

/-- Changes of the allocator, one after another. -/
abbrev Moves (A : Position → PortKind → Prop) (B : Prop) : State → State → Prop := Relation.ReflTransGen (Move A B)

variable {A : Position → PortKind → Prop} {B : Prop}

theorem Move.one {s t : State} (h : Move A B s t) : Moves A B s t := .single h

theorem Move.mono {A' : Position → PortKind → Prop} {B' : Prop} (wider : ∀ q k, A q k → A' q k) (allowed : B → B') {s t : State}
    (h : Move A B s t) : Move A' B' s t := by
  cases h with
  | withdraw keep actor => exact .withdraw keep (wider _ _ actor)
  | standing f actor => exact .standing f (wider _ _ actor)
  | leave actor held stands => exact .leave (wider _ _ actor) held stands
  | remove actor held gone breaks => exact .remove (wider _ _ actor) held gone fun h => allowed (breaks h)
  | create actor none apart room => exact .create (wider _ _ actor) none apart room
  | enqueue actor none => exact .enqueue (wider _ _ actor) none
  | take actor none apart first => exact .take (wider _ _ actor) none apart first
  | unstore l actor => exact .unstore l (wider _ _ actor)
  | store actor held connected => exact .store (wider _ _ actor) held connected
  | replace st actor held rule alone => exact .replace st (wider _ _ actor) held rule alone
  | connect actor held making latched => exact .connect (wider _ _ actor) held making latched
  | request actor quiet => exact .request (fun k => wider _ _ (actor k)) quiet
  | make => exact .make _
  | clear all => exact .clear fun q k => wider _ _ (all q k)

theorem Moves.mono {A' : Position → PortKind → Prop} {B' : Prop} (wider : ∀ q k, A q k → A' q k) (allowed : B → B') {s t : State}
    (h : Moves A B s t) : Moves A' B' s t := Relation.ReflTransGen.mono (fun _ _ move => move.mono wider allowed) _ _ h

/-- A move changes the allocator alone. -/
theorem Move.eq {s t : State} (h : Move A B s t) : t = { s with alloc := t.alloc } := by cases h <;> rfl

theorem Moves.eq {s t : State} (h : Moves A B s t) : t = { s with alloc := t.alloc } := by
  induction h with
  | refl => rfl
  | tail _ move ih => rw [move.eq, ih]

/-! ## What a move reads of the rest of the state -/

theorem portOf_of_eq {s t : State} (eq : t = { s with alloc := t.alloc }) (l : Line) : t.portOf l = s.portOf l := by rw [eq]; rfl

/-! ## The laws of the allocation, kept (section 3.1, R50) -/

/-- Records changed in place, with the lists as they were. -/
theorem allocationKeyed_of_map {s t : State} {f : Holder → Holder} (keyed : s.AllocationKeyed) (table : t.table = s.table)
    (records : t.alloc.records = s.alloc.records.map f) (lists : t.alloc.lists = s.alloc.lists)
    (placed : ∀ r ∈ s.alloc.records, (f r).pos = r.pos ∧ (f r).line = r.line ∧ (f r).kind = r.kind)
    (routed : ∀ r ∈ s.alloc.records, (s.routeOf (f r).route).line = r.line ∧ ∀ x, (f r).reroute = some x → (s.routeOf x).line = r.line)
    (stored : ∀ r ∈ s.alloc.records, (f r).reroute ≠ none → (f r).state = .connected) : t.AllocationKeyed := by
  have route (r : Route) : t.routeOf r = s.routeOf r := by rw [State.routeOf, table]; rfl
  have port (l : Line) : t.portOf l = s.portOf l := by rw [State.portOf, State.lineOf, table]; rfl
  have list (l : Line) : t.listOf l = s.listOf l := listOf_of_alloc lists l
  have mem {r : Holder} (h : r ∈ t.alloc.records) : ∃ x ∈ s.alloc.records, f x = r := by rwa [records, List.mem_map] at h
  constructor
  · rw [records, List.map_map, List.map_congr_left (g := fun r => (r.pos, r.line))]
    · exact keyed.records
    · intro r stands
      obtain ⟨pos, line, -⟩ := placed r stands
      rw [Function.comp, pos, line]
  · intro r stands
    obtain ⟨x, was, rfl⟩ := mem stands
    obtain ⟨-, line, kind⟩ := placed x was
    obtain ⟨-, port', -⟩ := keyed.routed x was
    simp only [route, port, line, kind]
    exact ⟨(routed x was).1, port', (routed x was).2⟩
  · intro r stands
    obtain ⟨x, was, rfl⟩ := mem stands
    exact stored x was
  · intro l; rw [list]; exact keyed.lists l
  · intro l e mem; rw [list] at mem; rw [route]; exact keyed.placed l e mem
  · intro k l x hx y hy same kind; rw [list] at hx hy; rw [port, port] at kind; exact keyed.oneList k l x hx y hy same kind
  · intro l e waits
    rw [list] at waits
    rw [recordAt_eq_none_iff]
    intro r stands pos line
    obtain ⟨x, was, rfl⟩ := mem stands
    obtain ⟨pos', line', -⟩ := placed x was
    exact (recordAt_eq_none_iff s e.pos l).1 (keyed.apart l e waits) x was (pos'.symm.trans pos) (line'.symm.trans line)

/-- Records and entries taken away, and entries changed but for position and route. -/
theorem allocationKeyed_of_sublist {s t : State} (keyed : s.AllocationKeyed) (table : t.table = s.table)
    (records : t.alloc.records.Sublist s.alloc.records) (g : Line → WaitEntry → WaitEntry)
    (kept : ∀ l e, (g l e).pos = e.pos ∧ (g l e).route = e.route) (out : Line → WaitEntry → Bool)
    (lists : ∀ l, t.listOf l = ((s.listOf l).filter (out l)).map (g l)) : t.AllocationKeyed := by
  have route (r : Route) : t.routeOf r = s.routeOf r := by rw [State.routeOf, table]; rfl
  have port (l : Line) : t.portOf l = s.portOf l := by rw [State.portOf, State.lineOf, table]; rfl
  have mem {l : Line} {e : WaitEntry} (h : e ∈ t.listOf l) : ∃ x ∈ s.listOf l, x.pos = e.pos ∧ x.route = e.route := by
    rw [lists, List.mem_map] at h
    obtain ⟨x, waits, rfl⟩ := h
    exact ⟨x, List.mem_of_mem_filter waits, (kept l x).1.symm, (kept l x).2.symm⟩
  constructor
  · exact keyed.records.sublist (records.map _)
  · intro r stands
    simp only [route, port]
    exact keyed.routed r (records.subset stands)
  · exact fun r stands => keyed.stored r (records.subset stands)
  · intro l
    rw [lists, List.map_map, show (fun e : WaitEntry => e.pos) ∘ g l = fun e => e.pos from funext fun e => (kept l e).1]
    exact (keyed.lists l).sublist (List.filter_sublist.map _)
  · intro l e waits
    obtain ⟨x, was, -, same⟩ := mem waits
    rw [route, ← same]
    exact keyed.placed l x was
  · intro k l x hx y hy same kind
    obtain ⟨x', hx', pos, -⟩ := mem hx
    obtain ⟨y', hy', pos', -⟩ := mem hy
    rw [port, port] at kind
    exact keyed.oneList k l x' hx' y' hy' (by rw [pos, pos', same]) kind
  · intro l e waits
    obtain ⟨x, was, pos, -⟩ := mem waits
    rw [recordAt_eq_none_iff]
    intro r stands at' line
    exact (recordAt_eq_none_iff s x.pos l).1 (keyed.apart l x was) r (records.subset stands) (at'.trans pos.symm) line

theorem allocationKeyed_withRecord {s : State} (keyed : s.AllocationKeyed) {p : Position} {r : Route}
    (none : s.recordAt p (s.routeOf r).line = none) (apart : ∀ e ∈ s.listOf (s.routeOf r).line, e.pos ≠ p) :
    (s.withRecord p r).AllocationKeyed := by
  have mem {x : Holder} (h : x ∈ (s.withRecord p r).alloc.records) : x ∈ s.alloc.records ∨ x = s.newRecord p r := by
    simpa [records_withRecord] using h
  constructor
  · rw [records_withRecord, List.map_append, List.nodup_append]
    refine ⟨keyed.records, List.nodup_singleton _, ?_⟩
    intro key old other new same
    obtain rfl : other = (p, (s.routeOf r).line) := by simpa [State.newRecord] using new
    obtain ⟨x, stands, rfl⟩ := List.mem_map.1 old
    obtain ⟨pos, line⟩ := Prod.mk.inj same
    exact (recordAt_eq_none_iff s p _).1 none x stands pos line
  · intro x stands
    obtain was | rfl := mem stands
    · exact keyed.routed x was
    · exact ⟨rfl, rfl, fun x store => by cases store⟩
  · intro x stands store
    obtain was | rfl := mem stands
    · exact keyed.stored x was store
    · exact absurd rfl store
  · exact keyed.lists
  · exact keyed.placed
  · exact keyed.oneList
  · intro l e waits
    rw [recordAt_eq_none_iff]
    intro x stands pos line
    obtain was | rfl := mem stands
    · exact (recordAt_eq_none_iff s e.pos l).1 (keyed.apart l e waits) x was pos line
    · subst line
      exact apart e waits pos.symm

theorem mem_queueFor {s : State} {p : Position} {r : Route} {xs : List WaitEntry} {e : WaitEntry} (mem : e ∈ s.queueFor p r xs) :
    (e ∈ xs ∧ e.pos ≠ p) ∨ (e.pos = p ∧ e.route = r) := by
  unfold State.queueFor at mem
  split at mem
  · obtain ⟨x, was, rfl⟩ := List.mem_map.1 mem
    split
    · next own => exact .inr ⟨own, rfl⟩
    · next other => exact .inl ⟨was, other⟩
  · next absent =>
    obtain ⟨front, back, split, inserted, -, -⟩ := insertWait_split (newEntry p r .wait s) xs
    rw [inserted, List.mem_append, List.mem_cons] at mem
    have others : ∀ x ∈ xs, x.pos ≠ p := by simpa using absent
    obtain inFront | rfl | inBack := mem
    · have was : e ∈ xs := by rw [split]; exact List.mem_append_left _ inFront
      exact .inl ⟨was, others e was⟩
    · exact .inr ⟨rfl, rfl⟩
    · have was : e ∈ xs := by rw [split]; exact List.mem_append_right _ inBack
      exact .inl ⟨was, others e was⟩

theorem nodup_queueFor {s : State} {p : Position} {r : Route} {xs : List WaitEntry} (once : (xs.map fun e => e.pos).Nodup) :
    ((s.queueFor p r xs).map fun e => e.pos).Nodup := by
  unfold State.queueFor
  split
  · rw [List.map_map]
    have same : (fun e : WaitEntry => e.pos) ∘ (fun e => if e.pos = p then { e with route := r } else e) = fun e => e.pos := by
      funext e
      rw [Function.comp]
      split <;> rfl
    rwa [same]
  · next absent =>
    obtain ⟨front, back, split, inserted, -, -⟩ := insertWait_split (newEntry p r .wait s) xs
    have others : p ∉ xs.map fun e => e.pos := by simpa using absent
    rw [split] at once others
    rw [inserted]
    have perm : (front ++ newEntry p r .wait s :: back).Perm (newEntry p r .wait s :: (front ++ back)) := List.perm_middle
    refine (perm.map _).nodup_iff.2 ?_
    rw [List.map_cons, List.nodup_cons]
    exact ⟨others, once⟩

/-- A list that gets entries of `p` alone, where `p` has no record and no entry elsewhere among the lines of the kind. -/
theorem allocationKeyed_of_queued {s t : State} (keyed : s.AllocationKeyed) (table : t.table = s.table)
    (records : t.alloc.records = s.alloc.records) {p : Position} {r : Route} (none : s.recordAt p (s.routeOf r).line = none)
    (once : ((t.listOf (s.routeOf r).line).map fun e => e.pos).Nodup)
    (own : ∀ e ∈ t.listOf (s.routeOf r).line, (e ∈ s.listOf (s.routeOf r).line ∧ e.pos ≠ p) ∨ (e.pos = p ∧ e.route = r))
    (others : ∀ j, j ≠ (s.routeOf r).line → (t.listOf j).Sublist (s.listOf j))
    (withdrawn : ∀ j, j ≠ (s.routeOf r).line → s.portOf j = s.portOf (s.routeOf r).line → ∀ e ∈ t.listOf j, e.pos ≠ p) :
    t.AllocationKeyed := by
  have route (r : Route) : t.routeOf r = s.routeOf r := by rw [State.routeOf, table]; rfl
  have port (l : Line) : t.portOf l = s.portOf l := by rw [State.portOf, State.lineOf, table]; rfl
  have mem {l : Line} {e : WaitEntry} (h : e ∈ t.listOf l) :
      (e ∈ s.listOf l ∧ (l = (s.routeOf r).line → e.pos ≠ p)) ∨ (l = (s.routeOf r).line ∧ e.pos = p ∧ e.route = r) := by
    by_cases here : l = (s.routeOf r).line
    · subst here
      exact (own e h).imp (fun ⟨was, other⟩ => ⟨was, fun _ => other⟩) fun new => ⟨rfl, new⟩
    · exact .inl ⟨(others l here).subset h, fun same => absurd same here⟩
  constructor
  · rw [records]; exact keyed.records
  · rw [records]; simp only [route, port]; exact keyed.routed
  · rw [records]; exact keyed.stored
  · intro l
    by_cases here : l = (s.routeOf r).line
    · rw [here]; exact once
    · exact (keyed.lists l).sublist ((others l here).map _)
  · intro l e waits
    rw [route]
    obtain ⟨was, -⟩ | ⟨rfl, -, same⟩ := mem waits
    · exact keyed.placed l e was
    · rw [same]
  · intro k l x hx y hy same kind
    rw [port, port] at kind
    obtain ⟨hx', -⟩ | ⟨rfl, own, -⟩ := mem hx
    · obtain ⟨hy', -⟩ | ⟨rfl, own, -⟩ := mem hy
      · exact keyed.oneList k l x hx' y hy' same kind
      · by_contra other
        exact withdrawn k other kind x hx (same.trans own)
    · by_contra other
      exact withdrawn l (Ne.symm other) kind.symm y hy (same.symm.trans own)
  · intro l e waits
    rw [recordAt_of_alloc records]
    obtain ⟨was, -⟩ | ⟨rfl, own, -⟩ := mem waits
    · exact keyed.apart l e was
    · rw [own]; exact none

/-- A record's own change: only the record at its key is looked at. -/
theorem allocationKeyed_mapRecord {s : State} (keyed : s.AllocationKeyed) (p : Position) (l : Line) {f : Holder → Holder} (placed : Placed f)
    (rule : ∀ h, s.recordAt p l = some h → (s.routeOf (f h).route).line = l ∧
      (∀ x, (f h).reroute = some x → (s.routeOf x).line = l) ∧ ((f h).reroute ≠ none → (f h).state = .connected)) :
    (mapRecord p l f s).AllocationKeyed := by
  have own {r : Holder} (stands : r ∈ s.alloc.records) (key : r.pos = p ∧ r.line = l) : s.recordAt p l = some r :=
    (recordAt_eq_some_iff keyed.records).2 ⟨stands, key⟩
  refine allocationKeyed_of_map (f := fun r => if r.pos = p ∧ r.line = l then f r else r) keyed rfl (records_mapRecord p l f s) rfl
    (fun r stands => ?_) (fun r stands => ?_) fun r stands => ?_ <;> split
  · exact placed r
  · exact ⟨rfl, rfl, rfl⟩
  · next key =>
    obtain ⟨line, reroute, -⟩ := rule r (own stands key)
    rw [key.2]
    exact ⟨line, reroute⟩
  · obtain ⟨line, -, reroute⟩ := keyed.routed r stands
    exact ⟨line, reroute⟩
  · next key => exact (rule r (own stands key)).2.2
  · exact keyed.stored r stands

theorem allocationKeyed_move {s t : State} (move : Move A B s t) (keyed : s.AllocationKeyed) : t.AllocationKeyed := by
  have line {p : Position} {l : Line} {h : Holder} (held : s.recordAt p l = some h) : (s.routeOf h.route).line = l := by
    obtain ⟨mem, -, rfl⟩ := mem_of_recordAt held
    exact (keyed.routed h mem).1
  cases move with
  | @withdraw p k keep _ =>
    refine allocationKeyed_of_sublist keyed rfl (List.Sublist.refl _) (fun _ e => e) (fun _ _ => ⟨rfl, rfl⟩)
      (fun j e => !(decide (s.portOf j = k) && decide (keep ≠ some j)) || decide (e.pos ≠ p)) fun l => ?_
    rw [listOf_withdrawn, List.map_id']
    split
    · next here => simp [here]
    · next out =>
      refine (List.filter_eq_self.2 fun e _ => ?_).symm
      have off : (decide (s.portOf l = k) && decide (keep ≠ some l)) = false := by simpa using out
      rw [off]
      rfl
  | standing f _ => exact ⟨keyed.records, keyed.routed, keyed.stored, keyed.lists, keyed.placed, keyed.oneList, keyed.apart⟩
  | leave _ held _ =>
    refine allocationKeyed_mapRecord keyed _ _ (fun r => ⟨rfl, rfl, rfl⟩) fun h held => ⟨line (h := h) held, fun x store => ?_, fun store => absurd rfl store⟩
    cases store
  | @remove p l h _ _ _ _ =>
    refine allocationKeyed_of_sublist keyed rfl List.filter_sublist (s.moveRefreshed p l)
      (fun j e => ⟨moveRefreshed_pos .., moveRefreshed_route ..⟩) (fun _ _ => true) fun j => ?_
    rw [listOf_without, List.filter_true]
  | create _ none apart _ => exact allocationKeyed_withRecord keyed none apart
  | @enqueue p r _ none =>
    refine allocationKeyed_of_queued keyed rfl rfl none ?_ (fun e waits => ?_) (fun j other => ?_) fun j other kind e waits => ?_
    · rw [listOf_enqueued, if_pos rfl]
      exact nodup_queueFor (keyed.lists _)
    · rw [listOf_enqueued, if_pos rfl] at waits
      exact mem_queueFor waits
    · rw [listOf_enqueued, if_neg other]
      split
      · exact List.filter_sublist
      · exact .refl _
    · rw [listOf_enqueued, if_neg other, if_pos kind] at waits
      simpa using (List.mem_filter.1 waits).2
  | @take p r _ none apart _ =>
    refine allocationKeyed_of_queued keyed rfl rfl none ?_ (fun e waits => ?_) (fun j other => ?_) fun j other kind e waits => ?_
    · rw [listOf_takeQueued, if_pos rfl, List.map_cons, List.nodup_cons]
      refine ⟨fun mem => ?_, keyed.lists _⟩
      obtain ⟨e, waits, own⟩ := List.mem_map.1 mem
      exact apart _ rfl e waits own
    · rw [listOf_takeQueued, if_pos rfl, List.mem_cons] at waits
      obtain rfl | was := waits
      · exact .inr ⟨rfl, rfl⟩
      · exact .inl ⟨was, apart _ rfl e was⟩
    · rw [listOf_takeQueued, if_neg other]
    · rw [listOf_takeQueued, if_neg other] at waits
      exact apart j kind e waits
  | unstore l _ =>
    exact allocationKeyed_mapRecord keyed _ _ (fun r => ⟨rfl, rfl, rfl⟩) fun h held =>
      ⟨line (h := h) held, fun x store => (by cases store), fun store => absurd rfl store⟩
  | store _ held connected =>
    refine allocationKeyed_mapRecord keyed _ _ (fun r => ⟨rfl, rfl, rfl⟩) fun h at' => ⟨line (h := h) at', fun x store => ?_, fun _ => ?_⟩
    · cases store; rfl
    · obtain rfl := Option.some.inj (held.symm.trans at')
      exact connected
  | replace st _ held rule alone =>
    exact allocationKeyed_mapRecord keyed _ _ (fun r => ⟨rfl, rfl, rfl⟩) fun h at' =>
      ⟨rfl, fun x store => (by cases store), fun store => absurd rfl store⟩
  | connect _ held making _ =>
    refine allocationKeyed_mapRecord keyed _ _ (fun r => ⟨rfl, rfl, rfl⟩) fun h at' => ⟨line (h := h) at', fun x store => ?_, fun _ => rfl⟩
    obtain ⟨mem, -, same⟩ := mem_of_recordAt at'
    rw [← same]
    exact (keyed.routed h mem).2.2 x store
  | request _ _ =>
    refine allocationKeyed_of_map keyed rfl rfl rfl (fun r stands => ?_) (fun r stands => ?_) fun r stands => ?_ <;> split
    · exact ⟨rfl, rfl, rfl⟩
    · exact ⟨rfl, rfl, rfl⟩
    · exact ⟨(keyed.routed r stands).1, (keyed.routed r stands).2.2⟩
    · exact ⟨(keyed.routed r stands).1, (keyed.routed r stands).2.2⟩
    · exact keyed.stored r stands
    · exact keyed.stored r stands
  | make =>
    refine allocationKeyed_of_map keyed rfl rfl rfl (fun r stands => ?_) (fun r stands => ?_) fun r stands => ?_ <;> split
    · exact ⟨rfl, rfl, rfl⟩
    · exact ⟨rfl, rfl, rfl⟩
    · exact ⟨(keyed.routed r stands).1, (keyed.routed r stands).2.2⟩
    · exact ⟨(keyed.routed r stands).1, (keyed.routed r stands).2.2⟩
    · next may =>
      intro store
      have := keyed.stored r stands store
      simp [this] at may
    · exact keyed.stored r stands
  | clear _ =>
    have empty (l : Line) : s.claimsCleared.listOf l = [] := by simp [State.claimsCleared, State.listOf]
    have records : s.claimsCleared.alloc.records = s.alloc.records.map fun r => { r with reroute := none } := rfl
    have mem {r : Holder} (h : r ∈ s.claimsCleared.alloc.records) : ∃ x ∈ s.alloc.records, { x with reroute := none } = r := by
      rwa [records, List.mem_map] at h
    constructor
    · rw [records, List.map_map]; exact keyed.records
    · intro r stands
      obtain ⟨x, was, rfl⟩ := mem stands
      exact ⟨(keyed.routed x was).1, (keyed.routed x was).2.1, fun y store => (by cases store)⟩
    · intro r stands store
      obtain ⟨x, was, rfl⟩ := mem stands
      exact absurd rfl store
    all_goals intros; simp_all

theorem allocationKeyed_moves {s t : State} (moves : Moves A B s t) (keyed : s.AllocationKeyed) : t.AllocationKeyed := by
  induction moves with
  | refl => exact keyed
  | tail _ move ih => exact allocationKeyed_move move ih

end Sys2Proof.Machine
end

section
/-! What each change of the Line Allocator keeps of the order of the lists, of break before make and of the one route of an RX line, and
what it leaves of a position and kind that it does not name. -/

namespace Sys2Proof.Machine

variable {A : Position → PortKind → Prop} {B : Prop}

/-! ## The order of the lists (R50) -/

theorem listOrdered_sublist {xs ys : List WaitEntry} (sub : xs.Sublist ys) (ordered : ListOrdered ys) : ListOrdered xs := by
  obtain ⟨tail, sorted⟩ := ordered
  refine ⟨fun e mem => ?_, sorted.sublist sub⟩
  exact tail e (sub.tail.subset mem)

theorem listOrdered_map {f : WaitEntry → WaitEntry} (kept : ∀ e, (f e).manner = e.manner ∧ (f e).priority = e.priority)
    {xs : List WaitEntry} (ordered : ListOrdered xs) : ListOrdered (xs.map f) := by
  obtain ⟨tail, sorted⟩ := ordered
  constructor
  · intro e mem
    rw [← List.map_tail] at mem
    obtain ⟨x, was, rfl⟩ := List.mem_map.1 mem
    rw [(kept x).1]
    exact tail x was
  · refine sorted.map f fun a b order => ?_
    rw [(kept a).1, (kept a).2, (kept b).2]
    exact order

theorem listOrdered_insertWait {e : WaitEntry} (wait : e.manner ≠ .take) {xs : List WaitEntry} (ordered : ListOrdered xs) :
    ListOrdered (insertWait e xs) := by
  obtain ⟨front, back, rfl, inserted, before, next⟩ := insertWait_split e xs
  rw [inserted]
  obtain ⟨tail, sorted⟩ := ordered
  rw [List.pairwise_append] at sorted
  obtain ⟨sortedFront, sortedBack, across⟩ := sorted
  have behind : ∀ x ∈ back, x.manner ≠ .take ∧ x.priority < e.priority := by
    cases back with
    | nil => simp
    | cons y ys =>
      obtain ⟨noTake, lower⟩ := next y rfl
      intro x mem
      obtain rfl | mem := List.mem_cons.1 mem
      · exact ⟨noTake, lower⟩
      · constructor
        · refine tail x ?_
          cases front with
          | nil => exact mem
          | cons z zs => exact List.mem_append_right _ (List.mem_cons_of_mem _ mem)
        · exact lt_of_le_of_lt (((List.pairwise_cons.1 sortedBack).1 x mem).resolve_left noTake) lower
  constructor
  · intro x mem
    cases front with
    | nil => exact (behind x mem).1
    | cons z zs =>
      obtain mem | mem := List.mem_append.1 mem
      · exact tail x (List.mem_append_left _ mem)
      · obtain rfl | mem := List.mem_cons.1 mem
        · exact wait
        · exact (behind x mem).1
  · rw [List.pairwise_append, List.pairwise_cons]
    refine ⟨sortedFront, ⟨fun x mem => .inr (behind x mem).2.le, sortedBack⟩, fun x inFront y mem => ?_⟩
    obtain rfl | mem := List.mem_cons.1 mem
    · exact before x inFront
    · exact across x inFront y mem

theorem listOrdered_cons_take {e : WaitEntry} (take : e.manner = .take) {xs : List WaitEntry} (ordered : ListOrdered xs)
    (none : hasTake xs = false) : ListOrdered (e :: xs) := by
  refine ⟨fun x mem => ?_, List.pairwise_cons.2 ⟨fun x mem => .inl take, ordered.2⟩⟩
  simp only [hasTake, List.any_eq_false, decide_eq_true_eq] at none
  exact none x mem

theorem listOrdered_queueFor {s : State} {p : Position} {r : Route} {xs : List WaitEntry} (ordered : ListOrdered xs) :
    ListOrdered (s.queueFor p r xs) := by
  unfold State.queueFor
  split
  · exact listOrdered_map (fun e => by split <;> exact ⟨rfl, rfl⟩) ordered
  · exact listOrdered_insertWait (fun h => by cases h) ordered

theorem listsOrdered_move {s t : State} (move : Move A B s t) (ordered : s.ListsOrdered) : t.ListsOrdered := by
  intro j
  cases move with
  | withdraw keep _ =>
    rw [listOf_withdrawn]
    split
    · exact listOrdered_sublist List.filter_sublist (ordered j)
    · exact ordered j
  | @remove p l h _ _ _ _ =>
    rw [listOf_without]
    refine listOrdered_map (fun e => ?_) (ordered j)
    exact ⟨moveRefreshed_manner .., moveRefreshed_priority ..⟩
  | enqueue _ _ =>
    rw [listOf_enqueued]
    split
    · exact listOrdered_queueFor (ordered j)
    · split
      · exact listOrdered_sublist List.filter_sublist (ordered j)
      · exact ordered j
  | take _ _ _ first =>
    rw [listOf_takeQueued]
    split
    · next same =>
      subst same
      exact listOrdered_cons_take rfl (ordered _) first
    · exact ordered j
  | clear _ =>
    have empty : s.claimsCleared.listOf j = [] := by simp [State.claimsCleared, State.listOf]
    rw [empty]
    exact ⟨by simp, .nil⟩
  | _ => exact ordered j

theorem listsOrdered_moves {s t : State} (moves : Moves A B s t) (ordered : s.ListsOrdered) : t.ListsOrdered := by
  induction moves with
  | refl => exact ordered
  | tail _ move ih => exact listsOrdered_move move ih

/-! ## Break before make on MAIN lines, and the one route of an RX line (R50, R70) -/

/-- Break before make in terms of two records of one MAIN line: of those beyond PENDING, and of those not BREAKING, all are of one
position. -/
def State.Exclusive (s : State) : Prop :=
  ∀ x ∈ s.alloc.records, ∀ y ∈ s.alloc.records, x.line = y.line → s.portOf x.line = .main →
    (x.state ≠ .pending → y.state ≠ .pending → x.pos = y.pos) ∧ (x.state ≠ .breaking → y.state ≠ .breaking → x.pos = y.pos)

/-- All records of one RX line name one route. -/
def State.OneRoute (s : State) : Prop :=
  ∀ x ∈ s.alloc.records, ∀ y ∈ s.alloc.records, x.line = y.line → s.portOf x.line = .aux → x.route = y.route

theorem eq_of_length_le_one {α : Type} {xs : List α} (one : xs.length ≤ 1) {a b : α} (ha : a ∈ xs) (hb : b ∈ xs) : a = b := by
  obtain ⟨c, rfl⟩ | rfl : (∃ c, xs = [c]) ∨ xs = [] := by
    match xs, one with
    | [], _ => exact .inr rfl
    | [c], _ => exact .inl ⟨c, rfl⟩
  · rw [List.mem_singleton.1 ha, List.mem_singleton.1 hb]
  · cases ha

theorem exclusive_of_mainExclusive {s : State} (exclusive : s.MainExclusive) : s.Exclusive := by
  intro x hx y hy line main
  obtain ⟨beyond, standing⟩ := exclusive x.line main
  have on {z : Holder} (hz : z ∈ s.alloc.records) (same : z.line = x.line) {t : Holder → Bool} (test : t z = true) :
      z ∈ (s.recordsOn x.line).filter t := List.mem_filter.2 ⟨(mem_recordsOn s _ z).2 ⟨hz, same⟩, test⟩
  constructor
  · intro px py
    rw [eq_of_length_le_one beyond (on hx rfl (decide_eq_true px)) (on hy line.symm (decide_eq_true py))]
  · intro bx by'
    rw [eq_of_length_le_one standing (on hx rfl (decide_eq_true bx)) (on hy line.symm (decide_eq_true by'))]

theorem oneRoute_of_linesShared {s : State} (shared : s.LinesShared) : s.OneRoute := fun x hx y hy line aux =>
  shared.oneRoute x.line aux x ((mem_recordsOn s _ x).2 ⟨hx, rfl⟩) y ((mem_recordsOn s _ y).2 ⟨hy, line.symm⟩)

/-- Records changed in place, none going beyond PENDING and none back from BREAKING. -/
theorem exclusive_of_map {s t : State} {f : Holder → Holder} (exclusive : s.Exclusive) (table : t.table = s.table)
    (records : t.alloc.records = s.alloc.records.map f) (placed : ∀ r ∈ s.alloc.records, (f r).pos = r.pos ∧ (f r).line = r.line)
    (beyond : ∀ r ∈ s.alloc.records, (f r).state ≠ .pending → r.state ≠ .pending)
    (standing : ∀ r ∈ s.alloc.records, (f r).state ≠ .breaking → r.state ≠ .breaking) : t.Exclusive := by
  intro x hx y hy line main
  rw [records, List.mem_map] at hx hy
  obtain ⟨x, hx, rfl⟩ := hx
  obtain ⟨y, hy, rfl⟩ := hy
  rw [(placed x hx).2, (placed y hy).2] at line
  rw [(placed x hx).2, State.portOf, State.lineOf, table] at main
  rw [(placed x hx).1, (placed y hy).1]
  obtain ⟨one, two⟩ := exclusive x hx y hy line main
  exact ⟨fun px py => one (beyond x hx px) (beyond y hy py), fun bx by' => two (standing x hx bx) (standing y hy by')⟩

theorem exclusive_mapRecord {s : State} (keyed : s.AllocationKeyed) (exclusive : s.Exclusive) (p : Position) (l : Line)
    {f : Holder → Holder} (placed : Placed f)
    (rule : ∀ h, s.recordAt p l = some h → ((f h).state ≠ .pending → h.state ≠ .pending) ∧ ((f h).state ≠ .breaking → h.state ≠ .breaking)) :
    (mapRecord p l f s).Exclusive := by
  have own {r : Holder} (stands : r ∈ s.alloc.records) (key : r.pos = p ∧ r.line = l) : s.recordAt p l = some r :=
    (recordAt_eq_some_iff keyed.records).2 ⟨stands, key⟩
  refine exclusive_of_map (f := fun r => if r.pos = p ∧ r.line = l then f r else r) exclusive rfl (records_mapRecord p l f s)
    (fun r stands => ?_) (fun r stands => ?_) fun r stands => ?_ <;> split
  · exact ⟨(placed r).1, (placed r).2.1⟩
  · exact ⟨rfl, rfl⟩
  · next key => exact (rule r (own stands key)).1
  · exact id
  · next key => exact (rule r (own stands key)).2
  · exact id

theorem exclusive_of_subset {s t : State} (exclusive : s.Exclusive) (table : t.table = s.table)
    (records : ∀ r ∈ t.alloc.records, r ∈ s.alloc.records) : t.Exclusive := by
  intro x hx y hy line main
  rw [State.portOf, State.lineOf, table] at main
  exact exclusive x (records x hx) y (records y hy) line main

theorem exclusive_withRecord {s : State} (exclusive : s.Exclusive) {p : Position} {r : Route} (room : s.Roomy r) :
    (s.withRecord p r).Exclusive := by
  have mem {x : Holder} (h : x ∈ (s.withRecord p r).alloc.records) : x ∈ s.alloc.records ∨ x = s.newRecord p r := by
    simpa [records_withRecord] using h
  have breaks {x : Holder} (hx : x ∈ s.alloc.records) (line : x.line = (s.routeOf r).line) (main : s.portOf (s.routeOf r).line = .main) :
      x.state = .breaking := by
    have on : x ∈ s.recordsOn (s.routeOf r).line := (mem_recordsOn s _ x).2 ⟨hx, line⟩
    obtain empty | ⟨-, all⟩ | ⟨aux, -⟩ := room
    · rw [empty] at on
      cases on
    · exact all x on
    · rw [main] at aux
      cases aux
  intro x hx y hy line main
  obtain hx | rfl := mem hx
  · obtain hy | rfl := mem hy
    · exact exclusive x hx y hy line main
    · have at' : x.line = (s.routeOf r).line := line
      have port : s.portOf (s.routeOf r).line = .main := by rw [← at']; exact main
      exact ⟨fun _ py => absurd rfl py, fun bx _ => absurd (breaks hx at' port) bx⟩
  · obtain hy | rfl := mem hy
    · exact ⟨fun px _ => absurd rfl px, fun _ by' => absurd (breaks hy line.symm main) by'⟩
    · exact ⟨fun _ _ => rfl, fun _ _ => rfl⟩

theorem exclusive_made {s : State} (exclusive : s.Exclusive) : s.made.Exclusive := by
  have old {z : Holder} (hz : z ∈ s.made.alloc.records) : ∃ x ∈ s.alloc.records, x.pos = z.pos ∧ x.line = z.line ∧
      (z = x ∨ (x.state = .pending ∧ z.state = .making ∧ s.mayMake x = true)) := by
    obtain ⟨x, hx, rfl⟩ := List.mem_map.1 hz
    refine ⟨x, hx, ?_⟩
    split
    · next may =>
      simp only [Bool.and_eq_true, decide_eq_true_eq] at may
      exact ⟨rfl, rfl, .inr ⟨may.1, rfl, may.2⟩⟩
    · exact ⟨rfl, rfl, .inl rfl⟩
  have alone {x y : Holder} (hy : y ∈ s.alloc.records) (line : y.line = x.line) (may : s.mayMake x = true) :
      y.pos = x.pos ∨ y.state ≠ .breaking := by
    simp only [State.mayMake, Bool.and_eq_true, List.all_eq_true, Bool.or_eq_true, decide_eq_true_eq] at may
    exact may.1.2 y ((mem_recordsOn s _ y).2 ⟨hy, line⟩)
  intro x' hx' y' hy' line main
  obtain ⟨x, hx, px, lx, fx⟩ := old hx'
  obtain ⟨y, hy, py, ly, fy⟩ := old hy'
  rw [← lx, ← ly] at line
  rw [← lx] at main
  rw [← px, ← py]
  obtain ⟨beyond, standing⟩ := exclusive x hx y hy line main
  constructor
  · intro hx' hy'
    obtain rfl | ⟨pendingX, -, mayX⟩ := fx
    · obtain rfl | ⟨pendingY, -, mayY⟩ := fy
      · exact beyond hx' hy'
      · refine (alone hx line mayY).elim id fun bx => standing bx ?_
        rw [pendingY]
        nofun
    · refine (alone hy line.symm mayX).elim Eq.symm fun by' => standing ?_ by'
      rw [pendingX]
      nofun
  · intro hx' hy'
    refine standing ?_ ?_
    · obtain rfl | ⟨pendingX, -, -⟩ := fx
      · exact hx'
      · rw [pendingX]
        nofun
    · obtain rfl | ⟨pendingY, -, -⟩ := fy
      · exact hy'
      · rw [pendingY]
        nofun

theorem exclusive_move {s t : State} (move : Move A B s t) (keyed : s.AllocationKeyed) (exclusive : s.Exclusive) : t.Exclusive := by
  cases move with
  | withdraw keep _ => exact exclusive
  | standing f _ => exact exclusive
  | @leave p l h _ held stands =>
    refine exclusive_mapRecord keyed exclusive p l (fun r => ⟨rfl, rfl, rfl⟩) fun x at' => ⟨fun _ => ?_, fun off => absurd rfl off⟩
    obtain rfl := Option.some.inj (held.symm.trans at')
    obtain making | connected := stands
    · rw [making]
      nofun
    · rw [connected]
      nofun
  | remove _ _ _ _ => exact exclusive_of_subset exclusive rfl fun r mem => ((mem_records_without _ _ _ r).1 mem).1
  | create _ _ _ room => exact exclusive_withRecord exclusive room
  | enqueue _ _ => exact exclusive
  | take _ _ _ _ => exact exclusive
  | unstore l _ => exact exclusive_mapRecord keyed exclusive _ _ (fun r => ⟨rfl, rfl, rfl⟩) fun h _ => ⟨id, id⟩
  | store _ _ _ => exact exclusive_mapRecord keyed exclusive _ _ (fun r => ⟨rfl, rfl, rfl⟩) fun h _ => ⟨id, id⟩
  | @replace p r h st _ held rule _ =>
    refine exclusive_mapRecord keyed exclusive _ _ (fun r => ⟨rfl, rfl, rfl⟩) fun x at' => ?_
    obtain rfl := Option.some.inj (held.symm.trans at')
    obtain ⟨rfl, -⟩ | ⟨rfl, connected, -⟩ := rule
    · exact ⟨id, id⟩
    · rw [connected]
      exact ⟨fun _ => nofun, fun _ => nofun⟩
  | @connect p l h _ held making _ =>
    refine exclusive_mapRecord keyed exclusive _ _ (fun r => ⟨rfl, rfl, rfl⟩) fun x at' => ?_
    obtain rfl := Option.some.inj (held.symm.trans at')
    rw [making]
    exact ⟨fun _ => nofun, fun _ => nofun⟩
  | request _ _ =>
    refine exclusive_of_map exclusive rfl rfl (fun r _ => ?_) (fun r _ => ?_) fun r _ => ?_ <;> split
    · exact ⟨rfl, rfl⟩
    · exact ⟨rfl, rfl⟩
    · exact id
    · exact id
    · exact id
    · exact id
  | make => exact exclusive_made exclusive
  | clear _ => exact exclusive_of_map exclusive rfl rfl (fun r _ => ⟨rfl, rfl⟩) (fun r _ => id) fun r _ => id

/-- Records changed in place, their routes kept. -/
theorem oneRoute_of_map {s t : State} {f : Holder → Holder} (oneRoute : s.OneRoute) (table : t.table = s.table)
    (records : t.alloc.records = s.alloc.records.map f) (kept : ∀ r, (f r).line = r.line ∧ (f r).route = r.route) : t.OneRoute := by
  intro x hx y hy line aux
  rw [records, List.mem_map] at hx hy
  obtain ⟨x, hx, rfl⟩ := hx
  obtain ⟨y, hy, rfl⟩ := hy
  rw [(kept x).1, (kept y).1] at line
  rw [(kept x).1, State.portOf, State.lineOf, table] at aux
  rw [(kept x).2, (kept y).2]
  exact oneRoute x hx y hy line aux

theorem oneRoute_mapRecord {s : State} (oneRoute : s.OneRoute) (p : Position) (l : Line) {f : Holder → Holder}
    (kept : ∀ r, (f r).line = r.line ∧ (f r).route = r.route) : (mapRecord p l f s).OneRoute := by
  refine oneRoute_of_map (f := fun r => if r.pos = p ∧ r.line = l then f r else r) oneRoute rfl (records_mapRecord p l f s) fun r => ?_
  split
  · exact kept r
  · exact ⟨rfl, rfl⟩

theorem oneRoute_withRecord {s : State} (oneRoute : s.OneRoute) {p : Position} {r : Route} (room : s.Roomy r) :
    (s.withRecord p r).OneRoute := by
  have mem {x : Holder} (h : x ∈ (s.withRecord p r).alloc.records) : x ∈ s.alloc.records ∨ x = s.newRecord p r := by
    simpa [records_withRecord] using h
  have named {x : Holder} (hx : x ∈ s.alloc.records) (line : x.line = (s.routeOf r).line) (aux : s.portOf (s.routeOf r).line = .aux) :
      x.route = r := by
    have on : x ∈ s.recordsOn (s.routeOf r).line := (mem_recordsOn s _ x).2 ⟨hx, line⟩
    obtain empty | ⟨main, -⟩ | ⟨-, all⟩ := room
    · rw [empty] at on
      cases on
    · rw [main] at aux
      cases aux
    · exact all x on
  intro x hx y hy line aux
  obtain hx | rfl := mem hx
  · obtain hy | rfl := mem hy
    · exact oneRoute x hx y hy line aux
    · have at' : x.line = (s.routeOf r).line := line
      have port : s.portOf (s.routeOf r).line = .aux := by rw [← at']; exact aux
      exact named hx at' port
  · obtain hy | rfl := mem hy
    · exact (named hy line.symm aux).symm
    · rfl

theorem oneRoute_move {s t : State} (move : Move A B s t) (keyed : s.AllocationKeyed) (oneRoute : s.OneRoute) : t.OneRoute := by
  cases move with
  | withdraw keep _ => exact oneRoute
  | standing f _ => exact oneRoute
  | leave _ _ _ => exact oneRoute_mapRecord oneRoute _ _ fun r => ⟨rfl, rfl⟩
  | remove _ _ _ _ =>
    intro x hx y hy
    exact oneRoute x ((mem_records_without _ _ _ x).1 hx).1 y ((mem_records_without _ _ _ y).1 hy).1
  | create _ _ _ room => exact oneRoute_withRecord oneRoute room
  | enqueue _ _ => exact oneRoute
  | take _ _ _ _ => exact oneRoute
  | unstore l _ => exact oneRoute_mapRecord oneRoute _ _ fun r => ⟨rfl, rfl⟩
  | store _ _ _ => exact oneRoute_mapRecord oneRoute _ _ fun r => ⟨rfl, rfl⟩
  | @replace p r h st _ held _ alone =>
    intro x hx y hy line aux
    rw [records_mapRecord, List.mem_map] at hx hy
    obtain ⟨x, hx, rfl⟩ := hx
    obtain ⟨y, hy, rfl⟩ := hy
    have only {z : Holder} (hz : z ∈ s.alloc.records) (at' : z.line = (s.routeOf r).line) (port : s.portOf (s.routeOf r).line = .aux) :
        z.pos = p := alone port z ((mem_recordsOn s _ z).2 ⟨hz, at'⟩)
    by_cases kx : x.pos = p ∧ x.line = (s.routeOf r).line
    · rw [if_pos kx] at line aux ⊢
      have port : s.portOf (s.routeOf r).line = .aux := kx.2 ▸ aux
      by_cases ky : y.pos = p ∧ y.line = (s.routeOf r).line
      · rw [if_pos ky]
      · rw [if_neg ky] at line
        have at' : y.line = (s.routeOf r).line := line.symm.trans kx.2
        exact absurd ⟨only hy at' port, at'⟩ ky
    · rw [if_neg kx] at line aux ⊢
      by_cases ky : y.pos = p ∧ y.line = (s.routeOf r).line
      · rw [if_pos ky] at line
        have at' : x.line = (s.routeOf r).line := line.trans ky.2
        exact absurd ⟨only hx at' (at' ▸ aux), at'⟩ kx
      · rw [if_neg ky] at line ⊢
        exact oneRoute x hx y hy line aux
  | connect _ _ _ _ => exact oneRoute_mapRecord oneRoute _ _ fun r => ⟨rfl, rfl⟩
  | request _ _ => exact oneRoute_of_map oneRoute rfl rfl fun r => by split <;> exact ⟨rfl, rfl⟩
  | make => exact oneRoute_of_map oneRoute rfl rfl fun r => by split <;> exact ⟨rfl, rfl⟩
  | clear _ => exact oneRoute_of_map oneRoute rfl rfl fun r => ⟨rfl, rfl⟩

/-! ## Who waits, and whose standing names a line -/

/-- `A` admits every position that waits, with its list's kind, and every position and kind with a re-claim line. -/
structure Cover (A : Position → PortKind → Prop) (s : State) : Prop where
  waits : ∀ l, ∀ e ∈ s.listOf l, A e.pos (s.portOf l)
  reclaims : ∀ q k, (s.standing q k).reclaim ≠ none → A q k

theorem cover_true (s : State) : Cover (fun _ _ => True) s := ⟨fun _ _ _ => trivial, fun _ _ _ => trivial⟩

theorem cover_move {s t : State} (move : Move A B s t) (cover : Cover A s) : Cover A t := by
  have port (l : Line) : t.portOf l = s.portOf l := portOf_of_eq move.eq l
  constructor
  · intro l e waits
    rw [port]
    cases move with
    | withdraw keep _ =>
      rw [listOf_withdrawn] at waits
      split at waits
      · exact cover.waits l e (List.mem_of_mem_filter waits)
      · exact cover.waits l e waits
    | @remove p j h _ _ _ _ =>
      rw [listOf_without] at waits
      obtain ⟨x, was, rfl⟩ := List.mem_map.1 waits
      rw [moveRefreshed_pos]
      exact cover.waits l x was
    | enqueue actor _ =>
      rw [listOf_enqueued] at waits
      split at waits
      · next same =>
        subst same
        obtain ⟨was, -⟩ | ⟨rfl, -⟩ := mem_queueFor waits
        · exact cover.waits _ e was
        · exact actor
      · split at waits
        · exact cover.waits l e (List.mem_of_mem_filter waits)
        · exact cover.waits l e waits
    | take actor _ _ _ =>
      rw [listOf_takeQueued] at waits
      split at waits
      · next same =>
        subst same
        obtain rfl | was := List.mem_cons.1 waits
        · exact actor
        · exact cover.waits _ e was
      · exact cover.waits l e waits
    | clear _ => simp [State.claimsCleared, State.listOf] at waits
    | _ => exact cover.waits l e waits
  · intro q k named
    cases move with
    | @standing p j f actor =>
      rw [standing_mapStanding] at named
      split at named
      · next same =>
        rw [same.1, same.2]
        exact actor
      · exact cover.reclaims q k named
    | clear _ =>
      exfalso
      apply named
      cases k <;> simp [State.claimsCleared, State.standing, Standings.on, clearStanding]
    | _ => exact cover.reclaims q k named

theorem cover_moves {s t : State} (moves : Moves A B s t) (cover : Cover A s) : Cover A t := by
  induction moves with
  | refl => exact cover
  | tail _ move ih => exact cover_move move ih

end Sys2Proof.Machine
end

section
/-! What a change of the Line Allocator leaves of a position and kind that it does not name: their records, but that a PENDING one may be
made, their entries and their standing. -/

namespace Sys2Proof.Machine

variable {A : Position → PortKind → Prop} {B : Prop}

/-- A record as a bystander's may be found again: as it was, or made (R42). -/
def Holder.Keeps (x y : Holder) : Prop := y = x ∨ (x.state = .pending ∧ y = { x with state := .making })

/-- The records, entries and standing of a position and kind are as they were, but that a PENDING record may be MAKING. -/
structure State.Spared (s t : State) (q : Position) (k : PortKind) : Prop where
  records : List.Forall₂ Holder.Keeps (s.recordsOf q k) (t.recordsOf q k)
  entries : ∀ l, s.portOf l = k → (t.listOf l).filter (fun e => e.pos = q) = (s.listOf l).filter fun e => e.pos = q
  standing : t.standing q k = s.standing q k

theorem Holder.Keeps.refl (x : Holder) : x.Keeps x := .inl rfl

theorem Holder.Keeps.trans {x y z : Holder} (h : x.Keeps y) (g : y.Keeps z) : x.Keeps z := by
  obtain rfl | ⟨pending, rfl⟩ := h
  · exact g
  · obtain rfl | ⟨again, -⟩ := g
    · exact .inr ⟨pending, rfl⟩
    · cases again

theorem forall₂_keeps_refl : ∀ xs : List Holder, List.Forall₂ Holder.Keeps xs xs
  | [] => .nil
  | x :: xs => .cons (.refl x) (forall₂_keeps_refl xs)

theorem forall₂_keeps_trans {xs ys zs : List Holder} (h : List.Forall₂ Holder.Keeps xs ys) (g : List.Forall₂ Holder.Keeps ys zs) :
    List.Forall₂ Holder.Keeps xs zs := by
  induction h generalizing zs with
  | nil => exact g
  | cons keeps _ ih =>
    cases g with
    | cons keeps' rest => exact .cons (keeps.trans keeps') (ih rest)

theorem spared_refl (s : State) (q : Position) (k : PortKind) : s.Spared s q k :=
  ⟨forall₂_keeps_refl _, fun _ _ => rfl, rfl⟩

theorem State.Spared.trans {s t u : State} {q : Position} {k : PortKind} (port : ∀ l, t.portOf l = s.portOf l) (h : s.Spared t q k)
    (g : t.Spared u q k) : s.Spared u q k :=
  ⟨forall₂_keeps_trans h.records g.records, fun l kind => (g.entries l (by rw [port]; exact kind)).trans (h.entries l kind),
    g.standing.trans h.standing⟩

theorem exists_right_of_forall₂ {α : Type} {R : α → α → Prop} {xs ys : List α} (h : List.Forall₂ R xs ys) {x : α} (mem : x ∈ xs) :
    ∃ y ∈ ys, R x y := by
  induction h with
  | nil => cases mem
  | @cons a b as bs related _ ih =>
    obtain rfl | mem := List.mem_cons.1 mem
    · exact ⟨b, List.mem_cons_self, related⟩
    · obtain ⟨y, hy, related⟩ := ih mem
      exact ⟨y, List.mem_cons_of_mem _ hy, related⟩

theorem exists_left_of_forall₂ {α : Type} {R : α → α → Prop} {xs ys : List α} (h : List.Forall₂ R xs ys) {y : α} (mem : y ∈ ys) :
    ∃ x ∈ xs, R x y := by
  obtain ⟨x, hx, related⟩ := exists_right_of_forall₂ h.flip mem
  exact ⟨x, hx, related⟩

/-! ## Records kept -/

theorem recordsOf_mapRecord_of_ne {s : State} {p q : Position} {l : Line} {k : PortKind} {f : Holder → Holder} (placed : Placed f)
    (keyed : s.AllocationKeyed) (other : ¬(q = p ∧ k = s.portOf l)) : (mapRecord p l f s).recordsOf q k = s.recordsOf q k := by
  rw [State.recordsOf, records_mapRecord, List.filter_map, State.recordsOf]
  have test : (fun r : Holder => decide (r.pos = q) && decide (r.kind = k)) ∘ (fun r => if r.pos = p ∧ r.line = l then f r else r) =
      fun r => decide (r.pos = q) && decide (r.kind = k) := by
    funext r
    obtain ⟨pos, -, kind⟩ := placed r
    rw [Function.comp]
    split <;> simp only [pos, kind]
  rw [test]
  refine (List.map_congr_left fun r mem => ?_).trans (List.map_id _)
  rw [List.mem_filter] at mem
  simp only [Bool.and_eq_true, decide_eq_true_eq] at mem
  obtain ⟨stands, rfl, rfl⟩ := mem
  rw [if_neg]
  · rfl
  · rintro ⟨pos, line⟩
    exact other ⟨pos, by rw [(keyed.routed r stands).2.1, line]⟩

theorem recordsOf_without_of_ne {s : State} {p q : Position} {l : Line} {k : PortKind} (keyed : s.AllocationKeyed)
    (other : ¬(q = p ∧ k = s.portOf l)) : (s.without p l).recordsOf q k = s.recordsOf q k := by
  rw [State.recordsOf, records_without, List.filter_filter, State.recordsOf]
  refine List.filter_congr fun r stands => ?_
  by_cases key : r.pos = q ∧ r.kind = k
  · obtain ⟨rfl, rfl⟩ := key
    have off : (decide (r.pos = p) && decide (r.line = l)) = false := by
      rw [Bool.and_eq_false_iff, decide_eq_false_iff_not, decide_eq_false_iff_not, ← not_and_or]
      rintro ⟨pos, line⟩
      exact other ⟨pos, by rw [(keyed.routed r stands).2.1, line]⟩
    simp [off]
  · have out : (decide (r.pos = q) && decide (r.kind = k)) = false := by simpa using key
    simp [out]

theorem recordsOf_withRecord_of_ne {s : State} {p q : Position} {r : Route} {k : PortKind}
    (other : ¬(q = p ∧ k = s.portOf (s.routeOf r).line)) : (s.withRecord p r).recordsOf q k = s.recordsOf q k := by
  rw [State.recordsOf, records_withRecord, List.filter_append, State.recordsOf]
  have out : List.filter (fun x : Holder => decide (x.pos = q) && decide (x.kind = k)) [s.newRecord p r] = [] := by
    rw [List.filter_eq_nil_iff]
    intro x mem key
    rw [List.mem_singleton] at mem
    subst mem
    simp only [Bool.and_eq_true, decide_eq_true_eq] at key
    exact other ⟨key.1.symm, key.2.symm⟩
  rw [out, List.append_nil]

theorem keeps_recordsOf_of_map {s t : State} {f : Holder → Holder} (records : t.alloc.records = s.alloc.records.map f) {q : Position}
    {k : PortKind} (placed : ∀ r, (f r).pos = r.pos ∧ (f r).kind = r.kind)
    (keeps : ∀ r ∈ s.alloc.records, r.pos = q → r.kind = k → r.Keeps (f r)) :
    List.Forall₂ Holder.Keeps (s.recordsOf q k) (t.recordsOf q k) := by
  rw [State.recordsOf, State.recordsOf, records, List.filter_map]
  have test : (fun r : Holder => decide (r.pos = q) && decide (r.kind = k)) ∘ f = fun r => decide (r.pos = q) && decide (r.kind = k) := by
    funext r
    rw [Function.comp, (placed r).1, (placed r).2]
  rw [test, List.forall₂_map_right_iff, List.forall₂_same]
  intro r mem
  rw [List.mem_filter] at mem
  simp only [Bool.and_eq_true, decide_eq_true_eq] at mem
  exact keeps r mem.1 mem.2.1 mem.2.2

theorem keeps_made {s : State} (q : Position) (k : PortKind) : List.Forall₂ Holder.Keeps (s.recordsOf q k) (s.made.recordsOf q k) := by
  refine keeps_recordsOf_of_map rfl (fun r => ?_) fun r _ _ _ => ?_ <;> split
  · exact ⟨rfl, rfl⟩
  · exact ⟨rfl, rfl⟩
  · next may =>
    simp only [Bool.and_eq_true, decide_eq_true_eq] at may
    exact .inr ⟨may.1, rfl⟩
  · exact .refl r

/-! ## Entries kept -/

theorem filter_queueFor {s : State} {p q : Position} {r : Route} (other : q ≠ p) (xs : List WaitEntry) :
    (s.queueFor p r xs).filter (fun e => e.pos = q) = xs.filter fun e => e.pos = q := by
  unfold State.queueFor
  split
  · rw [List.filter_map]
    have test : (fun e : WaitEntry => decide (e.pos = q)) ∘ (fun e => if e.pos = p then { e with route := r } else e) =
        fun e => decide (e.pos = q) := by
      funext e
      rw [Function.comp]
      split <;> rfl
    rw [test]
    refine (List.map_congr_left fun e mem => ?_).trans (List.map_id _)
    rw [List.mem_filter, decide_eq_true_eq] at mem
    rw [if_neg fun own => other (mem.2.symm.trans own)]
    rfl
  · obtain ⟨front, back, split, inserted, -, -⟩ := insertWait_split (newEntry p r .wait s) xs
    rw [inserted, split, List.filter_append, List.filter_append, List.filter_cons_of_neg]
    simpa [newEntry] using Ne.symm other

theorem filter_without {s : State} {p q : Position} {l j : Line} (other : ¬(q = p ∧ s.portOf j = s.portOf l)) :
    ((s.without p l).listOf j).filter (fun e => e.pos = q) = (s.listOf j).filter fun e => e.pos = q := by
  rw [listOf_without, List.filter_map]
  have test : (fun e : WaitEntry => decide (e.pos = q)) ∘ s.moveRefreshed p l j = fun e => decide (e.pos = q) := by
    funext e
    rw [Function.comp, moveRefreshed_pos]
  rw [test]
  refine (List.map_congr_left fun e mem => ?_).trans (List.map_id _)
  rw [List.mem_filter, decide_eq_true_eq] at mem
  refine moveRefreshed_of_ne ?_
  by_contra both
  rw [not_or, not_not, not_not] at both
  exact other ⟨mem.2.symm.trans both.1, both.2⟩

theorem filter_filter_ne {p q : Position} (other : q ≠ p) (xs : List WaitEntry) :
    (xs.filter fun e => e.pos ≠ p).filter (fun e => e.pos = q) = xs.filter fun e => e.pos = q := by
  rw [List.filter_filter]
  refine List.filter_congr fun e _ => ?_
  by_cases same : e.pos = q
  · simp [same, other]
  · simp [same]

/-! ## Moves spare those they do not name -/

theorem spared_move {s t : State} (move : Move A B s t) (keyed : s.AllocationKeyed) {q : Position} {k : PortKind} (out : ¬A q k) :
    s.Spared t q k := by
  have ne {p : Position} {j : PortKind} (actor : A p j) : ¬(q = p ∧ k = j) := by
    rintro ⟨rfl, rfl⟩
    exact out actor
  have own {p : Position} {l : Line} {f : Holder → Holder} (placed : Placed f) (actor : A p (s.portOf l)) :
      s.Spared (mapRecord p l f s) q k :=
    ⟨by rw [recordsOf_mapRecord_of_ne placed keyed (ne actor)]; exact forall₂_keeps_refl _, fun _ _ => rfl, rfl⟩
  cases move with
  | @withdraw p j keep actor =>
    refine ⟨forall₂_keeps_refl _, fun l kind => ?_, rfl⟩
    rw [listOf_withdrawn]
    split
    · next here => exact filter_filter_ne (fun same => ne actor ⟨same, kind.symm.trans here.1⟩) _
    · rfl
  | @standing p j f actor =>
    refine ⟨forall₂_keeps_refl _, fun _ _ => rfl, ?_⟩
    rw [standing_mapStanding, if_neg (ne actor)]
  | leave actor _ _ => exact own (fun r => ⟨rfl, rfl, rfl⟩) actor
  | @remove p l h actor _ _ _ =>
    refine ⟨by rw [recordsOf_without_of_ne keyed (ne actor)]; exact forall₂_keeps_refl _, fun j kind => ?_, rfl⟩
    exact filter_without fun both => ne actor ⟨both.1, kind.symm.trans both.2⟩
  | @create p r actor _ _ _ =>
    exact ⟨by rw [recordsOf_withRecord_of_ne (ne actor)]; exact forall₂_keeps_refl _, fun _ _ => rfl, rfl⟩
  | @enqueue p r actor _ =>
    refine ⟨forall₂_keeps_refl _, fun j kind => ?_, rfl⟩
    rw [listOf_enqueued]
    split
    · next same =>
      subst same
      exact filter_queueFor (fun same => ne actor ⟨same, kind.symm⟩) _
    · split
      · next port => exact filter_filter_ne (fun same => ne actor ⟨same, kind.symm.trans port⟩) _
      · rfl
  | @take p r actor _ _ _ =>
    refine ⟨forall₂_keeps_refl _, fun j kind => ?_, rfl⟩
    rw [listOf_takeQueued]
    split
    · next same =>
      subst same
      exact List.filter_cons_of_neg (by simpa [newEntry] using fun same : p = q => ne actor ⟨same.symm, kind.symm⟩)
    · rfl
  | unstore l actor => exact own (fun r => ⟨rfl, rfl, rfl⟩) actor
  | store actor _ _ => exact own (fun r => ⟨rfl, rfl, rfl⟩) actor
  | replace st actor _ _ _ => exact own (fun r => ⟨rfl, rfl, rfl⟩) actor
  | connect actor _ _ _ => exact own (fun r => ⟨rfl, rfl, rfl⟩) actor
  | @request p actor _ =>
    refine ⟨keeps_recordsOf_of_map rfl (fun r => by split <;> exact ⟨rfl, rfl⟩) fun r _ pos _ => ?_, fun _ _ => rfl, rfl⟩
    rw [if_neg]
    · exact .refl r
    · intro test
      simp only [Bool.and_eq_true, decide_eq_true_eq] at test
      exact ne (actor k) ⟨pos.symm.trans test.1, rfl⟩
  | make => exact ⟨keeps_made q k, fun _ _ => rfl, rfl⟩
  | clear all => exact absurd (all q k) out

theorem spared_moves {s t : State} (moves : Moves A B s t) (keyed : s.AllocationKeyed) {q : Position} {k : PortKind} (out : ¬A q k) :
    s.Spared t q k := by
  induction moves with
  | refl => exact spared_refl s q k
  | tail moves move ih => exact ih.trans (fun l => portOf_of_eq (Moves.eq moves) l) (spared_move move (allocationKeyed_moves moves keyed) out)

/-- A bystander that stood in no list of the kind stands in none. -/
theorem State.Spared.waitsNot {s t : State} {q : Position} {k : PortKind} (spared : s.Spared t q k) {l : Line} (kind : s.portOf l = k)
    (none : ∀ e ∈ s.listOf l, e.pos ≠ q) : ∀ e ∈ t.listOf l, e.pos ≠ q := by
  intro e waits own
  have mem : e ∈ (t.listOf l).filter fun e => e.pos = q := List.mem_filter.2 ⟨waits, decide_eq_true own⟩
  rw [spared.entries l kind, List.mem_filter, decide_eq_true_eq] at mem
  exact none e mem.1 mem.2

/-- A bystander's record is found again, and only records that it had. -/
theorem State.Spared.recordAt {s t : State} {q : Position} {k : PortKind} (spared : s.Spared t q k) (keyed : s.AllocationKeyed)
    (keyed' : t.AllocationKeyed) (port : ∀ l, t.portOf l = s.portOf l) {l : Line} (kind : s.portOf l = k) :
    (∀ h, s.recordAt q l = some h → ∃ h', t.recordAt q l = some h' ∧ h.Keeps h') ∧ (s.recordAt q l = none → t.recordAt q l = none) := by
  have keyOf {x y : Holder} (keeps : x.Keeps y) : y.pos = x.pos ∧ y.line = x.line := by
    obtain rfl | ⟨-, rfl⟩ := keeps <;> exact ⟨rfl, rfl⟩
  constructor
  · intro h held
    obtain ⟨mem, rfl, rfl⟩ := mem_of_recordAt held
    have own : h ∈ s.recordsOf h.pos k := (mem_recordsOf s _ _ h).2 ⟨mem, rfl, by rw [(keyed.routed h mem).2.1, kind]⟩
    obtain ⟨h', mem', keeps⟩ := exists_right_of_forall₂ spared.records own
    obtain ⟨stands, -, -⟩ := (mem_recordsOf t _ _ h').1 mem'
    exact ⟨h', (recordAt_eq_some_iff keyed'.records).2 ⟨stands, (keyOf keeps).1, (keyOf keeps).2⟩, keeps⟩
  · intro none
    rw [recordAt_eq_none_iff] at none ⊢
    rintro h' stands' rfl rfl
    have own : h' ∈ t.recordsOf h'.pos k :=
      (mem_recordsOf t _ _ h').2 ⟨stands', rfl, by rw [(keyed'.routed h' stands').2.1, port, kind]⟩
    obtain ⟨h, mem, keeps⟩ := exists_left_of_forall₂ spared.records own
    obtain ⟨stands, -, -⟩ := (mem_recordsOf s _ _ h).1 mem
    exact none h stands (keyOf keeps).1.symm (keyOf keeps).2.symm

end Sys2Proof.Machine
end

section
/-! Records leaving their lines and waiters admitted (R44, R45, R58, R65), as changes of the allocator one by one. -/

namespace Sys2Proof.Machine

variable {A : Position → PortKind → Prop} {B : Prop}

/-! ## Leaving a line -/

/-- The state once the record of `p` on `l` has gone BREAKING: removed where it is PENDING or never closed its crosspoint (R44, R45). -/
def State.left (s : State) (p : Position) (l : Line) : State :=
  match s.recordAt p l with
  | none => s
  | some h =>
    if h.state = .breaking then s
    else if h.state = .pending ∨ neverClosed h s = true then s.without p l
    else s.broken p l

theorem left_of_none {s : State} {p : Position} {l : Line} (none : s.recordAt p l = none) : s.left p l = s := by
  rw [State.left, none]

theorem left_of_breaking {s : State} {p : Position} {l : Line} {h : Holder} (held : s.recordAt p l = some h) (breaking : h.state = .breaking) :
    s.left p l = s := by
  rw [State.left, held]
  exact if_pos breaking

theorem left_of_gone {s : State} {p : Position} {l : Line} {h : Holder} (held : s.recordAt p l = some h) (standing : h.state ≠ .breaking)
    (gone : h.state = .pending ∨ neverClosed h s = true) : s.left p l = s.without p l := by
  rw [State.left, held]
  exact (if_neg standing).trans (if_pos gone)

theorem left_of_closed {s : State} {p : Position} {l : Line} {h : Holder} (held : s.recordAt p l = some h) (standing : h.state ≠ .breaking)
    (closed : ¬(h.state = .pending ∨ neverClosed h s = true)) : s.left p l = s.broken p l := by
  rw [State.left, held]
  exact (if_neg standing).trans (if_neg closed)

theorem without_broken (s : State) (p : Position) (l : Line) : (s.broken p l).without p l = s.without p l := by
  have filtered : (s.broken p l).alloc.records.filter (fun r => !(decide (r.pos = p) && decide (r.line = l))) =
      s.alloc.records.filter fun r => !(decide (r.pos = p) && decide (r.line = l)) := by
    rw [State.broken, records_mapRecord, List.filter_map]
    have test : (fun r : Holder => !(decide (r.pos = p) && decide (r.line = l))) ∘ (fun r => if r.pos = p ∧ r.line = l then
        { r with state := .breaking, reroute := none, breakRequested := s.pathQuiet p } else r) =
        fun r => !(decide (r.pos = p) && decide (r.line = l)) := by
      funext r
      rw [Function.comp]
      split <;> rfl
    rw [test]
    refine (List.map_congr_left fun r mem => ?_).trans (List.map_id _)
    have out := (List.mem_filter.1 mem).2
    rw [if_neg]
    · rfl
    · intro key
      simp [key] at out
  unfold State.without
  congr 1
  simp only [State.mapAlloc, State.broken, mapRecord] at filtered ⊢
  rw [filtered]

theorem recordAt_broken (s : State) (p : Position) (l : Line) (q : Position) (j : Line) :
    (s.broken p l).recordAt q j = if q = p ∧ j = l then
      (s.recordAt q j).map fun r => { r with state := .breaking, reroute := none, breakRequested := s.pathQuiet p }
    else s.recordAt q j :=
  recordAt_mapRecord (f := fun r => { r with state := .breaking, reroute := none, breakRequested := s.pathQuiet p })
    (fun r => ⟨rfl, rfl, rfl⟩) p l s q j

theorem neverClosed_of_chain {s t : State} (same : t.chain = s.chain) (h : Holder) : neverClosed h t = neverClosed h s := by
  rw [neverClosed, same]; rfl

theorem s_noteRelease (p : Position) (k : PortKind) (w : Work) : (noteRelease p k w).s = w.s := by cases k <;> rfl

theorem goBreaking_s (p : Position) (l : Line) (w : Work) : (goBreaking p l w).s = w.s.left p l := by
  have dropped {h : Holder} (held : w.s.recordAt p l = some h) (moving : h.state = .making ∨ h.state = .connected) :
      (dropNeverClosed h (noteRelease p h.kind (toBreaking p l w))).s = w.s.left p l := by
    obtain ⟨-, pos, line⟩ := mem_of_recordAt held
    have standing : h.state ≠ .breaking := by obtain on | on := moving <;> rw [on] <;> nofun
    have notPending : h.state ≠ .pending := by obtain on | on := moving <;> rw [on] <;> nofun
    have broken : (noteRelease p h.kind (toBreaking p l w)).s = w.s.broken p l := s_noteRelease _ _ _
    unfold dropNeverClosed
    rw [broken, neverClosed_of_chain (show (w.s.broken p l).chain = w.s.chain from rfl)]
    split
    · next never =>
      rw [removeRecord_s, broken, pos, line, without_broken, left_of_gone held standing (.inr never)]
    · next closed =>
      rw [broken, left_of_closed held standing fun gone => gone.elim notPending closed]
  unfold goBreaking
  split
  · next none => rw [left_of_none none]
  · next h held =>
    split
    · next pending => rw [removeRecord_s, left_of_gone held (by rw [pending]; nofun) (.inl pending)]
    · next breaking => rw [left_of_breaking held breaking]
    · next making => exact dropped held (.inl making)
    · next connected => exact dropped held (.inr connected)

/-- The four ways in which a record's leaving may find it. -/
theorem left_cases (s : State) (p : Position) (l : Line) :
    s.left p l = s ∨
    (∃ h, s.recordAt p l = some h ∧ h.state ≠ .breaking ∧ (h.state = .pending ∨ neverClosed h s = true) ∧ s.left p l = s.without p l) ∨
    ∃ h, s.recordAt p l = some h ∧ (h.state = .making ∨ h.state = .connected) ∧ neverClosed h s = false ∧ s.left p l = s.broken p l := by
  cases held : s.recordAt p l with
  | none => exact .inl (left_of_none held)
  | some h =>
    by_cases breaking : h.state = .breaking
    · exact .inl (left_of_breaking held breaking)
    · by_cases gone : h.state = .pending ∨ neverClosed h s = true
      · exact .inr (.inl ⟨h, rfl, breaking, gone, left_of_gone held breaking gone⟩)
      · refine .inr (.inr ⟨h, rfl, ?_, ?_, left_of_closed held breaking gone⟩)
        · rw [not_or] at gone
          cases state : h.state with
          | pending => exact absurd state gone.1
          | making => exact .inl rfl
          | connected => exact .inr rfl
          | breaking => exact absurd state breaking
        · rw [not_or] at gone
          exact Bool.not_eq_true _ ▸ gone.2

theorem moves_left {s : State} {p : Position} {l : Line} (actor : A p (s.portOf l)) : Moves A B s (s.left p l) := by
  obtain same | ⟨h, held, standing, gone, eq⟩ | ⟨h, held, moving, -, eq⟩ := left_cases s p l
  · rw [same]
  · rw [eq]
    exact .single (.remove actor held gone fun breaking => absurd breaking standing)
  · rw [eq]
    exact .single (.leave actor held moving)

theorem moves_goBreaking {w : Work} {p : Position} {l : Line} (actor : A p (w.s.portOf l)) : Moves A B w.s (goBreaking p l w).s := by
  rw [goBreaking_s]
  exact moves_left actor

theorem table_left (s : State) (p : Position) (l : Line) : (s.left p l).table = s.table := by
  obtain same | ⟨-, -, -, -, eq⟩ | ⟨-, -, -, -, eq⟩ := left_cases s p l
  · rw [same]
  · rw [eq]; rfl
  · rw [eq]; rfl

theorem recordAt_left_of_ne {s : State} {p q : Position} {l j : Line} (other : ¬(q = p ∧ j = l)) :
    (s.left p l).recordAt q j = s.recordAt q j := by
  obtain same | ⟨-, -, -, -, eq⟩ | ⟨-, -, -, -, eq⟩ := left_cases s p l
  · rw [same]
  · rw [eq, recordAt_without, if_neg other]
  · rw [eq, recordAt_broken, if_neg other]

/-- What is left of the record itself: none, or a BREAKING one. -/
theorem recordAt_left_self {s : State} {p : Position} {l : Line} {h : Holder} (held : (s.left p l).recordAt p l = some h) :
    h.state = .breaking := by
  cases at' : s.recordAt p l with
  | none =>
    rw [left_of_none at', at'] at held
    cases held
  | some x =>
    by_cases breaking : x.state = .breaking
    · rw [left_of_breaking at' breaking, at'] at held
      rwa [← Option.some.inj held]
    · by_cases gone : x.state = .pending ∨ neverClosed x s = true
      · rw [left_of_gone at' breaking gone, recordAt_without, if_pos ⟨rfl, rfl⟩] at held
        cases held
      · rw [left_of_closed at' breaking gone, recordAt_broken, if_pos ⟨rfl, rfl⟩, at'] at held
        rw [← Option.some.inj held]

/-! ## What a leaving keeps of another line, and of the lists -/

/-- A wait entry but for its move flag. -/
def WaitEntry.still (e : WaitEntry) : WaitEntry := { e with move := false }

/-- The records of line `l` are as they were, and every list but for move flags. -/
structure State.Beside (s t : State) (l : Line) : Prop where
  table : t.table = s.table
  records : t.recordsOn l = s.recordsOn l
  lists : ∀ j, (t.listOf j).map WaitEntry.still = (s.listOf j).map WaitEntry.still

theorem beside_refl (s : State) (l : Line) : s.Beside s l := ⟨rfl, rfl, fun _ => rfl⟩

theorem State.Beside.trans {s t u : State} {l : Line} (h : s.Beside t l) (g : t.Beside u l) : s.Beside u l :=
  ⟨g.table.trans h.table, g.records.trans h.records, fun j => (g.lists j).trans (h.lists j)⟩

theorem still_moveRefreshed (s : State) (p : Position) (l j : Line) (e : WaitEntry) : (s.moveRefreshed p l j e).still = e.still := by
  unfold State.moveRefreshed
  split <;> rfl

theorem lists_without (s : State) (p : Position) (l j : Line) :
    ((s.without p l).listOf j).map WaitEntry.still = (s.listOf j).map WaitEntry.still := by
  rw [listOf_without, List.map_map]
  exact List.map_congr_left fun e _ => still_moveRefreshed s p l j e

theorem lists_left (s : State) (p : Position) (l j : Line) :
    ((s.left p l).listOf j).map WaitEntry.still = (s.listOf j).map WaitEntry.still := by
  obtain same | ⟨-, -, -, -, eq⟩ | ⟨-, -, -, -, eq⟩ := left_cases s p l
  · rw [same]
  · rw [eq, lists_without]
  · rw [eq]; rfl

theorem recordsOn_mapRecord_of_ne (s : State) (p : Position) {l j : Line} (other : j ≠ l) {f : Holder → Holder} (placed : Placed f) :
    (mapRecord p l f s).recordsOn j = s.recordsOn j := by
  rw [State.recordsOn, records_mapRecord, List.filter_map, State.recordsOn]
  have test : (fun r : Holder => decide (r.line = j)) ∘ (fun r => if r.pos = p ∧ r.line = l then f r else r) =
      fun r => decide (r.line = j) := by
    funext r
    obtain ⟨-, line, -⟩ := placed r
    rw [Function.comp]
    split <;> simp only [line]
  rw [test]
  refine (List.map_congr_left fun r mem => ?_).trans (List.map_id _)
  rw [List.mem_filter, decide_eq_true_eq] at mem
  rw [if_neg fun key => other (mem.2.symm.trans key.2)]
  rfl

theorem recordsOn_without (s : State) (p : Position) (l j : Line) :
    (s.without p l).recordsOn j = (s.recordsOn j).filter fun r => !(decide (r.pos = p) && decide (j = l)) := by
  rw [State.recordsOn, records_without, List.filter_filter, State.recordsOn, List.filter_filter]
  refine List.filter_congr fun r _ => ?_
  by_cases line : r.line = j
  · simp [line]
  · simp [line]

theorem recordsOn_without_of_ne (s : State) (p : Position) {l j : Line} (other : j ≠ l) :
    (s.without p l).recordsOn j = s.recordsOn j := by
  rw [recordsOn_without, List.filter_eq_self]
  simp [other]

theorem beside_left (s : State) (p : Position) {l j : Line} (other : l ≠ j) : s.Beside (s.left p j) l := by
  refine ⟨table_left s p j, ?_, lists_left s p j⟩
  obtain same | ⟨-, -, -, -, eq⟩ | ⟨-, -, -, -, eq⟩ := left_cases s p j
  · rw [same]
  · rw [eq, recordsOn_without_of_ne _ _ other]
  · rw [eq]; exact recordsOn_mapRecord_of_ne s p other fun r => ⟨rfl, rfl, rfl⟩

theorem beside_goBreaking (p : Position) {l j : Line} (other : l ≠ j) (w : Work) : w.s.Beside (goBreaking p j w).s l := by
  rw [goBreaking_s]
  exact beside_left _ _ other

theorem State.Beside.recordAt {s t : State} {l : Line} (h : s.Beside t l) (p : Position) : t.recordAt p l = s.recordAt p l := by
  have find (u : State) : u.recordAt p l = (u.recordsOn l).find? fun r => r.pos = p := by
    rw [State.recordsOn, List.find?_filter, State.recordAt]
    congr 1
    funext r
    by_cases pos : r.pos = p <;> by_cases line : r.line = l <;> simp [pos, line]
  rw [find, find, h.records]

theorem State.Beside.mem_list {s t : State} {l : Line} (h : s.Beside t l) {j : Line} {e : WaitEntry} (mem : e ∈ t.listOf j) :
    ∃ x ∈ s.listOf j, x.still = e.still := by
  have : e.still ∈ (s.listOf j).map WaitEntry.still := h.lists j ▸ List.mem_map_of_mem mem
  exact List.mem_map.1 this

theorem pos_of_still {e x : WaitEntry} (same : x.still = e.still) :
    x.pos = e.pos ∧ x.route = e.route ∧ x.manner = e.manner ∧ x.priority = e.priority := by
  simp only [WaitEntry.still, WaitEntry.mk.injEq] at same
  exact ⟨same.1, same.2.1, same.2.2.1, same.2.2.2.2⟩

/-! ## Releases of several records -/

/-- Records go BREAKING one after another, each by a position and kind that `A` admits. -/
theorem moves_goBreakings (xs : List Holder) {w : Work} (actors : ∀ r ∈ xs, A r.pos (w.s.portOf r.line)) :
    Moves A B w.s (xs.foldl (fun w r => goBreaking r.pos r.line w) w).s := by
  induction xs generalizing w with
  | nil => exact .refl
  | cons r rs ih =>
    rw [List.foldl_cons]
    refine (moves_goBreaking (actors r List.mem_cons_self)).trans (ih fun x mem => ?_)
    rw [State.portOf, State.lineOf, (show (goBreaking r.pos r.line w).s.table = w.s.table by rw [goBreaking_s, table_left])]
    exact actors x (List.mem_cons_of_mem _ mem)

theorem foldl_goBreaking_eq {p : Position} (xs : List Holder) (own : ∀ r ∈ xs, r.pos = p) (w : Work) :
    xs.foldl (fun w r => goBreaking p r.line w) w = xs.foldl (fun w r => goBreaking r.pos r.line w) w :=
  List.foldl_ext _ _ _ fun w r mem => by rw [own r mem]

theorem moves_releaseOthers {w : Work} (keyed : w.s.AllocationKeyed) {p : Position} {k : PortKind} (actor : A p k) (l : Line) :
    Moves A B w.s (releaseOthers p k l w).s := by
  have mem {r : Holder} (h : r ∈ (w.s.recordsOf p k).filter fun r => r.line ≠ l) : r ∈ w.s.alloc.records ∧ r.pos = p ∧ r.kind = k :=
    (mem_recordsOf _ _ _ _).1 (List.mem_of_mem_filter h)
  unfold releaseOthers
  rw [foldl_goBreaking_eq _ fun r h => (mem h).2.1]
  refine moves_goBreakings _ fun r h => ?_
  obtain ⟨stands, rfl, rfl⟩ := mem h
  rw [← (keyed.routed r stands).2.1]
  exact actor

theorem beside_foldl {α : Type} {l : Line} (f : Work → α → Work) (xs : List α) (each : ∀ (w : Work), ∀ a ∈ xs, w.s.Beside (f w a).s l) (w : Work) :
    w.s.Beside (xs.foldl f w).s l := by
  induction xs generalizing w with
  | nil => exact beside_refl _ _
  | cons a xs ih =>
    rw [List.foldl_cons]
    exact (each w a List.mem_cons_self).trans (ih (fun w b mem => each w b (List.mem_cons_of_mem _ mem)) _)

theorem beside_releaseOthers (p : Position) (k : PortKind) (l : Line) (w : Work) : w.s.Beside (releaseOthers p k l w).s l :=
  beside_foldl _ _ (fun w r mem => by
    have other : r.line ≠ l := by simpa using (List.mem_filter.1 mem).2
    exact beside_goBreaking p other.symm w) w

/-! ## Assignment (R58) -/

theorem roomy_of_recordsOn {s t : State} {r : Route} (table : t.table = s.table)
    (records : t.recordsOn (s.routeOf r).line = s.recordsOn (s.routeOf r).line) (room : s.Roomy r) : t.Roomy r := by
  have route : t.routeOf r = s.routeOf r := by rw [State.routeOf, table]; rfl
  have port (l : Line) : t.portOf l = s.portOf l := by rw [State.portOf, State.lineOf, table]; rfl
  unfold State.Roomy
  rw [route, port, records]
  exact room

theorem roomy_of_canBeHad {s : State} {r : Route} (had : s.canBeHad (s.routeOf r).line r = true) : s.Roomy r := by
  unfold State.canBeHad at had
  simp only [Bool.or_eq_true, Bool.and_eq_true, List.isEmpty_iff, decide_eq_true_eq] at had
  obtain empty | ⟨⟨⟨aux, named⟩, -⟩, -⟩ := had
  · exact .inl empty
  · refine .inr (.inr ⟨aux, fun x mem => ?_⟩)
    unfold State.namedRoute at named
    split at named
    · cases named
    · next y ys eq =>
      split at named
      · next all =>
        cases named
        rw [eq] at mem
        obtain rfl | mem := List.mem_cons.1 mem
        · rfl
        · exact of_decide_eq_true (List.all_eq_true.1 all x mem)
      · cases named

theorem withdrawn_apart (s : State) (p : Position) {k : PortKind} {l : Line} (kind : s.portOf l = k) :
    ∀ e ∈ (s.withdrawn p k none).listOf l, e.pos ≠ p := by
  intro e mem
  rw [listOf_withdrawn, if_pos ⟨kind, nofun⟩] at mem
  simpa using (List.mem_filter.1 mem).2

theorem moves_assign {w : Work} (keyed : w.s.AllocationKeyed) {p : Position} {r : Route} (actor : A p (w.s.portOf (w.s.routeOf r).line))
    (none : w.s.recordAt p (w.s.routeOf r).line = none) (room : w.s.Roomy r) : Moves A B w.s (assign p r w).s := by
  have withdrawn : Move A B w.s (w.s.withdrawn p (w.s.portOf (w.s.routeOf r).line) .none) := .withdraw .none actor
  have keyed' := allocationKeyed_move withdrawn keyed
  have beside := beside_releaseOthers p (w.s.portOf (w.s.routeOf r).line) (w.s.routeOf r).line
    (Machine.withdraw p (w.s.portOf (w.s.routeOf r).line) .none w)
  have released : Moves A B _ _ := moves_releaseOthers (B := B)
    (w := Machine.withdraw p (w.s.portOf (w.s.routeOf r).line) .none w) keyed' actor (w.s.routeOf r).line
  refine ((Relation.ReflTransGen.single withdrawn).trans released).tail ?_
  have route : (releaseOthers p (w.s.portOf (w.s.routeOf r).line) (w.s.routeOf r).line
      (Machine.withdraw p (w.s.portOf (w.s.routeOf r).line) .none w)).s.routeOf r = w.s.routeOf r := by
    rw [State.routeOf, beside.table]; rfl
  have port (l : Line) : (releaseOthers p (w.s.portOf (w.s.routeOf r).line) (w.s.routeOf r).line
      (Machine.withdraw p (w.s.portOf (w.s.routeOf r).line) .none w)).s.portOf l = w.s.portOf l := by
    rw [State.portOf, State.lineOf, beside.table]; rfl
  refine .create ?_ ?_ ?_ ?_
  · rw [route, port]; exact actor
  · rw [route, beside.recordAt]; exact none
  · rw [route]
    intro e mem
    obtain ⟨x, was, same⟩ := beside.mem_list mem
    rw [← (pos_of_still same).1]
    exact withdrawn_apart w.s p rfl x was
  · exact roomy_of_recordsOn (s := w.s) (by rw [beside.table]; rfl) (by rw [beside.records]; rfl) room

end Sys2Proof.Machine
end

section
/-! Admissions, reroutes and claims (R52 to R66), as changes of the allocator one by one. -/

namespace Sys2Proof.Machine

variable {A : Position → PortKind → Prop} {B : Prop}

/-! ## Admission (R65, R66) -/

theorem recordAt_eq_find (s : State) (p : Position) (l : Line) : s.recordAt p l = (s.recordsOn l).find? fun r => r.pos = p := by
  rw [State.recordsOn, List.find?_filter, State.recordAt]
  congr 1
  funext r
  by_cases pos : r.pos = p <;> by_cases line : r.line = l <;> simp [pos, line]

theorem recordsOn_withRecord (s : State) (p : Position) (r : Route) (l : Line) :
    (s.withRecord p r).recordsOn l = s.recordsOn l ++ if (s.routeOf r).line = l then [s.newRecord p r] else [] := by
  rw [State.recordsOn, records_withRecord, List.filter_append, State.recordsOn]
  congr 1
  by_cases line : (s.routeOf r).line = l
  · rw [if_pos line, List.filter_cons_of_pos (p := fun r : Holder => decide (r.line = l)) (decide_eq_true line)]
    rfl
  · rw [if_neg line, List.filter_cons_of_neg (p := fun r : Holder => decide (r.line = l)) fun same => line (of_decide_eq_true same)]
    rfl

/-- What an admission of `e` to `l` does to the line's records and to the positions in the lists. -/
structure Admitted (l : Line) (e : WaitEntry) (s t : State) : Prop where
  table : t.table = s.table
  records : t.recordsOn l = s.recordsOn l ++ [s.newRecord e.pos e.route]
  lists : ∀ j, (t.listOf j).map WaitEntry.still =
    ((s.listOf j).filter fun x => !(decide (s.portOf j = s.portOf l) && decide (x.pos = e.pos))).map WaitEntry.still

theorem admitted_admitEntry {l : Line} {e : WaitEntry} {w : Work} (line : (w.s.routeOf e.route).line = l) :
    Admitted l e w.s (admitEntry l e w).s := by
  have created : Admitted l e w.s ((w.s.withdrawn e.pos (w.s.portOf l) none).withRecord e.pos e.route) := by
    refine ⟨rfl, ?_, fun j => ?_⟩
    · rw [recordsOn_withRecord]
      exact congrArg _ (if_pos line)
    · rw [listOf_withRecord, listOf_withdrawn]
      congr 1
      by_cases kind : w.s.portOf j = w.s.portOf l
      · rw [if_pos ⟨kind, nofun⟩]
        simp [kind]
      · rw [if_neg fun both => kind both.1]
        exact (List.filter_eq_self.2 fun x _ => by simp [kind]).symm
  unfold admitEntry
  dsimp only
  split
  · have beside := beside_releaseOthers e.pos (w.s.portOf l) l (createRecord e.pos e.route (withdraw e.pos (w.s.portOf l) none w))
    exact ⟨beside.table, beside.records.trans created.records, fun j => (beside.lists j).trans (created.lists j)⟩
  · exact created

theorem Admitted.recordAt {l : Line} {e : WaitEntry} {s t : State} (h : Admitted l e s t) {p : Position} (other : p ≠ e.pos) :
    t.recordAt p l = s.recordAt p l := by
  rw [recordAt_eq_find, recordAt_eq_find, h.records, List.find?_append]
  have out : List.find? (fun r : Holder => decide (r.pos = p)) [s.newRecord e.pos e.route] = none := by
    rw [List.find?_eq_none]
    intro x mem own
    rw [List.mem_singleton] at mem
    subst mem
    exact other (of_decide_eq_true own).symm
  rw [out, Option.or_none]

theorem moves_admitEntry {l : Line} {e : WaitEntry} {w : Work} (keyed : w.s.AllocationKeyed) (actor : A e.pos (w.s.portOf l))
    (line : (w.s.routeOf e.route).line = l) (none : w.s.recordAt e.pos l = none) (room : w.s.Roomy e.route) :
    Moves A B w.s (admitEntry l e w).s := by
  subst line
  have withdrawn : Move A B w.s (w.s.withdrawn e.pos (w.s.portOf (w.s.routeOf e.route).line) .none) := .withdraw .none actor
  have created : Moves A B w.s ((w.s.withdrawn e.pos (w.s.portOf (w.s.routeOf e.route).line) .none).withRecord e.pos e.route) :=
    (Relation.ReflTransGen.single withdrawn).tail (.create actor none (withdrawn_apart w.s e.pos rfl) room)
  unfold admitEntry
  dsimp only
  split
  · exact created.trans (moves_releaseOthers (w := createRecord e.pos e.route (withdraw e.pos _ .none w))
      (allocationKeyed_moves created keyed) actor _)
  · exact created

/-- Every record on `l` names `r`. -/
def State.Names (s : State) (l : Line) (r : Route) : Prop := ∀ x ∈ s.recordsOn l, x.route = r

theorem names_of_namedRoute {s : State} {l : Line} {r : Route} (named : s.namedRoute l = some r) : s.Names l r := by
  unfold State.namedRoute at named
  split at named
  · cases named
  · next y ys eq =>
    split at named
    · next all =>
      cases named
      intro x mem
      rw [eq] at mem
      obtain rfl | mem := List.mem_cons.1 mem
      · rfl
      · exact of_decide_eq_true (List.all_eq_true.1 all x mem)
    · cases named

theorem portOf_of_table {s t : State} (table : t.table = s.table) (l : Line) : t.portOf l = s.portOf l := by
  rw [State.portOf, State.lineOf, table]; rfl

theorem routeOf_of_table {s t : State} (table : t.table = s.table) (r : Route) : t.routeOf r = s.routeOf r := by
  rw [State.routeOf, table]; rfl

/-- An entry of `l`'s list that may be admitted there. -/
structure State.Waiter (A : Position → PortKind → Prop) (s : State) (l : Line) (e : WaitEntry) : Prop where
  actor : A e.pos (s.portOf l)
  line : (s.routeOf e.route).line = l
  apart : s.recordAt e.pos l = none

theorem Admitted.waiter {l : Line} {e x : WaitEntry} {s t : State} (h : Admitted l e s t) (waiter : s.Waiter A l x) (other : x.pos ≠ e.pos) :
    t.Waiter A l x := by
  refine ⟨?_, ?_, ?_⟩
  · rw [portOf_of_table h.table]; exact waiter.actor
  · rw [routeOf_of_table h.table]; exact waiter.line
  · rw [h.recordAt other]; exact waiter.apart

theorem Admitted.names {l : Line} {e : WaitEntry} {s t : State} (h : Admitted l e s t) (names : s.Names l e.route) : t.Names l e.route := by
  intro x mem
  rw [h.records, List.mem_append, List.mem_singleton] at mem
  obtain mem | rfl := mem
  · exact names x mem
  · rfl

theorem moves_admitSame {l : Line} {r : Route} : ∀ (es : List WaitEntry) {w : Work}, w.s.AllocationKeyed → w.s.portOf l = .aux →
    w.s.Names l r → (∀ e ∈ es, w.s.Waiter A l e) → (es.map fun e => e.pos).Nodup → Moves A B w.s (admitSame l r es w).s
  | [], w, _, _, _, _, _ => .refl
  | e :: es, w, keyed, aux, names, waiters, once => by
    obtain ⟨fresh, once⟩ := List.nodup_cons.1 once
    have waiter := waiters e List.mem_cons_self
    unfold admitSame
    split
    · next admits =>
      simp only [Bool.and_eq_true, decide_eq_true_eq] at admits
      obtain ⟨rfl, -⟩ := admits
      have admitted := admitted_admitEntry (w := w) waiter.line
      have room : w.s.Roomy e.route := .inr (.inr ⟨by rw [waiter.line]; exact aux, by rw [waiter.line]; exact names⟩)
      have moves : Moves A B w.s _ := moves_admitEntry keyed waiter.actor waiter.line waiter.apart room
      refine moves.trans (moves_admitSame es (allocationKeyed_moves moves keyed) ?_ (admitted.names names) (fun x mem => ?_) once)
      · rw [portOf_of_table admitted.table]; exact aux
      · exact admitted.waiter (waiters x (List.mem_cons_of_mem _ mem)) fun same => fresh (List.mem_map.2 ⟨x, mem, same⟩)
    · exact moves_admitSame es keyed aux names (fun x mem => waiters x (List.mem_cons_of_mem _ mem)) once

theorem waiter_of_keyed {s : State} (keyed : s.AllocationKeyed) (cover : Cover A s) {l : Line} {e : WaitEntry} (mem : e ∈ s.listOf l) :
    s.Waiter A l e := ⟨cover.waits l e mem, keyed.placed l e mem, keyed.apart l e mem⟩

theorem moves_admitLine (l : Line) {w : Work} (keyed : w.s.AllocationKeyed) (cover : Cover A w.s) :
    Moves A B w.s (admitLine l w).s := by
  have waiters {e : WaitEntry} (mem : e ∈ w.s.listOf l) : w.s.Waiter A l e := waiter_of_keyed keyed cover mem
  have once := keyed.lists l
  unfold admitLine
  split
  · exact .refl
  · next e es list =>
    rw [list] at once
    obtain ⟨fresh, once'⟩ := List.nodup_cons.1 once
    have waiter : w.s.Waiter A l e := waiters (by rw [list]; exact List.mem_cons_self)
    split
    · next empty =>
      rw [List.isEmpty_iff] at empty
      have moves : Moves A B w.s _ :=
        moves_admitEntry keyed waiter.actor waiter.line waiter.apart (.inl (by rw [waiter.line]; exact empty))
      have admitted := admitted_admitEntry (w := w) waiter.line
      dsimp only
      split
      · next aux =>
        refine moves.trans (moves_admitSame es (allocationKeyed_moves moves keyed) aux (admitted.names ?_) (fun x mem => ?_) once')
        · intro x mem
          rw [empty] at mem
          cases mem
        · exact admitted.waiter (waiters (by rw [list]; exact List.mem_cons_of_mem _ mem)) fun same => fresh (List.mem_map.2 ⟨x, mem, same⟩)
      · exact moves
    · split
      · next shared =>
        simp only [Bool.and_eq_true, decide_eq_true_eq] at shared
        split
        · next r named =>
          exact moves_admitSame (e :: es) keyed shared.1 (names_of_namedRoute named) (fun x mem => waiters (by rw [list]; exact mem)) once
        · exact .refl
      · exact .refl

theorem moves_admitAll : ∀ (n : Nat) {w : Work}, w.s.AllocationKeyed → Cover A w.s → Moves A B w.s (admitAll n w).s
  | 0, w, _, _ => .refl
  | n + 1, w, keyed, cover => by
    unfold admitAll
    split
    · exact .refl
    · next l ls _ =>
      have moves : Moves A B w.s (admitLine l { w with freed := ls }).s := moves_admitLine l (w := { w with freed := ls }) keyed cover
      exact moves.trans (moves_admitAll n (allocationKeyed_moves moves keyed) (cover_moves moves cover))

theorem moves_admitFreed {w : Work} (keyed : w.s.AllocationKeyed) (cover : Cover A w.s) : Moves A B w.s (admitFreed w).s :=
  moves_admitAll _ keyed cover

theorem admitFreed_of_freed_nil {w : Work} (none : w.freed = []) : admitFreed w = w := by
  unfold admitFreed
  cases n : w.freed.length + w.s.alloc.records.length with
  | zero => rfl
  | succ n => simp only [admitAll, none]

/-! ## What a path of moves keeps of what a later one asks for -/

/-- The laws that a path of moves starts from. -/
structure Sound (A : Position → PortKind → Prop) (s : State) : Prop where
  keyed : s.AllocationKeyed
  cover : Cover A s

theorem Sound.moves {s t : State} (sound : Sound A s) (moves : Moves A B s t) : Sound A t :=
  ⟨allocationKeyed_moves moves sound.keyed, cover_moves moves sound.cover⟩

/-- From a sound state the work is reached by moves. -/
def Deals (A : Position → PortKind → Prop) (B : Prop) (w v : Work) : Prop := Sound A w.s → Moves A B w.s v.s

theorem Deals.refl (w : Work) : Deals A B w w := fun _ => .refl

theorem Deals.trans {u v w : Work} (h : Deals A B u v) (g : Deals A B v w) : Deals A B u w := fun sound =>
  (h sound).trans (g (sound.moves (h sound)))

theorem deals_of_eq {w v : Work} (same : v.s = w.s) : Deals A B w v := fun _ => by rw [same]

theorem deals_of_move {w v : Work} (move : Move A B w.s v.s) : Deals A B w v := fun _ => .single move

theorem deals_foldl {α : Type} (f : Work → α → Work) (each : ∀ w a, Deals A B w (f w a)) :
    ∀ (xs : List α) (w : Work), Deals A B w (xs.foldl f w)
  | [], w => .refl w
  | a :: xs, w => (each w a).trans (deals_foldl f each xs _)

theorem deals_admitFreed (w : Work) : Deals A B w (admitFreed w) := fun sound => moves_admitFreed sound.keyed sound.cover

theorem deals_freeIfAux (l : Line) (w : Work) : Deals A B w (freeIfAux l w) := deals_of_eq (by unfold freeIfAux; split <;> rfl)

theorem deals_withdraw {p : Position} {k : PortKind} (keep : Option Line) (actor : A p k) (w : Work) : Deals A B w (withdraw p k keep w) :=
  deals_of_move (.withdraw keep actor)

theorem deals_mapStanding {p : Position} {k : PortKind} (f : Standing → Standing) (actor : A p k) (w : Work) :
    Deals A B w (w.mapStanding p k f) := deals_of_move (.standing f actor)

theorem deals_lose {p : Position} {k : PortKind} (l : Line) (why : LostReason) (actor : A p k) (w : Work) :
    Deals A B w (lose p k l why w) := by
  unfold lose
  split
  · exact deals_of_eq rfl
  · exact deals_mapStanding _ actor w

/-! ## Stored reroutes (R57) -/

theorem mapRecord_congr {s : State} (keyed : s.AllocationKeyed) {p : Position} {l : Line} {h : Holder} (held : s.recordAt p l = some h)
    {f g : Holder → Holder} (same : f h = g h) : mapRecord p l f s = mapRecord p l g s := by
  have records : (s.alloc.records.map fun r => if decide (r.pos = p) && decide (r.line = l) then f r else r) =
      s.alloc.records.map fun r => if decide (r.pos = p) && decide (r.line = l) then g r else r := ?_
  · unfold mapRecord State.mapAlloc
    dsimp only
    rw [records]
  refine List.map_congr_left fun r mem => ?_
  by_cases key : (decide (r.pos = p) && decide (r.line = l)) = true
  · rw [if_pos key, if_pos key]
    simp only [Bool.and_eq_true, decide_eq_true_eq] at key
    obtain rfl := Option.some.inj (held.symm.trans ((recordAt_eq_some_iff keyed.records).2 ⟨mem, key⟩))
    exact same
  · rw [if_neg key, if_neg key]

theorem recordsOn_pos_mapRecord {s : State} {p : Position} {l : Line} {f : Holder → Holder} (placed : Placed f) (j : Line) {x : Holder}
    (mem : x ∈ (mapRecord p l f s).recordsOn j) : ∃ y ∈ s.recordsOn j, y.pos = x.pos := by
  rw [mem_recordsOn, records_mapRecord, List.mem_map] at mem
  obtain ⟨⟨y, stands, rfl⟩, line⟩ := mem
  refine ⟨y, (mem_recordsOn _ _ _).2 ⟨stands, ?_⟩, ?_⟩
  · split at line
    · rw [← (placed y).2.1]; exact line
    · exact line
  · split
    · exact (placed y).1.symm
    · rfl

/-- A record's stored reroute is applied, on its line alone: on MAIN, or where it shares an RX line with nobody (R57). -/
theorem move_takeReroute {s : State} (keyed : s.AllocationKeyed) {p : Position} {l : Line} {h : Holder} (actor : A p (s.portOf l))
    (held : s.recordAt p l = some h) (connected : h.state = .connected) {x : Route} (stored : h.reroute = some x)
    (quiet : s.pathQuiet p = true) (alone : s.portOf l = .aux → ∀ y ∈ s.recordsOn l, y.pos = p) :
    Move A B s (mapRecord p l Holder.takeReroute s) := by
  obtain ⟨mem, -, rfl⟩ := mem_of_recordAt held
  have line : (s.routeOf x).line = h.line := (keyed.routed h mem).2.2 x stored
  rw [← line] at held actor alone ⊢
  have same : Holder.takeReroute h = { h with route := x, reroute := none, state := .making } := by rw [Holder.takeReroute, stored]
  rw [mapRecord_congr keyed held (g := fun y => { y with route := x, reroute := none, state := .making }) same]
  exact .replace .making actor held (.inr ⟨rfl, connected, quiet⟩) alone

/-- A fold over records that stand, each changed in its place alone. -/
theorem moves_records {f : Work → Holder → Work} {Q : State → Holder → Prop}
    (each : ∀ w r, Sound A w.s → w.s.recordAt r.pos r.line = some r → Q w.s r → Moves A B w.s (f w r).s)
    (others : ∀ w r x, w.s.recordAt r.pos r.line = some r → Q w.s r → ¬(x.pos = r.pos ∧ x.line = r.line) →
      w.s.recordAt x.pos x.line = some x → Q w.s x → (f w r).s.recordAt x.pos x.line = some x ∧ Q (f w r).s x) :
    ∀ (rs : List Holder) (w : Work), Sound A w.s → (∀ r ∈ rs, w.s.recordAt r.pos r.line = some r ∧ Q w.s r) →
      (rs.map fun r => (r.pos, r.line)).Nodup → Moves A B w.s (rs.foldl f w).s
  | [], _, _, _, _ => .refl
  | r :: rs, w, sound, listed, once => by
    obtain ⟨fresh, once⟩ := List.nodup_cons.1 once
    obtain ⟨held, holds⟩ := listed r List.mem_cons_self
    have moves := each w r sound held holds
    refine moves.trans (moves_records each others rs _ (sound.moves moves) (fun x mem => ?_) once)
    obtain ⟨held', holds'⟩ := listed x (List.mem_cons_of_mem _ mem)
    refine others w r x held holds (fun same => fresh (List.mem_map.2 ⟨x, mem, ?_⟩)) held' holds'
    simp only [same.1, same.2]

/-- Some of the records of a sound state, as such a fold finds them. -/
theorem listed_filter {s : State} (keyed : s.AllocationKeyed) (t : Holder → Bool) :
    (∀ r ∈ s.alloc.records.filter t, s.recordAt r.pos r.line = some r ∧ t r = true) ∧
      ((s.alloc.records.filter t).map fun r => (r.pos, r.line)).Nodup := by
  refine ⟨fun r mem => ?_, keyed.records.sublist (List.filter_sublist.map _)⟩
  obtain ⟨stands, test⟩ := List.mem_filter.1 mem
  exact ⟨recordAt_of_mem keyed.records stands, test⟩

theorem s_freeIfAux (l : Line) (w : Work) : (freeIfAux l w).s = w.s := by unfold freeIfAux; split <;> rfl

theorem placed_takeReroute : Placed Holder.takeReroute := fun r => by
  unfold Holder.takeReroute
  split <;> exact ⟨rfl, rfl, rfl⟩

/-- A record whose stored reroute may be applied (R57). -/
structure Holder.Reroutes (p : Position) (s : State) (r : Holder) : Prop where
  pos : r.pos = p
  connected : r.state = .connected
  stored : ∃ x, r.reroute = some x
  alone : s.portOf r.line = .aux → ∀ y ∈ s.recordsOn r.line, y.pos = p
  quiet : s.pathQuiet p = true

theorem reroutes_of_mayReroute {s : State} {p : Position} {r : Holder} (quiet : s.pathQuiet p = true) (may : s.mayReroute p r = true) :
    r.Reroutes p s := by
  simp only [State.mayReroute, Bool.and_eq_true, decide_eq_true_eq, Option.isSome_iff_exists, Bool.not_eq_true',
    State.sharesLine, Bool.and_eq_false_iff, decide_eq_false_iff_not, List.any_eq_false, ne_eq, not_not] at may
  obtain ⟨⟨⟨rfl, connected⟩, stored⟩, alone⟩ := may
  exact ⟨rfl, connected, stored, fun aux y on => alone.elim (fun main => absurd aux main) fun all => all y on, quiet⟩

theorem deals_applyReroutes {p : Position} (actors : ∀ k, A p k) (w : Work) : Deals A B w (applyReroutes p w) := by
  intro sound
  unfold applyReroutes
  split
  · exact .refl
  · next runs =>
    simp only [Bool.or_eq_true, not_or, Bool.not_eq_true, Bool.not_eq_false'] at runs
    obtain ⟨listed, once⟩ := listed_filter sound.keyed fun r => w.s.mayReroute p r
    refine moves_records (Q := fun s r => r.Reroutes p s) (fun u r sound held may => ?_) (fun u r x held may other held' may' => ?_) _ w sound
      (fun r mem => ⟨(listed r mem).1, reroutes_of_mayReroute runs.2 (listed r mem).2⟩) once
    · obtain ⟨rfl, connected, ⟨x, stored⟩, alone, quiet⟩ := may
      rw [s_freeIfAux]
      exact .single (move_takeReroute sound.keyed (actors _) held connected stored quiet alone)
    · rw [s_freeIfAux]
      refine ⟨?_, may'.pos, may'.connected, may'.stored, fun aux z on => ?_, may'.quiet⟩
      · show (mapRecord p r.line Holder.takeReroute u.s).recordAt x.pos x.line = some x
        rw [recordAt_mapRecord placed_takeReroute, if_neg fun both => other ⟨both.1.trans may.pos.symm, both.2⟩]
        exact held'
      · obtain ⟨y, on', same⟩ := recordsOn_pos_mapRecord placed_takeReroute _ on
        rw [← same]
        exact may'.alone aux y on'

end Sys2Proof.Machine
end

section
/-! Claims, ring claims and the allocator's events (R52 to R92), as changes of the allocator one by one. -/

namespace Sys2Proof.Machine

variable {A : Position → PortKind → Prop} {B : Prop}

/-! ## A TAKE's victims (R61, R62) -/

theorem table_of_moves {s t : State} (moves : Moves A B s t) : t.table = s.table := by rw [moves.eq]

/-- What is left of `l` when `q` has been taken from: records of others as they were, and of `q` none but BREAKING ones. -/
structure State.Vacated (s t : State) (l : Line) (q : Position) : Prop where
  others : ∀ p, p ≠ q → t.recordAt p l = s.recordAt p l
  own : ∀ h, t.recordAt q l = some h → h.state = .breaking
  lists : ∀ j, (t.listOf j).map WaitEntry.still = (s.listOf j).map WaitEntry.still

theorem deals_takeFrom {l : Line} {q : Position} {w : Work} (actor : A q (w.s.portOf l)) : Deals A B w (takeFrom l q w) := by
  have marked : Deals A B w ((setReclaim q l w).event (.revoke q)) := deals_of_move (.standing _ actor)
  have left : Deals A B _ (goBreaking q l ((setReclaim q l w).event (.revoke q))) := fun _ => moves_goBreaking actor
  exact (marked.trans left).trans (deals_lose (k := w.s.portOf l) l .taken actor _)

theorem s_lose (p : Position) (k : PortKind) (l : Line) (why : LostReason) (w : Work) :
    (lose p k l why w).s = w.s ∨ (lose p k l why w).s = w.s.mapStanding p k fun x => { x with loss := some l } := by
  unfold lose
  split
  · exact .inl rfl
  · exact .inr rfl

theorem vacated_takeFrom (l : Line) (q : Position) (w : Work) : w.s.Vacated (takeFrom l q w).s l q := by
  have left : (goBreaking q l ((setReclaim q l w).event (.revoke q))).s = (setReclaim q l w).s.left q l := goBreaking_s _ _ _
  have vacated : w.s.Vacated ((setReclaim q l w).s.left q l) l q := by
    refine ⟨fun p other => ?_, fun h held => recordAt_left_self held, fun j => lists_left _ _ _ _⟩
    rw [recordAt_left_of_ne fun both => other both.1]
    rfl
  unfold takeFrom
  obtain same | same := s_lose q (w.s.portOf l) l .taken (goBreaking q l ((setReclaim q l w).event (.revoke q)))
  · rw [same, left]
    exact vacated
  · rw [same, left]
    exact ⟨vacated.others, vacated.own, vacated.lists⟩

/-- The records of a line once it has been taken from those in `xs`. -/
theorem recordAt_takeFroms (l : Line) : ∀ (xs : List Holder) (w : Work) (p : Position) (h : Holder),
    (xs.foldl (fun w r => takeFrom l r.pos w) w).s.recordAt p l = some h →
    h.state = .breaking ∨ (w.s.recordAt p l = some h ∧ ∀ x ∈ xs, x.pos ≠ p)
  | [], w, p, h, held => .inr ⟨held, by simp⟩
  | x :: xs, w, p, h, held => by
    have vacated := vacated_takeFrom l x.pos w
    obtain breaking | ⟨held, apart⟩ := recordAt_takeFroms l xs _ p h held
    · exact .inl breaking
    · by_cases own : p = x.pos
      · subst own
        exact .inl (vacated.own h held)
      · rw [vacated.others p own] at held
        refine .inr ⟨held, fun y mem => ?_⟩
        obtain rfl | mem := List.mem_cons.1 mem
        · exact Ne.symm own
        · exact apart y mem

theorem recordAt_takeFroms_none (l : Line) {p : Position} : ∀ (xs : List Holder) (w : Work), (∀ x ∈ xs, x.pos ≠ p) →
    (xs.foldl (fun w r => takeFrom l r.pos w) w).s.recordAt p l = w.s.recordAt p l
  | [], w, _ => rfl
  | x :: xs, w, apart => by
    rw [List.foldl_cons, recordAt_takeFroms_none l xs _ fun y mem => apart y (List.mem_cons_of_mem _ mem)]
    exact (vacated_takeFrom l x.pos w).others p (apart x List.mem_cons_self).symm

theorem lists_takeFroms (l : Line) : ∀ (xs : List Holder) (w : Work) (j : Line),
    ((xs.foldl (fun w r => takeFrom l r.pos w) w).s.listOf j).map WaitEntry.still = (w.s.listOf j).map WaitEntry.still
  | [], w, _ => rfl
  | x :: xs, w, j => by
    rw [List.foldl_cons, lists_takeFroms l xs]
    exact (vacated_takeFrom l x.pos w).lists j

theorem deals_takeFroms {l : Line} : ∀ (xs : List Holder) {w : Work}, (∀ x ∈ xs, A x.pos (w.s.portOf l)) →
    Deals A B w (xs.foldl (fun w r => takeFrom l r.pos w) w)
  | [], w, _ => .refl w
  | x :: xs, w, actors => by
    have first : Deals A B w (takeFrom l x.pos w) := deals_takeFrom (actors x List.mem_cons_self)
    intro sound
    refine (first sound).trans (deals_takeFroms xs (fun y mem => ?_) (sound.moves (first sound)))
    rw [portOf_of_table (table_of_moves (first sound))]
    exact actors y (List.mem_cons_of_mem _ mem)

/-- `A` admits every position with a record on `l` that is not BREAKING. -/
def State.Victims (A : Position → PortKind → Prop) (s : State) (l : Line) : Prop :=
  ∀ x ∈ s.recordsOn l, x.state ≠ .breaking → A x.pos (s.portOf l)

theorem deals_takeLine {l : Line} {w : Work} (victims : w.s.Victims A l) : Deals A B w (takeLine l w) := by
  refine deals_takeFroms _ fun x mem => ?_
  obtain ⟨on, standing⟩ := List.mem_filter.1 mem
  exact victims x on (by simpa using standing)

theorem breaking_takeLine {l : Line} {w : Work} {p : Position} {h : Holder} (held : (takeLine l w).s.recordAt p l = some h) :
    h.state = .breaking := by
  obtain breaking | ⟨was, apart⟩ := recordAt_takeFroms l _ w p h held
  · exact breaking
  · by_contra standing
    obtain ⟨mem, pos, line⟩ := mem_of_recordAt was
    exact apart h (List.mem_filter.2 ⟨(mem_recordsOn _ _ _).2 ⟨mem, line⟩, decide_eq_true standing⟩) pos

theorem recordAt_takeLine_of_none {l : Line} {w : Work} {p : Position} (none : w.s.recordAt p l = none) :
    (takeLine l w).s.recordAt p l = .none := by
  refine (recordAt_takeFroms_none l _ w fun x mem => ?_).trans none
  obtain ⟨stands, line⟩ := (mem_recordsOn _ _ _).1 (List.mem_of_mem_filter mem)
  exact fun pos => (recordAt_eq_none_iff _ _ _).1 none x stands pos line

theorem lists_takeLine (l : Line) (w : Work) (j : Line) :
    ((takeLine l w).s.listOf j).map WaitEntry.still = (w.s.listOf j).map WaitEntry.still := lists_takeFroms l _ w j

/-! ## Claims (R52 to R63) -/

theorem deals_assign {p : Position} {r : Route} {w : Work} (actor : A p (w.s.portOf (w.s.routeOf r).line))
    (none : w.s.recordAt p (w.s.routeOf r).line = none) (room : w.s.Roomy r) : Deals A B w (assign p r w) :=
  fun sound => moves_assign sound.keyed actor none room

theorem deals_takeMain {p : Position} {r : Route} {w : Work} (actor : A p (w.s.portOf (w.s.routeOf r).line))
    (none : w.s.recordAt p (w.s.routeOf r).line = none) (main : w.s.portOf (w.s.routeOf r).line = .main)
    (victims : w.s.Victims A (w.s.routeOf r).line) : Deals A B w (takeMain p r w).1 := by
  unfold takeMain
  dsimp only
  split
  · intro sound
    have taken := deals_takeLine (B := B) victims sound
    have table := table_of_moves taken
    have sound' := sound.moves taken
    refine taken.trans (Deals.trans (deals_assign ?_ ?_ ?_) (deals_admitFreed _) sound')
    · rw [routeOf_of_table table, portOf_of_table table]
      exact actor
    · rw [routeOf_of_table table]
      exact recordAt_takeLine_of_none none
    · refine .inr (.inl ?_)
      rw [routeOf_of_table table, portOf_of_table table]
      refine ⟨main, fun x mem => ?_⟩
      obtain ⟨stands, line⟩ := (mem_recordsOn _ _ _).1 mem
      exact breaking_takeLine ((recordAt_eq_some_iff sound'.keyed.records).2 ⟨stands, rfl, line⟩)
  · exact .refl w

theorem hasTake_of_still {xs ys : List WaitEntry} (same : xs.map WaitEntry.still = ys.map WaitEntry.still) : hasTake xs = hasTake ys := by
  have still (zs : List WaitEntry) : hasTake zs = hasTake (zs.map WaitEntry.still) := by
    rw [hasTake, hasTake, List.any_map]
    rfl
  rw [still, same, ← still]

theorem hasTake_filter {xs : List WaitEntry} (none : hasTake xs = false) (t : WaitEntry → Bool) : hasTake (xs.filter t) = false := by
  rw [hasTake, List.any_eq_false] at none ⊢
  exact fun e mem => none e (List.mem_of_mem_filter mem)

theorem deals_takeRx {p : Position} {r : Route} {w : Work} (actor : A p (w.s.portOf (w.s.routeOf r).line))
    (none : w.s.recordAt p (w.s.routeOf r).line = none) (aux : w.s.portOf (w.s.routeOf r).line = .aux)
    (victims : w.s.Victims A (w.s.routeOf r).line) : Deals A B w (takeRx p r w).1 := by
  unfold takeRx
  dsimp only
  split
  · exact .refl w
  · next first =>
    split
    · exact .refl w
    · intro sound
      have taken := deals_takeLine (B := B) victims sound
      have table := table_of_moves taken
      have withdrawn : Move A B (takeLine (w.s.routeOf r).line w).s ((takeLine (w.s.routeOf r).line w).s.withdrawn p .aux .none) :=
        .withdraw .none (aux ▸ actor)
      have queued : Move A B ((takeLine (w.s.routeOf r).line w).s.withdrawn p .aux .none)
          (((takeLine (w.s.routeOf r).line w).s.withdrawn p .aux .none).takeQueued p r) := by
        have route : ((takeLine (w.s.routeOf r).line w).s.withdrawn p .aux .none).routeOf r = w.s.routeOf r := routeOf_of_table table r
        have port (l : Line) : ((takeLine (w.s.routeOf r).line w).s.withdrawn p .aux .none).portOf l = w.s.portOf l :=
          portOf_of_table table l
        refine .take ?_ ?_ (fun j kind => ?_) ?_
        · rw [route, port]; exact actor
        · rw [route]; exact recordAt_takeLine_of_none none
        · rw [route, port j, port (w.s.routeOf r).line, aux] at kind
          exact withdrawn_apart _ p ((portOf_of_table table j).trans kind)
        · rw [route, listOf_withdrawn]
          have noTake : hasTake ((takeLine (w.s.routeOf r).line w).s.listOf (w.s.routeOf r).line) = false := by
            rw [hasTake_of_still (lists_takeLine _ _ _)]
            exact Bool.not_eq_true _ ▸ first
          split
          · exact hasTake_filter noTake _
          · exact noTake
      have moves : Moves A B w.s (putTake p r (withdraw p .aux .none (takeLine (w.s.routeOf r).line w))).s :=
        (taken.tail withdrawn).tail queued
      exact moves.trans (deals_admitFreed _ (sound.moves moves))

theorem deals_replaceRoute {p : Position} {r : Route} {st : HolderState} {h : Holder} {w : Work}
    (actor : A p (w.s.portOf (w.s.routeOf r).line)) (held : w.s.recordAt p (w.s.routeOf r).line = some h)
    (rule : (st = h.state ∧ (st = .pending ∨ st = .making)) ∨ (st = .making ∧ h.state = .connected ∧ w.s.pathQuiet p = true))
    (alone : w.s.portOf (w.s.routeOf r).line = .aux → ∀ x ∈ w.s.recordsOn (w.s.routeOf r).line, x.pos = p) :
    Deals A B w (replaceRoute p h.line r st w) := by
  obtain ⟨-, -, line⟩ := mem_of_recordAt held
  have replaced : Deals A B w (w.mapRecord p h.line fun x => { x with route := r, reroute := none, state := st }) := by
    rw [line]
    exact deals_of_move (.replace st actor held rule alone)
  exact (replaced.trans (deals_freeIfAux _ _)).trans (deals_admitFreed _)

theorem deals_rerouteRecord {p : Position} {r : Route} {h : Holder} {w : Work} (actor : A p (w.s.portOf (w.s.routeOf r).line))
    (held : w.s.recordAt p (w.s.routeOf r).line = some h) : Deals A B w (rerouteRecord p r h w).1 := by
  obtain ⟨stands, pos, line⟩ := mem_of_recordAt held
  intro sound
  have kind : h.kind = w.s.portOf (w.s.routeOf r).line := by rw [(sound.keyed.routed h stands).2.1, line]
  unfold rerouteRecord
  split
  · exact .refl
  · next free =>
    simp only [Bool.and_eq_true, decide_eq_true_eq, List.any_eq_true, not_and, not_exists, ne_eq, not_not] at free
    have alone : w.s.portOf (w.s.routeOf r).line = .aux → ∀ x ∈ w.s.recordsOn (w.s.routeOf r).line, x.pos = p := fun aux x on =>
      free (kind.trans aux) x (by rw [line]; exact on)
    have withdrawn : Deals A B w (withdraw p h.kind none w) := deals_withdraw _ (kind ▸ actor) w
    refine (withdrawn sound).trans ?_
    have sound' := sound.moves (withdrawn sound)
    have replaced {st : HolderState}
        (rule : (st = h.state ∧ (st = .pending ∨ st = .making)) ∨ (st = .making ∧ h.state = .connected ∧ w.s.pathQuiet p = true)) :
        Moves A B (withdraw p h.kind none w).s (replaceRoute p h.line r st (withdraw p h.kind none w)).s :=
      deals_replaceRoute (w := withdraw p h.kind none w) actor held rule alone sound'
    unfold rerouteBy
    split
    · next pending => exact replaced (.inl ⟨pending.symm, .inl rfl⟩)
    · next making => exact replaced (.inl ⟨making.symm, .inr rfl⟩)
    · next connected =>
      split
      · next quiet => exact replaced (.inr ⟨rfl, connected, quiet⟩)
      · have stored : Move A B (withdraw p h.kind none w).s (mapRecord p (w.s.routeOf r).line (fun x => { x with reroute := some r })
            (withdraw p h.kind none w).s) := .store (s := (withdraw p h.kind none w).s) (h := h) actor held connected
        rw [← line] at stored
        exact .single stored
    · exact .refl

theorem deals_claimRoute {p : Position} {r : Route} (m : Manner) {w : Work} (actor : A p (w.s.portOf (w.s.routeOf r).line))
    (victims : m = .take → w.s.Victims A (w.s.routeOf r).line) : Deals A B w (claimRoute p r m w).1 := by
  intro sound
  unfold claimRoute
  dsimp only
  split
  · next h held =>
    obtain ⟨stands, pos, line⟩ := mem_of_recordAt held
    have kind : h.kind = w.s.portOf (w.s.routeOf r).line := by rw [(sound.keyed.routed h stands).2.1, line]
    split
    · exact Deals.trans (deals_of_move (.unstore _ actor)) (deals_withdraw _ (kind ▸ actor) _) sound
    · exact deals_rerouteRecord actor held sound
  · next none =>
    split
    · next had => exact (deals_assign actor none (roomy_of_canBeHad had)).trans (deals_admitFreed _) sound
    · split
      · exact .single (.enqueue actor none)
      · exact .refl
      · split
        · next main => exact deals_takeMain actor none main (victims rfl) sound
        · next aux =>
          refine deals_takeRx actor none ?_ (victims rfl) sound
          cases port : w.s.portOf (w.s.routeOf r).line with
          | main => exact absurd port aux
          | aux => rfl

/-! ## Ring claims (R79 to R86) -/

theorem deals_settleRing {p : Position} {k : PortKind} (actor : A p k) (w : Work) : Deals A B w (settleRing p k w) :=
  deals_mapStanding _ actor w

theorem deals_setDue {p : Position} {k : PortKind} (on : Bool) (actor : A p k) (w : Work) : Deals A B w (setDue p k on w) :=
  deals_mapStanding _ actor w

theorem portOf_of_candidate {s : State} {p : Position} {k : PortKind} {r : Route} (candidate : s.candidateEntry p k r = true) :
    s.portOf (s.routeOf r).line = k := by
  simp only [State.candidateEntry, State.usable, Bool.and_eq_true, decide_eq_true_eq] at candidate
  exact candidate.1.1.1.2

theorem deals_loseFollowed {p : Position} {k : PortKind} (l : Line) (before : List Line) (actor : A p k) (w : Work) :
    Deals A B w (loseFollowed p k l before w) := deals_foldl _ (fun w i => deals_lose i .releasedByFollow actor w) _ _

theorem deals_ringClaim {p : Position} {k : PortKind} (b : Band) (told : Bool) (actor : A p k) (w : Work) :
    Deals A B w (ringClaim p k b told w).1 := by
  have claims {r : Route} (mem : r ∈ (w.s.ringOf p b k).filter fun r => w.s.candidateEntry p k r && w.s.covers r b) (m : Manner)
      (manner : m ≠ .take) : Deals A B w (claimRoute p r m w).1 := by
    have test := (List.mem_filter.1 mem).2
    rw [Bool.and_eq_true] at test
    refine deals_claimRoute m ?_ fun take => absurd take manner
    rw [portOf_of_candidate test.1]
    exact actor
  unfold ringClaim
  dsimp only
  split
  · next r found =>
    have claimed := claims (List.mem_of_find?_eq_some found) .now nofun
    split
    · exact (claimed.trans (deals_loseFollowed _ _ actor _)).trans (deals_settleRing actor _)
    · exact claimed.trans (deals_settleRing actor _)
  · split
    · next r rs eq => exact (claims (by rw [eq]; exact List.mem_cons_self) .wait nofun).trans (deals_settleRing actor _)
    · unfold noteNoRoute
      split
      · exact deals_of_eq rfl
      · exact .refl w

theorem deals_calledClaim {p : Position} {k : PortKind} (b : Band) (actor : A p k) (w : Work) : Deals A B w (calledClaim p k b w) := by
  unfold calledClaim
  split
  · exact deals_setDue true actor w
  split
  · exact .refl w
  · exact deals_ringClaim b true actor w

theorem deals_claimIfNeeded {p : Position} {k : PortKind} (actor : A p k) (w : Work) : Deals A B w (claimIfNeeded p k w) := by
  unfold claimIfNeeded
  split
  · split
    · exact deals_calledClaim _ actor w
    · exact .refl w
  · exact .refl w

theorem deals_reclaimOne (p : Position) (k : PortKind) (w : Work) : Deals A B w (reclaimOne p k w) := by
  intro sound
  unfold reclaimOne
  split
  · next l named =>
    have actor : A p k := sound.cover.reclaims p k (by rw [named]; nofun)
    split
    · have cleared : Deals A B w (w.mapStanding p k fun x => { x with reclaim := none }) := deals_mapStanding _ actor w
      dsimp only
      split
      · exact cleared.trans (deals_setDue true actor _) sound
      · exact cleared.trans (deals_claimIfNeeded actor _) sound
    · exact .refl
  · exact .refl

theorem deals_eachPort {f : Position → PortKind → Work → Work} (each : ∀ p k w, Deals A B w (f p k w)) (w : Work) :
    Deals A B w (eachPort f w) := deals_foldl _ (fun w p => (each p .main w).trans (each p .aux _)) _ _

theorem deals_reclaims (w : Work) : Deals A B w (reclaims w) := deals_eachPort deals_reclaimOne w

theorem deals_followBand {p : Position} {k : PortKind} (actor : A p k) (w : Work) : Deals A B w (followBand p k w) := by
  unfold followBand
  split
  · split
    · split
      · exact deals_calledClaim _ actor w
      · exact deals_setDue false actor w
    · exact deals_setDue false actor w
  · exact .refl w

theorem deals_takeDue {p : Position} {k : PortKind} (due : ∀ w : Work, (w.s.standing p k).due = true → A p k) (w : Work) :
    Deals A B w (takeDue p k w) := by
  unfold takeDue
  split
  · next on => exact (deals_setDue false (due w on) w).trans (deals_claimIfNeeded (due w on) _)
  · exact .refl w

theorem deals_makeTests (w : Work) : Deals A B w (makeTests w) := deals_of_move (.make w.s)

theorem deals_goBreaking {p : Position} {l : Line} {w : Work} (actor : A p (w.s.portOf l)) : Deals A B w (goBreaking p l w) :=
  fun _ => moves_goBreaking actor

/-! ## The close of an event -/

theorem s_switchingEnded (b : State) (w : Work) : (switchingEnded b w).s = w.s := by
  unfold switchingEnded
  generalize allPositions = ps
  have each (u : Work) (p : Position) :
      (if b.switching p && !w.s.switching p && !w.connects p then u.event (.switchingEnded p) else u).s = u.s := by
    split <;> rfl
  suffices ∀ (ps : List Position) (u : Work), u.s = w.s → (ps.foldl (fun u p =>
      if b.switching p && !u.s.switching p && !u.connects p then u.event (.switchingEnded p) else u) u).s = w.s from this ps w rfl
  intro ps
  induction ps with
  | nil => exact fun u same => same
  | cons p ps ih =>
    intro u same
    rw [List.foldl_cons]
    refine ih _ ?_
    split
    · exact same
    · exact same

theorem closeWork_s (b : State) (w : Work) : (closeWork b w).s = recompose (admitFreed w).s.made := by
  rw [closeWork, s_switchingEnded]
  rfl

end Sys2Proof.Machine
end

section
/-! The bodies of the allocator's events, as changes of the allocator one by one. -/

namespace Sys2Proof.Machine

variable {A : Position → PortKind → Prop} {B : Prop}

/-- A fold over records that `P` holds of. -/
theorem deals_records {f : Work → Holder → Work} {T : Table} {P : Holder → Prop}
    (each : ∀ w r, w.s.table = T → P r → Deals A B w (f w r)) :
    ∀ (rs : List Holder) (w : Work), w.s.table = T → (∀ r ∈ rs, P r) → Deals A B w (rs.foldl f w)
  | [], w, _, _ => .refl w
  | r :: rs, w, table, all => fun sound => by
    have first := each w r table (all r List.mem_cons_self) sound
    exact first.trans (deals_records each rs _ ((table_of_moves first).trans table) (fun x mem => all x (List.mem_cons_of_mem _ mem))
      (sound.moves first))

/-- A record by a position and kind that `A` admits, under a table. -/
structure Holder.Acts (A : Position → PortKind → Prop) (T : Table) (r : Holder) : Prop where
  kind : r.kind = (T.lines.get r.line).kind.port
  actor : A r.pos r.kind

theorem acts_of_mem {s : State} (keyed : s.AllocationKeyed) {r : Holder} (mem : r ∈ s.alloc.records) (actor : A r.pos r.kind) :
    r.Acts A s.table := ⟨(keyed.routed r mem).2.1, actor⟩

theorem deals_goBreaking_of_acts {w : Work} {r : Holder} (acts : r.Acts A w.s.table) : Deals A B w (goBreaking r.pos r.line w) := by
  refine deals_goBreaking ?_
  rw [show w.s.portOf r.line = r.kind from acts.kind.symm]
  exact acts.actor

/-! ## RELEASE, absence, entry and RESTART -/

theorem deals_releaseKinds {p : Position} {ks : List PortKind} (actors : ∀ k ∈ ks, A p k) (w : Work) : Deals A B w (releaseKinds p ks w) := by
  intro sound
  have mem {r : Holder} (h : r ∈ w.s.alloc.records.filter fun r => r.pos = p && ks.contains r.kind) :
      r ∈ w.s.alloc.records ∧ r.pos = p ∧ r.kind ∈ ks := by
    simpa [List.mem_filter] using h
  unfold releaseKinds
  rw [foldl_goBreaking_eq _ fun r h => (mem h).2.1]
  refine deals_records (P := Holder.Acts A w.s.table) (fun u r table acts => ?_) _ w rfl (fun r h => ?_) sound
  · exact deals_goBreaking_of_acts (table ▸ acts)
  · obtain ⟨stands, rfl, kind⟩ := mem h
    exact acts_of_mem sound.keyed stands (actors _ kind)

theorem deals_dropEntries {p : Position} (actors : ∀ k, A p k) (w : Work) : Deals A B w (dropEntries p w) :=
  (deals_withdraw none (actors .main) w).trans (deals_withdraw none (actors .aux) _)

theorem deals_breakAbsent {p : Position} (actors : ∀ k, A p k) (w : Work) : Deals A B w (breakAbsent p w) := by
  intro sound
  have mem {r : Holder} (h : r ∈ w.s.alloc.records.filter fun r => r.pos = p && r.state ≠ .breaking) :
      r ∈ w.s.alloc.records ∧ r.pos = p := by
    have := List.mem_filter.1 h
    simp only [Bool.and_eq_true, decide_eq_true_eq] at this
    exact ⟨this.1, this.2.1⟩
  unfold breakAbsent
  refine deals_records (P := fun r => r.Acts A w.s.table ∧ r.pos = p) (fun u r table acts => ?_) _ w rfl (fun r h => ?_) sound
  · obtain ⟨acts, rfl⟩ := acts
    exact (deals_mapStanding _ acts.actor u).trans (deals_goBreaking_of_acts (w := u.mapStanding r.pos r.kind _) (table ▸ acts))
  · obtain ⟨stands, rfl⟩ := mem h
    exact ⟨acts_of_mem sound.keyed stands (actors _), rfl⟩

theorem deals_absence {p : Position} (actors : ∀ k, A p k) (w : Work) :
    Deals A B w (breakAbsent p (dropEntries p (settleRing p .aux (settleRing p .main w)))) :=
  (((deals_settleRing (actors .main) w).trans (deals_settleRing (actors .aux) _)).trans (deals_dropEntries actors _)).trans
    (deals_breakAbsent actors _)

theorem deals_entry (actors : ∀ p k, A p k) (w : Work) : Deals A B w ((w.s.alloc.records.filter fun r => r.state = .making).foldl
    (fun w r => lose r.pos r.kind r.line .safe (goBreaking r.pos r.line w)) w) := by
  intro sound
  refine deals_records (P := Holder.Acts A w.s.table) (fun u r table acts => ?_) _ w rfl (fun r h => ?_) sound
  · exact (deals_goBreaking_of_acts (table ▸ acts)).trans (deals_lose _ _ acts.actor _)
  · exact acts_of_mem sound.keyed (List.mem_of_mem_filter h) (actors _ _)

theorem s_loseToRestart (r : Holder) (w : Work) : (loseToRestart r w).s = w.s := by
  unfold loseToRestart
  split <;> rfl

theorem deals_restart (actors : ∀ p k, A p k) (w : Work) :
    Deals A B w (((clearClaims w).s.alloc.records.filter fun r => r.state ≠ .breaking).foldl
      (fun w r => loseToRestart r (goBreaking r.pos r.line w)) (clearClaims w)) := by
  have cleared : Deals A B w (clearClaims w) := deals_of_move (.clear actors)
  refine cleared.trans fun sound => ?_
  refine deals_records (P := Holder.Acts A (clearClaims w).s.table) (fun u r table acts => ?_) _ _ rfl (fun r h => ?_) sound
  · exact (deals_goBreaking_of_acts (table ▸ acts)).trans (deals_of_eq (s_loseToRestart r _))
  · exact acts_of_mem sound.keyed (List.mem_of_mem_filter h) (actors _ _)

/-! ## Path-quiet events, band changes, exit -/

theorem deals_requestBreaks {p : Position} (actors : ∀ k, A p k) {w : Work} (quiet : w.s.pathQuiet p = true) :
    Deals A B w (requestBreaks p w) := deals_of_move (.request actors quiet)

theorem deals_pathQuiet {p : Position} (actors : ∀ k, A p k) {w : Work} (quiet : w.s.pathQuiet p = true) :
    Deals A B w (applyReroutes p (requestBreaks p w)) := (deals_requestBreaks actors quiet).trans (deals_applyReroutes actors _)

theorem deals_bandChange {p : Position} (actors : ∀ k, A p k) (w : Work) : Deals A B w (followBand p .aux (followBand p .main w)) :=
  (deals_followBand (actors .main) w).trans (deals_followBand (actors .aux) _)

theorem deals_exit (actors : ∀ p k, A p k) (w : Work) :
    Deals A B w (eachPort takeDue (admitFreed (allPositions.foldl (fun w p => applyReroutes p w) (makeTests w)))) :=
  (((deals_makeTests w).trans (deals_foldl _ (fun w p => deals_applyReroutes (actors p) w) _ _)).trans (deals_admitFreed _)).trans
    (deals_eachPort (fun p k w => deals_takeDue (fun _ _ => actors p k) w) _)

/-! ## Completion and the end without a latch -/

theorem moves_removals {w : Work} (allowed : B) (sound : Sound A w.s) {rs : List Holder} (actors : ∀ p k, A p k)
    (listed : ∀ r ∈ rs, w.s.recordAt r.pos r.line = some r ∧ (r.state = .breaking ∧ neverClosed r w.s = true))
    (once : (rs.map fun r => (r.pos, r.line)).Nodup) :
    Moves A B w.s (rs.foldl (fun w r => removeRecord r.pos r.line w) w).s := by
  refine moves_records (Q := fun s r => r.state = .breaking ∧ neverClosed r s = true) (fun u r _ held gone => ?_)
    (fun u r x _ _ other held gone => ?_) rs w sound listed once
  · exact .single (.remove (actors _ _) held (.inr gone.2) fun _ => allowed)
  · refine ⟨?_, gone.1, ?_⟩
    · rw [removeRecord_s, recordAt_without, if_neg other]
      exact held
    · rw [removeRecord_s, neverClosed_of_chain (show (u.s.without r.pos r.line).chain = u.s.chain from rfl)]
      exact gone.2

theorem deals_removeWhere (allowed : B) (actors : ∀ p k, A p k) {t : Holder → Bool} {w : Work}
    (gone : ∀ r, t r = true → r.state = .breaking ∧ neverClosed r w.s = true) : Deals A B w (removeWhere t w) := by
  intro sound
  obtain ⟨listed, once⟩ := listed_filter sound.keyed t
  exact moves_removals allowed sound actors (fun r mem => ⟨(listed r mem).1, gone r (listed r mem).2⟩) once

theorem deals_end (allowed : B) (actors : ∀ p k, A p k) (w : Work) :
    Deals A B w (removeWhere (fun r => r.state = .breaking && neverClosed r w.s) w) :=
  deals_removeWhere allowed actors fun r test => by simpa using test

theorem deals_connectMade (actors : ∀ p k, A p k) (w : Work) : Deals A B w (connectMade w) := by
  intro sound
  obtain ⟨listed, once⟩ := listed_filter sound.keyed fun r => decide (r.state = .making) && w.s.latchedAs r
  refine moves_records (Q := fun s r => r.state = .making ∧ s.latchedAs r = true) (fun u r _ held made => ?_)
    (fun u r x _ _ other held made => ?_) _ w sound (fun r mem => ⟨(listed r mem).1, by simpa using (listed r mem).2⟩) once
  · exact .single (.connect (actors _ _) held made.1 made.2)
  · refine ⟨?_, made.1, made.2⟩
    refine (recordAt_mapRecord (f := fun x => { x with state := .connected }) (fun r => ⟨rfl, rfl, rfl⟩) r.pos r.line u.s x.pos x.line).trans ?_
    rw [if_neg other]
    exact held

theorem chain_connectMade (w : Work) : (connectMade w).s.chain = w.s.chain := by
  unfold connectMade
  generalize w.s.alloc.records.filter _ = rs
  induction rs generalizing w with
  | nil => rfl
  | cons r rs ih => exact ih (connectOne r w)

theorem deals_completion (allowed : B) (actors : ∀ p k, A p k) {w : Work} (idle : w.s.chain.op = none) :
    Deals A B w (removeWhere (fun r => r.state = .breaking && !r.latched) (connectMade w)) := by
  refine (deals_connectMade actors w).trans (deals_removeWhere allowed actors fun r test => ?_)
  rw [neverClosed, chain_connectMade, idle]
  simpa using test

/-! ## FOLLOW and CANCEL -/

theorem records_setFollow (p : Position) (ks : List PortKind) (on : Bool) (s : State) :
    (setFollow p ks on s).alloc.records = s.alloc.records := by
  unfold setFollow
  induction ks generalizing s with
  | nil => rfl
  | cons k ks ih => exact ih _

theorem moves_setFollow (p : Position) (ks : List PortKind) (on : Bool) (s : State) : Moves (fun q k => q = p ∧ k ∈ ks) B s (setFollow p ks on s) := by
  unfold setFollow
  suffices ∀ (js : List PortKind) (s : State), (∀ k ∈ js, k ∈ ks) → Moves (fun q k => q = p ∧ k ∈ ks) B s
      (js.foldl (fun s k => s.mapStanding p k fun x => { x with follow := on, due := false, reclaim := none }) s) from
    this ks s fun _ mem => mem
  intro js
  induction js with
  | nil => exact fun s _ => .refl
  | cons k js ih => exact fun s all => .head (.standing _ ⟨rfl, all k List.mem_cons_self⟩) (ih _ fun j mem => all j (List.mem_cons_of_mem _ mem))

theorem mapFin_mapFin {α : Type} {n : Nat} (f g : Fin n → α → α) (v : Vector α n) :
    mapFin f (mapFin g v) = mapFin (fun i x => f i (g i x)) v := by
  refine Vector.ext fun i h => ?_
  have inner : (mapFin f (mapFin g v)).get ⟨i, h⟩ = f ⟨i, h⟩ (g ⟨i, h⟩ (v.get ⟨i, h⟩)) := by rw [get_mapFin, get_mapFin]
  exact inner.trans (get_mapFin (fun i x => f i (g i x)) v ⟨i, h⟩).symm

theorem mapFin_id {α : Type} {n : Nat} {f : Fin n → α → α} (same : ∀ i x, f i x = x) (v : Vector α n) : mapFin f v = v :=
  Vector.ext fun i h => (get_mapFin f v ⟨i, h⟩).trans (same _ _)

theorem cancelKinds_nil (p : Position) (s : State) : cancelKinds p [] s = s := by
  unfold cancelKinds mapLists State.mapAlloc
  dsimp only
  rw [mapFin_id fun _ _ => by simp]

theorem cancelKinds_cons (p : Position) (k : PortKind) (ks : List PortKind) (s : State) :
    cancelKinds p (k :: ks) s = cancelKinds p ks (s.withdrawn p k none) := by
  have lists : mapFin (fun l xs => if (k :: ks).contains (s.portOf l) then xs.filter fun e : WaitEntry => e.pos ≠ p else xs) s.alloc.lists =
      mapFin (fun l xs => if ks.contains (s.portOf l) then xs.filter fun e : WaitEntry => e.pos ≠ p else xs)
        (mapFin (fun l xs => if s.portOf l = k && (none : Option Line) ≠ some l then xs.filter fun e : WaitEntry => e.pos ≠ p else xs)
          s.alloc.lists) := by
    rw [mapFin_mapFin]
    congr 1
    funext l xs
    by_cases here : s.portOf l = k
    · by_cases also : ks.contains (s.portOf l) = true <;> simp [here, List.filter_filter]
    · simp [here]
  unfold cancelKinds State.withdrawn mapLists State.mapAlloc
  dsimp only
  rw [lists]
  rfl

theorem moves_cancelKinds (p : Position) (ks : List PortKind) (s : State) : Moves (fun q k => q = p ∧ k ∈ ks) B s (cancelKinds p ks s) := by
  suffices ∀ (js : List PortKind) (s : State), (∀ k ∈ js, k ∈ ks) → Moves (fun q k => q = p ∧ k ∈ ks) B s (cancelKinds p js s) from
    this ks s fun _ mem => mem
  intro js
  induction js with
  | nil =>
    intro s _
    rw [cancelKinds_nil]
  | cons k js ih =>
    intro s all
    rw [cancelKinds_cons]
    exact .head (.withdraw none ⟨rfl, all k List.mem_cons_self⟩) (ih _ fun j mem => all j (List.mem_cons_of_mem _ mem))

theorem deals_followPart {p : Position} {k : PortKind} (actor : A p k) (ks : List PortKind) (w : Work) :
    Deals A B w (followPart p k ks w).1 := by
  unfold followPart
  split
  · unfold followKind
    split
    · exact .refl w
    · split
      · exact deals_ringClaim _ false actor w
      · exact .refl w
  · exact .refl w

end Sys2Proof.Machine
end

section
/-! What a written table keeps for the records and wait entries that stand: the kinds of lines in use, the lines of named routes, and the
select relays of the routes in force (R10, R12, R15). -/

namespace Sys2Proof.Machine

/-- A table serves a state: what stands in it reads the same there (R10, R12, R15), and, while a position is on the air, so does every
band entry (R7). -/
structure State.Serves (s : State) (T : Table) : Prop where
  ports : ∀ l, s.lineInUse l = true → (T.lines.get l).kind = (s.lineOf l).kind
  routes : ∀ r, s.routeNamed r = true → (T.routes.get r).line = (s.routeOf r).line
  selects : ∀ h ∈ s.alloc.records, { s with table := T }.routeSelects h.route h.line = s.routeSelects h.route h.line
  bands : (∀ p, s.onAir p = false) ∨ T.bands = s.table.bands

theorem lineInUse_of_record {s : State} {h : Holder} (mem : h ∈ s.alloc.records) : s.lineInUse h.line = true := by
  have on : h ∈ s.recordsOn h.line := (mem_recordsOn s _ h).2 ⟨mem, rfl⟩
  simp only [State.lineInUse, Bool.or_eq_true, Bool.not_eq_true', List.isEmpty_eq_false_iff]
  exact .inl (List.ne_nil_of_mem on)

theorem lineInUse_of_entry {s : State} {l : Line} {e : WaitEntry} (mem : e ∈ s.listOf l) : s.lineInUse l = true := by
  simp only [State.lineInUse, Bool.or_eq_true, Bool.not_eq_true', List.isEmpty_eq_false_iff]
  exact .inr (List.ne_nil_of_mem mem)

theorem routeNamed_of_record {s : State} {h : Holder} (mem : h ∈ s.alloc.records) : s.routeNamed h.route = true := by
  simp only [State.routeNamed, Bool.or_eq_true, List.any_eq_true, decide_eq_true_eq]
  exact .inl ⟨h, mem, .inl rfl⟩

theorem routeNamed_of_reroute {s : State} {h : Holder} {r : Route} (mem : h ∈ s.alloc.records) (stored : h.reroute = some r) :
    s.routeNamed r = true := by
  simp only [State.routeNamed, Bool.or_eq_true, List.any_eq_true, decide_eq_true_eq]
  exact .inl ⟨h, mem, .inr stored⟩

theorem routeNamed_of_entry {s : State} {l : Line} {e : WaitEntry} (mem : e ∈ s.listOf l) : s.routeNamed e.route = true := by
  simp only [State.routeNamed, Bool.or_eq_true, List.any_eq_true, decide_eq_true_eq]
  refine .inr ⟨s.listOf l, ?_, e, mem, rfl⟩
  rw [State.listOf, Vector.get_eq_getElem, Vector.mem_toList_iff]
  exact Vector.getElem_mem _

/-- A table with the lines, elements and routes that stand, and bands that keep. -/
theorem serves_of_same {s : State} {T : Table} (lines : T.lines = s.table.lines) (elements : T.elements = s.table.elements)
    (routes : T.routes = s.table.routes) (bands : (∀ p, s.onAir p = false) ∨ T.bands = s.table.bands) : s.Serves T := by
  refine ⟨fun l _ => ?_, fun r _ => ?_, fun h _ => ?_, bands⟩
  · rw [lines]; rfl
  · rw [routes]; rfl
  · simp only [State.routeSelects, State.routeOf, routes, elements]

theorem serves_setLine {s : State} {l : Line} (unused : s.lineInUse l = false) (e : LineEntry) : s.Serves (s.table.setLine l e) := by
  refine ⟨fun j inUse => ?_, fun r _ => rfl, fun h _ => rfl, .inr rfl⟩
  have other : j ≠ l := fun same => by rw [same, unused] at inUse; cases inUse
  rw [Table.setLine, get_put_ne _ _ other]
  rfl

/-- The select relays of a route on a line, by the lines and selects of its elements. -/
theorem routeSelects_congr {s t : State} {r : Route} {l : Line} (elements : (t.routeOf r).elements = (s.routeOf r).elements)
    (each : ∀ x ∈ (s.routeOf r).elements,
      ((t.table.elements.get x).line = l ↔ (s.table.elements.get x).line = l) ∧
        ((s.table.elements.get x).line = l → (t.table.elements.get x).select = (s.table.elements.get x).select)) :
    t.routeSelects r l = s.routeSelects r l := by
  unfold State.routeSelects
  rw [elements]
  refine List.foldl_ext _ _ _ fun im x mem => ?_
  obtain ⟨line, select⟩ := each x mem
  by_cases at' : (s.table.elements.get x).line = l
  · simp only [if_pos at', if_pos (line.2 at'), select at']
  · simp only [if_neg at', if_neg fun h => at' (line.1 h)]

theorem serves_setElement {s : State} {x : Element} {e : ElementEntry} (old : s.lineInUse (s.table.elements.get x).line = false)
    (new : s.lineInUse e.line = false) : s.Serves (s.table.setElement x e) := by
  have route (r : Route) : ((s.table.setElement x e).routes.get r).line = (s.routeOf r).line ∧
      ((s.table.setElement x e).routes.get r).elements = (s.routeOf r).elements := by
    rw [Table.setElement, get_mapFin]
    split <;> exact ⟨rfl, rfl⟩
  refine ⟨fun j _ => rfl, fun r _ => (route r).1, fun h mem => ?_, .inr rfl⟩
  have inUse := lineInUse_of_record mem
  refine routeSelects_congr (route h.route).2 fun y _ => ?_
  have entry : { s with table := s.table.setElement x e }.table.elements = put s.table.elements x e := rfl
  rw [entry]
  by_cases same : y = x
  · subst same
    have apart : (s.table.elements.get y).line ≠ h.line := fun at' => by rw [← at', old] at inUse; cases inUse
    have apart' : e.line ≠ h.line := fun at' => by rw [← at', new] at inUse; cases inUse
    rw [get_put_self]
    exact ⟨⟨fun at' => absurd at' apart', fun at' => absurd at' apart⟩, fun at' => absurd at' apart⟩
  · rw [get_put_ne _ _ same]
    exact ⟨.rfl, fun _ => rfl⟩

theorem serves_setRoute {s : State} {r : Route} (unnamed : s.routeNamed r = false) (e : RouteEntry) : s.Serves (s.table.setRoute r e) := by
  have route {j : Route} (named : s.routeNamed j = true) : (s.table.setRoute r e).routes.get j = s.routeOf j := by
    have other : j ≠ r := fun same => by rw [same, unnamed] at named; cases named
    rw [Table.setRoute, get_put_ne _ _ other]
    rfl
  refine ⟨fun j _ => rfl, fun j named => by rw [route named], fun h mem => ?_, .inr rfl⟩
  exact routeSelects_congr (by rw [State.routeOf, route (routeNamed_of_record mem)]) fun y _ => ⟨.rfl, fun _ => rfl⟩

theorem serves_setBand {s : State} (off : ∀ p, s.onAir p = false) (i : Band) (e : BandEntry) : s.Serves (s.table.setBand i e) :=
  serves_of_same rfl rfl rfl (.inl off)

/-- A table that serves a state keeps the laws of its allocation. -/
theorem allocationKeyed_serves {s : State} {T : Table} (serves : s.Serves T) (keyed : s.AllocationKeyed) :
    { s with table := T }.AllocationKeyed := by
  have port {l : Line} (inUse : s.lineInUse l = true) : { s with table := T }.portOf l = s.portOf l := by
    rw [State.portOf, State.portOf, State.lineOf, serves.ports l inUse]
  refine ⟨keyed.records, fun h mem => ?_, keyed.stored, keyed.lists, fun l e waits => ?_, fun k l x hx y hy same kind => ?_, keyed.apart⟩
  · obtain ⟨line, kind, stored⟩ := keyed.routed h mem
    refine ⟨(serves.routes _ (routeNamed_of_record mem)).trans line, ?_, fun r store => ?_⟩
    · rw [port (lineInUse_of_record mem)]
      exact kind
    · exact (serves.routes _ (routeNamed_of_reroute mem store)).trans (stored r store)
  · exact (serves.routes _ (routeNamed_of_entry waits)).trans (keyed.placed l e waits)
  · rw [port (lineInUse_of_entry hx), port (lineInUse_of_entry hy)] at kind
    exact keyed.oneList k l x hx y hy same kind

end Sys2Proof.Machine
end

section
/-! The changes that a command makes, one by one: every command but power is a path of the moves below, and an invariant of the
transmit records, the driver, the ports, the log or the tables is kept by every command where each move keeps it. -/

namespace Sys2Proof.Machine

/-! ## Moves -/

/-- A port as an event of its own, a RESTART or a freed slot may leave it: no longer queue, no third slot, and in step where it was. -/
structure PortMoved (x y : Link) : Prop where
  queue : y.queue.length ≤ x.queue.length
  slots : x.slots.length ≤ Config.receiveSlots → y.slots.length ≤ Config.receiveSlots
  step : x.InStep → y.InStep

/-- The moves that give nobody a transmission and leave tables, log and driver alone: frames queued where there is room, occurrences,
advisory flags, reasons, the values last sent, and grants withdrawn. -/
inductive Quiet : State → State → Prop
  | send {s : State} (p : Position) (f : Frame) (room : (s.link p).queue.length < Config.queueFrames) : Quiet s (sendFrame p f s)
  | noticeLost (s : State) (p : Position) (b : Bool) : Quiet s (s.mapLink p fun x => { x with noticeLost := b })
  | raise (s : State) (o : Occurrence) : Quiet s (Machine.raise o s)
  | advisory (s : State) (xs : List (Position × Position)) : Quiet s { s with advisory := xs }
  | reason (s : State) (p : Position) (r : Option WaiterReason) : Quiet s (s.mapTx p fun x => { x with reason := r })
  | sent (s : State) (p : Position) : Quiet s (s.mapFreq p fun r =>
      { r with sentBand := r.band, sentOutOfBand := r.outOfBand, sentStale := r.stale })
  | withdraw (s : State) (p : Position) (cause : RevocationCause) : Quiet s (withdrawGrant p cause s)

/-- Moves of the quiet kind, one after another. -/
abbrev Quieted : State → State → Prop := Relation.ReflTransGen Quiet

/-- What a key down does to the transmit record and the waiting set (R95), before the occurrence and the arbiter run it calls for. -/
def keyDown (p : Position) (s : State) : State :=
  match (s.txOf p).state with
  | .idle => joinWaiting p (s.mapTx p fun x => { x with ptt := true, pttTimer := none })
  | .hang => (s.mapTx p fun x => { x with ptt := true, pttTimer := none }).mapTx p fun x => { x with state := .granted, hangTimer := none }
  | _ => s.mapTx p fun x => { x with ptt := true, pttTimer := none }

/-- What a key up does to the transmit record and the waiting set (R96), before the leave event and the arbiter run. -/
def keyUp (p : Position) (s : State) : State :=
  let t := s.mapTx p fun x => { x with ptt := false, pttTimer := none }
  match (s.txOf p).state with
  | .waiting =>
    let u := t.mapTx p fun x => { x with state := .idle }
    { u with waiting := u.waiting.filter fun q => q ≠ p }
  | .granted =>
    if t.hangApplies p then t.mapTx p fun x => { x with state := .hang, hangTimer := some t.policy.hangMs } else leaveSlot p .idle t
  | .revoked => t.mapTx p fun x => { x with state := .idle }
  | _ => t

/-- The driver at safe-state entry, up to the report of an operation that is abandoned (R150). -/
def stopForEntry (s : State) : State :=
  let s := s.mapChain fun c => { c with verifyTimer := none, attempt := none, heldForEntry := false }
  match s.chain.op with
  | some o => if o.phase = .settling then s else endOperation none s
  | none => s

/-- The waiting set and the transmit records at a RESTART, once the grants are withdrawn (R119). -/
def clearWaiting (s : State) : State :=
  { s with
    waiting := []
    tx := mapFin (fun _ x =>
      { x with state := if x.state = .waiting then .revoked else x.state, reason := none, skipHang := false,
               hangTimer := none }) s.tx }

/-- The driver's parts that the operation in flight, its timers and the images stand on are as they were. -/
structure ChainKept (c d : Chain) : Prop where
  op : d.op = c.op
  latched : d.latched = c.latched
  pending : d.pending = c.pending
  settle : d.settleTimer = c.settleTimer
  verify : d.verifyTimer = c.verifyTimer ∨ d.verifyTimer = none
  filters : ∀ p : Position, (d.filters.get p).image = (c.filters.get p).image ∧ (d.filters.get p).current = (c.filters.get p).current

/-- Moves of the allocator of any position and kind, BREAKING records removed too. -/
abbrev Dealt : State → State → Prop := Moves (fun _ _ => True) True

/-- An operation that may start in a state (R141, R144, R145). -/
structure MayStart (s : State) (o : Operation) : Prop where
  idle : s.chain.op = none
  legal : o.legal = true
  phase : o.phase ≠ .settling
  image : if o.kind = .change then o.image = s.chain.pending else o.image = s.chain.latched
  safe : s.safe = true → o.safeInFlight = true

/-- The state with the records' crosspoint flags taken from the latched image (R46). -/
def flagged (s : State) : State :=
  s.mapAlloc fun a => { a with records := a.records.map fun r =>
    { r with latched := s.chain.latched.getLsbD (crosspointBit r.pos r.line) } }

/-- The commands in which the Fault Log takes something, or is cleared. -/
def takesLog : Instr → Bool
  | .occurrence | .resyncPass | .mismatch _ | .faultClear _ => true
  | _ => false

/-- The commands in which something that waits for the Fault Log is taken. -/
def takesEvents : Instr → Bool
  | .occurrence | .resyncPass | .mismatch _ => true
  | _ => false

/-- The commands that can end start-up (R152). -/
def endsStartUp : Option Instr → Bool
  | some .changeCompletion | some .verifyEnd | some .resyncPass | some (.mismatch _) | some .occurrence => true
  | _ => false

/-- One change of the state in the taking of a command `c`, or of any command where `c` is none; power is left out. -/
inductive Act (c : Option Instr) : State → State → Prop
  | quiet {s t : State} (h : Quiet s t) : Act c s t
  | grant {s : State} (p : Position) (waits : p ∈ s.waiting) (eligible : judge s p = none) : Act c s (putOnAir p s)
  | leave {s : State} (p : Position) (hang : (s.txOf p).state = .hang) : Act c s (leaveSlot p .idle s)
  | skip {s : State} (p : Position) (granted : (s.txOf p).state = .granted) : Act c s (s.mapTx p fun x => { x with skipHang := true })
  | keyDown {s : State} (p : Position) (command : c = some (.pttOn p)) (up : (s.txOf p).ptt = false) : Act c s (keyDown p s)
  | keyUp {s : State} (p : Position) (down : (s.txOf p).ptt = true) : Act c s (keyUp p s)
  | tail (s : State) (p : Position) : Act c s (s.mapTx p fun x => { x with tailTimer := none })
  | levels (s : State) (p : Position) (x : TxRecord) (state : x.state = (s.txOf p).state) (ptt : x.ptt = (s.txOf p).ptt)
      (hang : x.hangTimer = (s.txOf p).hangTimer) (skip : x.skipHang = (s.txOf p).skipHang)
      (tail : x.tailTimer = (s.txOf p).tailTimer) : Act c s (s.mapTx p fun _ => x)
  | report {s t : State} (p : Position) (r : FreqRecord) (h : Quieted (s.mapFreq p fun _ => r) t) :
      Act c s (if r.band = (s.freqOf p).band then t else withdrawGrant p .band t)
  | freqs (s : State) (v : Vector FreqRecord 6)
      (kept : (∀ p, s.onAir p = false) ∨ ∀ p, (v.get p).band = (s.freqOf p).band) : Act c s { s with freq := v }
  | restart {s t : State} (v : Vector FreqRecord 6) (h : Quieted { s with freq := v } t) (off : ∀ p, t.onAir p = false) :
      Act c s (clearWaiting t)
  | deal (s : State) (a : Allocator) (moves : s.AllocationKeyed → Dealt s { s with alloc := a }) : Act c s (recompose { s with alloc := a })
  | calm (s : State) (a : Allocator) (moves : s.AllocationKeyed → Dealt s { s with alloc := a })
      (records : a.records = s.alloc.records) : Act c s { s with alloc := a }
  | marks (s : State) (d : Chain) (kept : ChainKept s.chain d) : Act c s { s with chain := d }
  | filter (s : State) (p : Position) (f : Option FilterNo) (quiet : s.pathQuiet p = true) :
      Act c s (recompose (s.mapFilter p fun x => { x with image := f }))
  | verifyTimer (s : State) (n : Nat) (idle : s.chain.op = none) (safe : s.safe = false) :
      Act c s (s.mapChain fun d => { d with verifyTimer := some n })
  | start {s : State} (o : Operation) (may : MayStart s o) :
      Act c s (s.mapChain fun d => { d with op := some o, verifyTimer := none })
  | stop (s : State) : Act c s (s.mapChain fun d => { d with op := none, settleTimer := none })
  | shiftEnd {s : State} (n : Nat) (phase : s.inPhase .change .shifting = true) (safe : s.safe = false) :
      Act c s (s.mapChain fun d => { d with
        content := d.op.map (·.image), op := d.op.map fun o => { o with phase := .settling }, settleTimer := some n })
  | fillEnd {s : State} (phase : s.inPhase .resync .filling = true) :
      Act c s (s.mapChain fun d => { d with content := some d.latched, op := d.op.map fun o => { o with phase := .checking } })
  | latch {s : State} (command : c = some .changeCompletion) (phase : s.inPhase .change .settling = true) (a : Allocator)
      (moves : s.AllocationKeyed → Dealt (flagged (latchChange s)) { latchChange s with alloc := a }) :
      Act c s (recompose { latchChange s with alloc := a })
  | store (s : State) (x : Store) (nv : x.nv = s.store.nv) (saving : x.saving = s.store.saving)
      (snapshot : x.snapshot = s.store.snapshot) (ready : endsStartUp c = true ∨ x.ready = s.store.ready ∨ s.store.ready ≠ .starting) :
      Act c s { s with store := x }
  | save (s : State) (p : Position) (command : c = some (.save p)) : Act c s (s.mapStore fun x => x.save s.table p)
  | saveEnd (s : State) (r : SaveResult) (command : c = some (.saveWriteEnd r)) : Act c s (s.mapStore fun x => x.saveEnd r)
  | table {s : State} (i : Instr) (command : c = some i) (writes : writesTable i = true) (t : Table)
      (limit : s.onAirCount ≤ t.policy.k ∨ t.policy = s.table.policy) (serves : s.Serves t) : Act c s { s with table := t }
  | ports (s : State) (v : Vector Link 6) (moved : ∀ q, PortMoved (s.link q) (v.get q)) : Act c s { s with links := v }
  | handed (s : State) (xs : List Handed) : Act c s { s with handed := xs }
  | log {s : State} (i : Instr) (command : c = some i) (logs : takesLog i = true) (l : FaultLog) (safe : l.safe = s.log.safe)
      (counters : s.CountersBounded → ∀ k, l.counters.get k ≤ Config.counterTop) : Act c s { s with log := l }
  | take {s : State} (i : Instr) (command : c = some i) (takes : takesEvents i = true) (xs : List LogEvent) : Act c s { s with inbox := xs }
  | enter {s t : State} (command : c = some .occurrence) (h : Quieted (s.mapLog fun l => { l with safe := true }) t)
      (off : ∀ p, t.onAir p = false) : Act c s (stopForEntry t)
  | leaveSafe {s : State} (i : Instr) (command : c = some i) (takes : takesEvents i = true) :
      Act c s (s.mapLog fun l => { l with safe := false })

/-- Moves, one after another. -/
abbrev Acts (c : Option Instr) : State → State → Prop := Relation.ReflTransGen (Act c)

variable {c : Option Instr}

theorem Quieted.acts {s t : State} (h : Quieted s t) : Acts c s t := Relation.ReflTransGen.mono (fun _ _ move => Act.quiet move) _ _ h

theorem Act.one {s t : State} (h : Act c s t) : Acts c s t := .single h

theorem acts_foldl {α : Type} (f : State → α → State) (each : ∀ s a, Acts c s (f s a)) :
    ∀ (l : List α) (s : State), Acts c s (l.foldl f s)
  | [], s => .refl
  | a :: l, s => (each s a).trans (acts_foldl f each l _)

theorem quieted_foldl {α : Type} (f : State → α → State) (each : ∀ s a, Quieted s (f s a)) :
    ∀ (l : List α) (s : State), Quieted s (l.foldl f s)
  | [], s => .refl
  | a :: l, s => (each s a).trans (quieted_foldl f each l _)

/-! ## Quiet operations -/

theorem quieted_sendFrame {p : Position} (f : Frame) {s : State} (room : (s.link p).queue.length < Config.queueFrames) :
    Quieted s (sendFrame p f s) := .single (.send p f room)

theorem quieted_raise (o : Occurrence) (s : State) : Quieted s (raise o s) := .single (.raise s o)

theorem quieted_notify (p : Position) (n : Notice) (s : State) : Quieted s (notify p n s) := by
  unfold notify
  split
  · split
    · rename_i room
      exact quieted_sendFrame _ (lt_trans room (by decide))
    · have lost : Quieted s (s.mapLink p fun x => { x with noticeLost := true }) := .single (.noticeLost s p true)
      split
      · exact lost
      · exact lost.trans (quieted_raise _ _)
  · exact .refl

theorem quieted_notifyAll (n : Notice) (s : State) : Quieted s (notifyAll n s) :=
  quieted_foldl _ (fun t p => quieted_notify p n t) _ _

theorem quieted_notifyEach (ns : List (Position × Notice)) (s : State) : Quieted s (notifyEach ns s) :=
  quieted_foldl _ (fun t (x : Position × Notice) => quieted_notify x.1 x.2 t) _ _

theorem quieted_beginEpisode (x : Position × Position) (s : State) : Quieted s (beginEpisode x s) := by
  unfold beginEpisode
  split
  · exact ((quieted_notify _ _ _).trans (quieted_notify _ _ _)).trans (quieted_raise _ _)
  · exact .refl

theorem quieted_evaluateAdvisories (s : State) : Quieted s (evaluateAdvisories s) :=
  (Relation.ReflTransGen.single (.advisory s (pairs.filter s.advisoryHolds))).trans
    (quieted_foldl _ (fun t x => quieted_beginEpisode x t) _ _)

theorem quieted_withdrawGrant (p : Position) (cause : RevocationCause) (s : State) : Quieted s (withdrawGrant p cause s) :=
  .single (.withdraw s p cause)

theorem quieted_revoke (p : Position) (cause : RevocationCause) (s : State) : Quieted s (revoke p cause s) := by
  unfold revoke
  split
  · exact (quieted_withdrawGrant _ _ _).trans (quieted_evaluateAdvisories _)
  · exact .refl

theorem quieted_leaveEvents (b s : State) : Quieted s (leaveEvents b s) :=
  quieted_foldl _ (fun s p => by split; exacts [quieted_evaluateAdvisories _, .refl]) _ _

theorem quieted_revokeAll (cause : RevocationCause) (s : State) : Quieted s (revokeAll cause s) :=
  (quieted_foldl _ (fun s p => quieted_withdrawGrant p cause s) _ _).trans (quieted_leaveEvents _ _)

theorem quieted_bandNotice (p : Position) (s : State) : Quieted s (bandNotice p s) := by
  unfold bandNotice
  dsimp only
  split
  · exact (Relation.ReflTransGen.single (.sent s p)).trans (quieted_notify _ _ _)
  · exact .refl

theorem quieted_takeStart (im : Image) (s : State) : Quieted s (takeStart im s) :=
  quieted_foldl _ (fun t p => by dsimp only; split; exacts [quieted_raise _ _, .refl]) _ _

theorem quieted_answer {p : Position} (f : Frame) (k : Code) {s : State} (room : (s.link p).queue.length < Config.queueFrames) :
    Quieted s (answer p f k s) := quieted_sendFrame _ room

/-! ## A transmission left, withdrawn or granted -/

/-- The transmit record that leaves the air (R96, R97, R107, R109). -/
def TxRecord.leave (x : TxRecord) (next : TxState) (q : Policy) : TxRecord :=
  { x with state := next, hangTimer := none, skipHang := false, tailTimer := if q.tTail = 0 then none else some q.tailMs }

theorem mapTx_mapTx (s : State) (p : Position) (f g : TxRecord → TxRecord) :
    (s.mapTx p f).mapTx p g = s.mapTx p fun x => g (f x) := by
  simp only [State.mapTx, State.txOf, put_put, get_put_self]

theorem leaveSlot_eq (p : Position) (next : TxState) (s : State) :
    leaveSlot p next s =
      if s.policy.tTail = 0 ∧ (s.txOf p).rf = true then
        raise (ungrantedRf p .tail s) (s.mapTx p fun x => x.leave next s.policy)
      else s.mapTx p fun x => x.leave next s.policy := by
  have taken (timer : Timer) : (s.mapTx p fun x => { x with state := next, hangTimer := none, skipHang := false }).mapTx p
      (fun x => { x with tailTimer := timer }) =
      s.mapTx p fun x => { x with state := next, hangTimer := none, skipHang := false, tailTimer := timer } := by
    rw [mapTx_mapTx]
  have rf : ((s.mapTx p fun x => { x with state := next, hangTimer := none, skipHang := false }).txOf p).rf = (s.txOf p).rf := by simp
  by_cases zero : s.policy.tTail = 0
  · have ended : leaveSlot p next s = endTail p (s.mapTx p fun x => { x with state := next, hangTimer := none, skipHang := false }) :=
      if_pos zero
    rw [ended, endTail, rf, taken]
    simp only [zero, true_and, TxRecord.leave, if_true]
    rfl
  · have started : leaveSlot p next s = (s.mapTx p fun x => { x with state := next, hangTimer := none, skipHang := false }).mapTx p
        fun x => { x with tailTimer := some s.policy.tailMs } := if_neg zero
    rw [started, taken, if_neg fun both => zero both.1]
    simp only [TxRecord.leave, if_neg zero]

theorem tx_leaveSlot (p : Position) (next : TxState) (s : State) :
    (leaveSlot p next s).tx = put s.tx p ((s.txOf p).leave next s.policy) := by
  rw [leaveSlot_eq]
  split <;> rfl

end Sys2Proof.Machine
end

section
/-! The shared operations of the part as paths of moves. -/

namespace Sys2Proof.Machine

variable {c : Option Instr}

/-! ## The interlock -/

theorem off_of_judge {s : State} {p : Position} (eligible : judge s p = none) : s.onAir p = false := by
  obtain ⟨-, -, -, -, -, -, others, -⟩ := (judge_eq_none_iff s p).1 eligible
  cases on : s.onAir p with
  | false => rfl
  | true => exact absurd rfl (others p on)

theorem onAir_evaluateAdvisories (s : State) (p : Position) : (evaluateAdvisories s).onAir p = s.onAir p := by
  unfold State.onAir State.txOf
  rw [(moved_evaluateAdvisories s).tx (by decide)]

theorem onAir_grant (p q : Position) (s : State) : (grant p s).onAir q = if q = p then true else s.onAir q := by
  have state : (putOnAir p s).txOf q = (s.mapTx p fun x => { x with state := .granted, tailTimer := none, skipHang := false }).txOf q := rfl
  rw [grant, onAir_evaluateAdvisories, State.onAir, state, txOf_mapTx]
  split
  · rfl
  · rfl

theorem acts_grant {s : State} {p : Position} (waits : p ∈ s.waiting) (eligible : judge s p = none) : Acts c s (grant p s) :=
  (Act.one (.grant p waits eligible)).trans (quieted_evaluateAdvisories _).acts

theorem acts_arbiterPass : ∀ (ps : List Position) (s : State), (∀ p ∈ ps, p ∈ s.waiting ∨ s.onAir p = true) →
    Acts c s (arbiterPass ps s).1
  | [], s, _ => .refl
  | p :: ps, s, waits => by
    have others : ∀ q ∈ ps, q ∈ s.waiting ∨ s.onAir q = true := fun q listed => waits q (List.mem_cons_of_mem _ listed)
    unfold arbiterPass
    split
    · rename_i eligible
      have first : p ∈ s.waiting := (waits p (List.mem_cons_self ..)).resolve_right (by simp [off_of_judge eligible])
      refine (acts_grant first eligible).trans (acts_arbiterPass ps _ fun q listed => ?_)
      rw [onAir_grant, waiting_grant, List.mem_filter]
      by_cases same : q = p
      · exact .inr (if_pos same)
      · simpa [same] using others q listed
    · rename_i r _
      refine (Act.one (.quiet (.reason s p (some r)))).trans (acts_arbiterPass ps _ fun q listed => ?_)
      rw [onAir_mapTx_reason]
      exact others q listed

theorem acts_arbiterPasses : ∀ (n : Nat) (s : State), Acts c s (arbiterPasses n s)
  | 0, s => .refl
  | n + 1, s => by
    have pass : Acts c s (arbiterPass s.waiting s).1 := acts_arbiterPass _ s fun p waits => .inl waits
    unfold arbiterPasses
    split
    · rename_i t eq
      rw [eq] at pass
      exact pass.trans (acts_arbiterPasses n t)
    · rename_i t eq
      rw [eq] at pass
      exact pass

theorem acts_arbiter (s : State) : Acts c s (arbiter s) := acts_arbiterPasses _ _

theorem acts_revoke (p : Position) (cause : RevocationCause) (s : State) : Acts c s (revoke p cause s) := (quieted_revoke _ _ _).acts

theorem acts_revokeAndRun (p : Position) (cause : RevocationCause) (s : State) : Acts c s (revokeAndRun p cause s) := by
  unfold revokeAndRun
  split
  · exact (acts_revoke _ _ _).trans (acts_arbiter _)
  · exact .refl

theorem acts_leaveAir {s : State} {p : Position} (hang : (s.txOf p).state = .hang) : Acts c s (leaveAir p .idle s) :=
  (Act.one (.leave p hang)).trans (quieted_evaluateAdvisories _).acts

theorem acts_takeMainRelease (p : Position) (s : State) : Acts c s (takeMainRelease p s) := by
  unfold takeMainRelease
  split
  · rename_i granted
    exact Act.one (.skip p granted)
  · rename_i hang
    exact (acts_leaveAir hang).trans (acts_arbiter _)
  · exact .refl

theorem acts_takeTxiEvent (e : TxiEvent) (s : State) : Acts c s (takeTxiEvent e s) := by
  cases e with
  | connected p => exact acts_arbiter _
  | mainRelease p => exact acts_takeMainRelease _ _
  | revoke p => exact acts_revokeAndRun _ _ _
  | switchingEnded p => exact acts_arbiter _

theorem acts_takeTxiEvents (es : List TxiEvent) (s : State) : Acts c s (takeTxiEvents es s) :=
  acts_foldl _ (fun t e => acts_takeTxiEvent e t) _ _

theorem acts_reportEvent (s : State) : Acts c s (reportEvent s) := (acts_arbiter _).trans (quieted_evaluateAdvisories _).acts

theorem acts_endTail (p : Position) (s : State) : Acts c s (endTail p s) := by
  unfold endTail
  dsimp only
  split
  · exact (Act.one (.tail s p)).trans (quieted_raise _ _).acts
  · exact Act.one (.tail s p)

/-! ## The Line Allocator -/

theorem State.eq_of_same {s t : State} (same : ∀ x, s.same t x) : t = s := by
  obtain ⟨⟩ := s
  obtain ⟨⟩ := t
  have pending := same .pending
  have powered := same .powered
  have table := same .table
  have store := same .store
  have freq := same .freq
  have alloc := same .alloc
  have tx := same .tx
  have waiting := same .waiting
  have advisory := same .advisory
  have chain := same .chain
  have log := same .log
  have inbox := same .inbox
  have handed := same .handed
  have links := same .links
  simp only [State.same] at *
  subst_vars
  rfl

theorem Worked.eq {w v : Work} (worked : Worked w v) : v.s = { w.s with alloc := v.s.alloc } := by
  refine State.eq_of_same fun x => ?_
  have same := worked.moved.same x
  cases x <;> first | rfl | exact same (by decide)

/-- A body of an event of the allocator: every position and kind may act. -/
abbrev Deal (w v : Work) : Prop := Deals (fun _ _ => True) True w v

theorem sound_true {s : State} (keyed : s.AllocationKeyed) : Sound (fun _ _ => True) s := ⟨keyed, cover_true s⟩

theorem acts_closeWork (b : State) {s : State} {w : Work} (moves : s.AllocationKeyed → Dealt s w.s) (eq : w.s = { s with alloc := w.s.alloc }) :
    Acts c s (closeWork b w).s := by
  have closed : (admitFreed w).s.made = { s with alloc := (admitFreed w).s.made.alloc } := by
    have admitted := (worked_admitFreed w).eq
    rw [eq] at admitted
    rw [State.made, admitted]
    rfl
  rw [closeWork_s, closed]
  refine Act.one (.deal s _ fun keyed => ?_)
  rw [← closed]
  have dealt := moves keyed
  exact (dealt.trans (deals_admitFreed w ((sound_true keyed).moves dealt))).tail (.make _)

theorem acts_handOn (w : Work) : Acts c w.s (handOn w) :=
  ((quieted_notifyEach _ _).acts.trans (acts_takeTxiEvents _ _)).trans (quieted_notifyEach _ _).acts

theorem acts_allocEvent {f : Work → Work} (worked : ∀ w, Worked w (f w)) {s : State} (deal : Deal (Work.start s) (f (Work.start s))) :
    Acts c s (allocEvent f s) := by
  have changed := (worked (Work.start s)).trans ((worked_admitFreed _).trans (worked_reclaims _))
  have dealt : Deal (Work.start s) (reclaims (admitFreed (f (Work.start s)))) := (deal.trans (deals_admitFreed _)).trans (deals_reclaims _)
  exact (acts_closeWork s (fun keyed => dealt (sound_true keyed)) changed.eq).trans (acts_handOn _)

theorem links_closeWork (b : State) (w : Work) : (closeWork b w).s.links = w.s.links :=
  (moved_closeWork b w).same .links (by decide)

theorem acts_closeRequest (b : State) {answer : State → State} {s : State} {w : Work} (moves : s.AllocationKeyed → Dealt s w.s)
    (eq : w.s = { s with alloc := w.s.alloc }) (answers : ∀ u, u.links = s.links → Acts c u (answer u)) :
    Acts c s (closeRequest b answer w) := by
  have links : (closeWork b w).s.links = s.links := by rw [links_closeWork, eq]
  have closed : Acts c s ((closeWork b w).map answer).s := (acts_closeWork b moves eq).trans (answers _ links)
  exact (closed.trans (acts_handOn _)).trans (acts_allocEvent (fun w => .refl w) (.refl _))

/-! ## The Relay Chain Driver -/

theorem acts_marks {s : State} {f : Chain → Chain} (kept : ChainKept s.chain (f s.chain)) : Acts c s (s.mapChain f) :=
  Act.one (.marks s _ kept)

theorem acts_filterMove (p : Position) (s : State) : Acts c s (filterMove p s) := by
  unfold filterMove
  split
  · next moves =>
    simp only [Bool.and_eq_true] at moves
    exact Act.one (.filter s p _ moves.2)
  · exact .refl

theorem acts_setTarget (p : Position) (f : Option FilterNo) (s : State) : Acts c s (setTarget p f s) :=
  (acts_marks (f := fun d => { d with filters := put d.filters p { s.filterOf p with target := f } })
    ⟨rfl, rfl, rfl, rfl, .inl rfl, fun q => by
      dsimp only
      rw [get_put]
      split
      · next same => subst same; exact ⟨rfl, rfl⟩
      · exact ⟨rfl, rfl⟩⟩).trans (acts_filterMove _ _)

theorem acts_filterMoveAll (s : State) : Acts c s (filterMoveAll s) := acts_foldl _ (fun t p => acts_filterMove p t) _ _

/-- An operation as the driver starts it (R141, R144, R145). -/
def State.operation (s : State) (k : OpKind) (why : Purpose) (ph : Phase) (im diff : Image) : Operation :=
  { kind := k, purpose := why, phase := ph, image := im, changeSet := diff, length := s.policy.chainLength }

theorem acts_startVerify {why : Purpose} {s : State} (idle : s.chain.op = none) (safe : s.safe = false)
    (purpose : why = .ordinary ∨ why = .startUp) : Acts c s (startVerify why s) := by
  refine Act.one (.start (s.operation .verify why .shifting s.chain.latched 0) ⟨idle, ?_, nofun, rfl, by simp [safe]⟩)
  obtain rfl | rfl := purpose <;> rfl

theorem acts_startResync {why : Purpose} {s : State} (idle : s.chain.op = none) (purpose : why = .retry ∨ why = .unknown ∨ why = .exit)
    (safe : s.safe = true → why = .exit) : Acts c s (startResync why s) := by
  refine Act.one (.start (s.operation .resync why .filling s.chain.latched 0) ⟨idle, ?_, nofun, rfl, fun on => ?_⟩)
  · obtain rfl | rfl | rfl := purpose <;> rfl
  · rw [safe on]
    rfl

theorem acts_startChange {why : Purpose} {s : State} (idle : s.chain.op = none) (safe : s.safe = false)
    (purpose : why = .ordinary ∨ why = .startUp ∨ why = .refresh ∨ why = .restart) : Acts c s (startChange why s) := by
  have legal : (s.operation .change why .shifting s.chain.pending (s.chain.pending ^^^ s.chain.latched)).legal = true := by
    obtain rfl | rfl | rfl | rfl := purpose <;> rfl
  have started := Act.one (c := c) (.start _ ⟨idle, legal, nofun, rfl, by simp [safe]⟩)
  exact (started.trans (acts_marks (f := fun d => { d with attempt := d.attempt.map fun x => { x with repeatDue := false } })
    ⟨rfl, rfl, rfl, rfl, .inl rfl, fun _ => ⟨rfl, rfl⟩⟩)).trans (quieted_takeStart _ _).acts

theorem acts_startNothing {s : State} (idle : s.chain.op = none) (safe : s.safe = false) : Acts c s (startNothing s) := by
  have attempts (u : State) : Acts c u (u.mapChain fun d => { d with attempt := if s.chain.repeatDue then none else d.attempt }) :=
    acts_marks ⟨rfl, rfl, rfl, rfl, .inl rfl, fun _ => ⟨rfl, rfl⟩⟩
  by_cases starts : (s.chain.verifyTimer.isNone && decide (s.policy.tVerify > 0)) = true
  · have eq : startNothing s = (s.mapChain fun d => { d with verifyTimer := some s.policy.verifyMs }).mapChain fun d =>
        { d with attempt := if s.chain.repeatDue then none else d.attempt } := by
      simp only [startNothing, State.mapChain, starts, if_true]
    rw [eq]
    exact (Act.one (.verifyTimer s _ idle safe)).trans (attempts _)
  · have eq : startNothing s = s.mapChain fun d => { d with attempt := if s.chain.repeatDue then none else d.attempt } := by
      simp only [startNothing, State.mapChain, if_neg starts]
    rw [eq]
    exact attempts _

theorem acts_startRule (s : State) : Acts c s (startRule s) := by
  unfold startRule
  dsimp only
  split
  · exact .refl
  · rename_i free
    simp only [Bool.or_eq_true, not_or, Bool.not_eq_true, Option.isSome_eq_false_iff, Option.isNone_iff_eq_none] at free
    obtain ⟨⟨idle, -⟩, -⟩ := free
    split
    · split
      · exact acts_startResync idle (.inr (.inr rfl)) fun _ => rfl
      · exact .refl
    · rename_i safe
      have safe : s.safe = false := by simpa using safe
      split
      · refine acts_startResync idle ?_ (by simp [safe])
        split <;> simp
      split
      · exact acts_startChange idle safe (by simp)
      split
      · exact acts_startChange idle safe (by simp)
      split
      · exact acts_startChange idle safe (by simp)
      · exact acts_startNothing idle safe

theorem acts_endOperation (content : Option Image) (s : State) : Acts c s (endOperation content s) := by
  have marked (u : State) : Acts c u (markLength u) := by
    refine acts_marks ?_
    split <;> exact ⟨rfl, rfl, rfl, rfl, .inl rfl, fun _ => ⟨rfl, rfl⟩⟩
  exact ((Act.one (.stop s)).trans (acts_marks (f := fun d => { d with content := content }) ⟨rfl, rfl, rfl, rfl, .inl rfl, fun _ => ⟨rfl, rfl⟩⟩)).trans
    (marked _)

theorem acts_closeAttempt (s : State) : Acts c s (closeAttempt s) := acts_marks ⟨rfl, rfl, rfl, rfl, .inl rfl, fun _ => ⟨rfl, rfl⟩⟩

theorem acts_endStartUp (ends : endsStartUp c = true) (s : State) : Acts c s (endStartUp s) := by
  refine Act.one (.store s _ ?_ ?_ ?_ (.inl ends)) <;> dsimp only <;> split <;> rfl

theorem acts_restartChainEvent (s : State) : Acts c s (restartChainEvent s) := by
  unfold restartChainEvent
  by_cases restarting : s.store.ready = .restarting
  · rw [State.mapStore, if_pos restarting]
    exact Act.one (.store s _ rfl rfl rfl (.inr (.inr (by simp [restarting]))))
  · rw [State.mapStore, if_neg restarting]

theorem acts_endWithoutLatch (s : State) : Acts c s (endWithoutLatch s) :=
  (acts_allocEvent (fun w => worked_removeWhere _ w) (deals_end trivial (fun _ _ => trivial) _)).trans (acts_arbiter _)

/-! ## The ports -/

theorem inStep_settleRate {x : Link} (sends : x.sending = true → x.queue ≠ []) (counted : x.divisorWait ≤ x.queue.length) :
    x.settleRate.InStep where
  sends := by
    cases empty : x.queue with
    | nil =>
      have idle : x.sending = false := by
        cases on : x.sending with
        | false => rfl
        | true => exact absurd empty (sends on)
      simp [Link.settleRate, empty, idle]
    | cons f fs => simp [Link.settleRate, empty]
  counted := counted
  prompt := by
    intro waits wait receiver quiet
    have ready : x.divisorReady = false := by
      cases ready : x.divisorReady with
      | false => rfl
      | true => simp [Link.settleRate, ready] at waits
    simp only [Link.settleRate, ready] at waits wait receiver quiet
    simp only [Bool.or_eq_false_iff] at quiet
    have due : x.divisorDue = true := by simp_all [Link.divisorDue]
    simpa [Link.divisorReady, due] using ready

theorem inStep_revise {x : Link} (p : Position) (sends : x.sending = true → x.queue ≠ []) (counted : x.divisorWait ≤ x.queue.length) :
    (x.revise p).InStep := inStep_settleRate (x := x.look (Config.startBit p)) sends counted

theorem inStep_reviseClear {x : Link} (sends : x.sending = true → x.queue ≠ []) (counted : x.divisorWait ≤ x.queue.length) :
    x.reviseClear.InStep := inStep_settleRate (x := { x with startBit := false }) sends counted

theorem acts_port {s : State} (p : Position) (f : Link → Link) (moved : PortMoved (s.link p) (f (s.link p))) :
    Acts c s (s.mapLink p f) := by
  refine Act.one (.ports s _ fun q => ?_)
  rw [get_put]
  split
  · rename_i same
    subst same
    exact moved
  · exact ⟨le_rfl, id, id⟩

theorem acts_freeSlot (p : Position) (s : State) : Acts c s (freeSlot p s) := by
  refine acts_port p _ ⟨le_rfl, fun bound => ?_, fun ⟨sends, counted, prompt⟩ => ⟨sends, counted, prompt⟩⟩
  exact (List.length_drop (i := 1) (l := (s.link p).slots)).trans_le ((Nat.sub_le _ _).trans bound)

theorem acts_restartPorts (s : State) : Acts c s { s with links := mapFin (fun p x => x.restart p) s.links } := by
  refine Act.one (.ports s _ fun q => ?_)
  rw [get_mapFin]
  exact ⟨le_rfl, fun _ => Nat.zero_le _, fun step => inStep_revise q step.sends.1 step.counted⟩

/-! ## RESTART and the close of a step -/

theorem tx_withdrawGrant (p : Position) (cause : RevocationCause) (s : State) :
    (withdrawGrant p cause s).tx =
      match (s.txOf p).state with
      | .granted => put s.tx p ({ s.txOf p with lastRevocation := some cause }.leave .revoked s.policy)
      | .hang => put s.tx p ({ s.txOf p with lastRevocation := some cause }.leave .idle s.policy)
      | _ => s.tx := by
  unfold withdrawGrant
  dsimp only
  cases (s.txOf p).state <;> simp only [tx_leaveSlot, mapTx_tx, put_put, txOf_mapTx_self] <;> rfl

theorem txOf_withdrawGrant_of_ne {p q : Position} (other : q ≠ p) (cause : RevocationCause) (s : State) :
    (withdrawGrant p cause s).txOf q = s.txOf q := by
  rw [State.txOf, tx_withdrawGrant]
  split
  · exact get_put_ne _ _ other
  · exact get_put_ne _ _ other
  · rfl

theorem onAir_withdrawGrant (p q : Position) (cause : RevocationCause) (s : State) :
    (withdrawGrant p cause s).onAir q = (s.onAir q && decide (q ≠ p)) := by
  by_cases same : q = p
  · subst same
    rw [State.onAir, State.txOf, tx_withdrawGrant]
    cases state : (s.txOf q).state <;> simp [TxRecord.leave, TxState.onAir, State.onAir, state]
    all_goals
      rw [State.txOf] at state
      rw [state]
  · rw [State.onAir, txOf_withdrawGrant_of_ne same]
    simp [same, State.onAir]

theorem off_withdrawGrants (cause : RevocationCause) (q : Position) : ∀ (ps : List Position) (s : State),
    q ∈ ps ∨ s.onAir q = false → (ps.foldl (fun s p => withdrawGrant p cause s) s).onAir q = false
  | [], s, off => by simpa using off
  | p :: ps, s, off => by
    refine off_withdrawGrants cause q ps _ ?_
    rw [onAir_withdrawGrant]
    by_cases same : q = p
    · simp [same]
    · simpa [same] using off

theorem off_revokeAll (cause : RevocationCause) (s : State) (q : Position) : (revokeAll cause s).onAir q = false := by
  have kept := (moved_leaveEvents s (allPositions.foldl (fun s p => withdrawGrant p cause s) s)).tx (by decide)
  have off := off_withdrawGrants cause q allPositions s (.inl (mem_allPositions q))
  rw [State.onAir, State.txOf] at off ⊢
  rw [revokeAll, kept, off]

theorem acts_allocRestart (s : State) : Acts c s (allocRestart s) :=
  acts_allocEvent (fun w => (worked_clearClaims w).trans (.foldl _
    (fun w (r : Holder) => (worked_goBreaking _ _ _).trans (worked_loseToRestart _ _)) _ _)) (deals_restart (fun _ _ => trivial) _)

theorem acts_chainRestart (s : State) : Acts c s (chainRestart s) :=
  (acts_marks ⟨rfl, rfl, rfl, rfl, .inl rfl, fun q => by rw [get_mapFin]; exact ⟨rfl, rfl⟩⟩).trans (acts_filterMoveAll _)

theorem acts_restartBlocks (s : State) : Acts c s (restartBlocks s) := by
  have interlock : Acts c s (interlockRestart { s with freq := mapFin (fun _ _ => clearFreq) s.freq }) :=
    Act.one (.restart _ (quieted_revokeAll .restart _) (off_revokeAll .restart _))
  exact (((interlock.trans (Act.one (.quiet (.advisory _ [])))).trans (acts_allocRestart _)).trans (acts_chainRestart _)).trans
    (acts_restartPorts _)

theorem acts_restart {answer : State → State} {s : State} (started : s.store.ready ≠ .starting) (answers : ∀ u, u.links = s.links → Acts c u (answer u)) :
    Acts c s (restart answer s) := by
  have ready : Acts c s (readyRestart s) := Act.one (.store s _ rfl rfl rfl (.inr (.inr started)))
  exact (ready.trans (answers _ rfl)).trans (acts_restartBlocks _)

theorem acts_allocPathQuiet {p : Position} {s : State} (quiet : s.pathQuiet p = true) : Acts c s (allocPathQuiet p s) :=
  acts_allocEvent (fun w => (worked_requestBreaks p w).trans (worked_applyReroutes _ _)) (deals_pathQuiet (fun _ => trivial) quiet)

theorem acts_pathQuietEvent {p : Position} {s : State} (quiet : s.pathQuiet p = true) : Acts c s (pathQuietEvent p s) :=
  (acts_allocPathQuiet quiet).trans (acts_filterMove _ _)

theorem pathQuiet_of_newlyQuiet {b : State} {d : List Position} {s : State} {p : Position} (found : newlyQuiet b d s = some p) :
    s.pathQuiet p = true := by
  have test := List.find?_some found
  simp only [Bool.and_eq_true] at test
  exact test.2

theorem acts_quietEvents (b : State) : ∀ (n : Nat) (d : List Position) (s : State), Acts c s (quietEvents b n d s)
  | 0, _, s => .refl
  | n + 1, d, s => by
    unfold quietEvents
    split
    · next found => exact (acts_pathQuietEvent (pathQuiet_of_newlyQuiet found)).trans (acts_quietEvents b n _ _)
    · exact .refl

theorem acts_watchPin (b s : State) : Acts c s (watchPin b s) := by
  unfold watchPin
  split
  · next ends =>
    have started : s.store.ready ≠ .starting := by simpa using (Bool.and_eq_true_iff.1 ends).2
    have watched : Acts c s (s.mapStore fun x => { x with restart := x.restartRaw, restartTimer := none }) :=
      Act.one (.store s _ rfl rfl rfl (.inr (.inl rfl)))
    dsimp only
    split
    · exact watched.trans (acts_restart started fun u _ => .refl)
    · exact watched
  · exact .refl

theorem acts_closeStep (b s : State) : Acts c s (closeStep b s) :=
  ((acts_watchPin b s).trans (acts_quietEvents b _ _ _)).trans (acts_startRule _)

end Sys2Proof.Machine
end

section
/-! Every command but power as a path of moves. -/

namespace Sys2Proof.Machine

variable {c : Option Instr}

/-! ## What is reached by changes of one part -/

theorem acts_of_alloc {s t : State} (moved : Moved [.alloc] s t) (moves : s.AllocationKeyed → Dealt s t)
    (records : t.alloc.records = s.alloc.records) : Acts c s t := by
  have eq := Worked.eq (w := Work.start s) (v := Work.start t) ⟨moved⟩
  change t = { s with alloc := t.alloc } at eq
  rw [eq] at moves ⊢
  exact Act.one (.calm s _ moves records)

theorem acts_mapFreq {s : State} {p : Position} {f : FreqRecord → FreqRecord}
    (kept : (f (s.freqOf p)).band = (s.freqOf p).band) : Acts c s (s.mapFreq p f) := by
  refine Act.one (.freqs s _ (.inr fun q => ?_))
  rw [get_put]
  split
  · rename_i same
    subst same
    exact kept
  · rfl

theorem acts_store {s : State} {f : Store → Store} (nv : (f s.store).nv = s.store.nv) (saving : (f s.store).saving = s.store.saving)
    (snapshot : (f s.store).snapshot = s.store.snapshot) (ready : (f s.store).ready = s.store.ready) : Acts c s (s.mapStore f) :=
  Act.one (.store s _ nv saving snapshot (.inr (.inl ready)))

theorem acts_log {i : Instr} (logs : takesLog i = true) {s : State} {f : FaultLog → FaultLog} (safe : (f s.log).safe = s.log.safe)
    (counters : (f s.log).counters = s.log.counters) : Acts (some i) s (s.mapLog f) :=
  Act.one (.log i rfl logs _ safe fun bounded k => by rw [counters]; exact bounded k)

theorem acts_table {i : Instr} (writes : writesTable i = true) {s : State} {f : Table → Table}
    (policy : (f s.table).policy = s.table.policy) (serves : s.Serves (f s.table)) : Acts (some i) s (s.mapTable f) :=
  Act.one (.table i rfl writes _ (.inr policy) serves)

/-! ## Requests -/

theorem acts_whilePowered {body : State → State} {s t : State} (acts : Acts c s (body s)) (taken : whilePowered body s = .next t) :
    Acts c s t := by
  cases taken
  split
  · exact acts
  · exact .refl

theorem acts_wholeStep {body : State → State} {s t : State} (acts : Acts c s (body s)) (taken : wholeStep body s = .next t) :
    Acts c s t := acts_whilePowered (acts.trans (acts_closeStep _ _)) taken

theorem acts_takeRequest {p : Position} {fits : Frame → Bool} {need : Frame → Nat} {serve : Frame → State → State} {s : State}
    (each : ∀ f, fits f = true → (s.link p).queue.length + need f ≤ Config.queueFrames → Acts c s (serve f s)) :
    Acts c s (takeRequest p fits need serve s) := by
  unfold takeRequest
  split
  · exact .refl
  · split
    · rename_i f _ _ taken
      simp only [State.mayTake, Bool.and_eq_true, decide_eq_true_eq] at taken
      exact (each f taken.1 taken.2.2).trans (acts_freeSlot _ _)
    · exact .refl

theorem acts_takeSimple {p : Position} {fits : Frame → Bool} {serve : Frame → State → State} {s : State}
    (each : ∀ f, (s.link p).queue.length < Config.queueFrames → Acts c s (serve f s)) : Acts c s (takeSimple p fits serve s) :=
  acts_takeRequest fun f _ room => each f room

theorem acts_answer {p : Position} (f : Frame) (k : Code) {s : State} (room : (s.link p).queue.length < Config.queueFrames) :
    Acts c s (answer p f k s) := (quieted_answer f k room).acts

theorem acts_reply {p : Position} (r : Byte) (k : Code) (d : List Byte) {s : State}
    (room : (s.link p).queue.length < Config.queueFrames) : Acts c s (reply p r k d s) := (quieted_sendFrame _ room).acts

theorem acts_sendFrames {p : Position} : ∀ (fs : List Frame) (s : State), (s.link p).queue.length + fs.length ≤ Config.queueFrames →
    Acts c s (fs.foldl (fun t f => sendFrame p f t) s)
  | [], s, _ => .refl
  | f :: fs, s, room => by
    simp only [List.length_cons] at room
    refine (quieted_sendFrame f (by omega)).acts.trans (acts_sendFrames fs _ ?_)
    simp only [link_sendFrame, if_true, List.length_append, List.length_singleton]
    omega

theorem length_splitParts : ∀ (n : Nat) (bs : List Byte), (splitParts n bs).length ≤ n
  | 0, bs => le_rfl
  | n + 1, bs => by
    unfold splitParts
    split
    · simp
    · simpa using length_splitParts n _

theorem length_partFrames (r : Byte) (k : Code) (d : List Byte) : (partFrames r k d).length ≤ Config.maxReplyFrames := by
  simpa [partFrames] using length_splitParts Config.maxReplyFrames d

/-! ## POLL, QUERY, TABLE_READ, FAULT_READ -/

theorem acts_servePoll {p : Position} (f : Frame) {s : State} (room : (s.link p).queue.length < Config.queueFrames) :
    Acts c s (servePoll p f s) := by
  unfold servePoll
  split
  · exact acts_reply _ _ _ room
  · exact acts_answer _ _ room

theorem acts_serveQuery {p : Position} (f : Frame) {s : State} (room : (s.link p).queue.length + Config.maxReplyFrames ≤ Config.queueFrames) :
    Acts c s (serveQuery p f s) := by
  have one : (s.link p).queue.length < Config.queueFrames := lt_of_lt_of_le (Nat.lt_add_of_pos_right (by decide)) room
  unfold serveQuery
  split
  · split
    · rename_i d _
      have parts : Acts c s (replyParts p f.kind .ok d s) :=
        acts_sendFrames _ s (le_trans (Nat.add_le_add_left (length_partFrames ..) _) room)
      dsimp only
      split
      · exact parts.trans (Act.one (.quiet (.noticeLost _ p false)))
      · exact parts
    · exact acts_reply _ _ _ one
  · exact acts_reply _ _ _ one

theorem acts_serveTableRead {p : Position} (f : Frame) {s : State} (room : (s.link p).queue.length < Config.queueFrames) :
    Acts c s (serveTableRead p f s) := by
  unfold serveTableRead
  split
  · exact acts_answer _ _ room
  · split
    · exact acts_answer _ _ room
    · split
      · exact acts_answer _ _ room
      · split
        · exact acts_answer _ _ room
        · exact acts_reply _ _ _ room

theorem acts_serveFaultRead {p : Position} (f : Frame) {s : State} (room : (s.link p).queue.length + faultReadFrames f ≤ Config.queueFrames) :
    Acts c s (serveFaultRead p f s) := by
  unfold faultReadFrames at room
  unfold serveFaultRead
  split
  · rename_i empty
    rw [if_pos empty] at room
    refine acts_sendFrames _ s (le_trans (Nat.add_le_add_left ?_ _) room)
    have two := partFrames_of_two f .ok s.log.bytes (by simp [length_bytes]) (by simp [length_bytes])
    simp [two]
  · rename_i full
    rw [if_neg full] at room
    exact acts_reply _ _ _ room

/-! ## FREQ and the stale timer -/

theorem withdrawGrant_of_off {p : Position} {s : State} (off : s.onAir p = false) (cause : RevocationCause) :
    withdrawGrant p cause s = s := by
  unfold withdrawGrant
  dsimp only
  unfold State.onAir at off
  split
  · rename_i state
    simp [state, TxState.onAir] at off
  · rename_i state
    simp [state, TxState.onAir] at off
  · rfl

theorem quieted_withdraw_revoke (p : Position) (cause : RevocationCause) (s : State) :
    Quieted (withdrawGrant p cause s) (revoke p cause s) := by
  unfold revoke
  cases on : s.onAir p with
  | true => exact quieted_evaluateAdvisories _
  | false =>
    rw [withdrawGrant_of_off on]
    exact .refl

theorem band_bandNotice (p q : Position) (s : State) : ((bandNotice p s).freqOf q).band = (s.freqOf q).band := by
  unfold bandNotice
  dsimp only
  split
  · rw [State.freqOf, (moved_notify ..).freq (by decide), ← State.freqOf, freqOf_mapFreq]
    split
    · rename_i same
      rw [same]
    · rfl
  · rfl

theorem acts_allocBandChange (p : Position) (s : State) : Acts c s (allocBandChange p s) :=
  acts_allocEvent (fun w => (worked_followBand p .main w).trans (worked_followBand p .aux _)) (deals_bandChange (fun _ => trivial) _)

theorem acts_bandTaken (p : Position) (s : State) : Acts c s (bandTaken p s) :=
  ((acts_arbiter s).trans (acts_setTarget _ _ _)).trans (acts_allocBandChange _ _)

theorem acts_report {s t : State} {p : Position} {r : FreqRecord} (quiet : Quieted (s.mapFreq p fun _ => r) t)
    (band : (t.freqOf p).band = r.band) : Acts c s (bandChangeFrom (s.freqOf p).band p t) := by
  have reported := Act.one (c := c) (.report p r quiet)
  unfold bandChangeFrom
  rw [band]
  split
  · rename_i same
    rwa [if_pos same] at reported
  · rename_i other
    rw [if_neg other] at reported
    exact (reported.trans (quieted_withdraw_revoke p .band t).acts).trans (acts_bandTaken p _)

theorem acts_serveFreq {p : Position} (f : Frame) {s : State} (room : (s.link p).queue.length < Config.queueFrames) :
    Acts c s (serveFreq p f s) := by
  unfold serveFreq
  split
  · exact acts_answer _ _ room
  · rename_i x _
    have stored : Quieted (s.mapFreq p fun _ => s.reported p x)
        (bandNotice p (answer p f (if x.lowered then .adjusted else .ok) (s.mapFreq p fun _ => s.reported p x))) :=
      (quieted_answer (s := s.mapFreq p fun _ => s.reported p x) f _ room).trans (quieted_bandNotice _ _)
    refine (acts_report stored ?_).trans (acts_reportEvent _)
    rw [band_bandNotice, State.freqOf, (moved_answer ..).freq (by decide), ← State.freqOf, freqOf_mapFreq, if_pos rfl]

/-! ## The Line Allocator's requests -/

theorem acts_closed {s : State} {p : Position} {w : Work} {answer : State → State} (worked : Worked (Work.start s) w)
    (deal : Deal (Work.start s) w) (room : (s.link p).queue.length < Config.queueFrames)
    (answers : ∀ u : State, (u.link p).queue.length < Config.queueFrames → Acts c u (answer u)) : Acts c s (closeRequest s answer w) := by
  refine acts_closeRequest s (fun keyed => deal (sound_true keyed)) worked.eq fun u same => answers u ?_
  rwa [State.link, same]

theorem acts_answerClaim {p : Position} (f : Frame) (out : ClaimOutcome) {s : State}
    (room : (s.link p).queue.length < Config.queueFrames) : Acts c s (answerClaim p f out s) := by
  cases out with
  | ok => exact acts_answer _ _ room
  | queued n => exact acts_reply _ _ _ room
  | refused k => exact acts_answer _ _ room

theorem acts_serveClaimOf {p : Position} (f : Frame) (r : Route) (m : Manner) {s : State}
    (room : (s.link p).queue.length < Config.queueFrames) : Acts c s (serveClaimOf p f r m s) := by
  unfold serveClaimOf
  have worked := worked_claimRoute p r m (Work.start s)
  have dealt : Deal (Work.start s) (claimRoute p r m (Work.start s)).1 := deals_claimRoute m trivial fun _ _ _ _ => trivial
  split
  · exact acts_answer _ _ room
  · rename_i w out _ eq
    rw [eq] at worked dealt
    exact acts_closed (worked.trans (worked_mapStanding _ _ _ _)) (dealt.trans (deals_mapStanding _ trivial _)) room fun u room => acts_answerClaim f out room

theorem acts_serveClaim {p : Position} (f : Frame) {s : State} (room : (s.link p).queue.length < Config.queueFrames) :
    Acts c s (serveClaim p f s) := by
  unfold serveClaim
  split
  · exact acts_answer _ _ room
  split
  · exact acts_answer _ _ room
  split
  · exact acts_answer _ _ room
  split
  · exact acts_answer _ _ room
  split
  · exact acts_answer _ _ room
  · exact acts_serveClaimOf _ _ _ room

theorem acts_serveRelease {p : Position} (f : Frame) {s : State} (room : (s.link p).queue.length < Config.queueFrames) :
    Acts c s (serveRelease p f s) := by
  unfold serveRelease
  split
  · exact acts_answer _ _ room
  · exact acts_closed (worked_releaseKinds _ _ _) (deals_releaseKinds (fun _ _ => trivial) _) room fun u room => acts_answer _ _ room

theorem acts_serveCancel {p : Position} (f : Frame) {s : State} (room : (s.link p).queue.length < Config.queueFrames) :
    Acts c s (serveCancel p f s) := by
  unfold serveCancel
  split
  · exact acts_answer _ _ room
  · rename_i ks _
    have cancelled : Acts c s (cancelKinds p ks s) := acts_of_alloc (moved_mapAlloc s fun _ => (cancelKinds p ks s).alloc) (fun _ => (moves_cancelKinds p ks s).mono (fun _ _ _ => trivial) id) rfl
    exact cancelled.trans (acts_answer (s := cancelKinds p ks s) f .ok room)

theorem acts_serveFollowOn {p : Position} (f : Frame) {s : State} (room : (s.link p).queue.length < Config.queueFrames) :
    Acts c s (serveFollowOn p f s) := by
  unfold serveFollowOn
  split
  · exact acts_answer _ _ room
  split
  · exact acts_answer _ _ room
  split
  · exact acts_answer _ _ room
  · rename_i ks _ _ _ _
    have set : Worked (Work.start s) ((Work.start s).map (setFollow p ks true)) := ⟨moved_setFollow _ _ _ _⟩
    have dealt : Deal (Work.start s) ((Work.start s).map (setFollow p ks true)) := fun _ => (moves_setFollow p ks true s).mono (fun _ _ _ => trivial) id
    exact acts_closed ((set.trans (worked_followPart _ _ _ _)).trans (worked_followPart _ _ _ _))
      ((dealt.trans (deals_followPart trivial _ _)).trans (deals_followPart trivial _ _)) room fun u room => acts_reply _ _ _ room

theorem acts_serveFollowOff {p : Position} (f : Frame) {s : State} (room : (s.link p).queue.length < Config.queueFrames) :
    Acts c s (serveFollowOff p f s) := by
  unfold serveFollowOff
  split
  · exact acts_answer _ _ room
  · rename_i ks _ _
    have set := moved_setFollow p ks false s
    have links : (setFollow p ks false s).links = s.links := set.same .links (by decide)
    exact (acts_of_alloc set (fun _ => (moves_setFollow p ks false s).mono (fun _ _ _ => trivial) id) (records_setFollow p ks false s)).trans (acts_reply _ _ _ (by rwa [State.link, links]))

theorem acts_serveStep {p : Position} (f : Frame) {s : State} (room : (s.link p).queue.length < Config.queueFrames) :
    Acts c s (serveStep p f s) := by
  unfold serveStep
  split
  · exact acts_answer _ _ room
  split
  · exact acts_answer _ _ room
  split
  · exact acts_answer _ _ room
  split
  · exact acts_answer _ _ room
  split
  · exact acts_answer _ _ room
  split
  · exact acts_answer _ _ room
  · exact acts_closed ((worked_claimRoute _ _ _ _).trans (worked_settleRing _ _ _))
      ((deals_claimRoute .now trivial nofun).trans (deals_settleRing trivial _)) room fun u room => acts_reply _ _ _ room

/-! ## TABLE_WRITE -/

theorem acts_serveWrite {size : List Byte → Bool} {accept : Position → Frame → List Byte → State → State} {p : Position} {f : Frame}
    {s : State} (room : (s.link p).queue.length < Config.queueFrames) (accepts : ∀ bs, Acts c s (accept p f bs s)) :
    Acts c s (serveWrite size accept p f s) := by
  unfold serveWrite
  split
  · exact acts_answer _ _ room
  split
  · exact acts_answer _ _ room
  split
  · exact acts_answer _ _ room
  split
  · exact acts_answer _ _ room
  split
  · exact acts_answer _ _ room
  · exact accepts _

theorem acts_stored {i : Instr} (writes : writesTable i = true) {s : State} {p : Position} (f : Frame) (k : Code) {g : Table → Table}
    (policy : (g s.table).policy = s.table.policy) (serves : s.Serves (g s.table))
    (room : (s.link p).queue.length < Config.queueFrames) : Acts (some i) s (answer p f k (s.mapTable g)) :=
  (acts_table writes policy serves).trans (acts_answer (s := s.mapTable g) f k room)

theorem acts_acceptLine {p : Position} {f : Frame} {s : State} (room : (s.link p).queue.length < Config.queueFrames) (bs : List Byte) :
    Acts (some (.feedLineWrite p)) s (acceptLine p f bs s) := by
  unfold acceptLine
  split
  · exact acts_answer _ _ room
  split
  · exact acts_answer _ _ room
  split
  · exact acts_answer _ _ room
  split
  · exact acts_answer _ _ room
  · next free =>
    exact acts_stored rfl f .ok rfl (serves_setLine (Bool.not_eq_true _ ▸ free) _) room

theorem acts_acceptElement {p : Position} {f : Frame} {s : State} (room : (s.link p).queue.length < Config.queueFrames) (bs : List Byte) :
    Acts (some (.elementWrite p)) s (acceptElement p f bs s) := by
  unfold acceptElement
  split
  · exact acts_answer _ _ room
  split
  · exact acts_answer _ _ room
  split
  · exact acts_answer _ _ room
  split
  · exact acts_answer _ _ room
  · next free =>
    rw [Bool.or_eq_true, not_or, Bool.not_eq_true, Bool.not_eq_true] at free
    exact acts_stored rfl f .ok rfl (serves_setElement free.1 free.2) room

theorem acts_acceptRoute {p : Position} {f : Frame} {s : State} (room : (s.link p).queue.length < Config.queueFrames) (bs : List Byte) :
    Acts (some (.routeWrite p)) s (acceptRoute p f bs s) := by
  unfold acceptRoute
  split
  · exact acts_answer _ _ room
  split
  · exact acts_answer _ _ room
  split
  · exact acts_answer _ _ room
  split
  · exact acts_answer _ _ room
  · next free =>
    rw [Bool.or_eq_true, not_or, Bool.not_eq_true] at free
    exact acts_stored rfl f .ok rfl (serves_setRoute (Bool.not_eq_true _ ▸ free.2) _) room

theorem acts_acceptRing {p : Position} {f : Frame} {s : State} (room : (s.link p).queue.length < Config.queueFrames) (bs : List Byte) :
    Acts (some (.ringWrite p)) s (acceptRing p f bs s) := by
  unfold acceptRing
  split
  · exact acts_answer _ _ room
  split
  · exact acts_answer _ _ room
  split
  · exact acts_answer _ _ room
  · exact acts_stored rfl f .ok rfl (serves_of_same rfl rfl rfl (.inr rfl)) room

theorem acts_acceptFault {p : Position} {f : Frame} {s : State} (room : (s.link p).queue.length < Config.queueFrames) (bs : List Byte) :
    Acts (some (.faultConfigurationWrite p)) s (acceptFault p f bs s) := by
  unfold acceptFault
  split
  · exact acts_answer _ _ room
  split
  · exact acts_answer _ _ room
  split
  · exact acts_answer _ _ room
  · exact acts_stored rfl f .ok rfl (serves_of_same rfl rfl rfl (.inr rfl)) room

theorem acts_verifyWritten (old new : Policy) (s : State) : Acts c s (verifyWritten old new s) := by
  unfold verifyWritten
  split
  · exact acts_marks ⟨rfl, rfl, rfl, rfl, .inr rfl, fun _ => ⟨rfl, rfl⟩⟩
  split
  · rename_i starts
    simp only [Bool.and_eq_true, Option.isNone_iff_eq_none, Bool.not_eq_true'] at starts
    exact Act.one (.verifyTimer s _ starts.1.2 starts.2)
  · exact .refl

theorem acts_lengthWritten (old new : Policy) (s : State) : Acts c s (lengthWritten old new s) := by
  unfold lengthWritten
  split
  · exact .refl
  · refine acts_marks ?_
    split <;> exact ⟨rfl, rfl, rfl, rfl, .inl rfl, fun _ => ⟨rfl, rfl⟩⟩

theorem links_verifyWritten (old new : Policy) (s : State) : (verifyWritten old new s).links = s.links := by
  unfold verifyWritten
  split
  · rfl
  · split <;> rfl

theorem links_lengthWritten (old new : Policy) (s : State) : (lengthWritten old new s).links = s.links := by
  unfold lengthWritten
  split <;> rfl

theorem acts_acceptPolicy {p : Position} {f : Frame} {s : State} (room : (s.link p).queue.length < Config.queueFrames) (bs : List Byte) :
    Acts (some (.stationPolicyWrite p)) s (acceptPolicy p f bs s) := by
  unfold acceptPolicy
  split
  · exact acts_answer _ _ room
  · rename_i q _
    dsimp only
    split
    · exact acts_answer _ _ room
    split
    · exact acts_answer _ _ room
    · rename_i limit
      have table : Acts (some (.stationPolicyWrite p)) s (s.mapTable fun t => t.setPolicy q.clamped) :=
        Act.one (.table _ rfl rfl _ (.inl (not_lt.1 limit)) (serves_of_same rfl rfl rfl (.inr rfl)))
      refine (((table.trans (acts_verifyWritten _ _ _)).trans (acts_lengthWritten _ _ _)).trans (acts_answer _ _ ?_)).trans
        (acts_reportEvent _)
      rwa [State.link, links_lengthWritten, links_verifyWritten]

theorem acts_writeDivisor (q : Position) (d : Nat × Nat) (own : Bool) (s : State) :
    Acts c s (s.mapLink q fun l => l.writeDivisor q d own) := by
  refine acts_port q _ ⟨le_rfl, id, fun step => inStep_revise q step.sends.1 ?_⟩
  show (if own then _ else _) ≤ _
  split
  · exact le_rfl
  · exact min_le_right _ _

theorem acts_acceptSettings {p : Position} {f : Frame} {s : State} (room : (s.link p).queue.length < Config.queueFrames) (bs : List Byte) :
    Acts (some (.positionSettingsWrite p)) s (acceptSettings p f bs s) := by
  unfold acceptSettings
  split
  · exact acts_answer _ _ room
  split
  · exact acts_answer _ _ room
  · exact ((acts_stored rfl f _ rfl (serves_of_same rfl rfl rfl (.inr rfl)) room).trans (acts_writeDivisor _ _ _ _)).trans (acts_reportEvent _)

theorem acts_redecodeRevokes (b s : State) : Acts c s (redecodeRevokes b s) :=
  acts_foldl _ (fun s p => by split; exacts [.refl, acts_revoke _ _ _]) _ _

theorem acts_redecodeNotices (s : State) : Acts c s (redecodeNotices s) :=
  acts_foldl _ (fun s p => (quieted_bandNotice p s).acts) _ _

theorem acts_redecodeOne (b : State) (p : Position) (s : State) : Acts c s (redecodeOne b p s) := by
  unfold redecodeOne
  split
  · unfold retarget
    split
    · exact acts_setTarget _ _ _
    · exact .refl
  · exact acts_bandTaken _ _

theorem acts_redecode (b : State) {s : State} (off : ∀ p, s.onAir p = false) : Acts c s (redecode b s) := by
  have records : Acts c s (redecodeRecords s) := Act.one (.freqs s _ (.inl off))
  exact (((records.trans (acts_redecodeRevokes b _)).trans (acts_redecodeNotices _)).trans
    (acts_foldl _ (fun s p => acts_redecodeOne b p s) _ _)).trans (acts_foldl _ (fun s _ => acts_reportEvent s) _ _)

theorem acts_acceptBand {p : Position} {f : Frame} {s : State} (room : (s.link p).queue.length < Config.queueFrames) (bs : List Byte) :
    Acts (some (.bandWrite p)) s (acceptBand p f bs s) := by
  unfold acceptBand
  split
  · exact acts_answer _ _ room
  split
  · exact acts_answer _ _ room
  split
  · exact acts_answer _ _ room
  split
  · exact acts_answer _ _ room
  · rename_i off
    have off : ∀ q, s.onAir q = false := by simpa [State.anyOnAir, mem_allPositions] using off
    exact (acts_stored rfl f .ok rfl (serves_setBand off _ _) room).trans (acts_redecode s off)

/-! ## The store and the fault log -/

theorem acts_serveSave {p : Position} (f : Frame) {s : State} (room : (s.link p).queue.length < Config.queueFrames) :
    Acts (some (.save p)) s (serveSave p f s) := by
  unfold serveSave
  split
  · exact acts_answer _ _ room
  split
  · exact acts_answer _ _ room
  split
  · exact acts_answer _ _ room
  split
  · exact acts_answer _ _ room
  · exact (Act.one (.save s p rfl)).trans (acts_answer (s := s.mapStore fun x => x.save s.table p) f .ok room)

theorem acts_saveWriteEnd (r : SaveResult) (s : State) :
    Acts (some (.saveWriteEnd r)) s
      (noticeSaved r s.store.requester (raiseSaveFault r s.store.requester (s.mapStore fun x => x.saveEnd r))) := by
  have ended : Acts (some (.saveWriteEnd r)) s (s.mapStore fun x => x.saveEnd r) := Act.one (.saveEnd s r rfl)
  have faulted : Acts (some (.saveWriteEnd r)) s (raiseSaveFault r s.store.requester (s.mapStore fun x => x.saveEnd r)) := by
    cases r with
    | ok => exact ended
    | failed => exact ended.trans (quieted_raise _ _).acts
  unfold noticeSaved
  split
  · exact faulted.trans (quieted_notify _ _ _).acts
  · exact faulted

theorem acts_requestExit {i : Instr} (logs : takesLog i = true) (s : State) : Acts (some i) s (requestExit s) := by
  unfold requestExit
  split
  · exact (acts_log logs (f := fun l => { l with exitPending := true, exitSpoiled := false }) rfl rfl).trans
      (acts_marks ⟨rfl, rfl, rfl, rfl, .inl rfl, fun _ => ⟨rfl, rfl⟩⟩)
  · exact .refl

theorem acts_serveFaultClear {p q : Position} (f : Frame) {s : State} (room : (s.link p).queue.length < Config.queueFrames) :
    Acts (some (.faultClear q)) s (serveFaultClear p f s) := by
  unfold serveFaultClear
  split
  · exact acts_answer _ _ room
  split
  · exact acts_answer _ _ room
  split
  · exact acts_answer _ _ room
  · have cleared : Acts (some (.faultClear q)) s (s.mapLog FaultLog.clear) :=
      Act.one (.log _ rfl rfl _ rfl fun _ k => by simp [FaultLog.clear])
    exact (cleared.trans (acts_answer (s := s.mapLog FaultLog.clear) f .ok room)).trans (acts_requestExit rfl _)

theorem acts_serveRestart {p : Position} (f : Frame) {s : State} (room : (s.link p).queue.length < Config.queueFrames) :
    Acts c s (serveRestart p f s) := by
  unfold serveRestart
  split
  · exact acts_answer _ _ room
  split
  · exact acts_answer _ _ room
  next ready =>
  split
  · exact acts_answer _ _ room
  · have started : s.store.ready ≠ .starting := fun starting => ready (by simp [State.isReady, starting])
    exact acts_restart started fun u same => acts_answer _ _ (by rwa [State.link, same])

theorem acts_reportFault {i : Instr} (logs : takesLog i = true) (o : Occurrence) (v : Severity) (s : State) :
    Acts (some i) s (reportFault o v s) := by
  unfold reportFault
  split
  · have alarm : Acts (some i) s (s.mapLog (assertAlarm (s.faultConfig o.kind).routing)) := by
      refine acts_log logs ?_ ?_ <;> cases (s.faultConfig o.kind).routing <;> rfl
    exact alarm.trans (quieted_notifyAll _ _).acts
  · exact .refl

theorem safe_logOccurrence (o : Occurrence) (v : Severity) (l : FaultLog) : (logOccurrence o v l).safe = l.safe := by
  unfold logOccurrence
  dsimp only
  split <;> split <;> rfl

theorem counters_logOccurrence (o : Occurrence) (v : Severity) (l : FaultLog) :
    (logOccurrence o v l).counters = put l.counters o.kind.index (min Config.counterTop (l.counters.get o.kind.index + 1)) := by
  unfold logOccurrence
  dsimp only
  split <;> split <;> rfl

theorem acts_logOccurrence {i : Instr} (logs : takesLog i = true) (o : Occurrence) (v : Severity) (s : State) :
    Acts (some i) s (s.mapLog (logOccurrence o v)) := by
  refine Act.one (.log i rfl logs _ (safe_logOccurrence o v s.log) fun bounded k => ?_)
  rw [counters_logOccurrence, get_put]
  split
  · exact min_le_left _ _
  · exact bounded k

theorem acts_recordOccurrence {i : Instr} (logs : takesLog i = true) (o : Occurrence) (s : State) :
    Acts (some i) s (recordOccurrence o s) := by
  unfold recordOccurrence
  split
  · exact .refl
  · exact (acts_logOccurrence logs o _ s).trans (acts_reportFault logs o _ _)

theorem acts_spoilExit {i : Instr} (logs : takesLog i = true) (s : State) : Acts (some i) s (spoilExit s) := by
  unfold spoilExit
  split
  · exact acts_log logs rfl rfl
  · exact .refl

/-! ## Entering and leaving safe state -/

theorem quieted_arbiterPass_of_safe : ∀ (ps : List Position) (s : State), s.safe = true →
    Quieted s (arbiterPass ps s).1 ∧ (arbiterPass ps s).2 = false
  | [], s, _ => ⟨.refl, rfl⟩
  | p :: ps, s, safe => by
    obtain ⟨quiet, none⟩ := quieted_arbiterPass_of_safe ps (s.mapTx p fun x => { x with reason := some .safe }) safe
    unfold arbiterPass
    rw [judge_of_safe safe]
    exact ⟨(Relation.ReflTransGen.single (.reason s p (some .safe))).trans quiet, none⟩

theorem quieted_arbiter_of_safe {s : State} (safe : s.safe = true) : Quieted s (arbiter s) := by
  obtain ⟨quiet, none⟩ := quieted_arbiterPass_of_safe s.waiting s safe
  have pass : arbiterPass s.waiting s = ((arbiterPass s.waiting s).1, false) := Prod.ext rfl none
  have run : arbiter s = (arbiterPass s.waiting s).1 := by
    show arbiterPasses (Config.arbiterPasses - 1 + 1) s = _
    rw [arbiterPasses, pass]
  rw [run]
  exact quiet

theorem Quieted.onAir {s t : State} (quiet : Quieted s t) (p : Position) (on : t.onAir p = true) : s.onAir p = true := by
  induction quiet with
  | refl => exact on
  | tail _ move ih =>
    refine ih ?_
    cases move with
    | reason q r =>
      rwa [onAir_mapTx_reason] at on
    | withdraw q cause =>
      rw [onAir_withdrawGrant] at on
      exact (Bool.and_eq_true_iff.1 on).1
    | _ => exact on

theorem off_of_quieted {s t : State} (quiet : Quieted s t) {p : Position} (off : s.onAir p = false) : t.onAir p = false := by
  cases on : t.onAir p with
  | false => rfl
  | true => rw [quiet.onAir p on] at off; exact off

theorem stopForEntry_chainEntry (s : State) :
    chainEntry s = stopForEntry s ∨ chainEntry s = endStartUp (endWithoutLatch (stopForEntry s)) := by
  cases op : s.chain.op with
  | none => exact .inl (by simp [chainEntry, stopForEntry, op])
  | some o =>
    by_cases settling : o.phase = .settling
    · exact .inl (by simp [chainEntry, stopForEntry, op, settling])
    · exact .inr (by simp [chainEntry, stopForEntry, op, settling])

theorem acts_allocEntry (s : State) : Acts c s (allocEntry s) :=
  acts_allocEvent (fun w => .foldl _ (fun w (r : Holder) => (worked_goBreaking _ _ _).trans (worked_lose _ _ _ _ _)) _ _)
    (deals_entry (fun _ _ => trivial) _)

theorem acts_enterSafe (s : State) : Acts (some .occurrence) s (enterSafe s) := by
  have told := quieted_notifyAll (.safe true) (s.mapLog fun l => { l with safe := true })
  have revoked := quieted_revokeAll .safe (notifyAll (.safe true) (s.mapLog fun l => { l with safe := true }))
  have safe : (revokeAll .safe (notifyAll (.safe true) (s.mapLog fun l => { l with safe := true }))).safe = true := by
    rw [State.safe, (moved_revokeAll _ _).log (by decide), (moved_notifyAll _ _).log (by decide)]
    rfl
  have run := quieted_arbiter_of_safe safe
  have stopped := Act.one (.enter (s := s) rfl ((told.trans revoked).trans run) fun p => off_of_quieted run (off_revokeAll _ _ p))
  refine Relation.ReflTransGen.trans ?_ (acts_allocEntry _)
  show Acts _ s (chainEntry (interlockEntry _))
  obtain same | more := stopForEntry_chainEntry (interlockEntry (notifyAll (.safe true) (s.mapLog fun l => { l with safe := true })))
  · rw [same]
    exact stopped
  · rw [more]
    exact (stopped.trans (acts_endWithoutLatch _)).trans (acts_endStartUp rfl _)

theorem acts_takeOccurrence (o : Occurrence) (s : State) : Acts (some .occurrence) s (takeOccurrence o s) := by
  have recorded := acts_recordOccurrence (i := .occurrence) rfl o s
  unfold takeOccurrence
  split
  · exact .refl
  split
  · refine recorded.trans ?_
    unfold takeFatal
    split
    · exact acts_spoilExit rfl _
    · exact (acts_spoilExit rfl _).trans (acts_enterSafe _)
  · exact recorded

theorem worked_allocExit (w : Work) : Worked w (eachPort takeDue (admitFreed (allPositions.foldl (fun w p => applyReroutes p w) (makeTests w)))) :=
  (((worked_makeTests w).trans (.foldl _ (fun w p => worked_applyReroutes p w) _ _)).trans (worked_admitFreed _)).trans
    (worked_eachPort _ worked_takeDue _)

theorem takesLog_of_takesEvents {i : Instr} (takes : takesEvents i = true) : takesLog i = true := by
  cases i <;> simp_all [takesEvents, takesLog]

theorem acts_leaveSafe {i : Instr} (takes : takesEvents i = true) (s : State) : Acts (some i) s (leaveSafe s) :=
  (((Act.one (.leaveSafe i rfl takes)).trans (quieted_notifyAll _ _).acts).trans (acts_allocEvent worked_allocExit (deals_exit (fun _ _ => trivial) _))).trans (acts_arbiter _)

theorem acts_takeExitResult {i : Instr} (takes : takesEvents i = true) (passed : Bool) (s : State) :
    Acts (some i) s (takeExitResult passed s) := by
  have ended : Acts (some i) s (s.mapLog fun l => { l with exitPending := false }) := acts_log (takesLog_of_takesEvents takes) rfl rfl
  unfold takeExitResult
  dsimp only
  split
  · split
    · exact ended.trans (acts_log (takesLog_of_takesEvents takes) rfl rfl)
    · exact ended.trans (acts_leaveSafe takes _)
  · exact ended

theorem acts_drainResults {i : Instr} (takes : takesEvents i = true) : ∀ (n : Nat) (s : State), Acts (some i) s (drainResults n s)
  | 0, s => .refl
  | n + 1, s => by
    unfold drainResults
    split
    · exact ((Act.one (.take i rfl takes _)).trans (acts_takeExitResult takes _ _)).trans (acts_drainResults takes n _)
    · exact .refl

theorem acts_endExit {i : Instr} (takes : takesEvents i = true) (passed : Bool) (s : State) : Acts (some i) s (endExit passed s) := by
  have cleared : Acts (some i) s (s.mapChain fun d => { d with exitRequest := false }) := acts_marks ⟨rfl, rfl, rfl, rfl, .inl rfl, fun _ => ⟨rfl, rfl⟩⟩
  exact (cleared.trans (Act.one (.take i rfl takes _))).trans (acts_drainResults takes _ _)

/-! ## The relay chain -/

theorem chain_closeWork (b : State) (w : Work) :
    (closeWork b w).s.chain = { w.s.chain with pending := (makeTests (admitFreed w)).s.composed } := by
  have made := ((worked_admitFreed w).trans (worked_makeTests _)).moved.chain (by decide)
  have ended := (worked_switchingEnded b ((makeTests (admitFreed w)).map recompose)).moved.chain (by decide)
  rw [closeWork, ended, ← made]
  rfl

theorem chain_allocEvent {f : Work → Work} (worked : ∀ w, Worked w (f w)) (s : State) :
    ∃ im, (allocEvent f s).chain = { s.chain with pending := im } := by
  have made := ((worked (Work.start s)).trans ((worked_admitFreed _).trans (worked_reclaims _))).moved.chain (by decide)
  refine ⟨(makeTests (admitFreed (reclaims (admitFreed (f (Work.start s)))))).s.composed, ?_⟩
  rw [allocEvent, (moved_handOn _).chain (by decide), chain_closeWork, made]
  rfl

theorem op_endWithoutLatch (s : State) : (endWithoutLatch s).chain.op = s.chain.op := by
  obtain ⟨im, eq⟩ := chain_allocEvent (fun w => worked_removeWhere (fun r => r.state = .breaking && neverClosed r w.s) w) s
  rw [endWithoutLatch, (moved_arbiter _).chain (by decide), allocEnd, eq]

theorem op_endOperation (content : Option Image) (s : State) : (endOperation content s).chain.op = none := by
  unfold endOperation markLength
  rw [mapChain_chain]
  split <;> rfl

theorem worked_allocCompletion (w : Work) :
    Worked w (removeWhere (fun r => r.state = .breaking && !r.latched) (connectMade (takeFlags w))) :=
  ((worked_takeFlags w).trans (worked_connectMade _)).trans (worked_removeWhere _ _)

theorem op_latchChange (s : State) : (latchChange s).chain.op = none := op_endOperation _ _

theorem op_completion (s : State) : (arbiter (allocCompletion (latchChange s))).chain.op = none := by
  obtain ⟨im, eq⟩ := chain_allocEvent worked_allocCompletion (latchChange s)
  rw [(moved_arbiter _).chain (by decide), allocCompletion, eq]
  exact op_latchChange s

theorem acts_afterChange (ends : endsStartUp c = true) {s : State} (idle : s.chain.op = none) (why : Option Purpose) : Acts c s (afterChange why s) := by
  unfold afterChange
  split
  · exact ((acts_restartChainEvent s).trans (acts_closeAttempt _)).trans (acts_filterMoveAll _)
  · refine (acts_closeAttempt s).trans ?_
    unfold afterStartUp
    split
    · exact acts_endStartUp ends _
    · rename_i safe
      exact acts_startVerify idle (by simpa using safe) (.inr rfl)
  · exact acts_closeAttempt s

theorem allocationKeyed_flagged {s : State} (keyed : s.AllocationKeyed) : (flagged s).AllocationKeyed :=
  allocationKeyed_of_map keyed rfl rfl rfl (fun _ _ => ⟨rfl, rfl, rfl⟩)
    (fun r stands => ⟨(keyed.routed r stands).1, (keyed.routed r stands).2.2⟩) keyed.stored

theorem allocationKeyed_of_same {s t : State} (keyed : s.AllocationKeyed) (table : t.table = s.table) (alloc : t.alloc = s.alloc) :
    t.AllocationKeyed := by
  have same (x : Allocator) (T : Table) : ({ s with alloc := x, table := T } : State).AllocationKeyed ↔
      ({ t with alloc := x, table := T } : State).AllocationKeyed :=
    ⟨fun h => ⟨h.records, h.routed, h.stored, h.lists, h.placed, h.oneList, h.apart⟩,
      fun h => ⟨h.records, h.routed, h.stored, h.lists, h.placed, h.oneList, h.apart⟩⟩
  have kept := (same s.alloc s.table).1 keyed
  rw [← alloc, ← table] at kept
  exact kept

theorem moved_latchChange (s : State) : Moved [.chain] s (latchChange s) :=
  ((moved_mapChain s _).trans (moved_endOperation _ _)).trans (moved_refreshFilters _)

theorem moved_latched (s : State) (a : Allocator) : Moved [.chain, .alloc] s (recompose { latchChange s with alloc := a }) :=
  have dealt : Moved [.chain, .alloc] (latchChange s) { latchChange s with alloc := a } :=
    (moved_mapAlloc (latchChange s) fun _ => a).mono (by decide)
  (((moved_latchChange s).mono (by decide)).trans dealt).trans ((moved_recompose { latchChange s with alloc := a }).mono (by decide))

/-- The allocator's part of a completion, from the latch on (R46). -/
theorem acts_latch {s : State} (phase : s.inPhase .change .settling = true) :
    Acts (some .changeCompletion) s (allocCompletion (latchChange s)) := by
  let body (w : Work) : Work := removeWhere (fun r => r.state = .breaking && !r.latched) (connectMade (takeFlags w))
  have changed := (worked_allocCompletion (Work.start (latchChange s))).trans ((worked_admitFreed _).trans (worked_reclaims _))
  have admitted := (changed.trans (worked_admitFreed _)).eq
  refine (Act.one ?_).trans (acts_handOn _)
  have closed : (admitFreed (reclaims (admitFreed (body (Work.start (latchChange s)))))).s.made =
      { latchChange s with alloc := (admitFreed (reclaims (admitFreed (body (Work.start (latchChange s)))))).s.made.alloc } := by
    rw [State.made, admitted]
    rfl
  rw [closeWork_s]
  show Act _ s (recompose (admitFreed (reclaims (admitFreed (body (Work.start (latchChange s)))))).s.made)
  rw [closed]
  refine .latch rfl phase _ fun keyed => ?_
  rw [← closed]
  have keyed' : (flagged (latchChange s)).AllocationKeyed :=
    allocationKeyed_flagged (allocationKeyed_of_same keyed ((moved_latchChange s).table (by decide)) ((moved_latchChange s).alloc (by decide)))
  have dealt : Deal (takeFlags (Work.start (latchChange s))) (admitFreed (reclaims (admitFreed (body (Work.start (latchChange s)))))) :=
    (((deals_completion trivial (fun _ _ => trivial) (op_latchChange s)).trans (deals_admitFreed _)).trans (deals_reclaims _)).trans
      (deals_admitFreed _)
  exact (dealt (sound_true keyed')).tail (.make _)

theorem acts_completion {s : State} (phase : s.inPhase .change .settling = true) (why : Option Purpose) :
    Acts (some .changeCompletion) s (afterChange why (arbiter (allocCompletion (latchChange s)))) :=
  ((acts_latch phase).trans (acts_arbiter _)).trans (acts_afterChange rfl (op_completion s) why)

theorem acts_afterRetry (ends : endsStartUp c = true) (s : State) : Acts c s (afterRetry s) := by
  unfold afterRetry
  split
  · exact acts_marks ⟨rfl, rfl, rfl, rfl, .inl rfl, fun _ => ⟨rfl, rfl⟩⟩
  · exact (acts_closeAttempt _).trans (acts_endStartUp ends _)

theorem acts_afterResync (why : Option Purpose) (s : State) : Acts (some .resyncPass) s (afterResync why s) := by
  unfold afterResync
  split
  · exact acts_afterRetry rfl _
  · exact acts_endExit rfl _ _
  · exact acts_closeAttempt _

theorem acts_escalate (ends : endsStartUp c = true) (s : State) : Acts c s (escalate s) := by
  refine Relation.ReflTransGen.trans ?_ (acts_endStartUp ends _)
  split
  · exact acts_closeAttempt _
  · exact acts_marks ⟨rfl, rfl, rfl, rfl, .inl rfl, fun _ => ⟨rfl, rfl⟩⟩

theorem acts_firstMismatch (ends : endsStartUp c = true) (k : OpKind) {s : State} (idle : s.chain.op = none) : Acts c s (firstMismatch k s) := by
  have opened : Acts c s (s.mapChain fun d => { d with attempt := some { kind := k, repeatDue := false } }) :=
    acts_marks ⟨rfl, rfl, rfl, rfl, .inl rfl, fun _ => ⟨rfl, rfl⟩⟩
  unfold firstMismatch
  dsimp only
  split
  · exact opened.trans (acts_escalate ends _)
  split
  · exact opened.trans (acts_closeAttempt _)
  · rename_i safe
    exact opened.trans (acts_startResync (why := .retry) idle (.inl rfl) fun on => absurd on safe)

theorem acts_afterMismatch (b : Nat) (o : Operation) (second : Bool) {s : State} (idle : s.chain.op = none) :
    Acts (some (.mismatch b)) s (afterMismatch o second s) := by
  unfold afterMismatch
  split
  · exact acts_endExit rfl _ _
  split
  · exact acts_escalate rfl _
  · exact acts_firstMismatch rfl _ idle

theorem acts_takeMismatch (b : Nat) (o : Operation) (bit : Nat) (s : State) : Acts (some (.mismatch b)) s (takeMismatch o bit s) :=
  (((acts_endOperation none s).trans (quieted_raise _ _).acts).trans (acts_endWithoutLatch _)).trans
    (acts_afterMismatch b o _ (by rw [op_endWithoutLatch]; exact op_endOperation none s))

/-! ## The ports, absences and returns -/

theorem acts_moveTo (p : Position) (r : Receiver) (s : State) : Acts c s (s.mapLink p fun x => x.moveTo r) :=
  acts_port p _ ⟨le_rfl, id, fun step => inStep_reviseClear step.sends.1 step.counted⟩

theorem acts_endFrame (p : Position) (x : FrameSubkind) (s : State) : Acts c s (endFrame p x s) :=
  (acts_moveTo p .hunting s).trans (quieted_raise _ _).acts

theorem acts_arrive {p : Position} {s : State} (free : (s.link p).hold = false) (f : Frame) (n : Nat) :
    Acts c s (s.mapLink p fun x => x.arrive f n) := by
  refine acts_port p _ ⟨le_rfl, fun _ => ?_, fun step => ?_⟩
  · have free : (s.link p).slots.length < Config.receiveSlots := by simpa [Link.hold] using free
    show ((s.link p).slots ++ [f]).length ≤ _
    simpa using free
  · have moved := inStep_reviseClear (x := { s.link p with slots := (s.link p).slots ++ [f], present := true, receiver := .hunting })
      step.sends.1 step.counted
    exact ⟨moved.sends, moved.counted, moved.prompt⟩

theorem acts_frameSent (p : Position) (s : State) : Acts c s (s.mapLink p fun x => x.frameSent p) := by
  refine acts_port p _ ⟨?_, id, fun step => inStep_revise p (by simp) ?_⟩
  · exact (List.length_drop (i := 1) (l := (s.link p).queue)).trans_le (Nat.sub_le _ _)
  · show (s.link p).divisorWait - 1 ≤ ((s.link p).queue.drop 1).length
    rw [List.length_drop]
    exact Nat.sub_le_sub_right step.counted 1

theorem acts_silence (p : Position) (s : State) :
    Acts c s (s.mapLink p fun x => { x with silenceTimer := none, slots := [], present := false }) :=
  acts_port p _ ⟨le_rfl, fun _ => Nat.zero_le _, fun ⟨sends, counted, prompt⟩ => ⟨sends, counted, prompt⟩⟩

theorem acts_lapse (p : Position) (s : State) : Acts c s (s.mapLink p fun x => x.lapse p) :=
  acts_port p _ ⟨le_rfl, id, fun step => inStep_revise p step.sends.1 step.counted⟩

theorem acts_reviseClear (p : Position) (s : State) : Acts c s (s.mapLink p Link.reviseClear) :=
  acts_port p _ ⟨le_rfl, id, fun step => inStep_reviseClear step.sends.1 step.counted⟩

theorem acts_waitAbsent (p : Position) (s : State) : Acts c s (waitAbsent p s) := by
  unfold waitAbsent
  split
  · exact Act.one (.quiet (.reason s p (some .absent)))
  · exact .refl

theorem acts_allocAbsence (p : Position) (s : State) : Acts c s (allocAbsence p s) :=
  acts_allocEvent (fun w => (((worked_settleRing p .main w).trans (worked_settleRing p .aux _)).trans (worked_dropEntries p _)).trans
    (worked_breakAbsent p _)) (deals_absence (fun _ => trivial) _)

theorem acts_takeAbsence (b : AbsenceTaker) (p : Position) (s : State) : Acts c s (takeAbsence b p s) := by
  cases b with
  | bandDecoder => exact (acts_mapFreq (s := s) rfl).trans (acts_reportEvent _)
  | lineAllocator => exact acts_allocAbsence p s
  | transmitInterlock => exact (acts_waitAbsent p s).trans (acts_revokeAndRun _ _ _)

theorem acts_allocReturn (p : Position) (s : State) : Acts c s (allocReturn p s) := by
  refine acts_foldl _ (fun s k => ?_) _ s
  split
  · exact (acts_of_alloc (moved_mapStanding _ _ _ _) (fun _ => .single (.standing _ trivial)) rfl).trans (quieted_notify _ _ _).acts
  · exact .refl

theorem acts_takeReturn (b : ReturnTaker) (p : Position) (s : State) : Acts c s (takeReturn b p s) := by
  cases b with
  | lineAllocator => exact acts_allocReturn p s
  | transmitInterlock => exact acts_arbiter s

/-! ## The transmit events -/

theorem acts_raiseOobPtt (p : Position) (s : State) : Acts c s (raiseOobPtt p s) := by
  unfold raiseOobPtt
  split
  · exact (quieted_raise _ _).acts
  · exact .refl

theorem acts_pttOn {p : Position} {s : State} (up : (s.txOf p).ptt = false) :
    Acts (some (.pttOn p)) s (takePttOn p (s.mapTx p fun x => { x with ptt := true, pttTimer := none })) := by
  have down := Act.one (.keyDown (s := s) p rfl up)
  have state : ((s.mapTx p fun x => { x with ptt := true, pttTimer := none }).txOf p).state = (s.txOf p).state := by simp
  unfold keyDown at down
  unfold takePttOn
  rw [state]
  cases found : (s.txOf p).state <;> rw [found] at down
  · exact (down.trans (acts_raiseOobPtt _ _)).trans (acts_arbiter _)
  · exact down
  · exact down
  · exact down.trans (acts_raiseOobPtt _ _)
  · exact down

theorem acts_pttOff {p : Position} {s : State} (down : (s.txOf p).ptt = true) :
    Acts c s (takePttOff p (s.mapTx p fun x => { x with ptt := false, pttTimer := none })) := by
  have up := Act.one (c := c) (.keyUp (s := s) p down)
  have state : ((s.mapTx p fun x => { x with ptt := false, pttTimer := none }).txOf p).state = (s.txOf p).state := by simp
  unfold keyUp at up
  unfold takePttOff
  rw [state]
  cases found : (s.txOf p).state <;> simp only [found] at up
  · exact up
  · exact up
  · dsimp only
    split
    · rename_i hang
      rwa [if_pos hang] at up
    · rename_i hang
      rw [if_neg hang] at up
      exact (up.trans (quieted_evaluateAdvisories _).acts).trans (acts_arbiter _)
  · exact up
  · exact up

theorem acts_levels {p : Position} {s : State} {f : TxRecord → TxRecord} (state : (f (s.txOf p)).state = (s.txOf p).state)
    (ptt : (f (s.txOf p)).ptt = (s.txOf p).ptt) (hang : (f (s.txOf p)).hangTimer = (s.txOf p).hangTimer)
    (skip : (f (s.txOf p)).skipHang = (s.txOf p).skipHang) (tail : (f (s.txOf p)).tailTimer = (s.txOf p).tailTimer) :
    Acts c s (s.mapTx p f) := Act.one (.levels s p (f (s.txOf p)) state ptt hang skip tail)

theorem acts_takeRfOn (p : Position) (s : State) : Acts c s (takeRfOn p s) := by
  unfold takeRfOn
  split
  · exact (quieted_raise _ _).acts
  split
  · exact (quieted_raise _ _).acts
  · exact .refl

end Sys2Proof.Machine
end

section
/-! Every command but power is a path of moves, and what every step keeps that each move keeps. -/

namespace Sys2Proof.Machine

/-! ## The events of the ports, the inputs, the timers and the driver -/

theorem acts_execFrameArrival (p : Position) (ch : Byte) {s t : State} (taken : execFrameArrival p ch s = .next t) : Acts (some (.frameArrival p ch)) s t := by
  unfold execFrameArrival at taken
  refine acts_whilePowered ?_ taken
  split
  · split
    · exact .refl
    · rename_i f _ full
      have arrived : Acts (some (.frameArrival p ch)) s (s.mapLink p fun x => x.arrive f s.policy.linkMs) := acts_arrive (by simpa using full) _ _
      dsimp only
      split
      · exact arrived
      · exact arrived.trans (Act.one (.handed _ _))
  · exact .refl

theorem acts_execFrameError (p : Position) (e : FrameFault) {s t : State} (taken : execFrameError p e s = .next t) : Acts (some (.frameError p e)) s t := by
  unfold execFrameError at taken
  refine acts_whilePowered ?_ taken
  split
  · split
    · exact acts_endFrame _ _ _
    · exact .refl
  · split
    · exact acts_endFrame _ _ _
    · exact acts_moveTo _ _ _

theorem acts_execGapExpiry (p : Position) {s t : State} (taken : execGapExpiry p s = .next t) : Acts (some (.gapExpiry p)) s t := by
  unfold execGapExpiry at taken
  refine acts_whilePowered ?_ taken
  split
  · exact .refl
  · dsimp only
    split
    · exact (acts_lapse p s).trans (quieted_raise _ _).acts
    · exact acts_lapse p s

theorem acts_execSkippingStart (p : Position) {s t : State} (taken : execSkippingStart p s = .next t) : Acts (some (.skippingStart p)) s t := by
  unfold execSkippingStart at taken
  refine acts_whilePowered ?_ taken
  split
  · exact (acts_moveTo p _ s).trans (quieted_raise _ _).acts
  · exact .refl

theorem acts_execFrameSent (p : Position) {s t : State} (taken : execFrameSent p s = .next t) : Acts (some (.frameSent p)) s t := by
  unfold execFrameSent at taken
  refine acts_whilePowered ?_ taken
  split
  · exact acts_frameSent p s
  · exact .refl

theorem acts_execDivisorChange (p : Position) {s t : State} (taken : execDivisorChange p s = .next t) : Acts (some (.divisorChange p)) s t := by
  unfold execDivisorChange at taken
  refine acts_whilePowered ?_ taken
  split
  · exact acts_reviseClear p s
  · exact .refl

theorem acts_execLinkSilenceExpiry (p : Position) {s t : State} (taken : execLinkSilenceExpiry p s = .next t) : Acts (some (.linkSilenceExpiry p)) s t := by
  unfold execLinkSilenceExpiry at taken
  refine acts_whilePowered ?_ taken
  split
  · exact ((acts_silence p s).trans (quieted_raise _ _).acts).trans (Act.one (.handed _ _))
  · exact .refl

theorem acts_execAbsence (b : AbsenceTaker) (p : Position) {s t : State} (taken : execAbsence b p s = .next t) : Acts (some (.absence b p)) s t := by
  unfold execAbsence at taken
  refine acts_wholeStep ?_ taken
  split
  · exact (Act.one (.handed s _)).trans (acts_takeAbsence b p _)
  · exact .refl

theorem acts_execPositionReturn (b : ReturnTaker) (p : Position) {s t : State} (taken : execPositionReturn b p s = .next t) : Acts (some (.positionReturn b p)) s t := by
  unfold execPositionReturn at taken
  refine acts_whilePowered ?_ taken
  split
  · exact (Act.one (.handed s _)).trans (acts_takeReturn b p _)
  · exact .refl

theorem acts_execPttLevelChange (p : Position) (level : Bool) {s t : State} (taken : execPttLevelChange p level s = .next t) : Acts (some (.pttLevelChange p level)) s t := by
  unfold execPttLevelChange at taken
  cases taken
  split
  · exact .refl
  · exact acts_levels rfl rfl rfl rfl rfl

theorem acts_execRfSenseLevelChange (p : Position) (level : Bool) {s t : State} (taken : execRfSenseLevelChange p level s = .next t) : Acts (some (.rfSenseLevelChange p level)) s t := by
  unfold execRfSenseLevelChange at taken
  cases taken
  split
  · exact .refl
  · exact acts_levels rfl rfl rfl rfl rfl

theorem acts_execPttOn (p : Position) {s t : State} (taken : execPttOn p s = .next t) : Acts (some (.pttOn p)) s t := by
  unfold execPttOn at taken
  refine acts_whilePowered ?_ taken
  dsimp only
  split
  · rename_i confirmed
    simp only [Bool.and_eq_true, Bool.not_eq_true'] at confirmed
    exact acts_pttOn confirmed.2
  · exact .refl

theorem acts_execPttOff (p : Position) {s t : State} (taken : execPttOff p s = .next t) : Acts (some (.pttOff p)) s t := by
  unfold execPttOff at taken
  refine acts_wholeStep ?_ taken
  dsimp only
  split
  · rename_i confirmed
    simp only [Bool.and_eq_true] at confirmed
    exact acts_pttOff confirmed.2
  · exact .refl

theorem acts_execRfOn (p : Position) {s t : State} (taken : execRfOn p s = .next t) : Acts (some (.rfOn p)) s t := by
  unfold execRfOn at taken
  refine acts_whilePowered ?_ taken
  dsimp only
  split
  · exact (acts_levels (s := s) rfl rfl rfl rfl rfl).trans (acts_takeRfOn p _)
  · exact .refl

theorem acts_execRfOff (p : Position) {s t : State} (taken : execRfOff p s = .next t) : Acts (some (.rfOff p)) s t := by
  unfold execRfOff at taken
  refine acts_wholeStep ?_ taken
  dsimp only
  split
  · exact acts_levels rfl rfl rfl rfl rfl
  · exact .refl

theorem acts_execHangExpiry (p : Position) {s t : State} (taken : execHangExpiry p s = .next t) : Acts (some (.hangExpiry p)) s t := by
  unfold execHangExpiry at taken
  refine acts_wholeStep ?_ taken
  split
  · rename_i expired
    simp only [Bool.and_eq_true, decide_eq_true_eq] at expired
    exact (acts_leaveAir expired.2).trans (acts_arbiter _)
  · exact .refl

theorem acts_execTailExpiry (p : Position) {s t : State} (taken : execTailExpiry p s = .next t) : Acts (some (.tailExpiry p)) s t := by
  unfold execTailExpiry at taken
  refine acts_wholeStep ?_ taken
  split
  · exact acts_endTail p s
  · exact .refl

theorem acts_execStaleExpiry (p : Position) {s t : State} (taken : execStaleExpiry p s = .next t) : Acts (some (.staleExpiry p)) s t := by
  unfold execStaleExpiry at taken
  refine acts_whilePowered ?_ taken
  split
  · exact (((acts_mapFreq (s := s) rfl).trans (quieted_raise _ _).acts).trans (quieted_bandNotice _ _).acts).trans (acts_reportEvent _)
  · exact .refl

theorem acts_execLockLevelChange (level : Bool) {s t : State} (taken : execLockLevelChange level s = .next t) : Acts (some (.lockLevelChange level)) s t := by
  unfold execLockLevelChange at taken
  cases taken
  split
  · exact .refl
  · exact acts_store rfl rfl rfl rfl

theorem acts_execLockDebounceExpiry {s t : State} (taken : execLockDebounceExpiry s = .next t) : Acts (some .lockDebounceExpiry) s t := by
  unfold execLockDebounceExpiry at taken
  refine acts_whilePowered ?_ taken
  split
  · exact acts_store rfl rfl rfl rfl
  · exact .refl

theorem acts_execRestartNLevelChange (level : Bool) {s t : State} (taken : execRestartNLevelChange level s = .next t) : Acts (some (.restartNLevelChange level)) s t := by
  unfold execRestartNLevelChange at taken
  cases taken
  split
  · exact .refl
  · exact acts_store rfl rfl rfl rfl

theorem acts_execRestartPin {s t : State} (taken : execRestartPin s = .next t) : Acts (some .restartPin) s t := by
  unfold execRestartPin at taken
  refine acts_wholeStep ?_ taken
  split
  · next ends =>
    have started : s.store.ready ≠ .starting := by
      simp only [Bool.and_eq_true] at ends
      exact ((watchesPin_iff s).1 ends.1.1.1).2
    exact (acts_store (s := s) rfl rfl rfl rfl).trans (acts_restart started fun u _ => .refl)
  · exact .refl

theorem acts_execVerifyTimerExpiry {s t : State} (taken : execVerifyTimerExpiry s = .next t) : Acts (some .verifyTimerExpiry) s t := by
  unfold execVerifyTimerExpiry at taken
  refine acts_wholeStep ?_ taken
  split
  · have stopped : Acts (some .verifyTimerExpiry) s (s.mapChain fun d => { d with verifyTimer := none }) :=
      acts_marks ⟨rfl, rfl, rfl, rfl, .inr rfl, fun _ => ⟨rfl, rfl⟩⟩
    dsimp only
    split
    · rename_i may
      simp only [State.mayVerify, Bool.and_eq_true, Option.isNone_iff_eq_none, Bool.not_eq_true'] at may
      exact stopped.trans (acts_startVerify may.1.1.1.1 may.2 (.inl rfl))
    · exact stopped
  · exact .refl

theorem acts_execChangeShiftEnd {s t : State} (taken : execChangeShiftEnd s = .next t) : Acts (some .changeShiftEnd) s t := by
  unfold execChangeShiftEnd at taken
  refine acts_whilePowered ?_ taken
  split
  · rename_i ends
    simp only [Bool.and_eq_true, Bool.not_eq_true'] at ends
    exact Act.one (.shiftEnd _ ends.1 ends.2)
  · exact .refl

theorem acts_execChangeCompletion {s t : State} (taken : execChangeCompletion s = .next t) : Acts (some .changeCompletion) s t := by
  unfold execChangeCompletion at taken
  refine acts_wholeStep ?_ taken
  split
  · rename_i ends
    simp only [Bool.and_eq_true] at ends
    exact acts_completion ends.1 _
  · exact .refl

theorem acts_execVerifyEnd {s t : State} (taken : execVerifyEnd s = .next t) : Acts (some .verifyEnd) s t := by
  unfold execVerifyEnd at taken
  refine acts_wholeStep ?_ taken
  split
  · have ended : Acts (some .verifyEnd) s (closeAttempt (endWithoutLatch (endOperation (some s.chain.latched) s))) :=
      ((acts_endOperation _ s).trans (acts_endWithoutLatch _)).trans (acts_closeAttempt _)
    dsimp only
    split
    · exact ended.trans (acts_endStartUp rfl _)
    · exact ended
  · exact .refl

theorem acts_execResyncFillEnd {s t : State} (taken : execResyncFillEnd s = .next t) : Acts (some .resyncFillEnd) s t := by
  unfold execResyncFillEnd at taken
  refine acts_whilePowered ?_ taken
  split
  · rename_i ends
    exact Act.one (.fillEnd ends)
  · exact .refl

theorem acts_execResyncPass {s t : State} (taken : execResyncPass s = .next t) : Acts (some .resyncPass) s t := by
  unfold execResyncPass at taken
  refine acts_wholeStep ?_ taken
  split
  · exact ((acts_endOperation _ s).trans (acts_endWithoutLatch _)).trans (acts_afterResync _ _)
  · exact .refl

theorem acts_execMismatch (bit : Nat) {s t : State} (taken : execMismatch bit s = .next t) : Acts (some (.mismatch bit)) s t := by
  unfold execMismatch at taken
  refine acts_wholeStep ?_ taken
  split
  · split
    · exact acts_takeMismatch bit _ bit s
    · exact .refl
  · exact .refl

theorem acts_execSaveWriteEnd (r : SaveResult) {s t : State} (taken : execSaveWriteEnd r s = .next t) : Acts (some (.saveWriteEnd r)) s t := by
  unfold execSaveWriteEnd at taken
  refine acts_whilePowered ?_ taken
  split
  · exact acts_saveWriteEnd r s
  · exact .refl

theorem acts_execOccurrence {s t : State} (taken : execOccurrence s = .next t) : Acts (some .occurrence) s t := by
  unfold execOccurrence at taken
  refine acts_wholeStep ?_ taken
  split
  · exact ((Act.one (.take _ rfl rfl _)).trans (acts_takeOccurrence _ _)).trans (acts_drainResults rfl _ _)
  · exact .refl

theorem acts_execGoodCharacter (p : Position) (ch : Byte) {s t : State} (taken : execGoodCharacter p ch s = .next t) : Acts (some (.goodCharacter p ch)) s t := by
  unfold execGoodCharacter at taken
  refine acts_whilePowered ?_ taken
  split
  · exact acts_moveTo p _ s
  · exact .refl

theorem acts_execRestartNDebouncedRelease {s t : State} (taken : execRestartNDebouncedRelease s = .next t) : Acts (some .restartNDebouncedRelease) s t := by
  unfold execRestartNDebouncedRelease at taken
  refine acts_whilePowered ?_ taken
  split
  · exact acts_store rfl rfl rfl rfl
  · exact .refl

/-- Every command but power is a path of moves. -/
theorem acts_exec {c : Instr} {s t : State} (on : c ≠ .powerOn) (off : c ≠ .powerLoss) (taken : exec c s = .next t) :
    Acts (some c) s t := by
  cases c with
  | powerOn => exact absurd rfl on
  | powerLoss => exact absurd rfl off
  | poll p => exact acts_whilePowered (acts_takeSimple fun f room => acts_servePoll f room) taken
  | freq p => exact acts_wholeStep (acts_takeSimple fun f room => acts_serveFreq f room) taken
  | claimWait p => exact acts_wholeStep (acts_takeSimple fun f room => acts_serveClaim f room) taken
  | claimNow p => exact acts_wholeStep (acts_takeSimple fun f room => acts_serveClaim f room) taken
  | claimTake p => exact acts_wholeStep (acts_takeSimple fun f room => acts_serveClaim f room) taken
  | release p => exact acts_wholeStep (acts_takeSimple fun f room => acts_serveRelease f room) taken
  | cancel p => exact acts_whilePowered (acts_takeSimple fun f room => acts_serveCancel f room) taken
  | followOn p => exact acts_wholeStep (acts_takeSimple fun f room => acts_serveFollowOn f room) taken
  | followOff p => exact acts_whilePowered (acts_takeSimple fun f room => acts_serveFollowOff f room) taken
  | step p => exact acts_wholeStep (acts_takeSimple fun f room => acts_serveStep f room) taken
  | query p => exact acts_whilePowered (acts_takeRequest fun f _ room => acts_serveQuery f room) taken
  | tableRead p => exact acts_whilePowered (acts_takeSimple fun f room => acts_serveTableRead f room) taken
  | bandWrite p =>
    exact acts_wholeStep (acts_takeSimple fun f room => acts_serveWrite room fun bs => acts_acceptBand room bs) taken
  | feedLineWrite p =>
    exact acts_whilePowered (acts_takeSimple fun f room => acts_serveWrite room fun bs => acts_acceptLine room bs) taken
  | elementWrite p =>
    exact acts_whilePowered (acts_takeSimple fun f room => acts_serveWrite room fun bs => acts_acceptElement room bs) taken
  | routeWrite p =>
    exact acts_whilePowered (acts_takeSimple fun f room => acts_serveWrite room fun bs => acts_acceptRoute room bs) taken
  | ringWrite p =>
    exact acts_whilePowered (acts_takeSimple fun f room => acts_serveWrite room fun bs => acts_acceptRing room bs) taken
  | stationPolicyWrite p =>
    exact acts_wholeStep (acts_takeSimple fun f room => acts_serveWrite room fun bs => acts_acceptPolicy room bs) taken
  | positionSettingsWrite p =>
    exact acts_whilePowered (acts_takeSimple fun f room => acts_serveWrite room fun bs => acts_acceptSettings room bs) taken
  | faultConfigurationWrite p =>
    exact acts_whilePowered (acts_takeSimple fun f room => acts_serveWrite room fun bs => acts_acceptFault room bs) taken
  | save p => exact acts_whilePowered (acts_takeSimple fun f room => acts_serveSave f room) taken
  | faultRead p => exact acts_whilePowered (acts_takeRequest fun f _ room => acts_serveFaultRead f room) taken
  | faultClear p => exact acts_wholeStep (acts_takeSimple fun f room => acts_serveFaultClear f room) taken
  | restartRequest p => exact acts_wholeStep (acts_takeSimple fun f room => acts_serveRestart f room) taken
  | unknownRequestKind p =>
    exact acts_whilePowered (acts_takeSimple fun f room => (quieted_sendFrame _ room).acts) taken
  | frameArrival p ch => exact acts_execFrameArrival p ch taken
  | frameError p e => exact acts_execFrameError p e taken
  | gapExpiry p => exact acts_execGapExpiry p taken
  | skippingStart p => exact acts_execSkippingStart p taken
  | frameSent p => exact acts_execFrameSent p taken
  | divisorChange p => exact acts_execDivisorChange p taken
  | linkSilenceExpiry p => exact acts_execLinkSilenceExpiry p taken
  | absence b p => exact acts_execAbsence b p taken
  | positionReturn b p => exact acts_execPositionReturn b p taken
  | pttLevelChange p level => exact acts_execPttLevelChange p level taken
  | rfSenseLevelChange p level => exact acts_execRfSenseLevelChange p level taken
  | pttOn p => exact acts_execPttOn p taken
  | pttOff p => exact acts_execPttOff p taken
  | rfOn p => exact acts_execRfOn p taken
  | rfOff p => exact acts_execRfOff p taken
  | hangExpiry p => exact acts_execHangExpiry p taken
  | tailExpiry p => exact acts_execTailExpiry p taken
  | staleExpiry p => exact acts_execStaleExpiry p taken
  | lockLevelChange level => exact acts_execLockLevelChange level taken
  | lockDebounceExpiry => exact acts_execLockDebounceExpiry taken
  | restartNLevelChange level => exact acts_execRestartNLevelChange level taken
  | restartPin => exact acts_execRestartPin taken
  | verifyTimerExpiry => exact acts_execVerifyTimerExpiry taken
  | changeShiftEnd => exact acts_execChangeShiftEnd taken
  | changeCompletion => exact acts_execChangeCompletion taken
  | verifyEnd => exact acts_execVerifyEnd taken
  | resyncFillEnd => exact acts_execResyncFillEnd taken
  | resyncPass => exact acts_execResyncPass taken
  | mismatch bit => exact acts_execMismatch bit taken
  | saveWriteEnd r => exact acts_execSaveWriteEnd r taken
  | occurrence => exact acts_execOccurrence taken
  | goodCharacter p ch => exact acts_execGoodCharacter p ch taken
  | restartNDebouncedRelease => exact acts_execRestartNDebouncedRelease taken

/-! ## What every step keeps -/

theorem kept_of_acts {I : State → Prop} {c : Option Instr} (each : ∀ s t, Act c s t → I s → I t) {s t : State} (acts : Acts c s t)
    (start : I s) : I t := by
  induction acts with
  | refl => exact start
  | tail _ move ih => exact each _ _ move ih

/-- POWER_ON on an unpowered part is a path of moves from the power-on values. -/
theorem acts_powerOn {s t : State} {c : Option Instr} (off : s.powered = false) (taken : exec .powerOn s = .next t) :
    Acts c (powerOnState (loadedTable s.store.nv) s) t := by
  cases taken
  rw [if_neg (by simp [off])]
  cases good : s.store.nv.good with
  | true => exact acts_startChange rfl rfl (by simp)
  | false => exact (quieted_raise _ _).acts.trans (acts_startChange rfl rfl (by simp))

theorem exec_powerOn_of_powered {s t : State} (on : s.powered = true) (taken : exec .powerOn s = .next t) : t = s := by
  cases taken
  exact if_pos on

/-- What each move, power and the idle millisecond keep, whatever commands wait, every step keeps. -/
theorem kept_of_step {I : State → Prop} (queue : ∀ s cs, I s → I { s with pending := cs }) (clock : ∀ s, I s → I (idle s))
    (on : ∀ s, I s → I (powerOnState (loadedTable s.store.nv) s)) (off : ∀ s, I s → I (unpowered s))
    (each : ∀ c s t, Act c s t → I s → I t) (s t : State) (start : I s) (stepped : step s = .next t) : I t := by
  unfold step at stepped
  split at stepped
  · cases stepped
    exact clock s start
  · rename_i c rest _
    have start := queue s rest start
    by_cases power : c = .powerOn
    · subst power
      cases powered : s.powered with
      | true => exact exec_powerOn_of_powered (s := { s with pending := rest }) powered stepped ▸ start
      | false => exact kept_of_acts (each none) (acts_powerOn (s := { s with pending := rest }) powered stepped) (on _ start)
    by_cases loss : c = .powerLoss
    · subst loss
      cases stepped
      split
      · exact off _ start
      · exact start
    · exact kept_of_acts (each (some c)) (acts_exec power loss stepped) start

end Sys2Proof.Machine
end

section
/-! The invariants of the ports, the transmit records and the log (sections 5.1 to 5.4, 8.2, 9.3, 9.5 and 11.8). -/

namespace Sys2Proof.Machine

variable {c : Option Instr}

/-! ## The parts that a move leaves -/

theorem Quiet.moved {s t : State} (quiet : Quiet s t) : Moved [.tx, .freq, .advisory, .links, .inbox] s t := by
  cases quiet with
  | send p f room => exact (moved_sendFrame p f s).mono (by decide)
  | noticeLost p b =>
    refine ⟨fun x kept => by cases x <;> first | rfl | simp at kept, List.prefix_rfl, fun q => ?_⟩
    rw [link_mapLink]
    split
    · rename_i same
      subst same
      exact ⟨rfl, rfl, rfl, rfl, rfl, rfl, rfl, rfl, rfl, List.prefix_rfl, .inl ⟨rfl, rfl⟩⟩
    · exact .refl _
  | raise o => exact (moved_raise o s).mono (by decide)
  | advisory xs => exact .of_eq (fun x kept => by cases x <;> first | rfl | simp at kept) rfl rfl
  | reason p r => exact (moved_mapTx s p _).mono (by decide)
  | sent p => exact (moved_mapFreq s p _).mono (by decide)
  | withdraw p cause => exact (moved_withdrawGrant p cause s).mono (by decide)

theorem Quieted.moved {s t : State} (quiet : Quieted s t) : Moved [.tx, .freq, .advisory, .links, .inbox] s t := by
  induction quiet with
  | refl => exact .refl _ _
  | tail _ move ih => exact ih.trans move.moved

theorem moved_keyDown (p : Position) (s : State) : Moved [.tx, .waiting] s (keyDown p s) := by
  unfold keyDown
  cases (s.txOf p).state with
  | idle => exact .of_eq (fun x kept => by cases x <;> first | rfl | simp at kept) rfl rfl
  | _ => exact .of_eq (fun x kept => by cases x <;> first | rfl | simp at kept) rfl rfl

theorem moved_keyUp (p : Position) (s : State) : Moved [.tx, .waiting, .inbox] s (keyUp p s) := by
  unfold keyUp
  dsimp only
  split
  · exact .of_eq (fun x kept => by cases x <;> first | rfl | simp at kept) rfl rfl
  · split
    · exact .of_eq (fun x kept => by cases x <;> first | rfl | simp at kept) rfl rfl
    · exact ((moved_mapTx s p _).mono (by decide)).trans ((moved_leaveSlot p .idle _).mono (by decide))
  · exact .of_eq (fun x kept => by cases x <;> first | rfl | simp at kept) rfl rfl
  · exact .of_eq (fun x kept => by cases x <;> first | rfl | simp at kept) rfl rfl

theorem moved_stopForEntry (s : State) : Moved [.chain] s (stopForEntry s) := by
  unfold stopForEntry
  dsimp only
  split
  · split
    · exact moved_mapChain _ _
    · exact (moved_mapChain s _).trans (moved_endOperation _ _)
  · exact moved_mapChain _ _

theorem moved_clearWaiting (s : State) : Moved [.tx, .waiting] s (clearWaiting s) :=
  .of_eq (fun x kept => by cases x <;> first | rfl | simp at kept) rfl rfl

/-! ## The queue of commands (O3) -/

theorem exec_completes (c : Instr) (s : State) : ∃ t, exec c s = .next t := by
  cases c <;> exact ⟨_, rfl⟩

theorem pending_act {s t : State} (move : Act c s t) : t.pending = s.pending := by
  cases move with
  | quiet quiet => exact quiet.moved.pending (by decide)
  | leave p _ => exact (moved_leaveSlot p .idle s).pending (by decide)
  | keyDown p _ _ => exact (moved_keyDown p s).pending (by decide)
  | keyUp p _ => exact (moved_keyUp p s).pending (by decide)
  | report p r quiet =>
    have kept := quiet.moved.pending (by decide)
    split
    · exact kept
    · exact ((moved_withdrawGrant ..).pending (by decide)).trans kept
  | restart v quiet _ => exact quiet.moved.pending (by decide)
  | enter _ quiet _ => exact ((moved_stopForEntry _).pending (by decide)).trans (quiet.moved.pending (by decide))
  | _ => rfl

theorem pending_powerOn {s t : State} (taken : exec .powerOn s = .next t) : t.pending = s.pending := by
  cases taken
  split
  · rfl
  · rw [(moved_startChange ..).pending (by decide)]
    unfold raiseLoadFault
    split <;> rfl

/-- Settles O3. -/
theorem everyCommandCompletes : Obligations.EveryCommandCompletes := by
  intro c s
  obtain ⟨t, taken⟩ := exec_completes c s
  refine ⟨t, taken, ?_⟩
  by_cases on : c = .powerOn
  · subst on
    exact pending_powerOn taken
  by_cases off : c = .powerLoss
  · subst off
    cases taken
    split <;> rfl
  · exact kept_of_acts (I := fun t => t.pending = s.pending) (fun _ _ move same => (pending_act move).trans same)
      (acts_exec on off taken) rfl

/-! ## The ports (O5) -/

/-- What queued frames, a notice-lost flag and the ports' own moves keep of every port, each move keeps. -/
theorem links_act {P : Link → Prop}
    (send : ∀ x f, x.queue.length < Config.queueFrames → P x → P { x with queue := x.queue ++ [f], sending := true })
    (lost : ∀ x b, P x → P { x with noticeLost := b }) (ports : ∀ x y, PortMoved x y → P x → P y) {s t : State} (move : Act c s t)
    (start : ∀ p, P (s.link p)) : ∀ p, P (t.link p) := by
  have same {u v : State} (links : v.links = u.links) (kept : ∀ p, P (u.link p)) : ∀ p, P (v.link p) := fun p => by
    rw [State.link, links]
    exact kept p
  have one {u v : State} (move : Quiet u v) (kept : ∀ p, P (u.link p)) : ∀ p, P (v.link p) := by
    cases move with
    | send p f room =>
      intro q
      rw [link_sendFrame]
      split
      · rename_i eq
        subst eq
        exact send _ f room (kept _)
      · exact kept q
    | noticeLost p b =>
      intro q
      rw [link_mapLink]
      split
      · exact lost _ b (kept p)
      · exact kept q
    | withdraw p cause => exact same ((moved_withdrawGrant p cause u).same .links (by decide)) kept
    | _ => exact kept
  have many {u v : State} (moves : Quieted u v) (kept : ∀ p, P (u.link p)) : ∀ p, P (v.link p) := by
    induction moves with
    | refl => exact kept
    | tail _ move ih => exact one move ih
  cases move with
  | quiet move => exact one move start
  | leave p _ => exact same ((moved_leaveSlot p .idle s).same .links (by decide)) start
  | keyDown p _ _ => exact same ((moved_keyDown p s).same .links (by decide)) start
  | keyUp p _ => exact same ((moved_keyUp p s).same .links (by decide)) start
  | report p r moves =>
    have kept := many moves start
    split
    · exact kept
    · exact same ((moved_withdrawGrant ..).same .links (by decide)) kept
  | restart v moves _ => exact same (moved_clearWaiting _ |>.same .links (by decide)) (many moves start)
  | enter _ moves _ => exact same ((moved_stopForEntry _).same .links (by decide)) (many moves start)
  | ports v moved => exact fun p => ports _ _ (moved p) (start p)
  | _ => exact start

theorem inStep_clear (d : Nat × Nat) (n : Nat) : Link.InStep { clearLink d with looks := n } :=
  ⟨by simp [clearLink], le_rfl, by simp [clearLink]⟩

theorem links_powerOnState (T : Table) (s : State) (p : Position) :
    ∃ d, (powerOnState T s).link p = { clearLink d with looks := (s.link p).looks } := ⟨_, get_mapFin _ _ p⟩

theorem links_unpowered (s : State) (p : Position) : (unpowered s).link p = { clearLink (26, 5) with looks := (s.link p).looks } :=
  get_mapFin _ _ p

/-- What every port keeps at each move and holds at power-on values, every step keeps. -/
theorem links_step {P : Link → Prop}
    (send : ∀ x f, x.queue.length < Config.queueFrames → P x → P { x with queue := x.queue ++ [f], sending := true })
    (lost : ∀ x b, P x → P { x with noticeLost := b }) (ports : ∀ x y, PortMoved x y → P x → P y)
    (clear : ∀ d n, P { clearLink d with looks := n }) (s t : State) (start : ∀ p, P (s.link p)) (stepped : step s = .next t) :
    ∀ p, P (t.link p) := by
  refine kept_of_step (I := fun s => ∀ p, P (s.link p)) (fun s cs kept => kept) (fun s kept => ?_) (fun s _ p => ?_)
    (fun s _ p => ?_) (fun c s t move kept => links_act send lost ports move kept) s t start stepped
  · unfold idle
    split <;> exact kept
  · obtain ⟨d, eq⟩ := links_powerOnState (loadedTable s.store.nv) s p
    rw [eq]
    exact clear d _
  · rw [links_unpowered]
    exact clear _ _

theorem queuesBounded_step (s t : State) (start : s.QueuesBounded) (stepped : step s = .next t) : t.QueuesBounded := by
  refine links_step (P := fun x => x.queue.length ≤ Config.queueFrames ∧ x.slots.length ≤ Config.receiveSlots)
    (fun x f room bound => ⟨?_, bound.2⟩) (fun x b bound => bound)
    (fun x y moved bound => ⟨moved.queue.trans bound.1, moved.slots bound.2⟩) (fun d n => ⟨Nat.zero_le _, Nat.zero_le _⟩) s t start stepped
  simpa using room

theorem portsInStep_step (s t : State) (start : s.PortsInStep) (stepped : step s = .next t) : t.PortsInStep := by
  refine links_step (P := Link.InStep) (fun x f room step => ⟨?_, ?_, ?_⟩) (fun x b step => ⟨step.sends, step.counted, step.prompt⟩)
    (fun x y moved step => moved.step step) inStep_clear s t start stepped
  · simp
  · exact step.counted.trans (by simp)
  · simp

/-! ## The counters (O5) -/

theorem countersBounded_act {s t : State} (move : Act c s t) (start : s.CountersBounded) : t.CountersBounded := by
  have same {u v : State} (log : v.log = u.log) (kept : u.CountersBounded) : v.CountersBounded := fun k => by
    rw [log]
    exact kept k
  cases move with
  | quiet quiet => exact same (quiet.moved.log (by decide)) start
  | leave p _ => exact same ((moved_leaveSlot p .idle s).log (by decide)) start
  | keyDown p _ _ => exact same ((moved_keyDown p s).log (by decide)) start
  | keyUp p _ => exact same ((moved_keyUp p s).log (by decide)) start
  | report p r quiet =>
    have kept := same (quiet.moved.log (by decide)) start
    split
    · exact kept
    · exact same ((moved_withdrawGrant ..).log (by decide)) kept
  | restart v quiet _ => exact same (quiet.moved.log (by decide)) start
  | enter _ quiet _ =>
    exact same ((moved_stopForEntry _).log (by decide)) (same (quiet.moved.log (by decide)) start)
  | log i _ _ l _ counters => exact counters start
  | _ => exact start

theorem zeroCounters (k : Fin 11) : clearLog.counters.get k ≤ Config.counterTop := by
  simp [clearLog]

theorem countersBounded_step (s t : State) (start : s.CountersBounded) (stepped : step s = .next t) : t.CountersBounded := by
  refine kept_of_step (I := State.CountersBounded) (fun s cs kept => kept) (fun s kept => ?_)
    (fun s _ k => zeroCounters k) (fun s _ k => zeroCounters k) (fun c s t move kept => countersBounded_act move kept) s t start stepped
  · unfold idle
    split <;> exact kept

end Sys2Proof.Machine
end

section
/-! No exit result waits at the head of what waits for the Fault Log (section 8.6, assumption 4). -/

namespace Sys2Proof.Machine

variable {c : Option Instr}

/-- What waits for the Fault Log has grown by occurrences alone. -/
def Grows (s t : State) : Prop := ∃ os : List Occurrence, t.inbox = s.inbox ++ os.map .occurred

theorem Grows.refl (s : State) : Grows s s := ⟨[], by simp⟩

theorem Grows.trans {s t u : State} (first : Grows s t) (second : Grows t u) : Grows s u := by
  obtain ⟨os, eq⟩ := first
  obtain ⟨os', eq'⟩ := second
  exact ⟨os ++ os', by rw [eq', eq, List.map_append, List.append_assoc]⟩

theorem grows_of_inbox {s t : State} (same : t.inbox = s.inbox) : Grows s t := ⟨[], by simp [same]⟩

theorem grows_raise (o : Occurrence) (s : State) : Grows s (raise o s) := ⟨[o], rfl⟩

theorem grows_leaveSlot (p : Position) (next : TxState) (s : State) : Grows s (leaveSlot p next s) := by
  rw [leaveSlot_eq]
  split
  · exact grows_raise _ _
  · exact grows_of_inbox rfl

theorem grows_withdrawGrant (p : Position) (cause : RevocationCause) (s : State) : Grows s (withdrawGrant p cause s) := by
  unfold withdrawGrant
  dsimp only
  split
  · exact (grows_of_inbox rfl).trans (grows_leaveSlot _ _ _)
  · exact (grows_of_inbox rfl).trans (grows_leaveSlot _ _ _)
  · exact .refl _

theorem Quieted.grows {s t : State} (quiet : Quieted s t) : Grows s t := by
  induction quiet with
  | refl => exact .refl _
  | tail _ move ih =>
    refine ih.trans ?_
    cases move with
    | raise o => exact grows_raise o _
    | withdraw p cause => exact grows_withdrawGrant p cause _
    | _ => exact grows_of_inbox rfl

theorem grows_keyUp (p : Position) (s : State) : Grows s (keyUp p s) := by
  unfold keyUp
  dsimp only
  split
  · exact grows_of_inbox rfl
  · split
    · exact grows_of_inbox rfl
    · exact (grows_of_inbox rfl).trans (grows_leaveSlot _ _ _)
  · exact grows_of_inbox rfl
  · exact grows_of_inbox rfl

/-- A move that takes nothing from the inbox lets it grow by occurrences alone. -/
theorem grows_act {s t : State} (keeps : ∀ i, c = some i → takesEvents i = false) (move : Act c s t) : Grows s t := by
  cases move with
  | quiet quiet => exact Quieted.grows (.single quiet)
  | leave p _ => exact grows_leaveSlot p .idle s
  | keyDown p _ _ => exact grows_of_inbox ((moved_keyDown p s).same .inbox (by decide))
  | keyUp p _ => exact grows_keyUp p s
  | report p r quiet =>
    have grown : Grows s _ := (grows_of_inbox (t := s.mapFreq p fun _ => r) rfl).trans (Quieted.grows quiet)
    split
    · exact grown
    · exact grown.trans (grows_withdrawGrant _ _ _)
  | restart v quiet _ =>
    have grown := (grows_of_inbox (s := s) (t := { s with freq := v }) rfl).trans (Quieted.grows quiet)
    exact grown.trans (grows_of_inbox rfl)
  | take i command takes => rw [keeps i command] at takes; cases takes
  | enter command => exact absurd (keeps _ command) (by decide)
  | leaveSafe i command takes => rw [keeps i command] at takes; cases takes
  | _ => exact grows_of_inbox rfl

theorem grows_acts {s t : State} (keeps : ∀ i, c = some i → takesEvents i = false) (acts : Acts c s t) : Grows s t := by
  induction acts with
  | refl => exact .refl _
  | tail _ move ih => exact ih.trans (grows_act keeps move)

theorem grows_of_none {s t : State} (acts : Acts none s t) : Grows s t := grows_acts (fun i same => by cases same) acts

/-- What may end start-up, as at a VERIFY's end, takes nothing from the inbox. -/
theorem grows_of_end {s t : State} (acts : Acts (some .verifyEnd) s t) : Grows s t := grows_acts (fun i same => by cases same; rfl) acts

theorem resultsTaken_of_grows {s t : State} (grows : Grows s t) (start : s.ResultsTaken) : t.ResultsTaken := by
  obtain ⟨os, eq⟩ := grows
  intro passed rest head
  rw [eq] at head
  cases inbox : s.inbox with
  | nil =>
    rw [inbox] at head
    cases os with
    | nil => cases head
    | cons o os => cases head
  | cons x xs =>
    rw [inbox] at head
    exact start passed xs (inbox.trans (by rw [(List.cons.inj head).1]))

/-! ## Taking exit results -/

/-- An exit result. -/
def LogEvent.isResult : LogEvent → Bool
  | .exitResult _ => true
  | .occurred _ => false

theorem countResults_of_grows {s t : State} (grows : Grows s t) :
    t.inbox.countP LogEvent.isResult = s.inbox.countP LogEvent.isResult := by
  obtain ⟨os, eq⟩ := grows
  have none : (os.map LogEvent.occurred).countP LogEvent.isResult = 0 := by
    simp [List.countP_eq_zero, LogEvent.isResult]
  rw [eq, List.countP_append, none, Nat.add_zero]

theorem grows_leaveSafe (s : State) : Grows s (leaveSafe s) :=
  (grows_of_inbox (t := s.mapLog fun l => { l with safe := false }) rfl).trans
    (grows_of_none (((quieted_notifyAll _ _).acts.trans (acts_allocEvent worked_allocExit (deals_exit (fun _ _ => trivial) _))).trans (acts_arbiter _)))

theorem grows_takeExitResult (passed : Bool) (s : State) : Grows s (takeExitResult passed s) := by
  have ended : Grows s (s.mapLog fun l => { l with exitPending := false }) := grows_of_inbox rfl
  unfold takeExitResult
  dsimp only
  split
  · split
    · exact grows_of_inbox rfl
    · exact ended.trans (grows_leaveSafe _)
  · exact ended

theorem resultsTaken_of_count {s : State} (none : s.inbox.countP LogEvent.isResult = 0) : s.ResultsTaken := by
  intro passed rest head
  rw [head] at none
  simp [LogEvent.isResult] at none

theorem resultsTaken_drainResults : ∀ (n : Nat) (s : State), s.inbox.countP LogEvent.isResult ≤ n → (drainResults n s).ResultsTaken
  | 0, s, few => resultsTaken_of_count (Nat.le_zero.1 few)
  | n + 1, s, few => by
    unfold drainResults
    split
    · rename_i passed rest inbox
      refine resultsTaken_drainResults n _ ?_
      rw [countResults_of_grows (grows_takeExitResult passed _)]
      rw [inbox] at few
      rw [List.countP_cons_of_pos rfl] at few
      exact Nat.le_of_succ_le_succ few
    · rename_i headed
      intro passed rest inbox
      exact headed passed rest inbox

theorem resultsTaken_drainExit (s : State) : (drainExit s).ResultsTaken := resultsTaken_drainResults _ s List.countP_le_length

theorem resultsTaken_closeStep {b s : State} (taken : s.ResultsTaken) : (closeStep b s).ResultsTaken :=
  resultsTaken_of_grows (grows_of_none (acts_closeStep b s)) taken

/-! ## The step -/

theorem resultsTaken_whole {body : State → State} {s t : State} (start : s.ResultsTaken) (taken : (body s).ResultsTaken)
    (stepped : wholeStep body s = .next t) : t.ResultsTaken := by
  cases stepped
  split
  · exact resultsTaken_closeStep taken
  · exact start

theorem resultsTaken_occurrence {s t : State} (start : s.ResultsTaken) (taken : execOccurrence s = .next t) :
    t.ResultsTaken := by
  unfold execOccurrence at taken
  refine resultsTaken_whole start ?_ taken
  split
  · exact resultsTaken_drainExit _
  · exact start

theorem resultsTaken_resyncPass {s t : State} (start : s.ResultsTaken) (taken : execResyncPass s = .next t) :
    t.ResultsTaken := by
  unfold execResyncPass at taken
  refine resultsTaken_whole start ?_ taken
  have ended := resultsTaken_of_grows (grows_of_none ((acts_endOperation (some s.chain.latched) s).trans (acts_endWithoutLatch _))) start
  split
  · unfold afterResync
    split
    · exact resultsTaken_of_grows (grows_of_end (acts_afterRetry rfl _)) ended
    · exact resultsTaken_drainExit _
    · exact resultsTaken_of_grows (grows_of_none (acts_closeAttempt _)) ended
  · exact start

theorem resultsTaken_takeMismatch (o : Operation) (bit : Nat) {s : State} (start : s.ResultsTaken) :
    (takeMismatch o bit s).ResultsTaken := by
  have ended := resultsTaken_of_grows (grows_of_none (((acts_endOperation none s).trans
    (quieted_raise (chainMismatch bit o.kind (o.purpose ≠ .exit && s.chain.attempt.isSome)) _).acts).trans (acts_endWithoutLatch _))) start
  unfold takeMismatch
  dsimp only
  unfold afterMismatch
  split
  · exact resultsTaken_drainExit _
  split
  · exact resultsTaken_of_grows (grows_of_end (acts_escalate rfl _)) ended
  · refine resultsTaken_of_grows (grows_of_end (acts_firstMismatch rfl _ ?_)) ended
    rw [op_endWithoutLatch]
    exact op_endOperation none s

theorem resultsTaken_mismatch {bit : Nat} {s t : State} (start : s.ResultsTaken) (taken : execMismatch bit s = .next t) :
    t.ResultsTaken := by
  unfold execMismatch at taken
  refine resultsTaken_whole start ?_ taken
  split
  · split
    · exact resultsTaken_takeMismatch _ _ start
    · exact start
  · exact start

theorem resultsTaken_powerOn {s t : State} (start : s.ResultsTaken) (taken : exec .powerOn s = .next t) : t.ResultsTaken := by
  cases on : s.powered with
  | true => exact exec_powerOn_of_powered on taken ▸ start
  | false => exact resultsTaken_of_grows (grows_of_none (acts_powerOn on taken)) nofun

theorem resultsTaken_exec {c : Instr} {s t : State} (start : s.ResultsTaken) (taken : exec c s = .next t) : t.ResultsTaken := by
  by_cases on : c = .powerOn
  · subst on
    exact resultsTaken_powerOn start taken
  by_cases off : c = .powerLoss
  · subst off
    cases taken
    split
    · exact nofun
    · exact start
  cases takes : takesEvents c with
  | false => exact resultsTaken_of_grows (grows_acts (fun i same => Option.some.inj same ▸ takes) (acts_exec on off taken)) start
  | true =>
    cases c with
    | occurrence => exact resultsTaken_occurrence start taken
    | resyncPass => exact resultsTaken_resyncPass start taken
    | mismatch bit => exact resultsTaken_mismatch start taken
    | _ => cases takes

theorem resultsTaken_step (s t : State) (start : s.ResultsTaken) (stepped : step s = .next t) : t.ResultsTaken := by
  unfold step at stepped
  split at stepped
  · cases stepped
    unfold idle
    split <;> exact start
  · rename_i rest _
    exact resultsTaken_exec (s := { s with pending := rest }) start stepped

/-- Settles O5: each of the four invariants is kept by every move, or falls under the taking of exit results. -/
theorem boundsKept : Obligations.BoundsKept :=
  ⟨queuesBounded_step, countersBounded_step, resultsTaken_step, portsInStep_step⟩

end Sys2Proof.Machine
end

section
/-! Who is on the air, and the transmit records (sections 5.1 to 5.4). -/

namespace Sys2Proof.Machine

variable {c : Option Instr}

/-! ## Who goes on the air -/

theorem onAir_of_sameTx {s t : State} (same : t.tx = s.tx) (p : Position) : t.onAir p = s.onAir p := by
  rw [State.onAir, State.txOf, same]
  rfl

theorem onAir_leaveSlot {p q : Position} {next : TxState} {s : State} (off : next.onAir = false)
    (on : (leaveSlot p next s).onAir q = true) : s.onAir q = true := by
  rw [State.onAir, State.txOf, tx_leaveSlot, get_put] at on
  split at on
  · simp [TxRecord.leave, off] at on
  · exact on

theorem onAir_put {s t : State} {p q : Position} {x : TxRecord} (tx : t.tx = put s.tx p x) (off : x.state.onAir = true → s.onAir p = true)
    (on : t.onAir q = true) : s.onAir q = true := by
  rw [State.onAir, State.txOf, tx, get_put] at on
  split at on
  · rename_i same
    rw [same]
    exact off on
  · exact on

/-- The state that a key down leaves a record in (R95). -/
def TxState.keyedDown : TxState → TxState
  | .idle => .waiting
  | .hang => .granted
  | x => x

/-- A transmit record at a key down (R95). -/
def TxRecord.keyedDown (x : TxRecord) : TxRecord :=
  { x with
    ptt := true
    pttTimer := none
    state := x.state.keyedDown
    reason := if x.state = .idle then none else x.reason
    hangTimer := if x.state = .hang then none else x.hangTimer }

/-- A transmit record at a key up, where `hangs` says that hang applies (R96). -/
def TxRecord.keyedUp (x : TxRecord) (hangs : Bool) (q : Policy) : TxRecord :=
  let y := { x with ptt := false, pttTimer := none }
  match x.state with
  | .waiting => { y with state := .idle }
  | .granted => if hangs then { y with state := .hang, hangTimer := some q.hangMs } else y.leave .idle q
  | .revoked => { y with state := .idle }
  | _ => y

theorem tx_keyDown (p : Position) (s : State) : (keyDown p s).tx = put s.tx p (s.txOf p).keyedDown := by
  unfold keyDown
  cases found : (s.txOf p).state <;> simp [joinWaiting, mapTx_mapTx, found, TxRecord.keyedDown, TxState.keyedDown]

theorem tx_keyUp (p : Position) (s : State) :
    (keyUp p s).tx = put s.tx p ((s.txOf p).keyedUp (s.hangApplies p) s.policy) := by
  have applies : (s.mapTx p fun x => { x with ptt := false, pttTimer := none }).hangApplies p = s.hangApplies p := by
    simp only [State.hangApplies, txOf_mapTx_self]
    rfl
  unfold keyUp TxRecord.keyedUp
  dsimp only
  rw [applies]
  cases found : (s.txOf p).state with
  | granted =>
    dsimp only
    split
    · simp only [mapTx_mapTx, mapTx_tx, found]
      rfl
    · rw [tx_leaveSlot, txOf_mapTx_self, mapTx_tx, put_put]
      rfl
  | _ => simp [mapTx_mapTx, found]

theorem onAir_keyDown {p q : Position} {s : State} (on : (keyDown p s).onAir q = true) : s.onAir q = true := by
  refine onAir_put (tx_keyDown p s) (fun on => ?_) on
  rw [State.onAir]
  unfold TxRecord.keyedDown at on
  cases found : (s.txOf p).state <;> simp_all [TxState.onAir, TxState.keyedDown]

theorem onAir_keyUp {p q : Position} {s : State} (on : (keyUp p s).onAir q = true) : s.onAir q = true := by
  refine onAir_put (tx_keyUp p s) (fun on => ?_) on
  rw [State.onAir]
  unfold TxRecord.keyedUp at on
  cases found : (s.txOf p).state <;> simp_all [TxState.onAir]

theorem onAir_clearWaiting (s : State) (q : Position) : (clearWaiting s).onAir q = s.onAir q := by
  rw [State.onAir, State.txOf, clearWaiting, get_mapFin, State.onAir, State.txOf]
  cases (s.tx.get q).state <;> rfl

/-- Only a grant puts a position on the air. -/
theorem onAir_act {s t : State} (move : Act c s t) :
    (∃ p, p ∈ s.waiting ∧ judge s p = none ∧ t = putOnAir p s) ∨ ∀ q, t.onAir q = true → s.onAir q = true := by
  have same {u v : State} (tx : v.tx = u.tx) (q : Position) (on : v.onAir q = true) : u.onAir q = true :=
    (onAir_of_sameTx tx q).symm.trans on
  cases move with
  | quiet quiet => exact .inr (Quieted.onAir (.single quiet))
  | grant p waits eligible => exact .inl ⟨p, waits, eligible, rfl⟩
  | leave p _ => exact .inr fun q => onAir_leaveSlot rfl
  | skip p _ => exact .inr fun q => onAir_put rfl id
  | keyDown p _ _ => exact .inr fun q => onAir_keyDown
  | keyUp p _ => exact .inr fun q => onAir_keyUp
  | tail p => exact .inr fun q => onAir_put rfl id
  | levels p x state => exact .inr fun q => onAir_put rfl fun on => by rwa [state] at on
  | report p r quiet =>
    refine .inr fun q on => ?_
    split at on
    · exact Quieted.onAir quiet q on
    · exact Quieted.onAir quiet q (Quieted.onAir (quieted_withdrawGrant p .band _) q on)
  | restart v quiet off => exact .inr fun q on => absurd ((onAir_clearWaiting _ q).symm.trans on) (by simp [off q])
  | latch _ _ a _ => exact .inr (same ((moved_latched s a).tx (by decide)))
  | enter _ quiet _ =>
    exact .inr fun q on => Quieted.onAir quiet q (same ((moved_stopForEntry _).tx (by decide)) q on)
  | _ => exact .inr fun q on => on

theorem onAir_putOnAir (p q : Position) (s : State) : (putOnAir p s).onAir q = (s.onAir q || decide (q = p)) := by
  have granted : (putOnAir p s).tx = put s.tx p { s.txOf p with state := .granted, tailTimer := none, skipHang := false } := rfl
  rw [State.onAir, State.txOf, granted, get_put]
  split
  · rename_i same
    simp [same, TxState.onAir]
  · rename_i other
    simp [other, State.onAir, State.txOf]

/-! ## The waiting set (O16) -/

theorem waiting_keyDown (p : Position) (s : State) :
    (keyDown p s).waiting = if (s.txOf p).state = .idle then s.waiting ++ [p] else s.waiting := by
  unfold keyDown
  cases found : (s.txOf p).state <;> simp [joinWaiting]

theorem waiting_keyUp (p : Position) (s : State) :
    (keyUp p s).waiting = if (s.txOf p).state = .waiting then s.waiting.filter fun q => q ≠ p else s.waiting := by
  unfold keyUp
  dsimp only
  cases found : (s.txOf p).state <;> simp only [mapTx_waiting, reduceCtorEq, if_false, if_true]
  split
  · rfl
  · rw [(moved_leaveSlot ..).waiting (by decide)]
    rfl

/-- Only a key down makes a position wait. -/
theorem waiting_act {s t : State} (move : Act c s t) (q : Position) (waits : q ∈ t.waiting) :
    q ∈ s.waiting ∨ c = some (.pttOn q) := by
  have same {u v : State} (eq : v.waiting = u.waiting) (waits : q ∈ v.waiting) : q ∈ u.waiting := eq ▸ waits
  cases move with
  | quiet quiet => exact .inl (same (quiet.moved.waiting (by decide)) waits)
  | grant p _ _ => exact .inl (List.mem_filter.1 waits).1
  | leave p _ => exact .inl (same ((moved_leaveSlot p .idle s).waiting (by decide)) waits)
  | keyDown p command _ =>
    rw [waiting_keyDown] at waits
    split at waits
    · obtain waits | here := List.mem_append.1 waits
      · exact .inl waits
      · exact .inr (List.mem_singleton.1 here ▸ command)
    · exact .inl waits
  | keyUp p _ =>
    rw [waiting_keyUp] at waits
    split at waits
    · exact .inl (List.mem_filter.1 waits).1
    · exact .inl waits
  | report p r quiet =>
    have kept := quiet.moved.waiting (by decide)
    split at waits
    · exact .inl (same kept waits)
    · exact .inl (same kept (same ((moved_withdrawGrant p .band _).waiting (by decide)) waits))
  | restart v quiet off => cases waits
  | latch _ _ a _ => exact .inl (same ((moved_latched s a).waiting (by decide)) waits)
  | enter _ quiet _ =>
    exact .inl (same (quiet.moved.waiting (by decide)) (same ((moved_stopForEntry _).waiting (by decide)) waits))
  | _ => exact .inl waits

/-- Who is on the air has been on the air, or has waited, or comes by its own key down; and who waits has waited, or comes by it. -/
theorem air_acts {s t : State} (acts : Acts c s t) :
    (∀ p, t.onAir p = true → s.onAir p = true ∨ p ∈ s.waiting ∨ c = some (.pttOn p)) ∧
      ∀ p, p ∈ t.waiting → p ∈ s.waiting ∨ c = some (.pttOn p) := by
  induction acts with
  | refl => exact ⟨fun p on => .inl on, fun p waits => .inl waits⟩
  | tail _ move ih =>
    obtain ⟨air, waiting⟩ := ih
    refine ⟨fun p on => ?_, fun p waits => ?_⟩
    · obtain ⟨q, waits, -, rfl⟩ | kept := onAir_act move
      · by_cases same : p = q
        · exact .inr (waiting p (same ▸ waits))
        · rw [onAir_putOnAir] at on
          exact air p (by simpa [same] using on)
      · exact air p (kept p on)
    · exact (waiting_act move p waits).elim (waiting p) .inr

theorem off_powerOnState (T : Table) (s : State) (p : Position) : (powerOnState T s).onAir p = false := by
  have tx : (powerOnState T s).tx = txAtPowerOn T.policy s.tx := rfl
  rw [State.onAir, State.txOf, tx, txAtPowerOn, get_mapFin]
  rfl

theorem off_powerOn {s t : State} (off : s.powered = false) (taken : exec .powerOn s = .next t) (p : Position) : t.onAir p = false := by
  cases on : t.onAir p with
  | false => rfl
  | true =>
    obtain was | waited | own := (air_acts (c := none) (acts_powerOn off taken)).1 p on
    · rw [off_powerOnState] at was
      cases was
    · cases waited
    · cases own

theorem off_unpowered (s : State) (p : Position) : (unpowered s).onAir p = false := by
  have tx : (unpowered s).tx = txAtPowerLoss s.tx := rfl
  rw [State.onAir, State.txOf, tx, txAtPowerLoss, get_mapFin]
  rfl

/-- Settles O16. -/
theorem onlyWaitersGoOnAir : Obligations.OnlyWaitersGoOnAir := by
  intro c s t p taken off on
  by_cases power : c = .powerOn
  · subst power
    cases powered : s.powered with
    | true =>
      rw [exec_powerOn_of_powered powered taken, off] at on
      cases on
    | false =>
      rw [off_powerOn powered taken] at on
      cases on
  by_cases loss : c = .powerLoss
  · subst loss
    cases taken
    split at on
    · rw [off_unpowered] at on
      cases on
    · rw [off] at on
      cases on
  · obtain was | waited | own := (air_acts (acts_exec power loss taken)).1 p on
    · rw [off] at was
      cases was
    · exact .inl waited
    · exact .inr (Option.some.inj own)

/-! ## Safe state (O6) -/

theorem safe_act {s t : State} (move : Act c s t) (safe : t.safe = true) : s.safe = true ∨ ∀ p, t.onAir p = false := by
  have same {u v : State} (log : v.log = u.log) (safe : v.safe = true) : u.safe = true := by
    rw [State.safe, log] at safe
    exact safe
  cases move with
  | quiet quiet => exact .inl (same (quiet.moved.log (by decide)) safe)
  | leave p _ => exact .inl (same ((moved_leaveSlot p .idle s).log (by decide)) safe)
  | keyDown p _ _ => exact .inl (same ((moved_keyDown p s).log (by decide)) safe)
  | keyUp p _ => exact .inl (same ((moved_keyUp p s).log (by decide)) safe)
  | report p r quiet =>
    have kept := quiet.moved.log (by decide)
    split at safe
    · exact .inl (same kept safe)
    · exact .inl (same kept (same ((moved_withdrawGrant p .band _).log (by decide)) safe))
  | restart v quiet off => exact .inr fun p => (onAir_clearWaiting _ p).trans (off p)
  | latch _ _ a _ => exact .inl (same ((moved_latched s a).log (by decide)) safe)
  | log i _ _ l kept _ => exact .inl (kept.symm.trans safe)
  | enter _ quiet off => exact .inr fun p => (onAir_of_sameTx ((moved_stopForEntry _).tx (by decide)) p).trans (off p)
  | leaveSafe i _ _ => cases safe
  | _ => exact .inl safe

theorem safeInhibited_iff (s : State) : s.SafeInhibited ↔ (s.safe = true → ∀ p, s.onAir p = false) := by
  simp [State.SafeInhibited, State.inhibit]

theorem safeInhibited_act {s t : State} (move : Act c s t) (start : s.SafeInhibited) : t.SafeInhibited := by
  rw [safeInhibited_iff] at start ⊢
  intro safe p
  obtain was | off := safe_act move safe
  · obtain ⟨q, -, eligible, rfl⟩ | kept := onAir_act move
    · rw [((judge_eq_none_iff s q).1 eligible).1] at was
      cases was
    · cases on : t.onAir p with
      | false => rfl
      | true =>
        have on := kept p on
        rw [start was p] at on
        cases on
  · exact off p

/-- Settles O6: safe state is entered with nobody on the air, and no move of safe state grants. -/
theorem safeInhibitedKept : Obligations.SafeInhibitedKept := by
  refine kept_of_step (I := State.SafeInhibited) (fun s cs kept => kept) (fun s kept => ?_) (fun s _ => ?_)
    (fun s _ => ?_) (fun c s t move kept => safeInhibited_act move kept)
  · unfold idle
    split <;> exact kept
  · exact (safeInhibited_iff _).2 fun _ p => off_powerOnState _ s p
  · exact (safeInhibited_iff _).2 fun _ p => off_unpowered s p

/-! ## At most K transmissions, each on its own band (O7) -/

theorem onAirCount_le_of_imp {s t : State} (kept : ∀ p, t.onAir p = true → s.onAir p = true) : t.onAirCount ≤ s.onAirCount :=
  (List.monotone_filter_right _ kept).length_le

theorem onAirCount_of_off {s : State} (off : ∀ p, s.onAir p = false) : s.onAirCount = 0 := by
  simp [State.onAirCount, off]

theorem length_filter_or_eq_le {α : Type} [DecidableEq α] (f : α → Bool) (a : α) : ∀ (xs : List α), xs.Nodup →
    (xs.filter fun x => f x || decide (x = a)).length ≤ (xs.filter f).length + 1
  | [], _ => by simp
  | x :: xs, once => by
    obtain ⟨fresh, once⟩ := List.nodup_cons.1 once
    by_cases same : x = a
    · subst same
      have rest : (xs.filter fun y => f y || decide (y = x)) = xs.filter f := by
        refine List.filter_congr fun y listed => ?_
        have other : y ≠ x := fun eq => fresh (eq ▸ listed)
        simp [other]
      cases hit : f x <;> simp [hit, rest]
    · have ih := length_filter_or_eq_le f a xs once
      cases hit : f x <;> simp [hit, same] <;> omega

theorem onAirCount_putOnAir (p : Position) (s : State) : (putOnAir p s).onAirCount ≤ s.onAirCount + 1 := by
  unfold State.onAirCount
  rw [List.filter_congr fun q _ => onAir_putOnAir p q s]
  exact length_filter_or_eq_le _ _ _ (by decide)

theorem slots_of_off {s : State} (off : ∀ p, s.onAir p = false) : s.SlotsWithinLimit :=
  ⟨by simp [onAirCount_of_off off], fun p q _ on _ => by simp [off p] at on⟩

theorem slots_of_kept {s t : State} (start : s.SlotsWithinLimit) (kept : ∀ p, t.onAir p = true → s.onAir p = true)
    (bands : ∀ p, t.onAir p = true → (t.freqOf p).band = (s.freqOf p).band) (limit : t.policy = s.policy) : t.SlotsWithinLimit := by
  refine ⟨?_, fun p q other onp onq => ?_⟩
  · rw [limit]
    exact (onAirCount_le_of_imp kept).trans start.1
  · rw [bands p onp, bands q onq]
    exact start.2 p q other (kept p onp) (kept q onq)

theorem Quieted.band {s t : State} (quiet : Quieted s t) (p : Position) : (t.freqOf p).band = (s.freqOf p).band := by
  induction quiet with
  | refl => rfl
  | tail _ move ih =>
    refine Eq.trans ?_ ih
    cases move with
    | sent q =>
      rw [freqOf_mapFreq]
      split
      · rename_i same
        rw [same]
      · rfl
    | withdraw q cause => rw [State.freqOf, (moved_withdrawGrant ..).freq (by decide)]; rfl
    | _ => rfl

theorem policy_quieted {s t : State} (quiet : Quieted s t) : t.policy = s.policy := by
  rw [State.policy, quiet.moved.table (by decide)]
  rfl

/-- A position that is on the air after a move has the band it had before. -/
theorem band_act {s t : State} (move : Act c s t) (q : Position) (on : t.onAir q = true) : (t.freqOf q).band = (s.freqOf q).band := by
  have still {ps : List Part} {u v : State} (moved : Moved ps u v) (freq : Part.freq ∉ ps) : (v.freqOf q).band = (u.freqOf q).band := by
    rw [freqOf_of_moved moved freq]
  cases move with
  | quiet quiet => exact Quieted.band (.single quiet) q
  | leave p _ => exact still (moved_leaveSlot p .idle s) (by decide)
  | keyDown p _ _ => exact still (moved_keyDown p s) (by decide)
  | keyUp p _ => exact still (moved_keyUp p s) (by decide)
  | report p r quiet =>
    by_cases same : r.band = (s.freqOf p).band
    · rw [if_pos same, Quieted.band quiet, freqOf_mapFreq]
      split
      · rename_i eq
        rw [eq, same]
      · rfl
    · rw [if_neg same] at on ⊢
      rw [onAir_withdrawGrant, Bool.and_eq_true, decide_eq_true_eq] at on
      rw [still (moved_withdrawGrant p .band _) (by decide), Quieted.band quiet, freqOf_mapFreq, if_neg on.2]
  | freqs v same =>
    obtain off | same := same
    · exact absurd ((off q).symm.trans on) nofun
    · exact same q
  | restart v quiet off =>
    rw [onAir_clearWaiting, off q] at on
    cases on
  | latch _ _ a _ => exact still (moved_latched s a) (by decide)
  | enter _ quiet off =>
    rw [onAir_of_sameTx ((moved_stopForEntry _).tx (by decide)), off q] at on
    cases on
  | _ => rfl

/-- A move leaves the policy alone, but for a written table within its limit. -/
theorem policy_act {s t : State} (move : Act c s t) :
    t.policy = s.policy ∨ ∃ T : Table, t = { s with table := T } ∧ s.onAirCount ≤ T.policy.k := by
  cases move with
  | quiet quiet => exact .inl (policy_quieted (.single quiet))
  | leave p _ => exact .inl (policy_of_moved (moved_leaveSlot p .idle s) (by decide))
  | keyDown p _ _ => exact .inl (policy_of_moved (moved_keyDown p s) (by decide))
  | keyUp p _ => exact .inl (policy_of_moved (moved_keyUp p s) (by decide))
  | report p r quiet =>
    have kept := (policy_quieted quiet).trans (rfl : _ = s.policy)
    refine .inl ?_
    split
    · exact kept
    · exact (policy_of_moved (moved_withdrawGrant p .band _) (by decide)).trans kept
  | restart v quiet off => exact .inl ((policy_quieted quiet).trans rfl)
  | latch _ _ a _ => exact .inl (policy_of_moved (moved_latched s a) (by decide))
  | table i _ _ u limit _ =>
    obtain limit | same := limit
    · exact .inr ⟨u, rfl, limit⟩
    · exact .inl same
  | enter _ quiet off => exact .inl ((policy_of_moved (moved_stopForEntry _) (by decide)).trans ((policy_quieted quiet).trans rfl))
  | _ => exact .inl rfl

theorem slots_act {s t : State} (move : Act c s t) (start : s.SlotsWithinLimit) : t.SlotsWithinLimit := by
  obtain ⟨p, -, eligible, rfl⟩ | kept := onAir_act move
  · obtain ⟨-, -, -, -, -, few, others, -⟩ := (judge_eq_none_iff s p).1 eligible
    refine ⟨(onAirCount_putOnAir p s).trans few, fun q r other onq onr => ?_⟩
    rw [onAir_putOnAir, Bool.or_eq_true, decide_eq_true_eq] at onq onr
    show (s.freqOf q).band ≠ (s.freqOf r).band
    obtain onq | rfl := onq
    · obtain onr | rfl := onr
      · exact start.2 q r other onq onr
      · exact others q onq
    · obtain onr | rfl := onr
      · exact (others r onr).symm
      · exact absurd rfl other
  · obtain same | ⟨T, rfl, limit⟩ := policy_act move
    · exact slots_of_kept start kept (band_act move) same
    · exact ⟨limit, start.2⟩

/-- Settles O7: a grant is judged against K and the bands on the air, and a report withdraws the grant of a band that changes. -/
theorem slotsWithinLimitKept : Obligations.SlotsWithinLimitKept := by
  refine kept_of_step (I := State.SlotsWithinLimit) (fun s cs kept => kept) (fun s kept => ?_) 
    (fun s _ => slots_of_off (off_powerOnState _ s)) (fun s _ => slots_of_off (off_unpowered s)) (fun c s t move kept => slots_act move kept)
  · unfold idle
    split <;> exact kept

end Sys2Proof.Machine
end

section
/-! The transmit records agree with their states, and the waiting set is exact (sections 5.1 to 5.4, R99). -/

namespace Sys2Proof.Machine

variable {c : Option Instr}

/-- A record put at one position, with the waiting set as the two states call for it, keeps the records coherent and the set exact. -/
theorem coherent_of_put {s t : State} {p : Position} {x : TxRecord} (start : s.TransmitCoherent) (tx : t.tx = put s.tx p x)
    (coherent : x.Coherent) (once : t.waiting.Nodup) (waits : p ∈ t.waiting ↔ x.state = .waiting)
    (others : ∀ q, q ≠ p → (q ∈ t.waiting ↔ q ∈ s.waiting)) : t.TransmitCoherent := by
  obtain ⟨⟨-, exact⟩, records⟩ := start
  have record (q : Position) : t.txOf q = if q = p then x else s.txOf q := by
    rw [State.txOf, tx, get_put]
    rfl
  refine ⟨⟨once, fun q => ?_⟩, fun q => ?_⟩ <;> rw [record]
  · split
    · rename_i same
      rw [same, waits]
    · rename_i other
      rw [others q other, exact q]
  · split
    · exact coherent
    · exact records q

/-- A record whose state neither leaves nor joins WAITING keeps the waiting set exact. -/
theorem coherent_of_still {s t : State} {p : Position} {x : TxRecord} (start : s.TransmitCoherent) (tx : t.tx = put s.tx p x)
    (coherent : x.Coherent) (waiting : t.waiting = s.waiting) (still : x.state = .waiting ↔ (s.txOf p).state = .waiting) :
    t.TransmitCoherent :=
  coherent_of_put start tx coherent (waiting ▸ start.1.1) (by rw [waiting, start.1.2 p, still]) (fun q _ => by rw [waiting])

/-- Records and waiting set as they were. -/
theorem coherent_of_same {s t : State} (start : s.TransmitCoherent) (tx : t.tx = s.tx) (waiting : t.waiting = s.waiting) :
    t.TransmitCoherent := by
  unfold State.TransmitCoherent State.WaitingSetExact State.txOf at *
  rw [tx, waiting]
  exact start

theorem coherent_of_moved {ps : List Part} {s t : State} (start : s.TransmitCoherent) (moved : Moved ps s t) (tx : Part.tx ∉ ps)
    (waiting : Part.waiting ∉ ps) : t.TransmitCoherent :=
  coherent_of_same start (moved.tx tx) (moved.waiting waiting)

/-! ## Records that change their state -/

theorem TxRecord.Coherent.revoke {x : TxRecord} (coherent : x.Coherent) (state : x.state = .granted) (cause : RevocationCause)
    (q : Policy) : ({ x with lastRevocation := some cause }.leave .revoked q).Coherent where
  key := by simpa [TxRecord.leave, state] using coherent.key
  hang := by simp [TxRecord.leave]
  skip := by simp [TxRecord.leave]
  tail := by simp [TxRecord.leave, TxState.onAir]

/-- A record that leaves the air for IDLE, its key up. -/
theorem coherent_leave_idle {x : TxRecord} (key : x.ptt = false) (q : Policy) : (x.leave .idle q).Coherent where
  key := by simp [TxRecord.leave, key]
  hang := by simp [TxRecord.leave]
  skip := by simp [TxRecord.leave]
  tail := by simp [TxRecord.leave, TxState.onAir]

theorem TxRecord.Coherent.key_of_hang {x : TxRecord} (coherent : x.Coherent) (state : x.state = .hang) : x.ptt = false := by
  simpa [state] using coherent.key

theorem TxRecord.Coherent.grant {x : TxRecord} (coherent : x.Coherent) (state : x.state = .waiting) :
    { x with state := .granted, tailTimer := none, skipHang := false }.Coherent where
  key := by simpa [state] using coherent.key
  hang := by simpa [state] using coherent.hang
  skip := by simp
  tail := by simp

theorem TxRecord.Coherent.keyDown {x : TxRecord} (coherent : x.Coherent) (up : x.ptt = false) :
    x.keyedDown.Coherent := by
  unfold TxRecord.keyedDown
  obtain ⟨key, hang, skip, tail⟩ := coherent
  cases state : x.state with
  | idle => exact ⟨by simp [TxState.keyedDown], by simpa [state, TxState.keyedDown] using hang, fun on => by simp [skip on] at state,
      by simp [TxState.keyedDown, TxState.onAir]⟩
  | hang => exact ⟨by simp [TxState.keyedDown], by simp [TxState.keyedDown], by simp [TxState.keyedDown], fun _ => tail (by simp [state, TxState.onAir])⟩
  | _ => simp [state, up] at key

theorem TxRecord.Coherent.keyUp {x : TxRecord} (coherent : x.Coherent) (down : x.ptt = true) (applies : Bool) (q : Policy)
    (skips : applies = true → x.skipHang = false) :
    (x.keyedUp applies q).Coherent := by
  unfold TxRecord.keyedUp
  obtain ⟨key, hang, skip, tail⟩ := coherent
  cases state : x.state with
  | idle => simp [state, down] at key
  | hang => simp [state, down] at key
  | waiting => exact ⟨by simp, by simpa [state] using hang, by simpa [state] using skip, by simp [TxState.onAir]⟩
  | revoked => exact ⟨by simp, by simpa [state] using hang, by simpa [state] using skip, by simp [TxState.onAir]⟩
  | granted =>
    cases applies with
    | true => exact ⟨by simp, by simp, by simp [skips rfl], fun _ => tail (by simp [state, TxState.onAir])⟩
    | false => exact coherent_leave_idle rfl q

theorem TxRecord.keyedDown_waits_iff (x : TxRecord) : x.keyedDown.state = .waiting ↔ x.state = .idle ∨ x.state = .waiting := by
  unfold TxRecord.keyedDown
  cases x.state <;> simp [TxState.keyedDown]

theorem TxRecord.keyedUp_not_waiting (x : TxRecord) (hangs : Bool) (q : Policy) : (x.keyedUp hangs q).state ≠ .waiting := by
  unfold TxRecord.keyedUp
  cases state : x.state <;> cases hangs <;> simp [TxRecord.leave, state]

/-! ## Moves -/

theorem coherent_withdrawGrant (p : Position) (cause : RevocationCause) {s : State} (start : s.TransmitCoherent) :
    (withdrawGrant p cause s).TransmitCoherent := by
  have tx := tx_withdrawGrant p cause s
  have waiting := (moved_withdrawGrant p cause s).waiting (by decide)
  have record := start.2 p
  cases state : (s.txOf p).state with
  | granted =>
    rw [state] at tx
    exact coherent_of_still start tx (record.revoke state cause _) waiting (by simp [TxRecord.leave, state])
  | hang =>
    rw [state] at tx
    exact coherent_of_still start tx (coherent_leave_idle (x := { s.txOf p with lastRevocation := some cause })
      (record.key_of_hang state) _) waiting (by simp [TxRecord.leave, state])
  | _ =>
    rw [state] at tx
    exact coherent_of_same start tx waiting

theorem coherent_reason (p : Position) (r : Option WaiterReason) {s : State} (start : s.TransmitCoherent) :
    (s.mapTx p fun x => { x with reason := r }).TransmitCoherent := by
  obtain ⟨key, hang, skip, tail⟩ := start.2 p
  exact coherent_of_still start rfl ⟨key, hang, skip, tail⟩ rfl .rfl

theorem Quieted.coherent {s t : State} (quiet : Quieted s t) (start : s.TransmitCoherent) : t.TransmitCoherent := by
  induction quiet with
  | refl => exact start
  | tail _ move ih =>
    cases move with
    | reason p r => exact coherent_reason p r ih
    | withdraw p cause => exact coherent_withdrawGrant p cause ih
    | _ => exact ih

theorem coherent_putOnAir {p : Position} {s : State} (start : s.TransmitCoherent) (waits : p ∈ s.waiting) :
    (putOnAir p s).TransmitCoherent := by
  refine coherent_of_put start rfl ((start.2 p).grant ((start.1.2 p).1 waits)) (start.1.1.filter _) (by simp [waiting_putOnAir]) ?_
  intro q other
  simp [waiting_putOnAir, other]

theorem coherent_keyDown {p : Position} {s : State} (start : s.TransmitCoherent) (up : (s.txOf p).ptt = false) :
    (keyDown p s).TransmitCoherent := by
  have waiting := waiting_keyDown p s
  by_cases idle : (s.txOf p).state = .idle
  · rw [if_pos idle] at waiting
    have fresh : p ∉ s.waiting := fun waits => by simp [(start.1.2 p).1 waits] at idle
    refine coherent_of_put start (tx_keyDown p s) ((start.2 p).keyDown up) ?_ 
      (by simp [waiting, TxRecord.keyedDown_waits_iff, idle]) fun q other => by simp [waiting, other]
    rw [waiting, List.nodup_append]
    exact ⟨start.1.1, List.nodup_singleton p, fun a listed b here same => fresh (List.mem_singleton.1 here ▸ same ▸ listed)⟩
  · rw [if_neg idle] at waiting
    refine coherent_of_still start (tx_keyDown p s) ((start.2 p).keyDown up) waiting ?_
    simp [TxRecord.keyedDown_waits_iff, idle]

theorem coherent_keyUp {p : Position} {s : State} (start : s.TransmitCoherent) (down : (s.txOf p).ptt = true) :
    (keyUp p s).TransmitCoherent := by
  have waiting := waiting_keyUp p s
  have record := (start.2 p).keyUp down (s.hangApplies p) s.policy fun applies => by
    simp only [State.hangApplies, Bool.and_eq_true, Bool.not_eq_true'] at applies
    exact applies.1
  by_cases waits : (s.txOf p).state = .waiting
  · rw [if_pos waits] at waiting
    refine coherent_of_put start (tx_keyUp p s) record ?_ ?_ fun q other => by simp [waiting, other]
    · rw [waiting]
      exact start.1.1.filter _
    · simp [waiting, TxRecord.keyedUp_not_waiting]
  · rw [if_neg waits] at waiting
    refine coherent_of_still start (tx_keyUp p s) record waiting ?_
    simp [TxRecord.keyedUp_not_waiting, waits]

theorem coherent_clearWaiting {s : State} (start : s.TransmitCoherent) (off : ∀ p, s.onAir p = false) :
    (clearWaiting s).TransmitCoherent := by
  have record (q : Position) : (clearWaiting s).txOf q = { s.txOf q with
      state := if (s.txOf q).state = .waiting then .revoked else (s.txOf q).state, reason := none, skipHang := false,
      hangTimer := none } := by
    rw [State.txOf, clearWaiting, get_mapFin]
    rfl
  refine ⟨⟨List.nodup_nil, fun q => ?_⟩, fun q => ?_⟩
  · rw [record]
    cases state : (s.txOf q).state <;> simp [clearWaiting]
  · rw [record]
    obtain ⟨key, hang, skip, tail⟩ := start.2 q
    have off := off q
    rw [State.onAir] at off
    cases state : (s.txOf q).state <;> rw [state] at off key <;> simp [TxState.onAir] at off
    all_goals exact ⟨by simpa using key, by simp, by simp, by simp [TxState.onAir]⟩

theorem coherent_act {s t : State} (move : Act c s t) (start : s.TransmitCoherent) : t.TransmitCoherent := by
  cases move with
  | quiet quiet => exact Quieted.coherent (.single quiet) start
  | grant p waits _ => exact coherent_putOnAir start waits
  | leave p hang =>
    exact coherent_of_still start (tx_leaveSlot p .idle s) (coherent_leave_idle ((start.2 p).key_of_hang hang) _)
      ((moved_leaveSlot p .idle s).waiting (by decide)) (by simp [TxRecord.leave, hang])
  | skip p granted =>
    obtain ⟨key, hang, skip, tail⟩ := start.2 p
    exact coherent_of_still start rfl ⟨key, hang, fun _ => granted, tail⟩ rfl .rfl
  | keyDown p _ up => exact coherent_keyDown start up
  | keyUp p down => exact coherent_keyUp start down
  | tail p =>
    obtain ⟨key, hang, skip, tail⟩ := start.2 p
    exact coherent_of_still start rfl ⟨key, hang, skip, fun _ => rfl⟩ rfl .rfl
  | levels p x state ptt hang skip tail =>
    have record := start.2 p
    exact coherent_of_still start rfl ⟨by rw [ptt, state]; exact record.key, by rw [hang, state]; exact record.hang,
      by rw [skip, state]; exact record.skip, by rw [state, tail]; exact record.tail⟩ rfl (by rw [state])
  | report p r quiet =>
    have kept := Quieted.coherent quiet start
    split
    · exact kept
    · exact coherent_withdrawGrant _ _ kept
  | restart v quiet off => exact coherent_clearWaiting (Quieted.coherent quiet start) off
  | latch _ _ a _ => exact coherent_of_moved start (moved_latched s a) (by decide) (by decide)
  | enter _ quiet _ => exact coherent_of_moved (Quieted.coherent quiet start) (moved_stopForEntry _) (by decide) (by decide)
  | _ => exact start

theorem coherent_clearTx (a b : Bool) (x y : Timer) : { clearTx with pttRaw := a, rfRaw := b, pttTimer := x, rfTimer := y }.Coherent :=
  ⟨by simp [clearTx], by simp [clearTx], by simp [clearTx], by simp [clearTx]⟩

theorem coherent_unpowered (s : State) : (unpowered s).TransmitCoherent := by
  have record (q : Position) : (unpowered s).txOf q = { clearTx with pttRaw := (s.txOf q).pttRaw, rfRaw := (s.txOf q).rfRaw } :=
    get_mapFin _ _ q
  refine ⟨⟨List.nodup_nil, fun q => ?_⟩, fun q => ?_⟩ <;> rw [record]
  · simp [unpowered, State.reset, clearTx]
  · exact coherent_clearTx _ _ none none

theorem coherent_powerOnState (T : Table) (s : State) : (powerOnState T s).TransmitCoherent := by
  have record (q : Position) : (powerOnState T s).txOf q = { clearTx with
      pttRaw := (s.txOf q).pttRaw, rfRaw := (s.txOf q).rfRaw, pttTimer := debounce (s.txOf q).pttRaw false T.policy,
      rfTimer := debounce (s.txOf q).rfRaw false T.policy } := get_mapFin _ _ q
  refine ⟨⟨List.nodup_nil, fun q => ?_⟩, fun q => ?_⟩ <;> rw [record]
  · simp [powerOnState, clearTx]
  · exact coherent_clearTx _ _ _ _

/-- Settles O8: each move keeps every record coherent and the waiting set exact. -/
theorem transmitCoherentKept : Obligations.TransmitCoherentKept := by
  refine kept_of_step (I := State.TransmitCoherent) (fun s cs kept => kept) (fun s kept => ?_) (fun s _ => coherent_powerOnState _ s)
    (fun s _ => coherent_unpowered s) (fun c s t move kept => coherent_act move kept)
  · unfold idle
    split <;> exact kept

end Sys2Proof.Machine
end

section
/-! The driver's legal states, its images, and what may change the table, the image and the latched relays (chapters 1, 7 and 10). -/

namespace Sys2Proof.Machine

variable {c : Option Instr}

/-! ## The driver's state (O9) -/

/-- The part of the driver's state that the operation in flight, its timers and the latched image make up. -/
structure ChainCore (c d : Chain) : Prop where
  op : d.op = c.op
  latched : d.latched = c.latched
  settle : d.settleTimer = c.settleTimer
  verify : d.verifyTimer = c.verifyTimer ∨ d.verifyTimer = none

theorem chainLegal_of_core {s t : State} (start : s.ChainLegal) (core : ChainCore s.chain t.chain)
    (safe : t.safe = true → s.safe = true) : t.ChainLegal where
  legal o op := start.legal o (core.op ▸ op)
  carried o op kind := by rw [core.latched]; exact start.carried o (core.op ▸ op) kind
  settle := by rw [core.settle, core.op]; exact start.settle
  verify busy := by
    obtain same | none := core.verify
    · rw [same]
      exact start.verify (busy.imp (fun busy => core.op ▸ busy) safe)
    · exact none
  safe on o op := start.safe (safe on) o (core.op ▸ op)

theorem chainLegal_of_same {s t : State} (start : s.ChainLegal) (chain : t.chain = s.chain) (safe : t.safe = true → s.safe = true) :
    t.ChainLegal := chainLegal_of_core start (by rw [chain]; exact ⟨rfl, rfl, rfl, .inl rfl⟩) safe

theorem chainLegal_of_moved {ps : List Part} {s t : State} (start : s.ChainLegal) (moved : Moved ps s t) (chain : Part.chain ∉ ps)
    (log : Part.log ∉ ps) : t.ChainLegal :=
  chainLegal_of_same start (moved.chain chain) fun safe => by rwa [State.safe, moved.log log] at safe

/-- With no operation in flight, no timer of one runs. -/
theorem chainLegal_of_idle {s : State} (idle : s.chain.op = none) (settle : s.chain.settleTimer = none)
    (verify : s.safe = true → s.chain.verifyTimer = none) : s.ChainLegal where
  legal o op := by rw [idle] at op; cases op
  carried o op := by rw [idle] at op; cases op
  settle := by simp [settle, idle]
  verify busy := by
    obtain busy | safe := busy
    · simp [idle] at busy
    · exact verify safe
  safe _ o op := by rw [idle] at op; cases op

theorem settling_of_legal {o : Operation} (legal : o.legal = true) (settling : o.phase = .settling) : o.kind = .change := by
  obtain ⟨kind, purpose, phase⟩ := o
  cases settling
  cases kind <;> cases purpose <;> first | rfl | cases legal

theorem chain_endOperation (content : Option Image) (s : State) :
    (endOperation content s).chain.op = none ∧ (endOperation content s).chain.settleTimer = none ∧
      (endOperation content s).chain.latched = s.chain.latched ∧ (endOperation content s).chain.pending = s.chain.pending ∧
      (endOperation content s).chain.verifyTimer = s.chain.verifyTimer ∧ (endOperation content s).chain.filters = s.chain.filters := by
  rw [endOperation, markLength, mapChain_chain]
  split <;> exact ⟨rfl, rfl, rfl, rfl, rfl, rfl⟩

/-- The driver with what a safe-state entry clears (R150). -/
def State.entryCleared (s : State) : State := s.mapChain fun c => { c with verifyTimer := none, attempt := none, heldForEntry := false }

theorem stopForEntry_of_none {s : State} (idle : s.chain.op = none) : stopForEntry s = s.entryCleared := by
  simp [stopForEntry, State.entryCleared, idle]

theorem stopForEntry_of_settling {s : State} {o : Operation} (op : s.chain.op = some o) (settling : o.phase = .settling) :
    stopForEntry s = s.entryCleared := by
  simp [stopForEntry, State.entryCleared, op, settling]

theorem stopForEntry_of_op {s : State} {o : Operation} (op : s.chain.op = some o) (settling : o.phase ≠ .settling) :
    stopForEntry s = endOperation none s.entryCleared := by
  simp [stopForEntry, State.entryCleared, op, settling]

theorem chain_stopForEntry (s : State) :
    (stopForEntry s).chain.latched = s.chain.latched ∧ (stopForEntry s).chain.pending = s.chain.pending ∧
      ((stopForEntry s).chain.op = s.chain.op ∨ (stopForEntry s).chain.op = none) ∧
      (stopForEntry s).chain.filters = s.chain.filters := by
  cases op : s.chain.op with
  | none =>
    rw [stopForEntry_of_none op]
    exact ⟨rfl, rfl, .inl op, rfl⟩
  | some o =>
    by_cases settling : o.phase = .settling
    · rw [stopForEntry_of_settling op settling]
      exact ⟨rfl, rfl, .inl op, rfl⟩
    · rw [stopForEntry_of_op op settling]
      obtain ⟨idle, -, latched, pending, -, filters⟩ := chain_endOperation none s.entryCleared
      exact ⟨latched, pending, .inr idle, filters⟩

theorem inPhase_iff (s : State) (k : OpKind) (ph : Phase) :
    s.inPhase k ph = true ↔ ∃ o, s.chain.op = some o ∧ o.kind = k ∧ o.phase = ph := by
  unfold State.inPhase
  cases s.chain.op <;> simp

theorem chainLegal_entered {u s : State} (start : u.ChainLegal) (chain : s.chain = u.chain) : (stopForEntry s).ChainLegal := by
  cases op : s.chain.op with
  | none =>
    have settle : s.chain.settleTimer = none := by
      rw [chain] at op ⊢
      have none : ¬u.chain.settleTimer.isSome = true := fun runs => by
        obtain ⟨o, eq, -⟩ := start.settle.1 runs
        rw [op] at eq
        cases eq
      simpa using none
    rw [stopForEntry_of_none op]
    exact chainLegal_of_idle op settle fun _ => rfl
  | some o =>
    by_cases settling : o.phase = .settling
    · rw [stopForEntry_of_settling op settling]
      have was : u.chain.op = some o := chain ▸ op
      have kind := settling_of_legal (start.legal o was) settling
      refine ⟨fun x eq => ?_, fun x eq other => ?_, ?_, fun _ => rfl, fun _ x eq => ?_⟩
      · exact start.legal x (was.trans (op.symm.trans eq))
      · obtain rfl : o = x := Option.some.inj (op.symm.trans eq)
        exact absurd kind other
      · show s.chain.settleTimer.isSome = true ↔ ∃ x, s.chain.op = some x ∧ _
        rw [chain]
        exact start.settle
      · obtain rfl : o = x := Option.some.inj (op.symm.trans eq)
        simp [Operation.safeInFlight, kind, settling]
    · rw [stopForEntry_of_op op settling]
      obtain ⟨idle, settle, -, -, verify, -⟩ := chain_endOperation none s.entryCleared
      exact chainLegal_of_idle idle settle fun _ => verify

theorem chainLegal_started {s : State} {o : Operation} (start : s.ChainLegal) (may : MayStart s o) :
    (s.mapChain fun d => { d with op := some o, verifyTimer := none }).ChainLegal where
  legal x eq := Option.some.inj eq ▸ may.legal
  carried x eq kind := by
    obtain rfl := Option.some.inj eq
    have image := may.image
    rwa [if_neg kind] at image
  settle := by
    have idle : ¬s.chain.settleTimer.isSome = true := fun runs => by
      obtain ⟨x, eq, -⟩ := start.settle.1 runs
      rw [may.idle] at eq
      cases eq
    refine ⟨fun runs => absurd runs idle, fun ⟨x, eq, settling⟩ => ?_⟩
    obtain rfl := Option.some.inj eq
    exact absurd settling may.phase
  verify _ := rfl
  safe safe x eq := Option.some.inj eq ▸ may.safe safe

theorem chainLegal_shiftEnd {s : State} (n : Nat) (start : s.ChainLegal) (phase : s.inPhase .change .shifting = true) (safe : s.safe = false) :
    (s.mapChain fun d => { d with
      content := d.op.map (·.image), op := d.op.map fun o => { o with phase := .settling }, settleTimer := some n }).ChainLegal := by
  obtain ⟨o, op, kind, shifting⟩ := (inPhase_iff s _ _).1 phase
  have same {x : Operation} (eq : s.chain.op.map (fun o => { o with phase := .settling }) = some x) : x = { o with phase := .settling } := by
    rw [op] at eq
    exact (Option.some.inj eq).symm
  refine ⟨fun x eq => ?_, fun x eq other => ?_, ?_, fun _ => ?_, fun on => ?_⟩
  · rw [same eq]
    have legal := start.legal o op
    unfold Operation.legal at legal ⊢
    rw [kind, shifting] at legal
    rw [kind]
    cases why : o.purpose <;> rw [why] at legal <;> first | rfl | cases legal
  · rw [same eq] at other
    exact absurd kind other
  · exact ⟨fun _ => ⟨{ o with phase := .settling }, congrArg (Option.map _) op, rfl⟩, fun _ => rfl⟩
  · exact start.verify (.inl (by rw [op]; rfl))
  · exact absurd (safe.symm.trans on) (by decide)

theorem chainLegal_fillEnd {s : State} (start : s.ChainLegal) (phase : s.inPhase .resync .filling = true) :
    (s.mapChain fun d => { d with content := some d.latched, op := d.op.map fun o => { o with phase := .checking } }).ChainLegal := by
  obtain ⟨o, op, kind, filling⟩ := (inPhase_iff s _ _).1 phase
  have same {x : Operation} (eq : s.chain.op.map (fun o => { o with phase := .checking }) = some x) : x = { o with phase := .checking } := by
    rw [op] at eq
    exact (Option.some.inj eq).symm
  have still : ¬s.chain.settleTimer.isSome = true := fun runs => by
    obtain ⟨x, eq, settling⟩ := start.settle.1 runs
    rw [op] at eq
    rw [← Option.some.inj eq, filling] at settling
    cases settling
  refine ⟨fun x eq => ?_, fun x eq other => ?_, ?_, fun _ => ?_, fun on x eq => ?_⟩
  · rw [same eq]
    have legal := start.legal o op
    unfold Operation.legal at legal ⊢
    rw [kind, filling] at legal
    rw [kind]
    cases why : o.purpose <;> rw [why] at legal <;> first | rfl | cases legal
  · rw [same eq]
    exact start.carried o op (by simp [kind])
  · refine ⟨fun runs => absurd runs still, fun ⟨x, eq, settling⟩ => ?_⟩
    rw [same eq] at settling
    cases settling
  · exact start.verify (.inl (by rw [op]; rfl))
  · rw [same eq]
    have safe := start.safe on o op
    simpa [Operation.safeInFlight, kind] using safe

theorem chain_latchChange (s : State) : (latchChange s).chain.op = none ∧ (latchChange s).chain.settleTimer = none ∧
    (latchChange s).chain.latched = (s.chain.op.map (·.image)).getD s.chain.latched ∧
    (latchChange s).chain.pending = s.chain.pending ∧ (latchChange s).chain.verifyTimer = s.chain.verifyTimer :=  by
  obtain ⟨op, settle, latched, pending, verify, -⟩ := chain_endOperation s.chain.content (s.mapChain fun c =>
    { c with latched := (c.op.map (·.image)).getD c.latched, refreshDue := false,
             restartHold := c.restartHold && s.purpose ≠ some .restart })
  exact ⟨op, settle, latched, pending, verify⟩

theorem chainLegal_act {s t : State} (move : Act c s t) (start : s.ChainLegal) : t.ChainLegal := by
  have quieted {u v : State} (quiet : Quieted u v) (kept : u.ChainLegal) : v.ChainLegal :=
    chainLegal_of_moved kept quiet.moved (by decide) (by decide)
  cases move with
  | quiet quiet => exact quieted (.single quiet) start
  | leave p _ => exact chainLegal_of_moved start (moved_leaveSlot p .idle s) (by decide) (by decide)
  | keyDown p _ _ => exact chainLegal_of_moved start (moved_keyDown p s) (by decide) (by decide)
  | keyUp p _ => exact chainLegal_of_moved start (moved_keyUp p s) (by decide) (by decide)
  | report p r quiet =>
    have kept : State.ChainLegal _ := quieted quiet (chainLegal_of_same (t := s.mapFreq p fun _ => r) start rfl id)
    split
    · exact kept
    · exact chainLegal_of_moved kept (moved_withdrawGrant ..) (by decide) (by decide)
  | restart v quiet _ =>
    have kept : State.ChainLegal _ := quieted quiet (chainLegal_of_same (t := { s with freq := v }) start rfl id)
    exact chainLegal_of_same kept rfl id
  | marks d kept => exact chainLegal_of_core start ⟨kept.op, kept.latched, kept.settle, kept.verify⟩ id
  | deal a _ => exact chainLegal_of_core start ⟨rfl, rfl, rfl, .inl rfl⟩ id
  | filter p f _ => exact chainLegal_of_core start ⟨rfl, rfl, rfl, .inl rfl⟩ id
  | verifyTimer n idle safe =>
    refine ⟨start.legal, start.carried, start.settle, fun busy => ?_, start.safe⟩
    obtain busy | on := busy
    · exact absurd busy (by simp [idle])
    · exact absurd (safe.symm.trans on) (by decide)
  | start o may => exact chainLegal_started start may
  | stop => exact chainLegal_of_idle rfl rfl fun safe => start.verify (.inr safe)
  | shiftEnd n phase safe => exact chainLegal_shiftEnd n start phase safe
  | fillEnd phase => exact chainLegal_fillEnd start phase
  | latch _ _ a _ =>
    obtain ⟨idle, settle, -, -, verify⟩ := chain_latchChange s
    refine chainLegal_of_idle idle settle fun safe => verify.trans (start.verify (.inr ?_))
    rwa [State.safe, (moved_latched s a).log (by decide)] at safe
  | log i _ _ l same _ => exact chainLegal_of_same start rfl fun safe => same.symm.trans safe
  | enter _ quiet _ => exact chainLegal_entered start (quiet.moved.chain (by decide))
  | leaveSafe i _ _ => exact chainLegal_of_same start rfl fun safe => by cases safe
  | _ => exact chainLegal_of_same start rfl id

/-- Settles O9: each move leaves the driver in a legal state. -/
theorem chainLegalKept : Obligations.ChainLegalKept := by
  refine kept_of_step (I := State.ChainLegal) (fun s cs kept => chainLegal_of_same kept rfl id) (fun s kept => ?_) 
    (fun s _ => chainLegal_of_idle rfl rfl fun _ => rfl) (fun s _ => chainLegal_of_idle rfl rfl fun _ => rfl) (fun c s t move kept => chainLegal_act move kept)
  · unfold idle
    split
    · exact chainLegal_of_same kept rfl id
    · exact kept

end Sys2Proof.Machine
end

section
/-! The images, and what may change the table, the nonvolatile image and the latched relays (chapters 1, 7 and 10). -/

namespace Sys2Proof.Machine

variable {c : Option Instr}

/-! ## The images (O10) -/

theorem filterBit_injective {p q : Position} {f g : FilterNo} (same : filterBit p f = filterBit q g) : p = q ∧ f = g := by
  unfold filterBit at same
  exact ⟨Fin.ext (by omega), Fin.ext (by omega)⟩

theorem composed_filterBit (s : State) (p : Position) (f : FilterNo) :
    s.composed.getLsbD (filterBit p f) = true ↔ (s.filterOf p).image = some f := by
  rw [getLsbD_composed]
  have bounds := filterBit_bounds p f
  constructor
  · rintro (⟨x, -, eq, -⟩ | ⟨x, -, -, e, -, -, eq⟩ | ⟨q, g, image, eq⟩)
    · have := crosspointBit_lt x.pos x.line
      omega
    · have := selectBit_bounds x.line (s.table.elements.get e).select
      omega
    · obtain ⟨rfl, rfl⟩ := filterBit_injective eq
      exact image
  · exact fun image => .inr (.inr ⟨p, f, image, rfl⟩)

theorem imageLegal_composed (s : State) : ImageLegal s.composed where
  top := by
    rw [shiftRight_eq_zero_iff]
    intro b closed
    obtain ⟨x, -, rfl, -⟩ | ⟨x, -, -, e, -, -, rfl⟩ | ⟨q, g, -, rfl⟩ := (getLsbD_composed s b).1 closed
    · exact (crosspointBit_lt _ _).trans (by decide)
    · exact (selectBit_bounds _ _).2.trans (by decide)
    · exact (filterBit_bounds _ _).2
  filters p f g closed other := by
    rw [composed_filterBit] at closed other
    exact Option.some.inj (closed.symm.trans other)

theorem imageLegal_zero : ImageLegal 0 := ⟨by decide, fun p f g closed => by simp at closed⟩

/-- The images of the driver's state are legal. -/
structure ChainImages (d : Chain) : Prop where
  latched : ImageLegal d.latched
  pending : ImageLegal d.pending
  op : ∀ o, d.op = some o → ImageLegal o.image

theorem imagesLegal_iff (s : State) : s.ImagesLegal ↔ ChainImages s.chain :=
  ⟨fun ⟨latched, pending, op⟩ => ⟨latched, pending, op⟩, fun ⟨latched, pending, op⟩ => ⟨latched, pending, op⟩⟩

theorem chainImages_stopForEntry {s : State} (start : ChainImages s.chain) : ChainImages (stopForEntry s).chain := by
  obtain ⟨latched, pending, op, -⟩ := chain_stopForEntry s
  refine ⟨latched ▸ start.latched, pending ▸ start.pending, fun o eq => ?_⟩
  obtain same | none := op
  · exact start.op o (same ▸ eq)
  · rw [none] at eq
    cases eq

theorem chainImages_act {s t : State} (move : Act c s t) (start : ChainImages s.chain) : ChainImages t.chain := by
  have phased (f : Operation → Operation) (image : ∀ o, (f o).image = o.image) (x : Operation) (op : s.chain.op.map f = some x) :
      ImageLegal x.image := by
    obtain ⟨o, was, rfl⟩ := Option.map_eq_some_iff.1 op
    exact image o ▸ start.op o was
  cases move with
  | quiet quiet => exact quiet.moved.chain (by decide) ▸ start
  | leave p _ => exact (moved_leaveSlot p .idle s).chain (by decide) ▸ start
  | keyDown p _ _ => exact (moved_keyDown p s).chain (by decide) ▸ start
  | keyUp p _ => exact (moved_keyUp p s).chain (by decide) ▸ start
  | report p r quiet =>
    have kept := quiet.moved.chain (by decide)
    split
    · exact kept ▸ start
    · rw [(moved_withdrawGrant ..).chain (by decide), kept]
      exact start
  | restart v quiet _ => exact quiet.moved.chain (by decide) ▸ start
  | marks d kept => exact ⟨kept.latched ▸ start.latched, kept.pending ▸ start.pending, kept.op ▸ start.op⟩
  | deal a _ => exact ⟨start.latched, imageLegal_composed _, start.op⟩
  | filter p f _ => exact ⟨start.latched, imageLegal_composed _, start.op⟩
  | verifyTimer n _ _ => exact ⟨start.latched, start.pending, start.op⟩
  | start o may =>
    refine ⟨start.latched, start.pending, fun x op => ?_⟩
    obtain rfl := Option.some.inj op
    have image := may.image
    split at image
    · exact image ▸ start.pending
    · exact image ▸ start.latched
  | stop => exact ⟨start.latched, start.pending, nofun⟩
  | shiftEnd n _ _ => exact ⟨start.latched, start.pending, phased _ fun _ => rfl⟩
  | fillEnd _ => exact ⟨start.latched, start.pending, phased _ fun _ => rfl⟩
  | latch _ _ a _ =>
    obtain ⟨op, -, latched, -, -⟩ := chain_latchChange s
    refine ⟨?_, imageLegal_composed _, fun o eq => by cases op.symm.trans eq⟩
    show ImageLegal (latchChange s).chain.latched
    rw [latched]
    cases was : s.chain.op with
    | none => exact start.latched
    | some o => exact start.op o was
  | enter _ quiet _ => exact chainImages_stopForEntry (quiet.moved.chain (by decide) ▸ start)
  | _ => exact start

/-- Settles O10: a composed image is legal in every state, and every other image is one that was composed, latched or carried. -/
theorem imagesLegalKept : Obligations.ImagesLegalKept := by
  intro s t start stepped
  have clear : ChainImages clearChain := ⟨imageLegal_zero, imageLegal_zero, nofun⟩
  rw [imagesLegal_iff] at start ⊢
  refine kept_of_step (I := fun s => ChainImages s.chain) (fun s cs kept => kept) (fun s kept => ?_) (fun s _ => clear)
    (fun s _ => clear) (fun c s t move kept => chainImages_act move kept) s t start stepped
  unfold idle
  split <;> exact kept

/-! ## The table and the nonvolatile image (O13) -/

theorem table_act {s t : State} (move : Act c s t) : t.table = s.table ∨ ∃ i, c = some i ∧ writesTable i = true := by
  cases move with
  | quiet quiet => exact .inl (quiet.moved.table (by decide))
  | leave p _ => exact .inl ((moved_leaveSlot p .idle s).table (by decide))
  | keyDown p _ _ => exact .inl ((moved_keyDown p s).table (by decide))
  | keyUp p _ => exact .inl ((moved_keyUp p s).table (by decide))
  | report p r quiet =>
    have kept := quiet.moved.table (by decide)
    split
    · exact .inl kept
    · exact .inl (((moved_withdrawGrant ..).table (by decide)).trans kept)
  | restart v quiet _ => exact .inl (quiet.moved.table (by decide))
  | table i command writes => exact .inr ⟨i, command, writes⟩
  | enter _ quiet _ => exact .inl (((moved_stopForEntry _).table (by decide)).trans (quiet.moved.table (by decide)))
  | _ => exact .inl rfl

/-- What a save and its end change in the store is as it was. -/
structure StoreKept (x y : Store) : Prop where
  nv : y.nv = x.nv
  saving : y.saving = x.saving
  snapshot : y.snapshot = x.snapshot

theorem StoreKept.of_eq {x y : Store} (same : y = x) : StoreKept x y := same ▸ ⟨rfl, rfl, rfl⟩

theorem store_act {s t : State} (move : Act c s t) :
    StoreKept s.store t.store ∨ (∃ p, c = some (.save p) ∧ t.store = s.store.save s.table p) ∨
      ∃ r, c = some (.saveWriteEnd r) ∧ t.store = s.store.saveEnd r := by
  cases move with
  | quiet quiet => exact .inl (.of_eq (quiet.moved.store (by decide)))
  | leave p _ => exact .inl (.of_eq ((moved_leaveSlot p .idle s).store (by decide)))
  | keyDown p _ _ => exact .inl (.of_eq ((moved_keyDown p s).store (by decide)))
  | keyUp p _ => exact .inl (.of_eq ((moved_keyUp p s).store (by decide)))
  | report p r quiet =>
    have kept := quiet.moved.store (by decide)
    split
    · exact .inl (.of_eq kept)
    · exact .inl (.of_eq (((moved_withdrawGrant ..).store (by decide)).trans kept))
  | restart v quiet _ => exact .inl (.of_eq (quiet.moved.store (by decide)))
  | store x nv saving snapshot _ => exact .inl ⟨nv, saving, snapshot⟩
  | save p command => exact .inr (.inl ⟨p, command, rfl⟩)
  | saveEnd r command => exact .inr (.inr ⟨r, command, rfl⟩)
  | enter _ quiet _ => exact .inl (.of_eq (((moved_stopForEntry _).store (by decide)).trans (quiet.moved.store (by decide))))
  | _ => exact .inl (.of_eq rfl)

theorem nv_act {s t : State} (move : Act c s t) :
    t.store.nv = s.store.nv ∨ (∃ p, c = some (.save p)) ∨ c = some (.saveWriteEnd .ok) := by
  obtain kept | ⟨p, command, -⟩ | ⟨r, command, eq⟩ := store_act move
  · exact .inl kept.nv
  · exact .inr (.inl ⟨p, command⟩)
  · cases r with
    | ok => exact .inr (.inr command)
    | failed => exact .inl (eq ▸ rfl)

theorem nv_acts {s t : State} (acts : Acts c s t) :
    t.store.nv = s.store.nv ∨ (∃ p, c = some (.save p)) ∨ c = some (.saveWriteEnd .ok) := by
  induction acts with
  | refl => exact .inl rfl
  | tail _ move ih => exact ih.elim (fun same => (nv_act move).imp_left (·.trans same)) .inr

theorem imageBad_act {s t : State} (move : Act c s t) (start : s.ImageBadWhileSaving) : t.ImageBadWhileSaving := by
  unfold State.ImageBadWhileSaving at *
  obtain kept | ⟨p, -, eq⟩ | ⟨r, -, eq⟩ := store_act move
  · rw [kept.nv, kept.saving]
    exact start
  · rw [eq]
    exact fun _ => NvImage.unfinished_good _
  · rw [eq]
    exact nofun

/-- Settles O13. -/
theorem onlyWritesChangeTable : Obligations.OnlyWritesChangeTable := by
  refine ⟨fun c s t taken reads => ?_, fun c s t taken changed => ?_, ?_⟩
  · have on : c ≠ .powerOn := fun eq => by rw [eq] at reads; cases reads
    have off : c ≠ .powerLoss := fun eq => by rw [eq] at reads; cases reads
    refine kept_of_acts (I := fun t => t.table = s.table) (fun u v move same => ?_) (acts_exec on off taken) rfl
    obtain kept | ⟨i, command, writes⟩ := table_act move
    · exact kept.trans same
    · rw [← Option.some.inj command, reads] at writes
      cases writes
  · by_cases on : c = .powerOn
    · subst on
      cases powered : s.powered with
      | true => exact absurd (by rw [exec_powerOn_of_powered powered taken]) changed
      | false =>
        obtain kept | ⟨p, command⟩ | command := nv_acts (c := none) (acts_powerOn powered taken)
        · exact absurd kept changed
        · cases command
        · cases command
    by_cases off : c = .powerLoss
    · subst off
      cases taken
      exact absurd (by split <;> rfl) changed
    obtain kept | ⟨p, command⟩ | command := nv_acts (acts_exec on off taken)
    · exact absurd kept changed
    · exact .inl ⟨p, Option.some.inj command⟩
    · exact .inr (Option.some.inj command)
  · refine kept_of_step (I := State.ImageBadWhileSaving) (fun s cs kept => kept) (fun s kept => ?_) (fun s _ => nofun)
      (fun s _ => nofun) (fun c s t move kept => imageBad_act move kept)
    unfold idle
    split <;> exact kept

/-! ## The latched image (part of O14) -/

theorem latched_act {s t : State} (move : Act c s t) : t.chain.latched = s.chain.latched ∨ c = some .changeCompletion := by
  have same {u v : State} (chain : v.chain = u.chain) : v.chain.latched = u.chain.latched := by rw [chain]
  cases move with
  | quiet quiet => exact .inl (same (quiet.moved.chain (by decide)))
  | leave p _ => exact .inl (same ((moved_leaveSlot p .idle s).chain (by decide)))
  | keyDown p _ _ => exact .inl (same ((moved_keyDown p s).chain (by decide)))
  | keyUp p _ => exact .inl (same ((moved_keyUp p s).chain (by decide)))
  | report p r quiet =>
    have kept := quiet.moved.chain (by decide)
    split
    · exact .inl (same kept)
    · exact .inl (same (((moved_withdrawGrant ..).chain (by decide)).trans kept))
  | restart v quiet _ => exact .inl (same (quiet.moved.chain (by decide)))
  | marks d kept => exact .inl kept.latched
  | latch command _ _ _ => exact .inr command
  | enter _ quiet _ => exact .inl ((chain_stopForEntry _).1.trans (same (quiet.moved.chain (by decide))))
  | _ => exact .inl rfl

theorem latched_acts {s t : State} (other : c ≠ some .changeCompletion) (acts : Acts c s t) : t.chain.latched = s.chain.latched :=
  kept_of_acts (I := fun t => t.chain.latched = s.chain.latched)
    (fun _ _ move same => ((latched_act move).resolve_right other).trans same) acts rfl

theorem latched_changeCompletion {s t : State} (taken : execChangeCompletion s = .next t) :
    t.chain.latched = s.chain.latched ∨
      ∃ o, s.chain.op = some o ∧ o.kind = .change ∧ o.phase = .settling ∧ t.chain.latched = o.image := by
  unfold execChangeCompletion at taken
  cases taken
  split
  · dsimp only
    split
    · rename_i completes
      rw [Bool.and_eq_true] at completes
      obtain ⟨o, op, kind, phase⟩ := (inPhase_iff s _ _).1 completes.1
      refine .inr ⟨o, op, kind, phase, ?_⟩
      have acts : Acts (some .verifyEnd) (allocCompletion (latchChange s)) (closeStep s (afterChange s.purpose (arbiter (allocCompletion (latchChange s))))) :=
        ((acts_arbiter _).trans (acts_afterChange rfl (op_completion s) _)).trans (acts_closeStep _ _)
      obtain ⟨im, chain⟩ := chain_allocEvent worked_allocCompletion (latchChange s)
      rw [latched_acts (by decide) acts, allocCompletion, chain]
      show (latchChange s).chain.latched = _
      rw [(chain_latchChange s).2.2.1, op]
      rfl
    · exact .inl (latched_acts (c := none) (by decide) (acts_closeStep _ _))
  · exact .inl rfl

/-- The latched image takes nothing but the image of a CHANGE that completes, and power opens every relay. -/
theorem latched_exec {c : Instr} {s t : State} (taken : exec c s = .next t) (changed : t.chain.latched ≠ s.chain.latched) :
    (c = .changeCompletion ∧ ∃ o, s.chain.op = some o ∧ o.kind = .change ∧ o.phase = .settling ∧ t.chain.latched = o.image) ∨
      ((c = .powerOn ∨ c = .powerLoss) ∧ t.chain.latched = 0) := by
  by_cases on : c = .powerOn
  · subst on
    refine .inr ⟨.inl rfl, ?_⟩
    cases powered : s.powered with
    | true => exact absurd (by rw [exec_powerOn_of_powered powered taken]) changed
    | false => exact latched_acts (c := none) (by decide) (acts_powerOn powered taken)
  by_cases off : c = .powerLoss
  · subst off
    refine .inr ⟨.inr rfl, ?_⟩
    cases taken
    split at changed
    · rename_i powered
      rw [if_pos powered]
      rfl
    · exact absurd rfl changed
  by_cases completion : c = .changeCompletion
  · subst completion
    exact .inl ⟨rfl, (latched_changeCompletion taken).resolve_left changed⟩
  · exact absurd (latched_acts (fun eq => completion (Option.some.inj eq)) (acts_exec on off taken)) changed

/-- No latch moves a relay on the path of a position that is on the air or in its tail. -/
theorem latched_on_path {c : Instr} {s t : State} (held : s.PathsHeld) (taken : exec c s = .next t) (on : c ≠ .powerOn)
    (off : c ≠ .powerLoss) {p : Position} {b : Nat} (engaged : s.Engaged p) (path : s.OnPath p b) :
    t.chain.latched.getLsbD b = s.chain.latched.getLsbD b := by
  by_cases same : t.chain.latched = s.chain.latched
  · rw [same]
  · obtain ⟨-, o, op, -, -, eq⟩ | ⟨power, -⟩ := latched_exec taken same
    · rw [eq]
      exact (held.still p b engaged path).2 o op
    · exact absurd power (by simp [on, off])

/-! ## Safe state (O15) -/

theorem safe_of_act {s t : State} (move : Act c s t) : t.safe = s.safe ∨ c = some .occurrence ∨
    ∃ i, c = some i ∧ takesEvents i = true ∧ t.safe = false := by
  have same {u v : State} (log : v.log = u.log) : v.safe = u.safe := by rw [State.safe, log]; rfl
  cases move with
  | quiet quiet => exact .inl (same (quiet.moved.log (by decide)))
  | leave p _ => exact .inl (same ((moved_leaveSlot p .idle s).log (by decide)))
  | keyDown p _ _ => exact .inl (same ((moved_keyDown p s).log (by decide)))
  | keyUp p _ => exact .inl (same ((moved_keyUp p s).log (by decide)))
  | report p r quiet =>
    have kept := quiet.moved.log (by decide)
    split
    · exact .inl (same kept)
    · exact .inl (same (((moved_withdrawGrant p .band _).log (by decide)).trans kept))
  | restart v quiet off => exact .inl (same (quiet.moved.log (by decide)))
  | latch _ _ a _ => exact .inl (same ((moved_latched s a).log (by decide)))
  | log i _ _ l kept _ => exact .inl kept
  | enter command _ _ => exact .inr (.inl command)
  | leaveSafe i command takes => exact .inr (.inr ⟨i, command, takes, rfl⟩)
  | _ => exact .inl rfl

/-- A command in which the Fault Log takes nothing that waits leaves safe state as it is. -/
theorem safe_of_acts {s t : State} (keeps : ∀ i, c = some i → takesEvents i = false) (acts : Acts c s t) : t.safe = s.safe := by
  refine kept_of_acts (I := fun t => t.safe = s.safe) (fun u v move same => ?_) acts rfl
  obtain kept | occurrence | ⟨i, command, takes, -⟩ := safe_of_act move
  · exact kept.trans same
  · exact absurd (keeps _ occurrence) (by decide)
  · rw [keeps i command] at takes
    cases takes

theorem safe_of_none {s t : State} (acts : Acts none s t) : t.safe = s.safe := safe_of_acts (fun i eq => by cases eq) acts

theorem safe_of_end {s t : State} (acts : Acts (some .verifyEnd) s t) : t.safe = s.safe := safe_of_acts (fun i eq => by cases eq; rfl) acts

theorem safe_takeExitResult_of_out {s : State} (out : s.safe = false) (passed : Bool) : (takeExitResult passed s).safe = false := by
  obtain ⟨i, takes⟩ : ∃ i, takesEvents i = true := ⟨.resyncPass, rfl⟩
  have acts := acts_takeExitResult (i := .resyncPass) rfl passed s
  refine kept_of_acts (I := fun t => t.safe = false) (fun u v move same => ?_) acts out
  obtain kept | occurrence | ⟨i, -, -, left⟩ := safe_of_act move
  · exact kept.trans same
  · cases occurrence
  · exact left

theorem safe_drainResults_of_out : ∀ (n : Nat) {s : State}, s.safe = false → (drainResults n s).safe = false
  | 0, s, out => out
  | n + 1, s, out => by
    unfold drainResults
    split
    · rename_i passed rest _
      have out : State.safe { s with inbox := rest } = false := out
      exact safe_drainResults_of_out n (safe_takeExitResult_of_out out passed)
    · exact out

/-- Results that wait leave safe state only at one that has passed, with the exit unspoiled before the first of these. -/
theorem drainResults_leaves : ∀ (n : Nat) {s : State}, s.safe = true → (drainResults n s).safe = false →
    ∃ results rest, s.inbox = results ++ .exitResult true :: rest ∧ (∀ x ∈ results, ∃ passed, x = .exitResult passed) ∧
      (.exitResult true ∉ results → s.log.exitSpoiled = false)
  | 0, s, safe, left => by
    rw [drainResults, safe] at left
    cases left
  | n + 1, s, safe, left => by
    unfold drainResults at left
    split at left
    · rename_i passed rest inbox
      have grows := grows_takeExitResult passed { s with inbox := rest }
      have behind (still : (takeExitResult passed { s with inbox := rest }).safe = true)
          (same : (takeExitResult passed { s with inbox := rest }).inbox = rest) :
          ∃ results rest', rest = results ++ .exitResult true :: rest' ∧ (∀ x ∈ results, ∃ passed, x = .exitResult passed) ∧
            (.exitResult true ∉ results → (takeExitResult passed { s with inbox := rest }).log.exitSpoiled = false) := by
        have ih := drainResults_leaves n still left
        rwa [same] at ih
      cases passed with
      | false =>
        obtain ⟨results, rest', eq, all, unspoiled⟩ := behind safe rfl
        refine ⟨.exitResult false :: results, rest', by rw [inbox, eq]; rfl, ?_, fun none => unspoiled fun here => none ?_⟩
        · exact List.forall_mem_cons.2 ⟨⟨false, rfl⟩, all⟩
        · exact List.mem_cons_of_mem _ here
      | true =>
        cases spoiled : s.log.exitSpoiled with
        | false => exact ⟨[], rest, inbox, by simp, fun _ => rfl⟩
        | true =>
          have still : takeExitResult true { s with inbox := rest } =
              { s with inbox := rest, log := { s.log with exitPending := false, exitSpoiled := false } } := by
            simp [takeExitResult, spoiled, State.mapLog]
          obtain ⟨results, rest', eq, all, -⟩ := behind (by rw [still]; exact safe) (by rw [still])
          refine ⟨.exitResult true :: results, rest', by rw [inbox, eq]; rfl, ?_, fun none => ?_⟩
          · exact List.forall_mem_cons.2 ⟨⟨true, rfl⟩, all⟩
          · exact absurd (List.mem_cons_self ..) none
    · rw [safe] at left
      cases left

/-- A fatal occurrence that is not masked whole (R157, R158, R164). -/
def State.fatal (s : State) (o : Occurrence) : Bool := effectiveSeverity o s = .fatal && !dropped o s

theorem log_recordOccurrence (o : Occurrence) (s : State) : (recordOccurrence o s).log.safe = s.log.safe ∧
    (recordOccurrence o s).log.exitPending = s.log.exitPending ∧ (recordOccurrence o s).log.exitSpoiled = s.log.exitSpoiled := by
  have logged (v : Severity) (l : FaultLog) : (logOccurrence o v l).safe = l.safe ∧
      (logOccurrence o v l).exitPending = l.exitPending ∧ (logOccurrence o v l).exitSpoiled = l.exitSpoiled := by
    unfold logOccurrence
    dsimp only
    split <;> split <;> exact ⟨rfl, rfl, rfl⟩
  have alarmed (out : AlarmLine) (l : FaultLog) : (assertAlarm out l).safe = l.safe ∧
      (assertAlarm out l).exitPending = l.exitPending ∧ (assertAlarm out l).exitSpoiled = l.exitSpoiled := by
    cases out <;> exact ⟨rfl, rfl, rfl⟩
  unfold recordOccurrence
  split
  · exact ⟨rfl, rfl, rfl⟩
  · unfold reportFault
    split
    · rw [(moved_notifyAll _ _).log (by decide), mapLog_log, mapLog_log]
      obtain ⟨safe, pending, spoiled⟩ := alarmed ((s.mapLog (logOccurrence o (effectiveSeverity o s))).faultConfig o.kind).routing
        (logOccurrence o (effectiveSeverity o s) s.log)
      obtain ⟨safe', pending', spoiled'⟩ := logged (effectiveSeverity o s) s.log
      exact ⟨safe.trans safe', pending.trans pending', spoiled.trans spoiled'⟩
    · exact logged _ _

/-- An occurrence that is not fatal leaves safe state, and the exit, as they are. -/
theorem log_takeOccurrence_minor {o : Occurrence} {s : State} (minor : s.fatal o = false) :
    (takeOccurrence o s).safe = s.safe ∧ (takeOccurrence o s).log.exitSpoiled = s.log.exitSpoiled := by
  obtain ⟨safe, -, spoiled⟩ := log_recordOccurrence o s
  unfold takeOccurrence
  split
  · exact ⟨rfl, rfl⟩
  · rename_i kept
    split
    · rename_i fatal
      simp [State.fatal, fatal, kept] at minor
    · exact ⟨safe, spoiled⟩

/-- A fatal occurrence in safe state spoils a pending exit and does no more to the two. -/
theorem log_takeOccurrence_safe {o : Occurrence} {s : State} (safe : s.safe = true) (fatal : s.fatal o = true) :
    (takeOccurrence o s).safe = true ∧ (takeOccurrence o s).log.exitSpoiled = (s.log.exitPending || s.log.exitSpoiled) := by
  obtain ⟨same, pending, spoiled⟩ := log_recordOccurrence o s
  simp only [State.fatal, Bool.and_eq_true, decide_eq_true_eq, Bool.not_eq_true'] at fatal
  have still : (recordOccurrence o s).safe = true := same.trans safe
  have taken : takeOccurrence o s = spoilExit (recordOccurrence o s) := by
    rw [takeOccurrence, fatal.2, if_neg (by decide), if_pos fatal.1, takeFatal, still, if_pos rfl]
  rw [taken, spoilExit, pending]
  cases s.log.exitPending with
  | true => exact ⟨still, rfl⟩
  | false => exact ⟨still, spoiled⟩

theorem grows_takeOccurrence (o : Occurrence) {s : State} (safe : s.safe = true) : Grows s (takeOccurrence o s) := by
  have recorded : Grows s (recordOccurrence o s) := by
    unfold recordOccurrence
    split
    · exact .refl _
    · unfold reportFault
      split
      · obtain ⟨os, eq⟩ := Quieted.grows (quieted_notifyAll (.fault o.kind (effectiveSeverity o s))
          ((s.mapLog (logOccurrence o (effectiveSeverity o s))).mapLog
            (assertAlarm ((s.mapLog (logOccurrence o (effectiveSeverity o s))).faultConfig o.kind).routing)))
        exact ⟨os, eq⟩
      · exact grows_of_inbox rfl
  unfold takeOccurrence
  split
  · exact .refl _
  split
  · refine recorded.trans ?_
    have still : (recordOccurrence o s).safe = true := (log_recordOccurrence o s).1.trans safe
    rw [takeFatal, still, if_pos rfl, spoilExit]
    split
    · exact grows_of_inbox rfl
    · exact .refl _
  · exact recorded

theorem append_of_occurred {rest results rest' : List LogEvent} {os : List Occurrence}
    (eq : rest ++ os.map .occurred = results ++ .exitResult true :: rest') : ∃ rest'', rest = results ++ .exitResult true :: rest'' := by
  obtain ⟨xs, here, there⟩ | ⟨xs, here, there⟩ := List.append_eq_append_iff.1 eq
  · have result : LogEvent.exitResult true ∈ os.map LogEvent.occurred := by
      rw [there]
      simp
    simp at result
  · cases xs with
    | nil =>
      have result : LogEvent.exitResult true ∈ os.map LogEvent.occurred := by
        rw [← List.nil_append (os.map _), ← there]
        simp
      simp at result
    | cons x xs =>
      obtain ⟨rfl, -⟩ := List.cons.inj there
      exact ⟨xs, here⟩

theorem safe_occurrence_entered {s t : State} (taken : execOccurrence s = .next t) (out : s.safe = false) (safe : t.safe = true) :
    ∃ o rest, s.inbox = .occurred o :: rest ∧ effectiveSeverity o s = .fatal ∧ dropped o s = false := by
  have still {u : State} (off : u.safe = false) (eq : t = if s.powered then closeStep s u else s) : False := by
    rw [eq] at safe
    split at safe
    · rw [safe_of_none (acts_closeStep s u), off] at safe
      cases safe
    · rw [out] at safe
      cases safe
  unfold execOccurrence at taken
  cases inbox : s.inbox with
  | nil =>
    refine (still out ?_).elim
    cases taken
    simp only [inbox]
  | cons e rest =>
    cases e with
    | exitResult passed =>
      refine (still out ?_).elim
      cases taken
      simp only [inbox]
    | occurred o =>
      refine ⟨o, rest, rfl, ?_⟩
      cases fatal : s.fatal o with
      | true => simpa [State.fatal] using fatal
      | false =>
        have kept : (takeOccurrence o { s with inbox := rest }).safe = false :=
          (log_takeOccurrence_minor (s := { s with inbox := rest }) fatal).1.trans out
        refine (still (u := drainExit (takeOccurrence o { s with inbox := rest })) (safe_drainResults_of_out _ kept) ?_).elim
        cases taken
        simp only [inbox]

theorem safe_occurrence_left {s t : State} (taken : execOccurrence s = .next t) (safe : s.safe = true) (left : t.safe = false) :
    ∃ o results rest, s.inbox = .occurred o :: results ++ .exitResult true :: rest ∧
      (∀ x ∈ results, ∃ passed, x = .exitResult passed) ∧
      (.exitResult true ∉ results → s.log.exitSpoiled = false ∧
        ¬(s.log.exitPending = true ∧ effectiveSeverity o s = .fatal ∧ dropped o s = false)) := by
  have still {u : State} (on : u.safe = true) (eq : t = if s.powered then closeStep s u else s) : False := by
    rw [eq] at left
    split at left
    · rw [safe_of_none (acts_closeStep s u), on] at left
      cases left
    · rw [safe] at left
      cases left
  unfold execOccurrence at taken
  cases inbox : s.inbox with
  | nil =>
    refine (still safe ?_).elim
    cases taken
    simp only [inbox]
  | cons e events =>
    cases e with
    | exitResult passed =>
      refine (still safe ?_).elim
      cases taken
      simp only [inbox]
    | occurred o =>
      have was : State.safe { s with inbox := events } = true := safe
      have on : (takeOccurrence o { s with inbox := events }).safe = true := by
        cases fatal : State.fatal { s with inbox := events } o with
        | true => exact (log_takeOccurrence_safe was fatal).1
        | false => exact (log_takeOccurrence_minor fatal).1.trans safe
      cases drained : (drainExit (takeOccurrence o { s with inbox := events })).safe with
      | true =>
        refine (still drained ?_).elim
        cases taken
        simp only [inbox]
      | false =>
        obtain ⟨results, rest, eq, all, unspoiled⟩ := drainResults_leaves _ on drained
        obtain ⟨os, grown⟩ := grows_takeOccurrence o was
        rw [grown] at eq
        obtain ⟨rest', here⟩ := append_of_occurred eq
        refine ⟨o, results, rest', by rw [show events = _ from here]; rfl, all, fun none => ?_⟩
        have unspoiled := unspoiled none
        cases fatal : State.fatal { s with inbox := events } o with
        | true =>
          rw [(log_takeOccurrence_safe was fatal).2, Bool.or_eq_false_iff] at unspoiled
          exact ⟨unspoiled.2, fun ⟨pending, _, _⟩ => by
            rw [show s.log.exitPending = false from unspoiled.1] at pending
            cases pending⟩
        | false =>
          rw [(log_takeOccurrence_minor fatal).2] at unspoiled
          refine ⟨unspoiled, fun ⟨_, severity, kept⟩ => ?_⟩
          have fatal' : State.fatal { s with inbox := events } o = true := by
            unfold State.fatal
            rw [show effectiveSeverity o { s with inbox := events } = .fatal from severity,
              show dropped o { s with inbox := events } = false from kept]
            rfl
          rw [fatal'] at fatal
          cases fatal

/-- An exit result handed over behind what waits: nothing is taken while an occurrence waits. -/
theorem safe_endExit {s : State} (taken : s.ResultsTaken) (safe : s.safe = true) {passed : Bool} (left : (endExit passed s).safe = false) :
    passed = true ∧ s.inbox = [] ∧ s.log.exitSpoiled = false := by
  unfold endExit at left
  obtain ⟨results, rest, eq, all, unspoiled⟩ := drainResults_leaves _ (s := raiseExit passed (s.mapChain fun c => { c with exitRequest := false }))
    safe left
  have eq : s.inbox ++ [.exitResult passed] = results ++ .exitResult true :: rest := eq
  cases inbox : s.inbox with
  | nil =>
    rw [inbox] at eq
    cases results with
    | nil =>
      obtain ⟨same, -⟩ := List.cons.inj eq
      cases same
      exact ⟨rfl, rfl, unspoiled (by simp)⟩
    | cons x xs => simp at eq
  | cons e events =>
    rw [inbox] at eq
    cases e with
    | exitResult b => exact absurd inbox (taken b events)
    | occurred o =>
      cases results with
      | nil => cases (List.cons.inj eq).1
      | cons x xs =>
        obtain ⟨b, result⟩ := all x (List.mem_cons_self ..)
        rw [result] at eq
        cases (List.cons.inj eq).1

theorem log_endWithoutLatch (s : State) : (endWithoutLatch s).log = s.log := (moved_endWithoutLatch s).log (by decide)

theorem log_endOperation (content : Option Image) (s : State) : (endOperation content s).log = s.log :=
  (moved_endOperation content s).log (by decide)

theorem inbox_of_ended {s : State} (content : Option Image) (none : (endWithoutLatch (endOperation content s)).inbox = []) :
    s.inbox = [] := by
  obtain ⟨os, eq⟩ := grows_of_none ((acts_endOperation content s).trans (acts_endWithoutLatch _))
  rw [none] at eq
  exact (List.append_eq_nil_iff.1 eq.symm).1

theorem safe_resyncPass {s t : State} (taken : execResyncPass s = .next t) (results : s.ResultsTaken) (safe : s.safe = true)
    (left : t.safe = false) : s.inbox = [] ∧ s.log.exitSpoiled = false ∧
      ∃ o, s.chain.op = some o ∧ o.kind = .resync ∧ o.phase = .checking ∧ o.purpose = .exit := by
  have still {u : State} (on : u.safe = true) (eq : t = if s.powered then closeStep s u else s) : False := by
    rw [eq] at left
    split at left
    · rw [safe_of_none (acts_closeStep s u), on] at left
      cases left
    · rw [safe] at left
      cases left
  unfold execResyncPass at taken
  cases phase : s.inPhase .resync .checking with
  | false =>
    refine (still safe ?_).elim
    cases taken
    simp only [phase]
    rfl
  | true =>
    obtain ⟨o, op, kind, checking⟩ := (inPhase_iff s _ _).1 phase
    have eq : t = if s.powered then
        closeStep s (afterResync s.purpose (endWithoutLatch (endOperation (some s.chain.latched) s))) else s := by
      cases taken
      simp only [phase]
      rfl
    have ended : (endWithoutLatch (endOperation (some s.chain.latched) s)).safe = true := by
      rw [State.safe, log_endWithoutLatch, log_endOperation]
      exact safe
    have purpose : s.purpose = some o.purpose := by rw [State.purpose, op]; rfl
    cases why : o.purpose with
    | exit =>
      rw [purpose, why] at eq
      cases after : (endExit true (endWithoutLatch (endOperation (some s.chain.latched) s))).safe with
      | true => exact (still after eq).elim
      | false =>
        obtain ⟨-, empty, unspoiled⟩ := safe_endExit (resultsTaken_of_grows (grows_of_none ((acts_endOperation (some s.chain.latched) s).trans
          (acts_endWithoutLatch _))) results) ended after
        rw [log_endWithoutLatch, log_endOperation] at unspoiled
        exact ⟨inbox_of_ended _ empty, unspoiled, o, op, kind, checking, why⟩
    | retry =>
      rw [purpose, why] at eq
      exact (still ((safe_of_end (acts_afterRetry rfl _)).trans ended) eq).elim
    | _ =>
      rw [purpose, why] at eq
      exact (still ((safe_of_none (acts_closeAttempt _)).trans ended) eq).elim

theorem safe_takeMismatch {o : Operation} {bit : Nat} {s : State} (results : s.ResultsTaken) (safe : s.safe = true) :
    (takeMismatch o bit s).safe = true := by
  have acts : Acts none s (endWithoutLatch (raise (chainMismatch bit o.kind (o.purpose ≠ .exit && s.chain.attempt.isSome)) (endOperation none s))) :=
    ((acts_endOperation none s).trans (quieted_raise _ _).acts).trans (acts_endWithoutLatch _)
  have ended := (safe_of_none acts).trans safe
  unfold takeMismatch
  dsimp only
  unfold afterMismatch
  split
  · cases after : (endExit false (endWithoutLatch (raise (chainMismatch bit o.kind (o.purpose ≠ .exit && s.chain.attempt.isSome))
        (endOperation none s)))).safe with
    | true => rfl
    | false => cases (safe_endExit (resultsTaken_of_grows (grows_of_none acts) results) ended after).1
  split
  · exact (safe_of_end (acts_escalate rfl _)).trans ended
  · refine (safe_of_end (acts_firstMismatch rfl _ ?_)).trans ended
    rw [op_endWithoutLatch]
    exact op_endOperation none s

theorem safe_mismatch {bit : Nat} {s t : State} (taken : execMismatch bit s = .next t) (results : s.ResultsTaken) (safe : s.safe = true) :
    t.safe = true := by
  unfold execMismatch at taken
  cases taken
  split
  · rw [safe_of_none (acts_closeStep s _)]
    dsimp only
    split
    · split
      · exact safe_takeMismatch results safe
      · exact safe
    · exact safe
  · exact safe

/-- Settles O15: only the taking of what waits for the Fault Log changes safe state, and there a fatal occurrence or a passed result. -/
theorem safeStateChanges : Obligations.SafeStateChanges := by
  intro c s t taken
  refine ⟨fun out safe => ?_, fun results safe left => ?_⟩
  · by_cases on : c = .powerOn
    · subst on
      cases powered : s.powered with
      | true =>
        rw [exec_powerOn_of_powered powered taken, out] at safe
        cases safe
      | false =>
        rw [safe_of_none (acts_powerOn powered taken)] at safe
        cases safe
    by_cases off : c = .powerLoss
    · subst off
      cases taken
      split at safe
      · cases safe
      · rw [out] at safe
        cases safe
    by_cases occurrence : c = .occurrence
    · subst occurrence
      exact ⟨rfl, safe_occurrence_entered taken out safe⟩
    · have still : t.safe = false := by
        refine kept_of_acts (I := fun t => t.safe = false) (fun u v move same => ?_) (acts_exec on off taken) out
        obtain kept | here | ⟨i, -, -, left⟩ := safe_of_act move
        · exact kept.trans same
        · exact absurd (Option.some.inj here) occurrence
        · exact left
      rw [still] at safe
      cases safe
  · by_cases on : c = .powerOn
    · exact .inl on
    by_cases off : c = .powerLoss
    · exact .inr (.inl off)
    cases takes : takesEvents c with
    | false =>
      rw [safe_of_acts (fun i same => Option.some.inj same ▸ takes) (acts_exec on off taken), safe] at left
      cases left
    | true =>
      cases c with
      | occurrence => exact .inr (.inr (.inr ⟨rfl, safe_occurrence_left taken safe left⟩))
      | resyncPass => exact .inr (.inr (.inl ⟨rfl, safe_resyncPass taken results safe left⟩))
      | mismatch bit =>
        rw [safe_mismatch taken results safe] at left
        cases left
      | _ => cases takes

end Sys2Proof.Machine
end

section
/-! The reset state, and the requests that act on the store, on the fault log and on one field of the allocator: SAVE (R191, R192),
CANCEL (R69), FOLLOW off (R78) and FAULT_CLEAR (R166). -/

namespace Sys2Proof.Machine

/-! ## The reset state -/

theorem latched_reset (b : Nat) : State.reset.chain.latched.getLsbD b = false := getLsbD_open b

theorem composed_reset : State.reset.composed = 0 := by decide

theorem imageLegal_open : ImageLegal 0 :=
  ⟨by decide, fun p f g closed => by rw [getLsbD_open] at closed; cases closed⟩

theorem relaysHeld_reset : State.reset.RelaysHeld where
  composed := composed_reset.symm
  flags x mem := absurd mem List.not_mem_nil
  owned p l closed := by
    obtain closed | ⟨o, flying, -⟩ := closed
    · rw [latched_reset] at closed; cases closed
    · cases flying
  filters p f := by
    rw [latched_reset]
    have none : (State.reset.filterOf p).current = none := by revert p; decide
    simp [none]
  oneCrosspoint l _ im which p q closed := by
    obtain rfl | rfl | ⟨o, flying, -⟩ := which
    · rw [latched_reset] at closed; cases closed
    · rw [show State.reset.chain.pending = 0 from rfl, getLsbD_open] at closed; cases closed
    · cases flying

theorem off_reset (p : Position) : State.reset.onAir p = false := by revert p; decide

theorem not_engaged_reset (p : Position) : ¬State.reset.Engaged p := by
  rw [State.Engaged, off_reset]
  revert p
  decide

theorem pathsHeld_reset : State.reset.PathsHeld where
  unswitched p on := absurd on (not_engaged_reset p)
  still p _ on := absurd on (not_engaged_reset p)
  filter p on := by rw [off_reset] at on; cases on
  line p on := by rw [off_reset] at on; cases on

theorem listOf_reset (l : Line) : State.reset.listOf l = [] := by revert l; decide

theorem linesShared_reset : State.reset.LinesShared where
  counts T which l := by
    have factory : T = factoryTable := by
      obtain rfl | snapshot | rfl := which
      · rfl
      · cases snapshot
      · rfl
    subst factory
    revert l
    decide
  waited l _ := listOf_reset l
  ports l _ := Nat.zero_le _
  oneRoute l _ x mem := absurd mem List.not_mem_nil

theorem allocationKeyed_reset : State.reset.AllocationKeyed where
  records := List.nodup_nil
  routed x mem := absurd mem List.not_mem_nil
  stored x mem := absurd mem List.not_mem_nil
  lists l := by rw [listOf_reset]; exact List.nodup_nil
  placed l e mem := by rw [listOf_reset] at mem; cases mem
  oneList k l x mem := by rw [listOf_reset] at mem; cases mem
  apart l e mem := by rw [listOf_reset] at mem; cases mem

theorem chainLegal_reset : State.reset.ChainLegal where
  legal o flying := by cases flying
  carried o flying := by cases flying
  settle := ⟨fun timer => (by cases timer), fun ⟨o, flying, _⟩ => by cases flying⟩
  verify _ := rfl
  safe on := by cases on

/-- Settles O4: at reset nothing is recorded, queued, in flight or on the air. -/
theorem resetMeetsInvariants : Obligations.ResetMeetsInvariants := by
  refine ⟨by unfold State.QueuesBounded; decide, by unfold State.CountersBounded; decide, fun on => (by cases on), ?_, ?_, chainLegal_reset,
    ⟨imageLegal_open, imageLegal_open, fun o flying => (by cases flying)⟩, allocationKeyed_reset, fun l => ?_, fun l _ => by revert l; decide,
    ?_, linesShared_reset, fun passed rest head => (by cases head), ?_, relaysHeld_reset, pathsHeld_reset, fun p => ?_, fun saving => by cases saving⟩
  · exact ⟨by decide, fun p q _ on => by rw [off_reset] at on; cases on⟩
  · have states (p : Position) : (State.reset.txOf p) = clearTx := by revert p; decide
    refine ⟨⟨List.nodup_nil, fun p => ?_⟩, fun p => ?_⟩
    · rw [states]; simp [State.reset, clearTx]
    · rw [states]
      exact ⟨by decide, by decide, fun skip => (by cases skip), fun on => by cases on⟩
  · rw [listOf_reset]
    exact ⟨by simp, .nil⟩
  · intro q k l named
    have none : (State.reset.standing q k).reclaim = none := by clear named; cases k <;> (revert q; decide)
    rw [none] at named
    cases named
  · exact ⟨fun x mem => absurd mem List.not_mem_nil, fun l e mem => by rw [listOf_reset] at mem; cases mem⟩
  · have port : State.reset.link p = clearLink (26, 5) := by revert p; decide
    rw [port]
    exact ⟨by decide, by decide, fun waiting => by cases waiting⟩

/-! ## Notices (R181, R182) -/

theorem notify_of_absent {p : Position} {s : State} (absent : s.present p = false) (n : Notice) : notify p n s = s := by
  simp [notify, absent]

theorem notify_of_room {p : Position} {s : State} (present : s.present p = true) (room : (s.link p).queue.length < 6) (n : Notice) :
    notify p n s = sendFrame p n.frame s := by
  simp [notify, present, Config.noticeLimit, room]

theorem notify_of_full {p : Position} {s : State} (present : s.present p = true) (full : ¬(s.link p).queue.length < 6) {n : Notice}
    (told : ∀ k sev, n ≠ .fault k sev) :
    notify p n s = raise { kind := .noticeDrop, pos := some p, line := none, band := none, detail := .dropped n.frame.kind }
      (s.mapLink p fun x => { x with noticeLost := true }) := by
  cases n with
  | fault k sev => exact absurd rfl (told k sev)
  | _ => simp [notify, present, Config.noticeLimit, full]

/-! ## SAVE (R191, R192) -/

theorem exec_save_of_offers {s : State} {p : Position} {f : Frame} (offered : Offers s p f 1) (kind : f.kind = 0x0B) :
    exec (.save p) s = .next (freeSlot p (serveSave p f s)) :=
  whilePowered_takeRequest_of_offers (need := fun _ => 1) offered (by simp [isKind, kind, kindSave]) _

theorem otherSum_cases (v total : BitVec 16) : otherSum v total = v ∨ v = total := by
  unfold otherSum
  split <;> simp_all

/-- SAVE_DONE at the requester, by its presence and the room in its queue. -/
theorem notify_saveDone (p : Position) (r : SaveResult) (t : State) :
    notify p (.saveDone r) t =
      if t.present p = false then t
      else if (t.link p).queue.length < 6 then
        t.withLink p { t.link p with
          queue := (t.link p).queue ++ [{ kind := 0x47, payload := [byte (saveResultCode r)] }], sending := true }
      else { t.withLink p { t.link p with noticeLost := true } with
        inbox := t.inbox ++ [.occurred { kind := .noticeDrop, pos := some p, line := none, band := none, detail := .dropped 0x47 }] } := by
  by_cases absent : t.present p = false
  · rw [if_pos absent, notify_of_absent absent]
  · have present : t.present p = true := Bool.eq_true_of_not_eq_false absent
    rw [if_neg absent]
    by_cases room : (t.link p).queue.length < 6
    · rw [if_pos room, notify_of_room present room]
      rfl
    · rw [if_neg room, notify_of_full present room (by simp)]
      rfl

/-- Settles O33: SAVE by the first test that fails, and each end of the write by what becomes of its notice. -/
theorem saveTaken : Obligations.SaveTaken := by
  refine ⟨fun s p f offered kind => ?_, fun s p x on saving snapshot requester => ?_⟩
  · have refused {c : Code} (served : serveSave p f s = answer p f c s) :
        exec (.save p) s = .next (s.answered p [f.reply c []]) := by
      rw [exec_save_of_offers offered kind, served, freeSlot_answer]
    refine ⟨fun payload => refused ?_, fun payload notReady => refused ?_, fun payload ready locked => refused ?_,
      fun payload ready locked saving => refused ?_, fun payload ready locked idle => ?_⟩
    · simp [serveSave, payload]
    · simp [serveSave, payload, State.isReady, notReady]
    · simp [serveSave, payload, State.isReady, ready, locked]
    · simp [serveSave, payload, State.isReady, ready, locked, saving]
    · rw [exec_save_of_offers offered kind]
      refine ⟨s.store.nv.unfinished.sum, otherSum_cases _ _, s.store.nv.unfinished_sum_ne, ?_⟩
      have served : serveSave p f s = answer p f .ok (s.mapStore fun x => x.save s.table p) := by
        simp [serveSave, payload, State.isReady, ready, locked, idle]
      rw [served, freeSlot_answer]
      rfl
  · have ended (r : SaveResult) {u : State} (served : raiseSaveFault r (some p) (s.mapStore fun y => y.saveEnd r) = u) :
        exec (.saveWriteEnd r) s = .next (notify p (.saveDone r) u) := by
      show execSaveWriteEnd r s = _
      rw [execSaveWriteEnd, whilePowered_of_powered _ on]
      simp only [saving, if_true, requester, served, noticeSaved]
    dsimp only
    constructor
    · rw [ended .ok rfl]
      simp only [notify_saveDone, State.mapStore, Store.saveEnd, snapshot]
      rfl
    · rw [ended .failed rfl]
      simp only [notify_saveDone, State.mapStore, Store.saveEnd, snapshot]
      rfl

/-! ## CANCEL and FOLLOW off (R69, R78) -/

theorem portKindsOf_eq_none {n : Nat} (large : 3 ≤ n) : portKindsOf n = none := by
  obtain ⟨k, rfl⟩ := Nat.exists_eq_add_of_le' large
  rfl

theorem kindsOf_eq_none {bs : List Byte} (out : bs.length ≠ 1 ∨ 3 ≤ byteAt bs 0) : kindsOf bs = none := by
  match bs with
  | [] => rfl
  | [b] => exact portKindsOf_eq_none (out.resolve_left (by simp))
  | _ :: _ :: _ => rfl

theorem followOf_eq_none {bs : List Byte} (out : bs.length ≠ 2 ∨ 3 ≤ byteAt bs 0 ∨ 2 ≤ byteAt bs 1) : followOf bs = none := by
  match bs with
  | [] => rfl
  | [_] => rfl
  | [a, b] =>
    obtain out | out := out.resolve_left (by simp)
    · have none : portKindsOf a.toNat = none := portKindsOf_eq_none out
      simp [followOf, none]
    · have none : flagOf b.toNat = none := flagOf_eq_none out
      simp [followOf, none]
  | _ :: _ :: _ :: _ => rfl

theorem exec_cancel_of_offers {s : State} {p : Position} {f : Frame} (offered : Offers s p f 1) (kind : f.kind = 0x05) :
    exec (.cancel p) s = .next (freeSlot p (serveCancel p f s)) :=
  whilePowered_takeRequest_of_offers (need := fun _ => 1) offered (by simp [isKind, kind, kindCancel]) _

theorem exec_followOff_of_offers {s : State} {p : Position} {f : Frame} (offered : Offers s p f 1) (kind : f.kind = 0x06)
    (off : (followOf f.payload).map (·.2) = some false ∨ followOf f.payload = none) :
    exec (.followOff p) s = .next (freeSlot p (serveFollowOff p f s)) :=
  whilePowered_takeRequest_of_offers (need := fun _ => 1) offered (by simpa [followFits, kind, kindFollow] using off) _

/-- A FOLLOW sets the follow state of the kinds it names, each once. -/
theorem standing_setFollow (p : Position) (on : Bool) (ks : List PortKind) (s : State) (q : Position) (k : PortKind) :
    (setFollow p ks on s).standing q k =
      if q = p ∧ k ∈ ks then { s.standing q k with follow := on, due := false, reclaim := none } else s.standing q k := by
  unfold setFollow
  induction ks generalizing s with
  | nil => simp
  | cons j ks ih =>
    rw [List.foldl_cons, ih, standing_mapStanding]
    by_cases same : q = p <;> by_cases now : k = j <;> by_cases later : k ∈ ks <;> simp_all

theorem standings_only_setFollow (p : Position) (on : Bool) (ks : List PortKind) (s : State) :
    ∃ v, setFollow p ks on s = { s with alloc := { s.alloc with standings := v } } := by
  unfold setFollow
  induction ks generalizing s with
  | nil => exact ⟨_, rfl⟩
  | cons k ks ih =>
    obtain ⟨v, done⟩ := ih (s.mapStanding p k fun x => { x with follow := on, due := false, reclaim := none })
    exact ⟨v, done⟩

/-- Settles O47: CANCEL and FOLLOW off, each by its payload. -/
theorem cancelAndFollowOff : Obligations.CancelAndFollowOff := by
  refine ⟨fun s p f b ks offered kind payload named => ?_, fun s p f offered kind malformed => ?_,
    fun s p f b ks d offered kind payload named => ?_, fun s p f offered kind malformed => ?_⟩
  · have kinds : kindsOf f.payload = some ks := by
      obtain ⟨rfl, rfl⟩ | ⟨rfl, rfl⟩ | ⟨rfl, rfl⟩ := named <;> rw [payload] <;> rfl
    refine ⟨_, exec_cancel_of_offers offered kind, ?_⟩
    simp only [serveCancel, kinds, freeSlot_answer]
    refine ⟨rfl, rfl, rfl, fun l => ?_⟩
    show (cancelKinds p ks s).listOf l = _
    simp [cancelKinds, listOf_mapLists]
  · rw [exec_cancel_of_offers offered kind, serveCancel, kindsOf_eq_none malformed]
    exact congrArg _ (freeSlot_answer p f .badRequest s)
  · have parsed : followOf f.payload = some (ks, false) ∧ followOffBytes ks = d := by
      obtain ⟨rfl, rfl, rfl⟩ | ⟨rfl, rfl, rfl⟩ | ⟨rfl, rfl, rfl⟩ := named <;> rw [payload] <;> exact ⟨rfl, rfl⟩
    obtain ⟨set, bytes⟩ := parsed
    refine ⟨_, exec_followOff_of_offers offered kind (.inl (by rw [set]; rfl)), ?_⟩
    simp only [serveFollowOff, set, bytes, freeSlot_reply]
    obtain ⟨v, follows⟩ := standings_only_setFollow p false ks s
    refine ⟨?_, ?_, ?_, fun q k => ?_⟩
    · rw [follows]; rfl
    · rw [follows]; rfl
    · rw [follows]; rfl
    · show (setFollow p ks false s).standing q k = _
      exact standing_setFollow p false ks s q k
  · rw [exec_followOff_of_offers offered kind (.inr (followOf_eq_none malformed)), serveFollowOff, followOf_eq_none malformed]
    exact congrArg _ (freeSlot_answer p f .badRequest s)

/-! ## FAULT_CLEAR (R166) -/

theorem exec_faultClear_of_offers {s : State} {p : Position} {f : Frame} (offered : Offers s p f 1) (kind : f.kind = 0x0D) :
    exec (.faultClear p) s = .next (closeStep s (freeSlot p (serveFaultClear p f s))) :=
  wholeStep_takeRequest_of_offers (need := fun _ => 1) offered (by simp [isKind, kind, kindFaultClear]) _

theorem anyRf_iff (s : State) : s.anyRf = true ↔ ∃ q, (s.txOf q).rf = true := by
  simp [State.anyRf, mem_allPositions]

/-- The start rule in safe state, with an exit asked for and nothing in its way. -/
theorem startRule_of_exit {s : State} (ended : s.chain.op = none) (started : s.store.ready ≠ .starting)
    (free : s.chain.heldForEntry = false) (safe : s.safe = true) (asked : s.chain.exitRequest = true) :
    startRule s = startResync .exit s := by
  simp [startRule, ended, started, free, safe, asked]

theorem requestExit_of_safe {s : State} (safe : s.safe = true) :
    requestExit s = { s with
      log := { s.log with exitPending := true, exitSpoiled := false }
      chain := { s.chain with exitRequest := s.chain.exitRequest || !s.log.exitPending } } := if_pos safe

/-- Settles O55: FAULT_CLEAR by the first test that fails, and an accepted one by safe state. -/
theorem faultClearTaken : Obligations.FaultClearTaken := by
  intro s p f offered kind
  have served {u v : State} (serves : serveFaultClear p f s = u) (freed : freeSlot p u = v) (tx : v.tx = s.tx)
      (ready : v.store.ready = s.store.ready) : exec (.faultClear p) s = .next (startRule v) := by
    rw [exec_faultClear_of_offers offered kind, serves, freed, closeStep_of_tx tx ready]
  have refused {c : Code} (serves : serveFaultClear p f s = answer p f c s) :
      exec (.faultClear p) s = .next (startRule (s.answered p [f.reply c []])) :=
    served serves (freeSlot_answer p f c s) rfl rfl
  refine ⟨fun payload => refused ?_, fun payload locked => refused ?_, fun payload open' safe rf => refused ?_,
    fun payload open' out => ?_, fun payload open' safe quiet => ?_⟩
  · simp [serveFaultClear, payload]
  · simp [serveFaultClear, payload, locked]
  · simp [serveFaultClear, payload, open', safe, (anyRf_iff s).2 rf]
  · have serves : serveFaultClear p f s = answer p f .ok (s.mapLog FaultLog.clear) := by
      have still : (answer p f .ok (s.mapLog FaultLog.clear)).safe = false := out
      simp [serveFaultClear, payload, open', out, requestExit, still]
    exact served serves (freeSlot_answer p f .ok _) rfl rfl
  · have quiet : s.anyRf = false := by
      rw [Bool.eq_false_iff, Ne, anyRf_iff]
      exact fun ⟨q, on⟩ => by rw [quiet q] at on; cases on
    have still : (answer p f .ok (s.mapLog FaultLog.clear)).safe = true := safe
    have after : ((s.mapLog FaultLog.clear).answered p [f.reply .ok []]).safe = true := safe
    have serves : serveFaultClear p f s = requestExit (answer p f .ok (s.mapLog FaultLog.clear)) := by
      simp [serveFaultClear, payload, open', quiet]
    have freed : freeSlot p (requestExit (answer p f .ok (s.mapLog FaultLog.clear))) =
        requestExit ((s.mapLog FaultLog.clear).answered p [f.reply .ok []]) := by
      rw [requestExit_of_safe still, requestExit_of_safe after, ← freeSlot_answer]
      rfl
    rw [requestExit_of_safe after] at freed
    refine ⟨served serves freed rfl rfl, fun ended started free asked => ?_⟩
    exact (startRule_of_exit (by exact ended) (by exact started) (by exact free) (by exact safe) (by exact asked)).trans rfl

end Sys2Proof.Machine
end

section
/-! QUERY and the frames of unknown kind (R177, R180): the data of each subject in the layout of R180 and R185. -/

namespace Sys2Proof

theorem put_get {α : Type} {n : Nat} (v : Vector α n) (i : Fin n) : put v i (v.get i) = v := by
  simp [put, Vector.get_eq_getElem]

namespace Machine

theorem mapLink_of_same {s : State} {p : Position} {g : Link → Link} (same : g (s.link p) = s.link p) : s.mapLink p g = s := by
  rw [State.mapLink, same, State.link, put_get]

/-! ## Items of R185 -/

/-- The members of a list behind their number. -/
theorem listBytes_eq {α : Type} (g : α → List Byte) (xs : List α) :
    listBytes g xs = byte (xs.map g).length :: (xs.map g).flatten := by
  rw [listBytes, List.length_map, List.flatMap_def]

theorem optByte_eq (x : Option Nat) : optByte x = x.elim 0xFF byte := by
  cases x <;> rfl

theorem holderBytes_eq : Holder.bytes = fun x : Holder => [byte x.pos.val, byte x.route.val, byte x.kind.code, byte x.state.code,
    flag x.latched, flag x.breakRequested, (x.reroute.map (·.val)).elim 0xFF byte] := by
  funext x
  rw [Holder.bytes, optByte_eq]

theorem optBytes_eq (x : Option Nat) : optBytes 3 x = x.elim [0xFF, 0xFF, 0xFF] (bigEndian 3) := by
  cases x <;> rfl

theorem bandLabel_eq (s : State) (x : Option Band) :
    s.bandLabel x = x.elim (List.replicate 6 0xFF) (fun b => padLabel 6 (s.table.bands.get b).label) := by
  cases x <;> rfl

/-! ## The parts of a position -/

/-- The wait entry that a position's reply names is the first of its own on a line of the kind. -/
theorem waitBytes_spec (s : State) (p : Position) (k : PortKind) :
    (s.waitBytes p k = [0xFF, 0xFF] ∧ ∀ l, s.portOf l = k → ∀ e ∈ s.listOf l, e.pos ≠ p) ∨
      ∃ l front e back, s.portOf l = k ∧ s.listOf l = front ++ e :: back ∧ e.pos = p ∧ (∀ x ∈ front, x.pos ≠ p) ∧
        s.waitBytes p k = [byte l.val, byte (front.length + 1)] := by
  cases waits : s.waitsOn p k with
  | none =>
    refine .inl ⟨by simp only [State.waitBytes, waits]; rfl, fun l port e mem same => ?_⟩
    have never := List.find?_eq_none.1 waits l (List.mem_finRange l)
    exact never (by simpa [port] using ⟨e, mem, same⟩)
  | some l =>
    have found := List.find?_some waits
    simp only [Bool.and_eq_true, decide_eq_true_eq, List.any_eq_true] at found
    obtain ⟨port, e, mem, same⟩ := found
    cases first : (s.listOf l).find? fun e => e.pos = p with
    | none => exact absurd same (by simpa using List.find?_eq_none.1 first e mem)
    | some x =>
      obtain ⟨is, front, back, split, before⟩ := List.find?_eq_some_iff_append.1 first
      have before : ∀ y ∈ front, y.pos ≠ p := by simpa using before
      have is : x.pos = p := by simpa using is
      refine .inr ⟨l, front, x, back, port, split, is, before, ?_⟩
      have place : s.placeIn p l = front.length + 1 := by
        rw [State.placeIn, split, List.findIdx_append]
        have none : front.findIdx (fun e => e.pos = p) = front.length := by
          rw [List.findIdx_eq_length]
          simpa using before
        simp [none, List.findIdx_cons, is]
      simp only [State.waitBytes, waits, place]

theorem elim_waitingPlace (s : State) (p : Position) :
    (s.waitingPlace p).elim 0xFF byte = if p ∈ s.waiting then byte (s.waiting.findIdx (fun q => q = p) + 1) else 0xFF := by
  unfold State.waitingPlace
  by_cases mem : p ∈ s.waiting <;> simp [mem]

theorem harmonicBytes_eq (s : State) (p : Position) :
    s.harmonicBytes p =
      listBytes (fun r => byte r.val :: (s.harmonicTest p r).elim [0xFF, 0xFF, 0xFF] fun w => byte w.1 :: bigEndian 2 w.2)
        (allPositions.filter fun r => (s.freqOf p).transmit.isSome && s.protectedFrom p r) ++
      listBytes pairBytes (s.advisory.filter fun w => w.1 = p || w.2 = p) := by
  have receivers : (if (s.freqOf p).transmit.isSome then allPositions.filter fun r => s.protectedFrom p r else []) =
      allPositions.filter fun r => (s.freqOf p).transmit.isSome && s.protectedFrom p r := by
    cases (s.freqOf p).transmit.isSome <;> simp
  have one : (fun r : Position => match s.harmonicTest p r with
        | some (n, m) => [byte r.val, byte n] ++ bigEndian 2 m
        | none => [byte r.val, noneByte, noneByte, noneByte]) =
      fun r => byte r.val :: (s.harmonicTest p r).elim [0xFF, 0xFF, 0xFF] fun w => byte w.1 :: bigEndian 2 w.2 := by
    funext r
    cases s.harmonicTest p r <;> rfl
  rw [State.harmonicBytes, receivers]
  exact congrArg (fun g => listBytes g _ ++ _) one

theorem positionBytes_eq (l : FaultLog) (p : Position) :
    l.positionBytes p =
      listBytes id ((([(l.firstSerious, 1), (l.firstMinor, 0)] : List (Option LogRecord × Byte)).filterMap fun w =>
        (w.1.filter fun r => r.occ.pos = some p).map fun r => [byte r.occ.kind.number, w.2])) := by
  unfold FaultLog.positionBytes
  cases l.firstSerious with
  | none =>
    cases l.firstMinor with
    | none => rfl
    | some y => by_cases his : y.occ.pos = some p <;> simp [his, Option.filter]
  | some x =>
    by_cases its : x.occ.pos = some p <;> cases l.firstMinor with
    | none => simp [its, Option.filter]
    | some y => by_cases his : y.occ.pos = some p <;> simp [its, his, Option.filter]

theorem pairBytes_eq : pairBytes = fun x : Position × Position => [byte x.1.val, byte x.2.val] := rfl

/-! ## The parts of a board -/

theorem boardByte_eq (im : Image) (n : Nat) : boardByte im n = BitVec.ofFnLE fun j : Fin 8 => im.getLsbD (8 * n + j.val) := by
  apply BitVec.eq_of_getLsbD_eq
  intro i small
  rw [BitVec.getLsbD_ofFnLE]
  simp [boardByte, small, Nat.mul_comm]

/-! ## The four subjects -/

theorem queryData_position (s : State) (p : Position) : s.queryData 1 p.val = some (s.positionReply p) := by
  simp [State.queryData, below_eq_some p.isLt]

theorem queryData_line (s : State) (l : Line) : s.queryData 2 l.val = some (s.lineBytes l) := by
  simp [State.queryData, below_eq_some l.isLt]

theorem queryData_station (s : State) : s.queryData 0 0 = some s.stationReply := rfl

theorem queryData_board {s : State} {n : Nat} (inside : n < s.policy.chainLength) : s.queryData 3 n = some (s.boardBytes n) := by
  simp [State.queryData, inside]

theorem queryData_eq_none {s : State} {a b : Byte}
    (out : 3 < a.toNat ∨ (a = 0 ∧ b ≠ 0) ∨ (a = 1 ∧ 6 ≤ b.toNat) ∨ (a = 2 ∧ 16 ≤ b.toNat) ∨
      (a = 3 ∧ s.policy.chainLength ≤ b.toNat)) : s.queryData a.toNat b.toNat = none := by
  obtain out | ⟨rfl, other⟩ | ⟨rfl, out⟩ | ⟨rfl, out⟩ | ⟨rfl, out⟩ := out
  · obtain ⟨k, subject⟩ := Nat.exists_eq_add_of_le' out
    rw [subject]
    rfl
  · have nonzero : b.toNat ≠ 0 := fun zero => other (BitVec.eq_of_toNat_eq zero)
    simp [State.queryData, nonzero]
  · simp [State.queryData, below_eq_none out]
  · simp [State.queryData, below_eq_none out]
  · simp [State.queryData, not_lt.2 out]

/-! ## QUERY -/

theorem exec_query_of_offers {s : State} {p : Position} {f : Frame} (offered : Offers s p f 4) (kind : f.kind = 0x08) :
    exec (.query p) s = .next (freeSlot p (serveQuery p f s)) :=
  whilePowered_takeRequest_of_offers (need := fun _ => Config.maxReplyFrames) offered (by simp [isKind, kind, kindQuery]) _

/-- The notice-lost flag is none of what the freeing of a slot reads. -/
theorem freeSlot_clearNotice (p : Position) (s : State) :
    freeSlot p (s.mapLink p fun x => { x with noticeLost := false }) =
      (freeSlot p s).mapLink p fun x => { x with noticeLost := false } := by
  simp only [freeSlot, mapLink_mapLink, policy_mapLink]
  rfl

/-- Settles O25: the bytes of each subject, item by item, and the answer to each QUERY. -/
theorem queryAndUnknownAnswered : Obligations.QueryAndUnknownAnswered := by
  refine ⟨fun s p f offered kind => ⟨fun length => ?_, fun a b payload => ⟨fun out => ?_, fun d data => ?_⟩⟩,
    fun s a b named => ?_, fun s => ⟨fun p => ?_, fun l => ?_, ?_, fun n inside => ?_⟩, fun s p f offered kind => ?_⟩
  · rw [exec_query_of_offers offered kind]
    have served : serveQuery p f s = refuseParts p f .badRequest s := by
      unfold serveQuery
      split
      · exact absurd (by simp [*]) length
      · rfl
    rw [served, refuseParts, freeSlot_reply]
  · rw [exec_query_of_offers offered kind]
    have served : serveQuery p f s = refuseParts p f .badIndex s := by
      simp only [serveQuery, payload, queryData_eq_none out]
    rw [served, refuseParts, freeSlot_reply]
  · rw [exec_query_of_offers offered kind]
    simp only [serveQuery, payload, data]
    by_cases own : a = 1 ∧ b.toNat = p.val
    · obtain ⟨rfl, own⟩ := own
      have asked : ((1 : Byte).toNat = 1 && b.toNat = p.val) = true := by simp [own]
      rw [if_pos asked, freeSlot_clearNotice, freeSlot_replyParts]
      simp only [own, decide_true, Bool.and_self, Bool.not_true, Bool.and_false]
    · have other : (a.toNat = 1 && b.toNat = p.val) = false := by
        have apart : a.toNat = 1 → a = 1 := fun one => BitVec.eq_of_toNat_eq one
        simpa using fun one => fun same => own ⟨apart one, same⟩
      have other' : (a = 1 && b.toNat = p.val) = false := by simpa using own
      rw [if_neg (Bool.eq_false_iff.1 other), freeSlot_replyParts]
      simp only [other', Bool.not_false, Bool.and_true]
      rw [mapLink_of_same rfl]
  · obtain ⟨rfl, rfl⟩ | ⟨rfl, small⟩ | ⟨rfl, small⟩ | ⟨rfl, small⟩ := named
    · rfl
    · rw [queryData_position s ⟨b, small⟩]; rfl
    · rw [queryData_line s ⟨b, small⟩]; rfl
    · rw [queryData_board small]; rfl
  · refine ⟨s.waitBytes p, fun k => waitBytes_spec s p k, ?_⟩
    simp only [queryData_position, State.positionReply, State.freqBytes, State.allocBytes, State.txBytes, harmonicBytes_eq,
      State.filterBytes, positionBytes_eq, listBytes_eq, optBytes_eq, bandLabel_eq, elim_waitingPlace, optByte_eq, holderBytes_eq,
      FilterRecord.settled, decide_eq_true_eq, List.map_id, pairBytes_eq, List.append_assoc]
  · simp only [queryData_line, State.lineBytes, listBytes_eq, holderBytes_eq]
    rfl
  · have driver : s.chainBytes =
        s.chain.op.elim [0xFF, 0xFF, 0xFF] (fun o => [byte o.kind.code, byte o.purpose.code, byte o.phase.code]) ++
        s.chain.attempt.elim [0, 0xFF, 0] (fun x => [1, byte x.kind.code, flag x.repeatDue]) ++
        [flag s.chain.content.isSome, flag (s.chain.pending ≠ s.chain.latched), flag s.chain.refreshDue, flag s.chain.restartHold,
          flag s.chain.exitRequest, flag s.chain.heldForEntry, flag s.chain.verifyTimer.isSome,
          byte (s.chain.op.elim s.policy.chainLength (·.length))] := by
      unfold State.chainBytes
      dsimp only
      cases s.chain.op <;> cases s.chain.attempt <;> rfl
    simp only [queryData_station, State.stationReply, driver, State.stationTxBytes, State.stationHarmonicBytes,
      FaultLog.stationBytes, listBytes_eq, optByte_eq, List.append_assoc]
    rfl
  · simp only [queryData_board inside, State.boardBytes, boardByte_eq]
    cases s.chain.op <;> cases s.chain.content <;> rfl
  · have fit : (!knownKind f.kind) = true := by
      obtain zero | large := kind
      · simp [knownKind, zero]
      · simp [knownKind, large]
    have taken := whilePowered_takeRequest_of_offers (need := fun _ => 1) (fits := fun f => !knownKind f.kind) offered fit (serveUnknown p)
    refine taken.trans (congrArg _ ?_)
    exact freeSlot_foldl_sendFrame p [{ kind := 0xFF, payload := [25] }] s (by simp)

end Machine
end Sys2Proof
end

section
/-! The ports' own commands: the receiver (R173, R174, R176), the transmitter and its rate (R181, R198), and silence (R183). -/

namespace Sys2Proof.Machine

/-! ## The receiver -/

/-- A divisor waits for the receiver's return to HUNTING alone (R198). -/
def Link.waitsForHunting (x : Link) : Bool := x.waitingDivisor.isSome && x.divisorWait = 0 && !x.sending

theorem moveTo_eq (x : Link) (r : Receiver) : x.moveTo r = { x with
    receiver := r, startBit := false, sending := x.sending || !x.queue.isEmpty
    divisor := if x.waitsForHunting = true ∧ r = .hunting then x.waitingDivisor.getD x.divisor else x.divisor
    waitingDivisor := if x.waitsForHunting = true ∧ r = .hunting then none else x.waitingDivisor } := by
  have ready : Link.divisorReady { x with receiver := r, startBit := false } = true ↔ x.waitsForHunting = true ∧ r = .hunting := by
    simp only [Link.divisorReady, Link.divisorDue, Link.waitsForHunting, Bool.and_eq_true, decide_eq_true_eq, Bool.not_false]
    tauto
  simp only [Link.moveTo, Link.reviseClear, Link.settleRate, ready]

theorem lapse_eq (p : Position) (x : Link) : x.lapse p = { x with
    receiver := .hunting, sending := x.sending || !x.queue.isEmpty
    startBit := if x.waitsForHunting then Config.startBit p x.looks else x.startBit
    looks := if x.waitsForHunting then x.looks + 1 else x.looks
    divisor := if x.waitsForHunting && !Config.startBit p x.looks then x.waitingDivisor.getD x.divisor else x.divisor
    waitingDivisor := if x.waitsForHunting && !Config.startBit p x.looks then none else x.waitingDivisor } := by
  have due : Link.divisorDue { x with receiver := .hunting } = x.waitsForHunting := by
    simp [Link.divisorDue, Link.waitsForHunting]
  have ready : (Link.look (Config.startBit p) { x with receiver := .hunting }).divisorReady =
      (x.waitsForHunting && !Config.startBit p x.looks) := by
    have same : (Link.look (Config.startBit p) { x with receiver := .hunting }).divisorDue = x.waitsForHunting := due
    rw [Link.divisorReady, same, Link.look, due]
    cases x.waitsForHunting <;> simp
  rw [Link.lapse, Link.revise, Link.settleRate, ready, Link.look, due]

theorem exec_goodCharacter_of_goes {s : State} {p : Position} {c : Byte} {r : Receiver} (on : s.powered = true)
    (goes : (s.link p).receive c = .goes r) : exec (.goodCharacter p c) s = .next (s.mapLink p fun x => x.moveTo r) := by
  show execGoodCharacter p c s = _
  rw [execGoodCharacter, whilePowered_of_powered _ on, goes]

theorem exec_frameError_of_fails {s : State} {p : Position} {c : Byte} {x : FrameSubkind} (on : s.powered = true)
    (fails : (s.link p).receive c = .fails x) : exec (.frameError p (.character c)) s = .next (endFrame p x s) := by
  show execFrameError p (.character c) s = _
  rw [execFrameError, whilePowered_of_powered _ on]
  simp only [fails]

theorem exec_framing {s : State} (p : Position) (on : s.powered = true) :
    exec (.frameError p .framing) s = .next (
      if (s.link p).receiver.inFrame then endFrame p .framing s else s.mapLink p fun x => x.moveTo .hunting) := by
  show execFrameError p .framing s = _
  rw [execFrameError, whilePowered_of_powered _ on]

theorem exec_gapExpiry_of_inside {s : State} {p : Position} (on : s.powered = true) (inside : (s.link p).receiver ≠ .hunting) :
    exec (.gapExpiry p) s = .next (
      if (s.link p).receiver.inFrame then raise (linkFrame p .gap) (s.mapLink p fun x => x.lapse p)
      else s.mapLink p fun x => x.lapse p) := by
  show execGapExpiry p s = _
  rw [execGapExpiry, whilePowered_of_powered _ on, if_neg inside]

theorem lengthOk_iff (c : Byte) : lengthOk c = true ↔ 1 ≤ c.toNat ∧ c.toNat ≤ 33 := by
  simp [lengthOk]

/-- The 8-bit sum of R173 is the sum of the numbers, modulo 256. -/
theorem toNat_frameSum (n : Nat) (cs : List Byte) (c : Byte) :
    (frameSum n cs c).toNat = (n + (cs.map fun b => b.toNat).sum + c.toNat) % 256 := by
  have stored (b : Byte) : (cs.foldl (· + ·) b).toNat = (b.toNat + (cs.map fun b => b.toNat).sum) % 256 := by
    induction cs generalizing b with
    | nil => simp [Nat.mod_eq_of_lt b.isLt]
    | cons a cs ih =>
      rw [List.foldl_cons, ih, BitVec.toNat_add]
      simp only [List.map_cons, List.sum_cons]
      omega
  rw [frameSum, BitVec.toNat_add, stored, toNat_byte]
  omega

theorem frameSum_eq_zero_iff (n : Nat) (cs : List Byte) (c : Byte) :
    frameSum n cs c = 0 ↔ (n + (cs.map fun b => b.toNat).sum + c.toNat) % 256 = 0 := by
  rw [← toNat_frameSum]
  exact ⟨fun zero => by rw [zero]; rfl, fun zero => BitVec.eq_of_toNat_eq zero⟩

/-- Settles O48: the receiver's next state by the state that a character, a framing error or a gap finds. -/
theorem charactersTaken : Obligations.CharactersTaken := by
  intro s p c on
  dsimp only
  have moves (r : Receiver) : s.mapLink p (fun x => x.moveTo r) = s.withLink p _ := congrArg (s.withLink p) (moveTo_eq (s.link p) r)
  have lapses : s.mapLink p (fun x => x.lapse p) = s.withLink p _ := congrArg (s.withLink p) (lapse_eq p (s.link p))
  have goes {r : Receiver} (received : (s.link p).receive c = .goes r) :=
    (exec_goodCharacter_of_goes on received).trans (congrArg _ (moves r))
  have fails {x : FrameSubkind} (received : (s.link p).receive c = .fails x) :=
    (exec_frameError_of_fails on received).trans (congrArg (fun t => Host.Outcome.next (raise (linkFrame p x) t)) (moves .hunting))
  have inside (within : (s.link p).receiver.inFrame = true) (notHunting : (s.link p).receiver ≠ .hunting) :=
    And.intro (((exec_framing p on).trans (congrArg _ (if_pos within))).trans
        (congrArg (fun t => Host.Outcome.next (raise (linkFrame p .framing) t)) (moves .hunting)))
      (((exec_gapExpiry_of_inside on notHunting).trans (congrArg _ (if_pos within))).trans
        (congrArg (fun t => Host.Outcome.next (raise (linkFrame p .gap) t)) lapses))
  refine ⟨fun hunting other => goes ?_, fun hunting start room => goes ?_, fun hunting start full => ?_,
    fun length low high => goes ?_, fun length out => fails ?_, fun n cs body => goes ?_, fun n cs check sum => fails ?_,
    fun skipping => goes ?_, fun n skipping => goes ?_, fun within => ?_, fun hunting => ⟨?_, ?_⟩, fun n skipping => ⟨?_, ?_⟩⟩
  · simp only [Link.receive, hunting, if_neg other]
  · have free : (s.link p).hold = false := decide_eq_false (not_le.2 room)
    simp [Link.receive, hunting, start, free]
  · have skips : (s.link p).receive 0xC3 = .skips := by
      simp [Link.receive, hunting, Link.hold, Config.receiveSlots, full]
    show execSkippingStart p s = _
    rw [execSkippingStart, whilePowered_of_powered _ on, skips, moves]
    rfl
  · simp [Link.receive, length, (lengthOk_iff c).2 ⟨low, high⟩]
  · have bad : lengthOk c = false := by rw [Bool.eq_false_iff, Ne, lengthOk_iff]; omega
    simp [Link.receive, length, bad]
  · simp [Link.receive, body]
  · have bad : frameSum n cs c ≠ 0 := fun zero => sum ((frameSum_eq_zero_iff n cs c).1 zero)
    simp only [Link.receive, check, if_neg bad]
  · simp only [Link.receive, skipping, lengthOk_iff]
  · simp [Link.receive, skipping]
  · obtain length | ⟨n, cs, body | check⟩ := within
    · exact inside (by rw [length]; rfl) (by rw [length]; simp)
    · exact inside (by rw [body]; rfl) (by rw [body]; simp)
    · exact inside (by rw [check]; rfl) (by rw [check]; simp)
  · rw [exec_framing p on, hunting]
    exact congrArg _ (moves .hunting)
  · show execGapExpiry p s = _
    rw [execGapExpiry, whilePowered_of_powered _ on, if_pos hunting]
  · rw [exec_framing p on, skipping]
    exact congrArg _ (moves .hunting)
  · rw [exec_gapExpiry_of_inside on (by rw [skipping]; simp), skipping]
    exact congrArg _ lapses

/-! ## The transmitter and silence -/

theorem frameSent_eq (p : Position) (x : Link) :
    x.frameSent p =
      let due : Bool := x.waitingDivisor.isSome && x.divisorWait ≤ 1 && x.receiver = .hunting
      let bit : Bool := Config.startBit p x.looks
      { x with
        queue := x.queue.drop 1, divisorWait := x.divisorWait - 1, sending := !(x.queue.drop 1).isEmpty
        startBit := if due then bit else x.startBit
        looks := if due then x.looks + 1 else x.looks
        divisor := if due && !bit then x.waitingDivisor.getD x.divisor else x.divisor
        waitingDivisor := if due && !bit then none else x.waitingDivisor } := by
  let y : Link := { x with queue := x.queue.drop 1, divisorWait := x.divisorWait - 1, sending := false }
  have due : y.divisorDue = (x.waitingDivisor.isSome && x.divisorWait ≤ 1 && x.receiver = .hunting) := by
    have count : decide (x.divisorWait - 1 = 0) = decide (x.divisorWait ≤ 1) := decide_eq_decide.2 (by omega)
    simp [y, Link.divisorDue, count]
  have ready : (y.look (Config.startBit p)).divisorReady =
      (x.waitingDivisor.isSome && x.divisorWait ≤ 1 && x.receiver = .hunting && !Config.startBit p x.looks) := by
    have same : (y.look (Config.startBit p)).divisorDue = y.divisorDue := rfl
    rw [Link.divisorReady, same, Link.look, due]
    cases (x.waitingDivisor.isSome && x.divisorWait ≤ 1 && x.receiver = .hunting) <;> simp [y]
  show y.revise p = _
  rw [Link.revise, Link.settleRate, ready, Link.look, due]
  rfl

theorem divisorDue_iff (x : Link) :
    x.divisorDue = true ↔ x.waitingDivisor ≠ none ∧ x.divisorWait = 0 ∧ x.receiver = .hunting ∧ x.sending = false := by
  simp [Link.divisorDue, Option.isSome_iff_ne_none, and_assoc]

theorem exec_divisorChange {s : State} (p : Position) (on : s.powered = true) :
    exec (.divisorChange p) s = .next (if (s.link p).divisorDue then s.mapLink p Link.reviseClear else s) :=
  whilePowered_of_powered _ on

/-- Settles O49: a frame sent, a divisor's moment, and a silence, each by the port that it finds. -/
theorem transmitterAndSilence : Obligations.TransmitterAndSilence := by
  intro s p on
  refine ⟨fun f rest sending queue => ?_, fun d waits gone hunting idle => ?_, fun notDue => ?_, fun running => ?_⟩
  · show execFrameSent p s = _
    have sends : ((s.link p).sending && !(s.link p).queue.isEmpty) = true := by simp [sending, queue]
    rw [execFrameSent, whilePowered_of_powered _ on, if_pos sends, State.mapLink, frameSent_eq, queue]
    rfl
  · have due : (s.link p).divisorDue = true := (divisorDue_iff _).2 ⟨by rw [waits]; simp, gone, hunting, idle⟩
    have ready : Link.divisorReady { s.link p with startBit := false } = true := by
      have same : Link.divisorDue { s.link p with startBit := false } = (s.link p).divisorDue := rfl
      rw [Link.divisorReady, same, due]
      rfl
    have sends : (!(s.link p).queue.isEmpty) = decide ((s.link p).queue ≠ []) := by
      cases (s.link p).queue <;> simp
    rw [exec_divisorChange p on, if_pos due, State.mapLink, Link.reviseClear, Link.settleRate, if_pos ready, if_pos ready]
    simp only [waits, Option.getD_some, idle, Bool.false_or, sends, State.withLink]
  · have due : (s.link p).divisorDue = false := by
      rw [Bool.eq_false_iff, Ne, divisorDue_iff]
      rintro ⟨waits, gone, hunting, idle⟩
      obtain none | some | inside | sending := notDue
      · exact waits none
      · omega
      · exact inside hunting
      · rw [idle] at sending; cases sending
    rw [exec_divisorChange p on, due]
    rfl
  · show execLinkSilenceExpiry p s = _
    rw [execLinkSilenceExpiry, whilePowered_of_powered _ on, if_pos running]
    rfl

end Sys2Proof.Machine
end

section
/-! Power (R192, R193), and a frame on a line from its samples to a receive slot (R171 to R173). -/

namespace Sys2Proof.Machine

/-! ## Power -/

theorem takeStart_open (s : State) : takeStart 0 s = s := by
  have none (p : Position) : (if (s.txOf p).rf && (0 : Image) &&& s.pathMask p ≠ 0 then
      raise (hotSwitch p .start ((0 : Image) &&& s.pathMask p) s) s else s) = s := by simp
  simp only [takeStart, allPositions, List.foldl_cons, List.foldl_nil]
  simp

/-- A CHANGE that moves no relay starts without a HOT_SWITCH. -/
theorem startChange_of_still {s : State} (why : Purpose) (same : s.chain.pending = s.chain.latched) :
    startChange why s = s.mapChain fun c =>
      { c with
        op := some { kind := .change, purpose := why, phase := .shifting, image := c.pending, changeSet := 0,
                     length := s.policy.chainLength }
        verifyTimer := none
        attempt := c.attempt.map fun x => { x with repeatDue := false } } := by
  have none : s.chain.pending ^^^ s.chain.latched = 0 := by rw [same]; exact BitVec.xor_self
  simp only [startChange, none, takeStart_open]

theorem debounce_off (on : Bool) (q : Policy) : debounce on false q = if on = true then some q.tDeb else none := by
  cases on <;> rfl

theorem raiseLoadFault_eq (good : Bool) (s : State) :
    raiseLoadFault good s = { s with
      inbox := if good then s.inbox
               else s.inbox ++ [.occurred { kind := .storeFault, pos := none, line := none, band := none, detail := .store .load }] } := by
  cases good <;> rfl

/-- The part as POWER_ON leaves it: its power-on state, with the load's occurrence and the START-UP CHANGE in flight. -/
theorem exec_powerOn_of_unpowered {s : State} (off : s.powered = false) :
    exec .powerOn s = .next { powerOnState (loadedTable s.store.nv) s with
      inbox := if s.store.nv.good then []
               else [.occurred { kind := .storeFault, pos := none, line := none, band := none, detail := .store .load }]
      chain := { clearChain with
        op := some { kind := .change, purpose := .startUp, phase := .shifting, image := 0, changeSet := 0,
                     length := (loadedTable s.store.nv).policy.chainLength } } } := by
  show execPowerOn s = _
  rw [execPowerOn, off, raiseLoadFault_eq, startChange_of_still .startUp rfl]
  rfl

/-- Settles O52: the states that power's coming and going leave. -/
theorem powerTaken : Obligations.PowerTaken := by
  refine ⟨fun s off => ⟨_, exec_powerOn_of_unpowered off, ?_⟩, fun s on => ⟨_, whilePowered_of_powered _ on, ?_⟩⟩
  · dsimp only
    refine ⟨fun good => ?_, fun bad => ?_, fun q => ?_, fun q => ?_, ?_⟩
    · have passes : s.store.nv.good = true := (NvImage.good_iff _).2 good
      have loaded : loadedTable s.store.nv = s.store.nv.table.withBandSets := if_pos passes
      simp [powerOnState, loaded, passes, Table.withBandSets]
    · have fails : s.store.nv.good = false := by
        rw [Bool.eq_false_iff, Ne, NvImage.good_iff]
        exact bad
      simp [powerOnState, loadedTable, fails]
    · simp [State.txOf, powerOnState, txAtPowerOn, debounce_off, State.policy]
    · simp [State.link, powerOnState, State.settingsOf]
    · rfl
  · refine ⟨fun q => ?_, fun q => ?_, rfl⟩
    · simp [State.txOf, unpowered, txAtPowerLoss]
    · simp [State.link, unpowered, linksAtPowerLoss, State.reset]

/-! ## The sampler (R171, R172) -/

/-- A sampler that reads a data or stop bit lets samples pass until the sixteenth since the last reading. -/
theorem receive_reading (bits : List Bool) (ys rest : List Bool) (n : Nat) (few : n + ys.length < 16) :
    (Sampler.reading n bits).receive (ys ++ rest) = (Sampler.reading (n + ys.length) bits).receive rest := by
  induction ys generalizing n with
  | nil => rfl
  | cons y ys ih =>
    have shift : n + 1 + ys.length = n + (y :: ys).length := by rw [List.length_cons]; omega
    have passes : (Sampler.reading n bits).sample y = (.reading (n + 1) bits, none) := by
      have more : n + 1 < 16 := by rw [List.length_cons] at few; omega
      simp [Sampler.sample, Config.bitSamples, more]
    rw [List.cons_append, Sampler.receive, passes, Option.toList_none, List.nil_append, ih _ (by rw [shift]; exact few), shift]

/-- A sampler that confirms a start bit lets samples pass until the eighth since the edge. -/
theorem receive_confirming (ys rest : List Bool) (n : Nat) (few : n + ys.length < 8) :
    (Sampler.confirming n).receive (ys ++ rest) = (Sampler.confirming (n + ys.length)).receive rest := by
  induction ys generalizing n with
  | nil => rfl
  | cons y ys ih =>
    have shift : n + 1 + ys.length = n + (y :: ys).length := by rw [List.length_cons]; omega
    have passes : (Sampler.confirming n).sample y = (.confirming (n + 1), none) := by
      have more : n + 1 < 8 := by rw [List.length_cons] at few; omega
      simp [Sampler.sample, Config.confirmSamples, more]
    rw [List.cons_append, Sampler.receive, passes, Option.toList_none, List.nil_append, ih _ (by rw [shift]; exact few), shift]

/-- The samples of a bit, from the middle of the one before to its own middle, read it. -/
theorem receive_bit (b : Bool) (bits rest : List Bool) (ys : List Bool) (half : ys.length = 15) (more : bits.length < 8) :
    (Sampler.reading 0 bits).receive (ys ++ b :: rest) = (Sampler.reading 0 (bits ++ [b])).receive rest := by
  rw [receive_reading bits ys _ 0 (by omega), half, Sampler.receive]
  simp [Sampler.sample, Config.bitSamples, more]

/-- Behind eight data bits the samples of the stop bit give the character, or a framing error. -/
theorem receive_stop (high : Bool) (bits rest : List Bool) (ys : List Bool) (half : ys.length = 15) (eight : bits.length = 8) :
    (Sampler.reading 0 bits).receive (ys ++ high :: rest) =
      if high then .good (bitsByte bits) :: (Sampler.watching true).receive rest else .framing :: Sampler.waitingHigh.receive rest := by
  rw [receive_reading bits ys _ 0 (by omega), half, Sampler.receive]
  cases high <;> simp [Sampler.sample, Config.bitSamples, eight]

theorem receive_start (ys rest : List Bool) (six : ys.length = 6) (high : Bool) :
    (Sampler.watching true).receive (false :: (ys ++ high :: rest)) =
      if high then (Sampler.watching true).receive rest else (Sampler.reading 0 []).receive rest := by
  have edge : (Sampler.watching true).sample false = (.confirming 1, none) := rfl
  rw [Sampler.receive, edge, Option.toList_none, List.nil_append, receive_confirming ys _ 1 (by omega), six, Sampler.receive]
  cases high <;> simp [Sampler.sample, Config.confirmSamples]

theorem receive_high (n : Nat) (rest : List Bool) :
    (Sampler.watching true).receive (List.replicate n true ++ rest) = (Sampler.watching true).receive rest := by
  induction n with
  | zero => rfl
  | succ n ih =>
    rw [List.replicate_succ, List.cons_append, Sampler.receive]
    exact ih

theorem receive_stuckLow (n : Nat) : Sampler.waitingHigh.receive (List.replicate n false) = [] := by
  induction n with
  | zero => rfl
  | succ n ih =>
    rw [List.replicate_succ, Sampler.receive]
    exact ih

theorem bitsByte_getLsbD (c : Byte) : bitsByte ((List.range 8).map c.getLsbD) = c := by
  revert c
  decide

/-- The samples of one bit time, split at the one that reads it. -/
theorem samples_cons (b : Bool) (bs : List Bool) :
    samples (b :: bs) = List.replicate 7 b ++ b :: (List.replicate 8 b ++ samples bs) := by
  simp [samples, Config.bitSamples, List.replicate]

/-- The data bits of a character, read one after another, each in the middle of its bit time. -/
theorem receive_bits (bs rest : List Bool) (a : Bool) (bits : List Bool) (fits : bits.length + bs.length ≤ 8) :
    ∃ last, (Sampler.reading 0 bits).receive (List.replicate 8 a ++ (samples bs ++ rest)) =
      (Sampler.reading 0 (bits ++ bs)).receive (List.replicate 8 last ++ rest) := by
  induction bs generalizing a bits with
  | nil => exact ⟨a, by simp [samples]⟩
  | cons b bs ih =>
    rw [List.length_cons] at fits
    obtain ⟨last, read⟩ := ih b (bits ++ [b]) (by rw [List.length_append, List.length_singleton]; omega)
    refine ⟨last, ?_⟩
    have grouped : List.replicate 8 a ++ (samples (b :: bs) ++ rest) =
        (List.replicate 8 a ++ List.replicate 7 b) ++ b :: (List.replicate 8 b ++ (samples bs ++ rest)) := by
      simp [samples_cons]
    rw [grouped, receive_bit b bits _ _ (by simp) (by omega), read]
    simp

/-- A character on the line is received, and the sampler then watches the line again, which is high. -/
theorem receive_character (c : Byte) (rest : List Bool) :
    (Sampler.watching true).receive (samples (characterLevels c) ++ rest) = .good c :: (Sampler.watching true).receive rest := by
  have split : samples (characterLevels c) ++ rest =
      false :: (List.replicate 6 false ++ false :: (List.replicate 8 false ++
        (samples ((List.range 8).map c.getLsbD) ++ (samples [true] ++ rest)))) := by
    simp [characterLevels, samples, Config.bitSamples, List.replicate]
  obtain ⟨last, read⟩ := receive_bits ((List.range 8).map c.getLsbD) (samples [true] ++ rest) false [] (by simp)
  have stop : List.replicate 8 last ++ (samples [true] ++ rest) =
      (List.replicate 8 last ++ List.replicate 7 true) ++ true :: (List.replicate 8 true ++ rest) := by
    simp [samples, Config.bitSamples, List.replicate]
  rw [split, receive_start _ _ (by simp), if_neg (by simp), read, stop, receive_stop true _ _ _ (by simp) (by simp), if_pos rfl,
    List.nil_append, bitsByte_getLsbD, receive_high]

theorem receive_characters (cs : List Byte) :
    (Sampler.watching true).receive (samples (cs.flatMap characterLevels)) = cs.map .good := by
  induction cs with
  | nil => rfl
  | cons c cs ih =>
    have split : samples ((c :: cs).flatMap characterLevels) = samples (characterLevels c) ++ samples (cs.flatMap characterLevels) := by
      simp [samples]
    rw [split, receive_character, ih, List.map_cons]

/-- Low data bits, read one after another. -/
theorem receive_lowBits (m : Nat) (rest bits : List Bool) (fits : bits.length + m ≤ 8) :
    (Sampler.reading 0 bits).receive (List.replicate (16 * m) false ++ rest) =
      (Sampler.reading 0 (bits ++ List.replicate m false)).receive rest := by
  induction m generalizing bits with
  | zero => simp
  | succ m ih =>
    have split : List.replicate (16 * (m + 1)) false ++ rest =
        List.replicate 15 false ++ false :: (List.replicate (16 * m) false ++ rest) := by
      rw [show 16 * (m + 1) = 15 + (1 + 16 * m) by omega, List.replicate_add, List.replicate_add, List.append_assoc]
      rfl
    rw [split, receive_bit false bits _ _ (by simp) (by omega), ih _ (by rw [List.length_append, List.length_singleton]; omega),
      List.append_assoc]
    rfl

/-- A line that goes low and stays low is a start bit, eight low data bits, and a stop bit that fails. -/
theorem receive_low (k : Nat) : (Sampler.watching true).receive (List.replicate (152 + k) false) = [.framing] := by
  have split : List.replicate (152 + k) false =
      false :: (List.replicate 6 false ++ false :: (List.replicate (16 * 8) false ++
        (List.replicate 15 false ++ false :: List.replicate k false))) := by
    rw [List.replicate_add]
    rfl
  rw [split, receive_start _ _ (by simp), if_neg (by simp), receive_lowBits 8 _ _ (by simp),
    receive_stop false _ _ _ (by simp) (by simp), if_neg (by simp), receive_stuckLow]

/-! ## A frame received whole (R173, R175, R183, R184) -/

/-- Position `p`'s port has gone on inside a frame: its receiver is at `r`, and its slots, its queue, the position's presence, the
silence timer and the notice-lost flag are as they were; nothing else has changed. -/
structure Receiving (p : Position) (r : Receiver) (s t : State) : Prop where
  port : ∃ x, t = s.withLink p x ∧ x.receiver = r ∧ x.slots = (s.link p).slots ∧ x.queue = (s.link p).queue ∧
    x.present = (s.link p).present ∧ x.silenceTimer = (s.link p).silenceTimer ∧ x.noticeLost = (s.link p).noticeLost

theorem link_withLink (s : State) (p q : Position) (x : Link) : (s.withLink p x).link q = if q = p then x else s.link q := by
  simp [State.withLink, State.link, get_put]

theorem withLink_mapLink (s : State) (p : Position) (x : Link) (g : Link → Link) :
    (s.withLink p x).mapLink p g = s.withLink p (g x) := by
  rw [State.mapLink, link_withLink, if_pos rfl]
  simp [State.withLink, put_put]

theorem Receiving.start {s : State} {p : Position} {r : Receiver} (at' : (s.link p).receiver = r) : Receiving p r s s :=
  ⟨s.link p, by simp [State.withLink, State.link, put_get], at', rfl, rfl, rfl, rfl, rfl⟩

theorem Receiving.receiver {s t : State} {p : Position} {r : Receiver} (receiving : Receiving p r s t) :
    (t.link p).receiver = r ∧ (t.link p).slots = (s.link p).slots := by
  obtain ⟨x, rfl, at', slots, -⟩ := receiving
  simp [link_withLink, at', slots]

/-- A character that takes the receiver to another state leaves the frame's reception going on. -/
theorem Receiving.goes {s t : State} {p : Position} {r n : Receiver} {c : Byte} (on : s.powered = true) (receiving : Receiving p r s t)
    (received : (t.link p).receive c = .goes n) : ∃ u, exec (.goodCharacter p c) t = .next u ∧ Receiving p n s u := by
  refine ⟨_, exec_goodCharacter_of_goes ?_ received, ?_⟩
  · obtain ⟨x, rfl, -⟩ := receiving
    exact on
  · obtain ⟨x, rfl, -, slots, queue, present, silence, lost⟩ := receiving
    exact ⟨x.moveTo n, withLink_mapLink _ _ _ _, rfl, slots, queue, present, silence, lost⟩

theorem runAll_append (cs ds : List Instr) (s : State) : runAll (cs ++ ds) s = (runAll cs s).bind (runAll ds) := by
  induction cs generalizing s with
  | nil => rfl
  | cons c cs ih =>
    simp only [List.cons_append, runAll]
    split
    · exact ih _
    · rfl

/-- The characters of a frame's body are stored one after another, and the check character is awaited behind the last. -/
theorem Receiving.body {s t : State} {p : Position} (on : s.powered = true) (n : Nat) (cs stored : List Byte) (more : cs ≠ [])
    (length : stored.length + cs.length = n) (receiving : Receiving p (.body n stored) s t) :
    ∃ u, runAll (cs.map fun c => .goodCharacter p c) t = some u ∧ Receiving p (.check n (stored ++ cs)) s u := by
  induction cs generalizing stored t with
  | nil => exact absurd rfl more
  | cons c cs ih =>
    rw [List.length_cons] at length
    have received : (t.link p).receive c =
        .goes (if (stored ++ [c]).length = n then .check n (stored ++ [c]) else .body n (stored ++ [c])) := by
      simp only [Link.receive, receiving.receiver.1]
    obtain ⟨v, taken, next⟩ := receiving.goes on received
    have runs : runAll ((c :: cs).map fun c => .goodCharacter p c) t = runAll (cs.map fun c => .goodCharacter p c) v := by
      simp only [List.map_cons, runAll, taken]
    rw [runs]
    cases cs with
    | nil =>
      have whole : (stored ++ [c]).length = n := by simpa using length
      rw [if_pos whole] at next
      exact ⟨v, rfl, next⟩
    | cons d ds =>
      have part : (stored ++ [c]).length ≠ n := by simp only [List.length_cons] at length; simp; omega
      rw [if_neg part] at next
      obtain ⟨u, run, done⟩ := ih (stored ++ [c]) (by simp) (by simp at length ⊢; omega) next
      exact ⟨u, run, by simpa using done⟩

/-- The characters of a frame, but for the last, bring a port in HUNTING to the check of the frame's own bytes. -/
theorem receiving_front {s : State} {p : Position} {f : Frame} (on : s.powered = true) (hunting : (s.link p).receiver = .hunting)
    (free : (s.link p).slots.length < 2) (short : f.payload.length ≤ 32) :
    ∃ u, runAll ((0xC3 :: byte (f.payload.length + 1) :: f.kind :: f.payload).map fun c => .goodCharacter p c) s = some u ∧
      Receiving p (.check (f.payload.length + 1) (f.kind :: f.payload)) s u := by
  have open' : (s.link p).hold = false := decide_eq_false (not_le.2 free)
  obtain ⟨t, first, length⟩ := (Receiving.start hunting).goes on (c := 0xC3) (n := .length) (by simp [Link.receive, hunting, open'])
  have count : (byte (f.payload.length + 1)).toNat = f.payload.length + 1 := by rw [toNat_byte]; omega
  obtain ⟨v, second, body⟩ := length.goes on (c := byte (f.payload.length + 1)) (n := .body (f.payload.length + 1) []) (by
    have fits : lengthOk (byte (f.payload.length + 1)) = true := (lengthOk_iff _).2 (by rw [count]; omega)
    simp only [Link.receive, length.receiver.1, fits, if_true, count])
  obtain ⟨u, rest, check⟩ := body.body on _ (f.kind :: f.payload) [] (by simp) (by simp)
  refine ⟨u, ?_, check⟩
  rw [List.map_cons, runAll, first]
  show runAll (List.map _ (byte (f.payload.length + 1) :: _)) t = _
  rw [List.map_cons, runAll, second]
  exact rest

theorem foldl_add (cs : List Byte) (a : Byte) : cs.foldl (· + ·) a = a + cs.foldl (· + ·) 0 := by
  induction cs generalizing a with
  | nil => simp
  | cons c cs ih =>
    rw [List.foldl_cons, ih, List.foldl_cons, ih (0 + c)]
    ring

/-- The check byte that a frame goes out with brings its sum to 0 (R185). -/
theorem frameSum_check (n : Nat) (cs : List Byte) : frameSum n cs (-(byte n :: cs).foldl (· + ·) 0) = 0 := by
  rw [frameSum, List.foldl_cons, foldl_add cs (byte n), foldl_add cs (0 + byte n)]
  ring

theorem exec_frameArrival_of_arrives {s : State} {p : Position} {c : Byte} {f : Frame} (on : s.powered = true)
    (arrives : (s.link p).receive c = .arrives f) (free : (s.link p).hold = false) :
    exec (.frameArrival p c) s = .next (
      if s.present p then s.mapLink p fun x => x.arrive f s.policy.linkMs
      else handReturn p (s.mapLink p fun x => x.arrive f s.policy.linkMs)) := by
  show execFrameArrival p c s = _
  rw [execFrameArrival, whilePowered_of_powered _ on]
  simp only [arrives, free, Bool.false_eq_true, if_false]

/-- Settles O23: the sampler bit by bit, and the receiver character by character. -/
theorem frameReceivedWhole : Obligations.FrameReceivedWhole := by
  refine ⟨receive_characters, fun low rest six => ?_, fun n long => ?_, fun s p f on hunting free short => ?_⟩
  · have edge := receive_start low rest six true
    rw [if_pos rfl] at edge
    rw [← edge]
    simp
  · obtain ⟨k, rfl⟩ := Nat.exists_eq_add_of_le long
    exact receive_low k
  · refine ⟨0xC3 :: byte (f.payload.length + 1) :: f.kind :: f.payload,
      -(byte (f.payload.length + 1) :: f.kind :: f.payload).foldl (· + ·) 0, rfl, ?_⟩
    obtain ⟨u, front, x, rfl, check, slots, queue, present, silence, lost⟩ := receiving_front on hunting free short
    rw [runAll_append, front]
    have arrives : ((s.withLink p x).link p).receive (-(byte (f.payload.length + 1) :: f.kind :: f.payload).foldl (· + ·) 0) =
        .arrives f := by
      simp only [Link.receive, link_withLink, if_true, check, frameSum_check]
      rfl
    have open' : ((s.withLink p x).link p).hold = false := by
      rw [link_withLink, if_pos rfl, Link.hold, slots]
      exact decide_eq_false (not_le.2 free)
    have taken := exec_frameArrival_of_arrives (s := s.withLink p x) on arrives open'
    rw [Option.bind_some, runAll, taken]
    have port : ((s.withLink p x).mapLink p fun x => x.arrive f s.policy.linkMs) = s.withLink p (x.arrive f s.policy.linkMs) :=
      withLink_mapLink _ _ _ _
    have silent : (if 2 ≤ (s.link p).slots.length + 1 then none else some s.policy.linkMs) =
        if (s.link p).slots = [] then some s.policy.linkMs else none := by
      cases (s.link p).slots <;> simp
    refine ⟨_, rfl, ?_⟩
    have kept : (s.withLink p x).present p = s.present p := by rw [State.present, link_withLink, if_pos rfl, present]; rfl
    have policy : (s.withLink p x).policy = s.policy := rfl
    rw [kept, policy, port]
    have others (q : Position) (other : q ≠ p) : (s.withLink p (x.arrive f s.policy.linkMs)).link q = s.link q := by
      rw [link_withLink, if_neg other]
    have self : (s.withLink p (x.arrive f s.policy.linkMs)).link p = x.arrive f s.policy.linkMs := by rw [link_withLink, if_pos rfl]
    have arrived : (x.arrive f s.policy.linkMs).slots = (s.link p).slots ++ [f] ∧ (x.arrive f s.policy.linkMs).queue = (s.link p).queue ∧
        (x.arrive f s.policy.linkMs).noticeLost = (s.link p).noticeLost ∧
        (x.arrive f s.policy.linkMs).silenceTimer = if (s.link p).slots = [] then some s.policy.linkMs else none := by
      refine ⟨congrArg (· ++ [f]) slots, queue, lost, ?_⟩
      rw [← silent, ← slots]
      simp [Link.arrive, Link.hold, Config.receiveSlots]
    obtain ⟨slots, queue, lost, silence⟩ := arrived
    cases s.present p with
    | true =>
      simp only [if_true, self, List.append_nil]
      exact ⟨slots, rfl, rfl, silence, queue, lost, rfl, others, fun x notLinks _ => by cases x <;> first | rfl | exact absurd rfl notLinks⟩
    | false =>
      have handed (q : Position) : (handReturn p (s.withLink p (x.arrive f s.policy.linkMs))).link q =
          (s.withLink p (x.arrive f s.policy.linkMs)).link q := rfl
      simp only [Bool.false_eq_true, if_false, handed, self]
      exact ⟨slots, rfl, rfl, silence, queue, lost, rfl, others,
        fun x notLinks notHanded => by cases x <;> first | rfl | exact absurd rfl notLinks | exact absurd rfl notHanded⟩

end Sys2Proof.Machine
end

section
/-! The Band Decoder's own events: a stale expiry (R34, R39). -/

namespace Sys2Proof.Machine

/-! ## A full queue takes no notice (R181) -/

/-- Position `p`'s queue has taken no frame if it had no room for a notice, and its notice-lost flag has not been cleared. -/
def FullKept (p : Position) (s t : State) : Prop :=
  (6 ≤ (s.link p).queue.length → (t.link p).queue = (s.link p).queue) ∧
    ((s.link p).noticeLost = true → (t.link p).noticeLost = true)

theorem FullKept.refl (p : Position) (s : State) : FullKept p s s := ⟨fun _ => rfl, fun lost => lost⟩

theorem FullKept.trans {p : Position} {s t u : State} (first : FullKept p s t) (second : FullKept p t u) : FullKept p s u :=
  ⟨fun full => by rw [second.1 (by rw [first.1 full]; exact full), first.1 full], fun lost => second.2 (first.2 lost)⟩

theorem FullKept.of_links {p : Position} {s t : State} (same : t.links = s.links) : FullKept p s t := by
  simp only [FullKept, State.link, same]
  exact ⟨fun _ => trivial, fun lost => lost⟩

theorem FullKept.foldl {α : Type} {p : Position} {g : State → α → State} (one : ∀ s a, FullKept p s (g s a)) (xs : List α) (s : State) :
    FullKept p s (xs.foldl g s) := by
  induction xs generalizing s with
  | nil => exact .refl p s
  | cons a xs ih => exact (one s a).trans (ih _)

theorem fullKept_notify (p q : Position) (n : Notice) (s : State) : FullKept p s (notify q n s) := by
  cases present : s.present q with
  | false => rw [notify_of_absent present]; exact .refl p s
  | true =>
    by_cases room : (s.link q).queue.length < 6
    · rw [notify_of_room present room, sendFrame]
      by_cases same : p = q
      · subst same
        exact ⟨fun full => absurd room (not_lt.2 full), fun lost => by rw [link_mapLink_self]; exact lost⟩
      · simp only [FullKept, link_mapLink, same, if_false]
        exact ⟨fun _ => trivial, fun lost => lost⟩
    · have lost : FullKept p s (s.mapLink q fun x => { x with noticeLost := true }) := by
        simp only [FullKept, link_mapLink]
        by_cases same : p = q <;> simp [same]
      cases n with
      | fault k sev =>
        have dropped : notify q (.fault k sev) s = s.mapLink q fun x => { x with noticeLost := true } := by
          simp [notify, present, Config.noticeLimit, room]
        rw [dropped]; exact lost
      | _ =>
        rw [notify_of_full present room (by simp)]
        exact lost.trans (.of_links rfl)

theorem fullKept_evaluateAdvisories (p : Position) (s : State) : FullKept p s (evaluateAdvisories s) := by
  have episode (s : State) (x : Position × Position) : FullKept p s (beginEpisode x s) := by
    unfold beginEpisode
    split
    · exact ((fullKept_notify p _ _ s).trans (fullKept_notify p _ _ _)).trans (.of_links rfl)
    · exact .refl p s
  exact FullKept.trans (t := { s with advisory := pairs.filter s.advisoryHolds }) (.of_links rfl) (.foldl episode _ _)

theorem fullKept_arbiterPass (p : Position) (ps : List Position) (s : State) : FullKept p s (arbiterPass ps s).1 := by
  induction ps generalizing s with
  | nil => exact .refl p s
  | cons q ps ih =>
    unfold arbiterPass
    split
    · exact (FullKept.trans (t := putOnAir q s) (.of_links rfl) (fullKept_evaluateAdvisories p _)).trans (ih _)
    · exact FullKept.trans (t := s.mapTx q _) (.of_links rfl) (ih _)

theorem fullKept_arbiter (p : Position) (s : State) : FullKept p s (arbiter s) := by
  have passes (n : Nat) (s : State) : FullKept p s (arbiterPasses n s) := by
    induction n generalizing s with
    | zero => exact .refl p s
    | succ n ih =>
      have pass := fullKept_arbiterPass p s.waiting s
      unfold arbiterPasses
      split
      · rename_i t ran; rw [ran] at pass; exact pass.trans (ih _)
      · rename_i t ran; rw [ran] at pass; exact pass
  exact passes _ s

theorem fullKept_reportEvent (p : Position) (s : State) : FullKept p s (reportEvent s) :=
  (fullKept_arbiter p s).trans (fullKept_evaluateAdvisories p _)

/-! ## The BAND notice (R39) -/

/-- What was last sent is what stands, for a PRESENT position. -/
def FreqRecord.told (r : FreqRecord) : FreqRecord :=
  { r with sentBand := r.band, sentOutOfBand := r.outOfBand, sentStale := r.stale }

/-- Band or a flag differs from the values last sent. -/
def FreqRecord.untold (r : FreqRecord) : Prop :=
  r.band ≠ r.sentBand ∨ r.outOfBand ≠ r.sentOutOfBand ∨ r.stale ≠ r.sentStale

theorem bandNotice_of_untold {p : Position} {s : State} (present : s.present p = true) (untold : (s.freqOf p).untold) :
    bandNotice p s = notify p (.band (s.freqOf p).band (s.freqOf p).outOfBand (s.freqOf p).stale) (s.mapFreq p FreqRecord.told) := by
  have differs : (s.present p && !((s.freqOf p).band = (s.freqOf p).sentBand && (s.freqOf p).outOfBand = (s.freqOf p).sentOutOfBand &&
      (s.freqOf p).stale = (s.freqOf p).sentStale)) = true := by
    simp only [present, Bool.true_and, Bool.not_eq_true', Bool.and_eq_false_iff, decide_eq_false_iff_not, or_assoc]
    exact untold
  rw [bandNotice, if_pos differs]
  rfl

theorem bandNotice_of_room {p : Position} {s : State} (present : s.present p = true) (untold : (s.freqOf p).untold)
    (room : (s.link p).queue.length < 6) :
    bandNotice p s = sendFrame p (Notice.band (s.freqOf p).band (s.freqOf p).outOfBand (s.freqOf p).stale).frame
      (s.mapFreq p FreqRecord.told) :=
  (bandNotice_of_untold present untold).trans (notify_of_room (s := s.mapFreq p FreqRecord.told) present room _)

theorem bandNotice_of_full {p : Position} {s : State} (present : s.present p = true) (untold : (s.freqOf p).untold)
    (full : 6 ≤ (s.link p).queue.length) :
    bandNotice p s = raise { kind := .noticeDrop, pos := some p, line := none, band := none, detail := .dropped 0x43 }
      ((s.mapFreq p FreqRecord.told).mapLink p fun x => { x with noticeLost := true }) :=
  (bandNotice_of_untold present untold).trans (notify_of_full (s := s.mapFreq p FreqRecord.told) present (not_lt.2 full) (by simp))

theorem bandNotice_of_told {p : Position} {s : State} (told : s.present p = false ∨ ¬(s.freqOf p).untold) : bandNotice p s = s := by
  refine if_neg fun differs => ?_
  simp only [Bool.and_eq_true, Bool.not_eq_true', Bool.and_eq_false_iff, decide_eq_false_iff_not, or_assoc] at differs
  obtain absent | told := told
  · rw [absent] at differs; cases differs.1
  · exact told differs.2

theorem FreqRecord.told_of_not_untold {r : FreqRecord} (told : ¬r.untold) : r.told = r := by
  simp only [FreqRecord.untold, not_or, not_not] at told
  obtain ⟨band, out, stale⟩ := told
  simp only [FreqRecord.told, band, out, stale]
  cases r
  simp_all

theorem freqOf_bandNotice (p q : Position) (s : State) :
    (bandNotice p s).freqOf q = if q = p ∧ s.present p = true then (s.freqOf p).told else s.freqOf q := by
  cases present : s.present p with
  | false => rw [bandNotice_of_told (.inl present)]; simp
  | true =>
    by_cases untold : (s.freqOf p).untold
    · have kept := (moved_notify p (.band (s.freqOf p).band (s.freqOf p).outOfBand (s.freqOf p).stale)
        (s.mapFreq p FreqRecord.told)).freq (by decide)
      rw [bandNotice_of_untold present untold, State.freqOf, kept, ← State.freqOf, freqOf_mapFreq]
      simp
    · rw [bandNotice_of_told (.inr untold), FreqRecord.told_of_not_untold untold]
      split
      · rename_i both; rw [both.1]
      · rfl

/-! ## The expiry of a stale timer (R34) -/

/-- Settles O38: the record is set, FREQ_STALE handed over, and the BAND notice queued or dropped. -/
theorem staleExpiryTaken : Obligations.StaleExpiryTaken := by
  intro s p on running
  let stale : State := raise { kind := .freqStale, pos := some p, line := none, band := (s.freqOf p).band, detail := .none }
    (s.mapFreq p fun r => { r with stale := true, staleTimer := none })
  have taken : exec (.staleExpiry p) s = .next (reportEvent (bandNotice p stale)) := by
    show execStaleExpiry p s = _
    rw [execStaleExpiry, whilePowered_of_powered _ on, if_pos running]
  have raised : Moved [.freq, .inbox] s stale := ((moved_mapFreq s p _).mono (by decide)).trans ((moved_raise _ _).mono (by decide))
  have noted := moved_bandNotice p stale
  have reported := moved_reportEvent (bandNotice p stale)
  have after (q : Position) : (reportEvent (bandNotice p stale)).freqOf q = (bandNotice p stale).freqOf q := by
    rw [State.freqOf, reported.freq (by decide)]; rfl
  have record : stale.freqOf p = { s.freqOf p with stale := true, staleTimer := none } := by
    simp [stale, freqOf_mapFreq]
  refine ⟨_, taken, ((raised.mono (by decide)).trans (noted.mono (by decide))).trans (reported.mono (by decide)),
    noted.inbox.trans reported.inbox, fun q other => ?_, ?_, fun present unsent room => ?_, fun present unsent full => ?_⟩
  · rw [after, freqOf_bandNotice, if_neg (fun both => other both.1)]
    simp [stale, freqOf_mapFreq, other]
  · dsimp only
    rw [after, freqOf_bandNotice, record]
    have same : stale.present p = s.present p := rfl
    rw [same]
    cases s.present p <;> simp [FreqRecord.told, record]
  · have untold : (stale.freqOf p).untold := by rw [record]; exact .inr (.inr (by simp [unsent]))
    have queued : (s.link p).queue ++ [{ kind := 0x43, payload := [optByte ((s.freqOf p).band.map (·.val)), flag (s.freqOf p).outOfBand, 1] }] =
        ((bandNotice p stale).link p).queue := by
      rw [bandNotice_of_room (s := stale) present untold room, sendFrame, link_mapLink_self, record]
      rfl
    rw [queued]
    exact (reported.links p).queue
  · have untold : (stale.freqOf p).untold := by rw [record]; exact .inr (.inr (by simp [unsent]))
    have dropped : bandNotice p stale = raise { kind := .noticeDrop, pos := some p, line := none, band := none, detail := .dropped 0x43 }
        ((stale.mapFreq p FreqRecord.told).mapLink p fun x => { x with noticeLost := true }) :=
      bandNotice_of_full (s := stale) present untold full
    have kept := fullKept_reportEvent p (bandNotice p stale)
    have queue : ((bandNotice p stale).link p).queue = (s.link p).queue := by
      rw [dropped, link_raise, link_mapLink_self]; rfl
    refine ⟨(kept.1 (by rw [queue]; exact full)).trans queue, kept.2 ?_, ?_⟩
    · rw [dropped, link_raise, link_mapLink_self]
    · refine List.IsPrefix.trans ?_ reported.inbox
      rw [dropped]
      simp [stale]

end Sys2Proof.Machine
end

section
/-! The start rule line by line (R141), and the HOT_SWITCH occurrences of the start event of a CHANGE (R113). -/

namespace Sys2Proof.Machine

/-! ## The start event of a CHANGE -/

/-- The lowest closed relay of an image that closes one. -/
theorem lowestBit_spec {im : Image} (closes : im ≠ 0) (b : Nat) :
    lowestBit im = b ↔ (b < 256 ∧ im.getLsbD b = true) ∧ ∀ i, i < b → im.getLsbD i = false := by
  have some : ∃ n, (List.range 256).find? (fun b => im.getLsbD b) = some n := by
    cases found : (List.range 256).find? fun b => im.getLsbD b with
    | some n => exact ⟨n, rfl⟩
    | none =>
      refine absurd (BitVec.eq_of_getLsbD_eq fun i small => ?_) closes
      simpa using List.find?_eq_none.1 found i (List.mem_range.2 small)
  obtain ⟨n, found⟩ := some
  have low : lowestBit im = n := by simp [lowestBit, Config.imageBits, found]
  obtain ⟨closed, small, first⟩ := List.find?_range_eq_some.1 found
  rw [low]
  constructor
  · rintro rfl
    exact ⟨⟨by simpa using small, by simpa using closed⟩, fun i less => by simpa using first i less⟩
  · rintro ⟨⟨-, shut⟩, before⟩
    rcases lt_trichotomy n b with less | same | more
    · have := before n less; simp_all
    · exact same
    · have := first b more; simp_all

theorem getLsbD_change (s : State) (p : Position) (b : Nat) (small : b < 256) :
    ((s.chain.pending ^^^ s.chain.latched) &&& s.pathMask p).getLsbD b = true ↔
      s.OnPath p b ∧ s.chain.pending.getLsbD b ≠ s.chain.latched.getLsbD b := by
  rw [BitVec.getLsbD_and, Bool.and_eq_true, getLsbD_pathMask, BitVec.getLsbD_xor, and_comm]
  simp

/-- The change set of a CHANGE meets a position's path where it moves a relay of it, the lowest first. -/
theorem movesFirst_iff (s : State) (p : Position) (b : Nat) :
    s.MovesFirst p b ↔ (s.chain.pending ^^^ s.chain.latched) &&& s.pathMask p ≠ 0 ∧
      lowestBit ((s.chain.pending ^^^ s.chain.latched) &&& s.pathMask p) = b := by
  have first (small : b < 256) : (∀ i, i < b → ((s.chain.pending ^^^ s.chain.latched) &&& s.pathMask p).getLsbD i = false) ↔
      ∀ i, i < b → s.OnPath p i → s.chain.pending.getLsbD i = s.chain.latched.getLsbD i := by
    refine forall_congr' fun i => imp_congr_right fun less => ?_
    rw [Bool.eq_false_iff, Ne, getLsbD_change s p i (by omega)]
    tauto
  constructor
  · rintro ⟨⟨small, on, moves⟩, before⟩
    have closed := (getLsbD_change s p b small).2 ⟨on, moves⟩
    have some : (s.chain.pending ^^^ s.chain.latched) &&& s.pathMask p ≠ 0 := fun none => by
      rw [none, getLsbD_open] at closed; cases closed
    exact ⟨some, (lowestBit_spec some b).2 ⟨⟨small, closed⟩, (first small).2 before⟩⟩
  · rintro ⟨some, low⟩
    obtain ⟨⟨small, closed⟩, before⟩ := (lowestBit_spec some b).1 low
    obtain ⟨on, moves⟩ := (getLsbD_change s p b small).1 closed
    exact ⟨⟨small, on, moves⟩, (first small).1 before⟩

/-- The HOT_SWITCH of a position at the start event of a CHANGE, if its RF sense is on and the change set meets its path. -/
def State.hotAt (s : State) (d : Image) (p : Position) : Option LogEvent :=
  if (s.txOf p).rf && d &&& s.pathMask p ≠ 0 then some (.occurred (hotSwitch p .start (d &&& s.pathMask p) s)) else none

theorem takeStart_eq (d : Image) (s : State) : takeStart d s = { s with inbox := s.inbox ++ allPositions.filterMap (s.hotAt d) } := by
  have fold (ps : List Position) (t : State) :
      ps.foldl (fun t p =>
        let diff := d &&& s.pathMask p
        if (s.txOf p).rf && diff ≠ 0 then raise (hotSwitch p .start diff s) t else t) t =
        { t with inbox := t.inbox ++ ps.filterMap (s.hotAt d) } := by
    induction ps generalizing t with
    | nil => simp
    | cons p ps ih =>
      rw [List.foldl_cons, ih]
      by_cases hot : ((s.txOf p).rf && d &&& s.pathMask p ≠ 0) = true
      · have named : s.hotAt d p = some (.occurred (hotSwitch p .start (d &&& s.pathMask p) s)) := if_pos hot
        rw [if_pos hot, List.filterMap_cons, named]
        simp [raise]
      · have none : s.hotAt d p = none := if_neg hot
        rw [if_neg hot, List.filterMap_cons, none]
  exact fold allPositions s

theorem changeStarts_startChange (why : Purpose) (s : State) : s.ChangeStarts why (startChange why s) := by
  rw [startChange, takeStart_eq]
  refine ⟨rfl, _, rfl, fun e => ?_⟩
  simp only [List.mem_filterMap, mem_allPositions, true_and]
  constructor
  · rintro ⟨p, hot⟩
    simp only [State.hotAt, Option.ite_none_right_eq_some, Bool.and_eq_true, decide_eq_true_eq] at hot
    obtain ⟨⟨rf, meets⟩, named⟩ := hot
    exact ⟨p, _, rf, (movesFirst_iff s p _).2 ⟨meets, rfl⟩, (Option.some.inj named).symm⟩
  · rintro ⟨p, b, rf, moves, rfl⟩
    obtain ⟨meets, rfl⟩ := (movesFirst_iff s p b).1 moves
    refine ⟨p, ?_⟩
    simp only [State.hotAt, Option.ite_none_right_eq_some, Bool.and_eq_true, decide_eq_true_eq]
    exact ⟨⟨rf, meets⟩, rfl⟩

/-! ## The start rule -/

theorem startRule_of_blocked {s : State} (blocked : s.chain.op.isSome = true ∨ s.store.ready = .starting ∨ s.chain.heldForEntry = true) :
    startRule s = s := by
  refine if_pos ?_
  simpa [or_assoc] using blocked

/-- The start rule where nothing stands in its way, by the first line of its table that applies. -/
theorem startRule_of_free {s : State} (idle : s.chain.op = none) (started : s.store.ready ≠ .starting) (free : s.chain.heldForEntry = false) :
    startRule s =
      if s.safe = true then (if s.chain.exitRequest = true then startResync .exit s else s)
      else if s.chain.content = none then startResync (if s.chain.attempt = none then .unknown else .retry) s
      else if s.chain.restartHold = true ∧ s.chain.pending = 0 then startChange .restart s
      else if s.chain.pending ≠ s.chain.latched then startChange .ordinary s
      else if s.chain.refreshDue = true then startChange .refresh s
      else startNothing s := by
  have attempt : (if s.chain.attempt.isSome then Purpose.retry else .unknown) = if s.chain.attempt = none then .unknown else .retry := by
    cases s.chain.attempt <;> rfl
  simp only [startRule, idle, started, free, attempt, Option.isSome_none, decide_false, Bool.or_self, Bool.false_eq_true, if_false,
    Option.isNone_iff_eq_none, Bool.and_eq_true, decide_eq_true_eq]

/-- What the start rule keeps of the driver's state. -/
structure StartKept (c d : Chain) : Prop where
  latched : d.latched = c.latched
  content : d.content = c.content
  pending : d.pending = c.pending
  settle : d.settleTimer = c.settleTimer
  refreshDue : d.refreshDue = c.refreshDue
  restartHold : d.restartHold = c.restartHold
  exitRequest : d.exitRequest = c.exitRequest
  heldForEntry : d.heldForEntry = c.heldForEntry
  lengthDue : d.lengthDue = c.lengthDue
  filters : d.filters = c.filters

theorem startKept_startChange (why : Purpose) (s : State) : StartKept s.chain (startChange why s).chain := by
  rw [startChange, takeStart_eq]
  exact ⟨rfl, rfl, rfl, rfl, rfl, rfl, rfl, rfl, rfl, rfl⟩

theorem startKept_startRule (s : State) : StartKept s.chain (startRule s).chain := by
  unfold startRule
  dsimp only
  repeat' split
  all_goals first | exact startKept_startChange _ s | exact ⟨rfl, rfl, rfl, rfl, rfl, rfl, rfl, rfl, rfl, rfl⟩

/-- Where the start rule starts nothing, the verify timer stands as it did, or is started by its last line. -/
theorem verifyTimer_startRule {s : State} (idle : (startRule s).chain.op = s.chain.op) :
    (startRule s).chain.verifyTimer = s.chain.verifyTimer ∨
      (s.chain.verifyTimer = none ∧ 0 < s.policy.tVerify) := by
  by_cases blocked : s.chain.op.isSome = true ∨ s.store.ready = .starting ∨ s.chain.heldForEntry = true
  · rw [startRule_of_blocked blocked]
    exact .inl rfl
  · simp only [not_or, Bool.not_eq_true, Option.isSome_eq_false_iff, Option.isNone_iff_eq_none] at blocked
    obtain ⟨none, started, free⟩ := blocked
    have change (why : Purpose) : (startChange why s).chain.op ≠ s.chain.op := by
      rw [none, startChange, takeStart_eq]
      simp
    have resync (why : Purpose) : (startResync why s).chain.op ≠ s.chain.op := by
      rw [none, startResync]
      simp
    rw [startRule_of_free none started free] at idle ⊢
    split_ifs at idle ⊢
    · exact absurd idle (resync _)
    · exact .inl rfl
    · exact absurd idle (resync _)
    · exact absurd idle (resync _)
    · exact absurd idle (change _)
    · exact absurd idle (change _)
    · exact absurd idle (change _)
    · simp only [startNothing, mapChain_chain]
      split
      · rename_i starts
        simp only [Bool.and_eq_true, Option.isNone_iff_eq_none, decide_eq_true_eq] at starts
        exact .inr starts
      · exact .inl rfl

end Sys2Proof.Machine
end

section
/-! The writes that are followed by a policy event: position settings (R22, R198) and station policy (R19 to R21). -/

namespace Sys2Proof.Machine

/-! ## Serving a request -/

theorem link_reply (p q : Position) (k : Byte) (c : Code) (d : List Byte) (s : State) :
    (reply p k c d s).link q = if q = p then { s.link p with
      queue := (s.link p).queue ++ [{ kind := k + 0x80, payload := c.byte :: d }], sending := true } else s.link q :=
  link_mapLink s p q _

theorem link_freeSlot (p q : Position) (s : State) :
    (freeSlot p s).link q = if q = p then { s.link p with
      slots := (s.link p).slots.drop 1
      silenceTimer := if (s.link p).hold && (s.link p).present then some s.policy.linkMs else (s.link p).silenceTimer } else s.link q :=
  link_mapLink s p q _

theorem present_freeSlot (p q : Position) (s : State) : (freeSlot p s).present q = s.present q := by
  rw [State.present, link_freeSlot]
  split
  · next own => subst own; rfl
  · rfl

/-- A request is served by changes of the parts `ps`, a reply, further changes of those parts, the freeing of the slot, and the close of
the step. -/
theorem served_of_moved {ps : List Part} {s a b t : State} {p : Position} {f : Frame} {c : Code} {d : List Byte}
    (first : Moved ps s a) (links : a.links = s.links) (then' : Moved ps (reply p f.kind c d a) b) (close : Moved ps (freeSlot p b) t) :
    Served ps p (f.reply c d) s t := by
  have port (q : Position) : a.link q = s.link q := by rw [State.link, links]; rfl
  have self := then'.links p
  rw [link_reply, if_pos rfl, port] at self
  have last := close.links p
  rw [link_freeSlot, if_pos rfl] at last
  refine ⟨fun x out notInbox notLinks => ?_, ?_, fun q other => ?_, ?_, ?_, ?_, ?_, ?_, ?_⟩
  · have one := first.same x out
    have two := then'.same x out
    have three := close.same x out
    cases x
    case inbox => exact absurd rfl notInbox
    case links => exact absurd rfl notLinks
    all_goals exact three.trans (two.trans one)
  · exact (first.inbox.trans then'.inbox).trans close.inbox
  · have before := then'.links q
    rw [link_reply, if_neg other, port] at before
    have after := close.links q
    rw [link_freeSlot, if_neg other] at after
    exact before.trans after
  · exact self.queue.trans last.queue
  · rw [last.slots, self.slots]; simp
  · rw [last.present, self.present]
  · rw [last.receiver, self.receiver]
  · rw [last.divisor, self.divisor]
  · exact ⟨last.waitingDivisor.trans self.waitingDivisor, last.divisorWait.trans self.divisorWait, last.startBit.trans self.startBit,
      last.looks.trans self.looks⟩

/-! ## Advisory flags behind an evaluation -/

theorem advisoryHolds_of_same {s t : State} (table : t.table = s.table) (freq : t.freq = s.freq) (tx : t.tx = s.tx)
    (present : ∀ q, t.present q = s.present q) : t.advisoryHolds = s.advisoryHolds := by
  funext x
  have test : t.harmonicTest x.1 x.2 = s.harmonicTest x.1 x.2 := by
    simp only [State.harmonicTest, State.freqOf, State.policy, freq, table]
  simp only [State.advisoryHolds, State.protectedFrom, State.onAir, State.txOf, State.settingsOf, State.freqOf, State.policy, table, freq,
    tx, present, test]
  rfl

/-- The advisory flags stand by the state after an evaluation, as long as nothing that they rest on changes. -/
theorem mem_advisory_iff {s t : State} (advisory : t.advisory = (evaluateAdvisories s).advisory) (table : t.table = s.table)
    (freq : t.freq = s.freq) (tx : t.tx = s.tx) (present : ∀ q, t.present q = s.present q) (x : Position × Position) :
    x ∈ t.advisory ↔ x ∈ pairs ∧ t.advisoryHolds x = true := by
  rw [advisory, advisory_evaluateAdvisories, advisoryHolds_of_same table freq tx present, List.mem_filter]

/-! ## Position settings (R22, R198) -/

theorem settingsEntryOf_bytes (x : Settings) (priority : x.priority < 256) (divisor : x.divisor < 65536) (eighths : x.eighths < 256) :
    settingsEntryOf x.bytes = some x := by
  obtain ⟨n, protect, d, e⟩ := x
  have one : byteAt (Settings.bytes ⟨n, protect, d, e⟩) 1 = (flag protect).toNat := rfl
  have zero : byteAt (Settings.bytes ⟨n, protect, d, e⟩) 0 = n := Nat.mod_eq_of_lt priority
  have four : byteAt (Settings.bytes ⟨n, protect, d, e⟩) 4 = e := Nat.mod_eq_of_lt eighths
  have two : ofBigEndian (field (Settings.bytes ⟨n, protect, d, e⟩) 2 2) = d :=
    (ofBigEndian_bigEndian 2 d).trans (Nat.mod_eq_of_lt divisor)
  simp only [settingsEntryOf, one, zero, four, two, flagOf_toNat_flag]
  rfl

theorem clampedCode_eq {α : Type} [DecidableEq α] (x new : α) : clampedCode (decide (x ≠ new)) = if new = x then .ok else .adjusted := by
  by_cases same : x = new
  · subst same; simp [clampedCode]
  · have other : ¬new = x := fun h => same h.symm
    simp [clampedCode, same, other]

/-- What a written divisor leaves of a port. -/
theorem writeDivisor_kept (q : Position) (x : Link) (d : Nat × Nat) (own : Bool) :
    (x.writeDivisor q d own).queue = x.queue ∧ (x.writeDivisor q d own).slots = x.slots ∧
      (x.writeDivisor q d own).present = x.present ∧
      (x.writeDivisor q d own).divisorWait = if own then x.queue.length else min x.divisorWait x.queue.length :=
  ⟨rfl, rfl, rfl, rfl⟩

/-- A port that is not idle, or that has still to send the reply to the write, puts the divisor off. -/
theorem writeDivisor_of_busy {q : Position} {x : Link} (d : Nat × Nat) {own : Bool}
    (busy : (own = true ∧ x.queue ≠ []) ∨ x.receiver ≠ .hunting ∨ x.sending = true) :
    (x.writeDivisor q d own).divisor = x.divisor ∧ (x.writeDivisor q d own).waitingDivisor = some d := by
  let y : Link := { x with waitingDivisor := some d, divisorWait := if own then x.queue.length else min x.divisorWait x.queue.length }
  have due : y.divisorDue = false := by
    rw [Bool.eq_false_iff, Ne, divisorDue_iff]
    rintro ⟨-, gone, hunting, idle⟩
    obtain ⟨mine, queued⟩ | inside | sending := busy
    · exact queued (List.length_eq_zero_iff.1 (by simpa [y, mine] using gone))
    · exact inside hunting
    · exact absurd sending (by rw [show x.sending = false from idle]; simp)
  have ready : (y.look (Config.startBit q)).divisorReady = false := by
    have same : (y.look (Config.startBit q)).divisorDue = y.divisorDue := rfl
    rw [Link.divisorReady, same, due]
    rfl
  show (y.revise q).divisor = _ ∧ (y.revise q).waitingDivisor = _
  rw [Link.revise, Link.settleRate, ready]
  exact ⟨rfl, rfl⟩

/-- An idle port takes a divisor that another port writes at once, unless a start bit is being confirmed. -/
theorem writeDivisor_of_idle {q : Position} {x : Link} (d : Nat × Nat) (hunting : x.receiver = .hunting) (empty : x.queue = [])
    (idle : x.sending = false) :
    (x.writeDivisor q d false).startBit = Config.startBit q x.looks ∧
      (x.writeDivisor q d false).divisor = (if Config.startBit q x.looks then x.divisor else d) ∧
      (x.writeDivisor q d false).waitingDivisor = if Config.startBit q x.looks then some d else none := by
  let y : Link := { x with waitingDivisor := some d, divisorWait := min x.divisorWait x.queue.length }
  have due : y.divisorDue = true := (divisorDue_iff y).2 ⟨by simp [y], by simp [y, empty], hunting, idle⟩
  have ready : (y.look (Config.startBit q)).divisorReady = !Config.startBit q x.looks := by
    have same : (y.look (Config.startBit q)).divisorDue = y.divisorDue := rfl
    rw [Link.divisorReady, same, due, Link.look, if_pos due]
    rfl
  show (y.revise q).startBit = _ ∧ (y.revise q).divisor = _ ∧ (y.revise q).waitingDivisor = _
  rw [Link.revise, Link.settleRate, ready, Link.look, if_pos due]
  cases Config.startBit q x.looks <;> exact ⟨rfl, rfl, rfl⟩

/-- The state of a settings write as the policy event finds it. -/
def settingsWritten (p q : Position) (f : Frame) (c : Code) (new : Settings) (s : State) : State :=
  (answer p f c (s.mapTable fun t => t.setSettings q new)).mapLink q fun l => l.writeDivisor q (new.divisor, new.eighths) (p = q)

theorem link_settingsWritten (p q j : Position) (f : Frame) (c : Code) (new : Settings) (s : State) :
    (settingsWritten p q f c new s).link j =
      let y : Link := if j = p then { s.link p with queue := (s.link p).queue ++ [f.reply c []], sending := true } else s.link j
      if j = q then y.writeDivisor q (new.divisor, new.eighths) (p = q) else y := by
  have ports (j : Position) : (s.mapTable fun t => t.setSettings q new).link j = s.link j := rfl
  rw [settingsWritten, link_mapLink, answer]
  by_cases here : j = q
  · subst here
    rw [if_pos rfl, link_reply]
    simp only [if_true, ports]
    rfl
  · rw [if_neg here, link_reply]
    simp only [if_neg here, ports]
    rfl

/-- A port after the policy event of a settings write and the freeing of the writing port's slot. -/
theorem link_settingsWrite (p q j : Position) (f : Frame) (c : Code) (new : Settings) (s : State) :
    ∃ y : Link, LinkKept ((settingsWritten p q f c new s).link j) y ∧
      (freeSlot p (policyEvent (settingsWritten p q f c new s))).link j =
        { y with
          slots := if j = p then y.slots.drop 1 else y.slots
          silenceTimer := if j = p ∧ (y.hold && y.present) = true then
            some (policyEvent (settingsWritten p q f c new s)).policy.linkMs else y.silenceTimer } := by
  refine ⟨_, (moved_policyEvent (settingsWritten p q f c new s)).links j, ?_⟩
  rw [link_freeSlot]
  by_cases own : j = p
  · subst own; simp
  · simp [own]

/-- Settles O36: the port takes its divisor, and what follows leaves every port's rate alone. -/
theorem settingsWriteClamps : Obligations.SettingsWriteClamps := by
  intro s p f q x offered writable kind priority divisor eighths payload new
  have clamps : x.clamped = new := by simp [new, Settings.clamped, clamp]
  clear_value new
  have taken := exec_write_of_open offered writable kind 6 (bs := byte q.val :: x.bytes) (payload.trans rfl) rfl
  rw [if_neg (by decide)] at taken
  have index : below 6 (byteAt (byte q.val :: x.bytes) 0) = some q := below_byte q (by decide)
  have entry : settingsEntryOf ((byte q.val :: x.bytes).drop 1) = some x := settingsEntryOf_bytes x priority divisor eighths
  have accepted : writeAccept 6 p f (byte q.val :: x.bytes) s =
      policyEvent (settingsWritten p q f (if new = x then .ok else .adjusted) new s) := by
    show acceptSettings p f (byte q.val :: x.bytes) s = _
    simp only [acceptSettings, index, entry, clampedCode_eq, settingsWritten, clamps]
  rw [accepted] at taken
  generalize (if new = x then Code.ok else .adjusted) = c at taken ⊢
  have event := moved_policyEvent (settingsWritten p q f c new s)
  refine ⟨_, taken, fun y out => ?_, event.inbox, event.table (by decide), fun y => ?_, ?_, ?_, fun j other => ?_,
    fun other hunting empty idle => ?_, fun busy => ?_, fun own => ?_, fun other fits => ?_⟩
  · have kept := event.same y (by intro mem; exact out (by fin_cases mem <;> simp))
    cases y
    case table | links | inbox | tx | waiting | advisory => simp at out
    all_goals exact kept
  · refine mem_advisory_iff (s := arbiter (settingsWritten p q f c new s)) ?_ ?_ ?_ ?_ (fun j => ?_) y
    · rfl
    · exact (moved_evaluateAdvisories _).table (by decide)
    · exact (moved_evaluateAdvisories _).freq (by decide)
    · exact (moved_evaluateAdvisories _).tx (by decide)
    · exact (present_freeSlot ..).trans ((moved_evaluateAdvisories _).present j)
  · obtain ⟨y, kept, port⟩ := link_settingsWrite p q p f c new s
    rw [port]
    refine List.IsPrefix.trans ?_ kept.queue
    rw [link_settingsWritten]
    by_cases own : p = q <;> simp [own, (writeDivisor_kept _ _ _ _).1]
  · obtain ⟨y, kept, port⟩ := link_settingsWrite p q p f c new s
    rw [port]
    simp only [if_true, kept.slots, link_settingsWritten]
    by_cases own : p = q <;> simp [own, (writeDivisor_kept _ _ _ _).2.1]
  · obtain ⟨y, kept, port⟩ := link_settingsWrite p q j f c new s
    rw [port]
    simp only [kept.divisor, kept.waitingDivisor, link_settingsWritten, if_neg other]
    split
    · next own => subst own; exact ⟨rfl, rfl⟩
    · exact ⟨rfl, rfl⟩
  · obtain ⟨y, kept, port⟩ := link_settingsWrite p q q f c new s
    have law := writeDivisor_of_idle (q := q) (new.divisor, new.eighths) hunting empty idle
    rw [port]
    simp only [kept.divisor, kept.waitingDivisor, kept.startBit, link_settingsWritten, if_neg other, if_true,
      decide_eq_false (Ne.symm other)]
    exact law
  · obtain ⟨y, kept, port⟩ := link_settingsWrite p q q f c new s
    rw [port]
    simp only [kept.divisor, kept.waitingDivisor, link_settingsWritten, if_true]
    by_cases own : q = p
    · subst own
      simp only [if_true, decide_true]
      exact writeDivisor_of_busy _ (.inl ⟨rfl, by simp⟩)
    · simp only [if_neg own]
      exact writeDivisor_of_busy _ (.inr (busy.resolve_left own))
  · obtain ⟨y, kept, port⟩ := link_settingsWrite p q q f c new s
    subst own
    rw [port]
    simp only [kept.divisorWait, link_settingsWritten, if_true, decide_true, (writeDivisor_kept _ _ _ _).2.2.2]
    simp
  · obtain ⟨y, kept, port⟩ := link_settingsWrite p q q f c new s
    rw [port]
    simp only [kept.divisorWait, link_settingsWritten, if_true, if_neg other, (writeDivisor_kept _ _ _ _).2.2.2,
      decide_eq_false (Ne.symm other)]
    simpa using fits

end Sys2Proof.Machine
end

section
/-! What makes no path quiet: the arbiter, and with it the policy events. The station policy write (R19 to R21). -/

namespace Sys2Proof.Machine

/-! ## Steps that make no path quiet (R106) -/

/-- Every path that is quiet in `t` was quiet in `s`. -/
def NoneQuieted (s t : State) : Prop := ∀ p, t.pathQuiet p = true → s.pathQuiet p = true

theorem NoneQuieted.refl (s : State) : NoneQuieted s s := fun _ => id

theorem NoneQuieted.trans {s t u : State} (one : NoneQuieted s t) (two : NoneQuieted t u) : NoneQuieted s u :=
  fun p quiet => one p (two p quiet)

theorem noneQuieted_of_tx {s t : State} (same : t.tx = s.tx) : NoneQuieted s t := fun p quiet => by
  simpa only [State.pathQuiet, State.txOf, same] using quiet

/-- A change of one transmit record that keeps its path from being quiet, or leaves quietness as it is. -/
theorem noneQuieted_mapTx (p : Position) (g : TxRecord → TxRecord) (s : State)
    (own : (s.mapTx p g).pathQuiet p = true → s.pathQuiet p = true) : NoneQuieted s (s.mapTx p g) := fun q quiet => by
  by_cases same : q = p
  · subst same; exact own quiet
  · simpa only [State.pathQuiet, txOf_mapTx, if_neg same] using quiet

theorem noneQuieted_grant (p : Position) (s : State) : NoneQuieted s (grant p s) := by
  have onAir := noneQuieted_mapTx p (fun x => { x with state := .granted, tailTimer := none, skipHang := false }) s
    (fun quiet => by simp [State.pathQuiet, txOf_mapTx, TxState.onAir] at quiet)
  exact onAir.trans (noneQuieted_of_tx ((moved_evaluateAdvisories (putOnAir p s)).tx (by decide)))

theorem noneQuieted_arbiterPass : ∀ (ps : List Position) (s : State), NoneQuieted s (arbiterPass ps s).1
  | [], s => .refl s
  | p :: ps, s => by
    unfold arbiterPass
    split
    · exact (noneQuieted_grant p s).trans (noneQuieted_arbiterPass ps _)
    · next r _ =>
      exact (noneQuieted_mapTx p (fun x => { x with reason := some r }) s fun quiet => by
        simpa [State.pathQuiet, txOf_mapTx] using quiet).trans (noneQuieted_arbiterPass ps _)

theorem noneQuieted_arbiterPasses : ∀ (n : Nat) (s : State), NoneQuieted s (arbiterPasses n s)
  | 0, s => .refl s
  | n + 1, s => by
    have one := noneQuieted_arbiterPass s.waiting s
    unfold arbiterPasses
    split
    · next t same => rw [same] at one; exact one.trans (noneQuieted_arbiterPasses n t)
    · next t same => rw [same] at one; exact one

theorem noneQuieted_arbiter (s : State) : NoneQuieted s (arbiter s) := noneQuieted_arbiterPasses _ s

theorem noneQuieted_policyEvent (s : State) : NoneQuieted s (policyEvent s) :=
  (noneQuieted_arbiter s).trans (noneQuieted_of_tx ((moved_evaluateAdvisories _).tx (by decide)))

theorem deliverQuiet_of_noneQuieted {b s : State} (none : NoneQuieted b s) : deliverQuiet b s = s := by
  have nobody : newlyQuiet b [] s = Option.none := by
    simp only [newlyQuiet, List.find?_eq_none]
    intro p _ found
    simp only [List.contains_nil, Bool.not_false, Bool.true_and, Bool.and_eq_true, Bool.not_eq_true'] at found
    obtain ⟨loud, quiet⟩ := found
    rw [none p quiet] at loud
    cases loud
  simp [deliverQuiet, quietEvents, nobody, allPositions]

theorem closeStep_of_noneQuieted {b s : State} (none : NoneQuieted b s) (ready : s.store.ready = b.store.ready) :
    closeStep b s = startRule s := by
  rw [closeStep, watchPin_same b s ready, deliverQuiet_of_noneQuieted none]

/-! ## Station policy (R19 to R21) -/

theorem policyOf_bytes (q : Policy)
    (small : ∀ n ∈ [q.tDeb, q.tSettle, q.tTail, q.tHang, q.tStale, q.tLink, q.tVerify, q.k, q.c, q.nMax, q.gBase, q.chainLength], n < 256) :
    policyOf q.bytes = some q := by
  obtain ⟨d, st, ta, h, sa, l, v, k, c, n, g, harmonic, cl, lock⟩ := q
  simp only [List.forall_mem_cons, List.not_mem_nil, false_implies, implies_true, and_true] at small
  obtain ⟨hd, hst, hta, hh, hsa, hl, hv, hk, hc, hn, hg, hcl⟩ := small
  cases harmonic <;> cases lock <;>
    simp [policyOf, Policy.bytes, byteAt, HarmonicPolicy.code, LockMode.code, harmonicPolicyOf, lockModeOf, Nat.mod_eq_of_lt, *]

/-- The driver's part of a station policy write. -/
def policyDriven (old new : Policy) (s : State) : State :=
  lengthWritten old new (verifyWritten old new (s.mapTable fun t => t.setPolicy new))

theorem lengthWritten_eq (old new : Policy) (s : State) : ∃ c, lengthWritten old new s = { s with chain := c } := by
  unfold lengthWritten; split
  · exact ⟨_, rfl⟩
  · exact ⟨_, rfl⟩

theorem verifyWritten_eq (old new : Policy) (s : State) : ∃ c, verifyWritten old new s = { s with chain := c } := by
  unfold verifyWritten; split
  · exact ⟨_, rfl⟩
  · split <;> exact ⟨_, rfl⟩

theorem policyDriven_eq (old new : Policy) (s : State) :
    policyDriven old new s = { s with table := { s.table with policy := new }, chain := (policyDriven old new s).chain } := by
  obtain ⟨c, verify⟩ := verifyWritten_eq old new (s.mapTable fun t => t.setPolicy new)
  obtain ⟨d, length⟩ := lengthWritten_eq old new (verifyWritten old new (s.mapTable fun t => t.setPolicy new))
  rw [policyDriven, length, verify]
  rfl

/-- A written chain length leaves the chain's content unknown, at once or behind an operation in flight (R21, R149). -/
theorem chain_policyDriven (old new : Policy) (s : State) :
    (policyDriven old new s).chain.op = s.chain.op ∧
      (new.chainLength ≠ old.chainLength → s.chain.op = none →
        (policyDriven old new s).chain.content = none ∧ (policyDriven old new s).chain.refreshDue = true) ∧
      (new.chainLength ≠ old.chainLength → s.chain.op.isSome = true →
        (policyDriven old new s).chain.lengthDue = true ∧ (policyDriven old new s).chain.content = s.chain.content) ∧
      (new.chainLength = old.chainLength →
        (policyDriven old new s).chain.content = s.chain.content ∧ (policyDriven old new s).chain.refreshDue = s.chain.refreshDue) := by
  have kept : ∃ v, (verifyWritten old new (s.mapTable fun t => t.setPolicy new)).chain = { s.chain with verifyTimer := v } := by
    unfold verifyWritten
    split_ifs
    exacts [⟨_, rfl⟩, ⟨_, rfl⟩, ⟨_, rfl⟩]
  obtain ⟨v, kept⟩ := kept
  rw [policyDriven, lengthWritten]
  split_ifs with same
  · rw [kept]
    exact ⟨rfl, fun other => absurd same.symm other, fun other => absurd same.symm other, fun _ => ⟨rfl, rfl⟩⟩
  · simp only [mapChain_chain, kept]
    split_ifs with busy
    · exact ⟨rfl, fun _ none => by simp [none] at busy, fun _ _ => ⟨rfl, rfl⟩, fun equal => absurd equal.symm same⟩
    · exact ⟨rfl, fun _ _ => ⟨rfl, rfl⟩, fun _ some => absurd some busy, fun equal => absurd equal.symm same⟩

/-- What a written t_verify does to the verify timer (R20). -/
theorem verifyTimer_policyDriven (old new : Policy) (s : State) :
    (policyDriven old new s).chain.verifyTimer =
      if new.tVerify = 0 then none
      else if old.tVerify = 0 ∧ s.chain.op = none ∧ s.safe = false then some (1000 * new.tVerify)
      else s.chain.verifyTimer := by
  have same : (policyDriven old new s).chain.verifyTimer =
      (verifyWritten old new (s.mapTable fun t => t.setPolicy new)).chain.verifyTimer := by
    rw [policyDriven, lengthWritten]
    split_ifs
    · rfl
    · rw [mapChain_chain]; split <;> rfl
  rw [same, verifyWritten]
  have safe : (s.mapTable fun t => t.setPolicy new).safe = s.safe := rfl
  simp only [safe, Bool.and_eq_true, decide_eq_true_eq, Bool.not_eq_true', Option.isNone_iff_eq_none, mapTable_chain, and_assoc]
  split_ifs <;> simp [Policy.verifyMs, Nat.mul_comm]

theorem verifyTimer_startRule_of_zero {s : State} (off : s.policy.tVerify = 0) (stopped : s.chain.verifyTimer = none) :
    (startRule s).chain.verifyTimer = none := by
  have change (why : Purpose) : (startChange why s).chain.verifyTimer = none := by rw [startChange, takeStart_eq]; rfl
  unfold startRule
  dsimp only
  repeat' split
  all_goals first | exact stopped | exact change _ | rfl | simp [startNothing, off, stopped]

/-- Settles O35: the written policy acts on the driver at once, and the policy event makes no path quiet. -/
theorem policyWriteClamps : Obligations.PolicyWriteClamps := by
  intro s p f q offered writable kind small payload new fits
  have taken := exec_write_of_open offered writable kind 5 (bs := q.bytes) payload rfl
  rw [if_pos (by decide)] at taken
  change exec (.stationPolicyWrite p) s = _ at taken
  have clamps : q.clamped = new := by
    simp only [List.forall_mem_cons, List.not_mem_nil, false_implies, implies_true, and_true] at small
    obtain ⟨hd, hst, hta, hh, hsa, hl, hv, hk, hc, hn, hg, hcl⟩ := small
    simp only [new, Policy.clamped, clamp, Policy.mk.injEq, and_true, true_and]
    and_intros
    all_goals omega
  have accepted : writeAccept 5 p f q.bytes s =
      if s.fits (s.table.setPolicy new) = false then answer p f .invalid s
      else if new.k < s.onAirCount then answer p f .busy s
      else policyEvent (answer p f (if new = q then .ok else .adjusted) (policyDriven s.policy new s)) := by
    show acceptPolicy p f q.bytes s = _
    simp only [acceptPolicy, policyOf_bytes q small, clampedCode_eq, clamps, policyDriven, Bool.not_eq_true']
  rw [accepted] at taken
  have legal : s.fits (s.table.setPolicy new) = true ↔ fits := Iff.rfl
  clear_value fits new
  refine ⟨fun bad => ?_, fun good few => ?_, fun good room => ?_⟩
  · rw [taken, if_pos (Bool.eq_false_iff.2 fun ok => bad (legal.1 ok)), freeSlot_answer, closeStep_answered]
  · rw [taken, if_neg (by simpa [legal] using good), if_pos few, freeSlot_answer, closeStep_answered]
  · rw [if_neg (by simpa [legal] using good), if_neg (by omega)] at taken
    generalize (if new = q then Code.ok else .adjusted) = c at taken ⊢
    let a := policyDriven s.policy new s
    let b := policyEvent (answer p f c a)
    have event : Moved airParts (answer p f c a) b := moved_policyEvent _
    have driven : a = { s with table := { s.table with policy := new }, chain := a.chain } := policyDriven_eq _ _ _
    have tx : (answer p f c a).tx = s.tx := by show a.tx = _; rw [driven]
    have ready : (freeSlot p b).store.ready = s.store.ready := by
      show b.store.ready = _
      rw [event.store (by decide)]
      show a.store.ready = _
      rw [driven]
    have loud : NoneQuieted s (freeSlot p b) :=
      (noneQuieted_of_tx tx).trans ((noneQuieted_policyEvent _).trans (noneQuieted_of_tx rfl))
    rw [closeStep_of_noneQuieted loud ready] at taken
    have start := startKept_startRule (freeSlot p b)
    have close := moved_startRule (freeSlot p b)
    have chain : (freeSlot p b).chain = a.chain := event.chain (by decide)
    have table : (freeSlot p b).table = { s.table with policy := new } := by
      show b.table = _
      rw [event.table (by decide)]
      show a.table = _
      rw [driven]
    obtain ⟨op, idleLength, busyLength, sameLength⟩ := chain_policyDriven s.policy new s
    have timer := verifyTimer_policyDriven s.policy new s
    refine ⟨_, taken, ?_, ?_, fun x => ?_, fun other idle => ?_, fun other busy => ?_, fun same => ?_, fun off => ?_,
      fun was now idle out none => ?_, fun now kept runs none => ?_⟩
    · refine served_of_moved (a := a) ?_ ?_ (event.mono (by decide)) (close.mono (by decide))
      · refine .of_eq (fun x out => ?_) ?_ ?_
        · rw [driven]; cases x <;> first | rfl | simp at out
        · rw [driven]
        · rw [driven]
      · rw [driven]
    · exact (close.table (by decide)).trans table
    · exact mem_advisory_iff (s := arbiter (answer p f c a)) (close.advisory (by decide))
        ((close.table (by decide)).trans ((moved_evaluateAdvisories _).table (by decide)))
        ((close.freq (by decide)).trans ((moved_evaluateAdvisories _).freq (by decide)))
        ((close.tx (by decide)).trans ((moved_evaluateAdvisories _).tx (by decide)))
        (fun j => (close.present j).trans ((present_freeSlot p j b).trans ((moved_evaluateAdvisories _).present j))) x
    · rw [start.content, start.refreshDue, chain]; exact idleLength other idle
    · have blocked : startRule (freeSlot p b) = freeSlot p b := startRule_of_blocked (.inl (by rw [chain, op, busy]))
      rw [blocked, chain]
      exact ⟨(busyLength other busy).1, op, (busyLength other busy).2⟩
    · rw [start.content, start.refreshDue, chain]; exact sameLength same
    · refine verifyTimer_startRule_of_zero (by rw [State.policy, table]; exact off) ?_
      rw [chain, timer, if_pos off]
    · rw [if_neg now, if_pos ⟨was, idle, out⟩] at timer
      have stands := verifyTimer_startRule (s := freeSlot p b) (by rw [none, chain, op, idle])
      rw [chain, timer] at stands
      simpa using stands
    · rw [if_neg now, if_neg (by rintro ⟨was, idle, out⟩; simp [was, idle, out] at kept)] at timer
      have stands := verifyTimer_startRule (s := freeSlot p b) (by rw [none, chain, op])
      rw [chain, timer] at stands
      refine stands.resolve_right fun stopped => ?_
      simp [stopped.1] at runs

end Sys2Proof.Machine
end

section
/-! Why `ExclusionKept` fails: nothing ties a re-claim line to the port kind that keeps it. -/

namespace Sys2Proof.Machine

/-- The factory table with MAIN line 2 and one route on it, which is P0's MAIN ring for band 4. -/
def oneRouteTable : Table :=
  { factoryTable with
    lines := put factoryTable.lines 2 { kind := .main, ports := 1, reserved := none, enabled := true }
    routes := put factoryTable.routes 10 { line := 2, elements := [], label := [], enabled := true, bands := 0x10 }
    rings := put factoryTable.rings (ringIndex 0 4 .main) [10] }

/-- P0, PRESENT on band 4, is leaving MAIN line 2, whose crosspoint is open already, as an ordinary VERIFY ends; both its MAIN and its
AUX standing keep line 2 as their re-claim line. -/
def doubleReclaim : State :=
  let kept : Standing := { clearStanding with reclaim := some 2 }
  { State.reset with
    pending := [.verifyEnd]
    powered := true
    table := oneRouteTable
    store := { State.reset.store with ready := .ready }
    freq := put State.reset.freq 0 { clearFreq with band := some 4 }
    alloc := { State.reset.alloc with
      records := [{ pos := 0, line := 2, route := 10, kind := .main, state := .breaking, latched := false,
                    breakRequested := true, reroute := none }]
      standings := put State.reset.alloc.standings 0 { main := kept, aux := kept } }
    chain := { clearChain with
      content := some 0
      op := some { kind := .verify, purpose := .ordinary, phase := .shifting, image := 0, changeSet := 0, length := 26 } }
    links := put State.reset.links 0 { clearLink (26, 5) with present := true } }

theorem doubleReclaim_keyed : doubleReclaim.AllocationKeyed := by constructor <;> decide +kernel

theorem doubleReclaim_exclusive : doubleReclaim.MainExclusive := by unfold State.MainExclusive; decide +kernel

theorem doubleReclaim_held : doubleReclaim.ReclaimsHeld := by
  intro q k l
  revert q l
  cases k <;> decide +kernel

/-- The state after the end of the VERIFY. -/
def doubleReclaimed : State :=
  match step doubleReclaim with
  | .next t => t
  | _ => doubleReclaim

theorem step_doubleReclaim : step doubleReclaim = .next doubleReclaimed := by
  have taken : step doubleReclaim = exec .verifyEnd { doubleReclaim with pending := [] } := rfl
  obtain ⟨t, next, -⟩ := everyCommandCompletes .verifyEnd { doubleReclaim with pending := [] }
  rw [doubleReclaimed, taken, next]

/-- The MAIN re-claim has taken line 2 again, and the AUX standing still names it, though the record there is no longer BREAKING. -/
theorem doubleReclaimed_dangles :
    (doubleReclaimed.standing 0 .aux).reclaim = some 2 ∧ doubleReclaimed.breakingOn 0 2 = false := by decide +kernel

/-- Refutes O12: a re-claim line of the AUX kind that names a MAIN line stays behind when the MAIN re-claim takes that line again. -/
theorem not_exclusionKept : ¬ Obligations.ExclusionKept := by
  rintro ⟨exclusive, -, -⟩
  obtain ⟨stays, gone⟩ := doubleReclaimed_dangles
  have held := (exclusive _ _ doubleReclaim_keyed doubleReclaim_exclusive doubleReclaim_held step_doubleReclaim).2 0 .aux 2 stays
  rw [gone] at held
  cases held

end Sys2Proof.Machine
end

section
/-! What the events of other blocks leave of the driver: all but the pending image and the filter records. The close of a step by it,
and a mismatch (R146 to R148). -/

namespace Sys2Proof.Machine

/-! ## The driver but for the pending image and the filters -/

/-- What the pending image and the image filters may change without: every other part of the driver's state. -/
structure Steered (c d : Chain) : Prop where
  op : d.op = c.op
  latched : d.latched = c.latched
  content : d.content = c.content
  attempt : d.attempt = c.attempt
  settle : d.settleTimer = c.settleTimer
  verify : d.verifyTimer = c.verifyTimer
  refreshDue : d.refreshDue = c.refreshDue
  restartHold : d.restartHold = c.restartHold
  exitRequest : d.exitRequest = c.exitRequest
  heldForEntry : d.heldForEntry = c.heldForEntry
  lengthDue : d.lengthDue = c.lengthDue
  filters : ∀ q, (d.filters.get q).target = (c.filters.get q).target ∧ (d.filters.get q).current = (c.filters.get q).current

theorem Steered.refl (c : Chain) : Steered c c := ⟨rfl, rfl, rfl, rfl, rfl, rfl, rfl, rfl, rfl, rfl, rfl, fun _ => ⟨rfl, rfl⟩⟩

theorem Steered.of_eq {c d : Chain} (same : d = c) : Steered c d := same ▸ .refl _

theorem Steered.trans {c d e : Chain} (one : Steered c d) (two : Steered d e) : Steered c e where
  op := two.op.trans one.op
  latched := two.latched.trans one.latched
  content := two.content.trans one.content
  attempt := two.attempt.trans one.attempt
  settle := two.settle.trans one.settle
  verify := two.verify.trans one.verify
  refreshDue := two.refreshDue.trans one.refreshDue
  restartHold := two.restartHold.trans one.restartHold
  exitRequest := two.exitRequest.trans one.exitRequest
  heldForEntry := two.heldForEntry.trans one.heldForEntry
  lengthDue := two.lengthDue.trans one.lengthDue
  filters q := ⟨(two.filters q).1.trans (one.filters q).1, (two.filters q).2.trans (one.filters q).2⟩

theorem steered_steer (c : Chain) (im : Image) {v : Vector FilterRecord 6}
    (filters : ∀ q, (v.get q).target = (c.filters.get q).target ∧ (v.get q).current = (c.filters.get q).current) :
    Steered c { c with pending := im, filters := v } := ⟨rfl, rfl, rfl, rfl, rfl, rfl, rfl, rfl, rfl, rfl, rfl, filters⟩

theorem steered_of_moved {ps : List Part} {s t : State} (moved : Moved ps s t) (out : Part.chain ∉ ps) : Steered s.chain t.chain :=
  .of_eq (moved.chain out)

theorem steered_allocEvent {f : Work → Work} (worked : ∀ w, Worked w (f w)) (s : State) : Steered s.chain (allocEvent f s).chain := by
  obtain ⟨im, eq⟩ := chain_allocEvent worked s
  rw [eq]
  exact steered_steer s.chain im fun _ => ⟨rfl, rfl⟩

theorem steered_filterMove (p : Position) (s : State) : Steered s.chain (filterMove p s).chain := by
  unfold filterMove
  split
  · refine steered_steer s.chain _ fun q => ?_
    have same := filterOf_mapFilter s p q fun f => { f with image := s.movesToward p }
    simp only [State.filterOf] at same
    rw [same]
    split
    · next own => exact own ▸ ⟨rfl, rfl⟩
    · exact ⟨rfl, rfl⟩
  · exact .refl _

theorem steered_pathQuietEvent (p : Position) (s : State) : Steered s.chain (pathQuietEvent p s).chain :=
  (steered_allocEvent (fun w => (worked_requestBreaks p w).trans (worked_applyReroutes _ _)) s).trans (steered_filterMove p _)

theorem steered_quietEvents (b : State) : ∀ (n : Nat) (d : List Position) (s : State), Steered s.chain (quietEvents b n d s).chain
  | 0, _, s => .refl _
  | n + 1, d, s => by
    unfold quietEvents
    split
    · exact (steered_pathQuietEvent _ s).trans (steered_quietEvents b n _ _)
    · exact .refl _

theorem steered_deliverQuiet (b s : State) : Steered s.chain (deliverQuiet b s).chain := steered_quietEvents b _ _ s

theorem steered_endWithoutLatch (s : State) : Steered s.chain (endWithoutLatch s).chain :=
  (steered_allocEvent (fun w => worked_removeWhere _ w) s).trans (steered_of_moved (moved_arbiter _) (by decide))

/-! ## The close of a step with RESTART_N released -/

/-- Where RESTART_N is not asserted at the end of start-up, the watch of the pin changes at most its own record. -/
theorem watchPin_of_released {b s : State} (released : b.store.ready = .starting → s.store.restartRaw = false) :
    watchPin b s = s ∨ watchPin b s = s.mapStore fun x => { x with restart := x.restartRaw, restartTimer := none } := by
  unfold watchPin
  split
  · next ends =>
    simp only [Bool.and_eq_true, decide_eq_true_eq] at ends
    refine .inr (if_neg ?_)
    simpa using released ends.1
  · exact .inl rfl

/-- What is closed with the start rule: the path-quiet events taken, the pin watched. -/
theorem closeStep_of_released {b s : State} (released : b.store.ready = .starting → s.store.restartRaw = false) :
    ∃ u, closeStep b s = startRule u ∧ Moved (.store :: allocParts) s u ∧ Steered s.chain u.chain ∧ u.store.ready = s.store.ready := by
  refine ⟨deliverQuiet b (watchPin b s), rfl, ?_⟩
  have quiet := moved_deliverQuiet b (watchPin b s)
  have ready := congrArg Store.ready (quiet.store (by decide))
  have steered := steered_deliverQuiet b (watchPin b s)
  obtain same | watched := watchPin_of_released released
  · rw [same] at quiet ready steered ⊢
    exact ⟨quiet.mono (by decide), steered, ready⟩
  · rw [watched] at quiet ready steered ⊢
    exact ⟨((moved_mapStore s _).mono (by decide)).trans (quiet.mono (by decide)), steered, ready⟩

/-! ## Mismatch (R146 to R148) -/

/-- The state in which a mismatch's consequences are drawn: the operation has ended, the occurrence is handed over. -/
def mismatched (o : Operation) (bit : Nat) (second : Bool) (s : State) : State :=
  endWithoutLatch (raise (chainMismatch bit o.kind second) (endOperation none s))

theorem moved_mismatched (o : Operation) (bit : Nat) (second : Bool) (s : State) : Moved allocParts s (mismatched o bit second s) :=
  (((moved_endOperation none s).mono (by decide)).trans ((moved_raise _ _).mono (by decide))).trans (moved_endWithoutLatch _)

theorem inbox_mismatched (o : Operation) (bit : Nat) (second : Bool) (s : State) :
    s.inbox ++ [.occurred (chainMismatch bit o.kind second)] <+: (mismatched o bit second s).inbox :=
  (moved_endWithoutLatch (raise (chainMismatch bit o.kind second) (endOperation none s))).inbox

theorem attempt_endOperation (content : Option Image) (s : State) :
    (endOperation content s).chain.attempt = s.chain.attempt ∧ (endOperation content s).chain.heldForEntry = s.chain.heldForEntry ∧
      (endOperation content s).chain.exitRequest = s.chain.exitRequest ∧
      (endOperation content s).chain.content = (if s.chain.lengthDue then none else content) ∧
      (endOperation content s).chain.restartHold = s.chain.restartHold := by
  rw [endOperation, markLength, mapChain_chain]
  split
  · next due => exact ⟨rfl, rfl, rfl, (if_pos due).symm, rfl⟩
  · next due => exact ⟨rfl, rfl, rfl, (if_neg due).symm, rfl⟩

theorem steered_mismatched (o : Operation) (bit : Nat) (second : Bool) (s : State) :
    Steered (endOperation none s).chain (mismatched o bit second s).chain :=
  steered_endWithoutLatch (raise (chainMismatch bit o.kind second) (endOperation none s))

theorem drainResults_of_occurred {o : Occurrence} {rest : List LogEvent} {s : State} (waits : s.inbox = .occurred o :: rest) (n : Nat) :
    drainResults n s = s := by
  cases n with
  | zero => rfl
  | succ n => rw [drainResults, waits]

/-- An exit result that an occurrence waits before stays behind it (R148, R156). -/
theorem endExit_of_occurred {o : Occurrence} {rest : List LogEvent} {s : State} (waits : s.inbox = .occurred o :: rest) (passed : Bool) :
    endExit passed s = raiseExit passed (s.mapChain fun c => { c with exitRequest := false }) := by
  refine drainResults_of_occurred (o := o) (rest := rest ++ [.exitResult passed]) ?_ _
  show s.inbox ++ [.exitResult passed] = _
  rw [waits]
  rfl

theorem occurred_of_prefix {o : Occurrence} {xs ys : List LogEvent} (results : ∀ b r, xs ≠ .exitResult b :: r)
    (more : xs ++ [.occurred o] <+: ys) : ∃ x rest, ys = .occurred x :: rest := by
  obtain ⟨zs, rfl⟩ := more
  match xs with
  | [] => exact ⟨o, zs, rfl⟩
  | .occurred x :: rest => exact ⟨x, _, rfl⟩
  | .exitResult b :: rest => exact absurd rfl (results b rest)

theorem attempt_startRule_of_none {s : State} (none : s.chain.attempt = none) : (startRule s).chain.attempt = Option.none := by
  have change (why : Purpose) : (startChange why s).chain.attempt = Option.none := by
    rw [startChange, takeStart_eq]
    show s.chain.attempt.map _ = _
    rw [none]
    rfl
  by_cases blocked : s.chain.op.isSome = true ∨ s.store.ready = .starting ∨ s.chain.heldForEntry = true
  · rw [startRule_of_blocked blocked]
    exact none
  · simp only [not_or, Bool.not_eq_true, Option.isSome_eq_false_iff, Option.isNone_iff_eq_none] at blocked
    obtain ⟨idle, started, free⟩ := blocked
    rw [startRule_of_free idle started free]
    split_ifs
    all_goals first | exact change _ | exact none | (simp only [startNothing, mapChain_chain, none]; split <;> rfl)

theorem ready_endStartUp (s : State) : (endStartUp s).store.ready ≠ .starting := by
  rw [endStartUp, mapStore_store]
  split
  · simp
  · assumption

/-- A mismatch that the entry is to answer (R147, R152). -/
theorem escalate_spec (s : State) :
    Moved [.store, .chain] s (escalate s) ∧ (escalate s).store.ready ≠ .starting ∧
      (escalate s).store.restartRaw = s.store.restartRaw ∧
      (escalate s).chain = if s.safe then { s.chain with attempt := none } else { s.chain with heldForEntry := true } := by
  refine ⟨?_, ready_endStartUp _, ?_, ?_⟩
  · refine Moved.trans (t := if s.safe then closeAttempt s else s.mapChain fun c => { c with heldForEntry := true }) ?_
      ((moved_mapStore _ _).mono (by decide))
    split
    · exact (moved_mapChain _ _).mono (by decide)
    · exact (moved_mapChain _ _).mono (by decide)
  · rw [escalate, endStartUp, mapStore_store]
    cases s.safe <;> simp only [if_true, Bool.false_eq_true, if_false] <;> split <;> rfl
  · rw [escalate, endStartUp, mapStore_chain]
    split <;> rfl

/-- Settles O60: the occurrence waits before an exit's result, and the close of the step starts at most what the mismatch calls for. -/
theorem mismatchTaken : Obligations.MismatchTaken := by
  intro s o bit on op content inside compares results released second fatal
  have second_eq : (o.purpose ≠ .exit && s.chain.attempt.isSome) = second := by
    simp only [second]
    cases s.chain.attempt <;> simp
  have comparing : o.compares = true := by
    unfold Operation.compares
    obtain ⟨kind, shifting, other⟩ | kind | ⟨kind, checking⟩ := compares
    · simp [kind, shifting, other]
    · simp [kind]
    · simp [kind, checking]
  let v := mismatched o bit second s
  have taken : exec (.mismatch bit) s = .next (closeStep s (afterMismatch o second v)) := by
    show execMismatch bit s = _
    rw [execMismatch, wholeStep_of_powered _ on]
    simp only [op, comparing, content, inside, Bool.and_self, decide_true, if_true, takeMismatch, second_eq]
    rfl
  have moved : Moved allocParts s v := moved_mismatched o bit second s
  have steered : Steered (endOperation none s).chain v.chain := steered_mismatched o bit second s
  have waiting : s.inbox ++ [.occurred (chainMismatch bit o.kind second)] <+: v.inbox := inbox_mismatched o bit second s
  obtain ⟨idle, settle, latched, -, -, -⟩ := chain_endOperation none s
  obtain ⟨attempt, held, exitRequest, unknown, -⟩ := attempt_endOperation none s
  have unknown : v.chain.content = none := steered.content.trans (unknown.trans (by split <;> rfl))
  have idle : v.chain.op = none := steered.op.trans idle
  have attempt : v.chain.attempt = s.chain.attempt := steered.attempt.trans attempt
  have latched : v.chain.latched = s.chain.latched := steered.latched.trans latched
  have settle : v.chain.settleTimer = none := steered.settle.trans settle
  have safe : v.safe = s.safe := congrArg FaultLog.safe (moved.log (by decide))
  have store : v.store = s.store := moved.store (by decide)
  have table : v.table = s.table := moved.table (by decide)
  have severity : (v.faultConfig .chainMismatch).severity = (s.faultConfig .chainMismatch).severity := by
    rw [State.faultConfig, table]; rfl
  obtain ⟨x, rest, first⟩ := occurred_of_prefix results waiting
  clear_value v
  -- What the close of the step makes of the state in which the mismatch's consequences are drawn.
  have close (z : State) (after : afterMismatch o second v = z) (more : Moved [.store, .chain, .inbox] v z)
      (raw : z.store.restartRaw = s.store.restartRaw) (same : z.chain.latched = v.chain.latched) (none : z.chain.content = none)
      (stopped : z.chain.settleTimer = Option.none) :
      ∃ w, exec (.mismatch bit) s = .next (startRule w) ∧ Moved (.store :: allocParts) s (startRule w) ∧
        (startRule w).chain.latched = s.chain.latched ∧ (startRule w).chain.content = Option.none ∧
        (startRule w).chain.settleTimer = Option.none ∧
        s.inbox ++ [.occurred (chainMismatch bit o.kind second)] <+: (startRule w).inbox ∧ z.inbox <+: (startRule w).inbox ∧
        Steered z.chain w.chain ∧ w.store.ready = z.store.ready ∧ w.safe = s.safe := by
    obtain ⟨w, eq, closed, steers, ready⟩ := closeStep_of_released (b := s) (s := z) fun starts => raw.trans (released starts)
    have start := moved_startRule w
    have kept := startKept_startRule w
    have whole : Moved (.store :: allocParts) s w := ((moved.mono (by decide)).trans (more.mono (by decide))).trans closed
    refine ⟨w, ?_, whole.trans (start.mono (by decide)), ?_, ?_, ?_, ?_, closed.inbox.trans start.inbox, steers, ready,
      congrArg FaultLog.safe (whole.log (by decide))⟩
    · rw [taken, after, eq]
    · rw [kept.latched, steers.latched, same, latched]
    · rw [kept.content, steers.content, none]
    · rw [kept.settle, steers.settle, stopped]
    · exact (waiting.trans more.inbox).trans (closed.inbox.trans start.inbox)
  have chained (u : State) (after : Moved [.chain] v u) : Moved [.store, .chain, .inbox] v u := after.mono (by decide)
  -- A mismatch that the entry is to answer, from a state that differs from `v` in the attempt alone.
  have escalated (u : State) (after : afterMismatch o second v = escalate u) (more : Moved [.chain] v u) (c : Option Attempt)
      (chain : u.chain = { v.chain with attempt := c }) :
      ∃ w, exec (.mismatch bit) s = .next (startRule w) ∧ Moved (.store :: allocParts) s (startRule w) ∧
        (startRule w).chain.latched = s.chain.latched ∧ (startRule w).chain.content = none ∧
        (startRule w).chain.settleTimer = none ∧
        s.inbox ++ [.occurred (chainMismatch bit o.kind second)] <+: (startRule w).inbox ∧
        (s.safe = false → (startRule w).chain.heldForEntry = true ∧ (startRule w).chain.op = none ∧
          (startRule w).store.ready ≠ .starting ∧ (startRule w).chain.attempt = c) ∧
        (s.safe = true → (startRule w).chain.attempt = none) := by
    obtain ⟨moves, ends, raw, steps⟩ := escalate_spec u
    have outside : u.safe = s.safe := (congrArg FaultLog.safe (more.log (by decide))).trans safe
    have raw : (escalate u).store.restartRaw = s.store.restartRaw := by rw [raw, more.store (by decide), store]
    rw [outside, chain] at steps
    obtain ⟨w, eq, whole, same, none, stopped, told, -, steers, ready, out⟩ := close (escalate u) after
      ((chained u more).trans (moves.mono (by decide))) raw (by rw [steps]; split <;> rfl)
      (by rw [steps]; split <;> exact unknown) (by rw [steps]; split <;> exact settle)
    refine ⟨w, eq, whole, same, none, stopped, told, fun out => ?_, fun on => ?_⟩
    · rw [if_neg (by simp [out])] at steps
      have held : w.chain.heldForEntry = true := by rw [steers.heldForEntry, steps]
      rw [startRule_of_blocked (.inr (.inr held))]
      exact ⟨held, by rw [steers.op, steps]; exact idle, by rw [ready]; exact ends, by rw [steers.attempt, steps]⟩
    · rw [if_pos on] at steps
      exact attempt_startRule_of_none (by rw [steers.attempt, steps])
  by_cases exits : o.purpose = .exit
  · -- The exit fails.
    have after : afterMismatch o second v = raiseExit false (v.mapChain fun c => { c with exitRequest := false }) := by
      rw [afterMismatch, if_pos exits, endExit_of_occurred first]
    obtain ⟨w, eq, whole, same, none, stopped, told, result, steers, -, -⟩ := close _ after
      (((moved_mapChain v _).mono (by decide)).trans ((moved_raiseExit _ _).mono (by decide)))
      (by rw [← store]; rfl) rfl unknown settle
    have failed : LogEvent.exitResult false ∈ (startRule w).inbox := result.subset (List.mem_append_right _ (List.mem_singleton_self _))
    refine ⟨_, eq, whole, same, none, stopped, told, fun _ => ⟨?_, failed⟩, fun other => absurd exits other,
      fun grave => absurd exits grave.1, fun other => absurd exits other⟩
    rw [(startKept_startRule w).exitRequest, steers.exitRequest]
    rfl
  have body : afterMismatch o second v = if second then escalate v else firstMismatch o.kind v := if_neg exits
  by_cases again : second = true
  · -- A second mismatch within an open attempt.
    obtain ⟨w, eq, whole, same, none, stopped, told, outside, within⟩ :=
      escalated v (body.trans (if_pos again)) (.refl _ _) v.chain.attempt rfl
    refine ⟨_, eq, whole, same, none, stopped, told, fun exit => absurd exit exits, fun _ first => absurd again (by simp [first]),
      fun _ out => ?_, fun _ => within⟩
    obtain ⟨held, op, started, kept⟩ := outside out
    exact ⟨held, op, started, by rw [kept, attempt, if_pos again]⟩
  let opened : State := v.mapChain fun c => { c with attempt := some { kind := o.kind, repeatDue := false } }
  have body : afterMismatch o second v = firstMismatch o.kind v := body.trans (if_neg again)
  have opens : Moved [.chain] v opened := moved_mapChain _ _
  by_cases grave : (s.faultConfig .chainMismatch).severity = .fatal
  · -- A first mismatch, configured FATAL.
    obtain ⟨w, eq, whole, same, none, stopped, told, outside, within⟩ :=
      escalated opened (body.trans (if_pos (severity.trans grave))) opens _ rfl
    refine ⟨_, eq, whole, same, none, stopped, told, fun exit => absurd exit exits,
      fun _ _ mild => absurd ⟨exits, .inr grave⟩ mild, fun _ out => ?_, fun _ => within⟩
    obtain ⟨held, op, started, kept⟩ := outside out
    exact ⟨held, op, started, by rw [kept, if_neg again]; rfl⟩
  have mild : ¬fatal := fun ⟨_, serious⟩ => serious.elim again grave
  have body : afterMismatch o second v = if v.safe then closeAttempt opened else startResync .retry opened :=
    body.trans (if_neg (fun serious => grave (severity.symm.trans serious)))
  cases within : s.safe with
  | true =>
    obtain ⟨w, eq, whole, same, none, stopped, told, -, steers, -, -⟩ := close (closeAttempt opened)
      (body.trans (if_pos (safe.trans within))) (chained _ (opens.trans (moved_mapChain _ _))) (by rw [← store]; rfl) rfl unknown settle
    refine ⟨_, eq, whole, same, none, stopped, told, fun exit => absurd exit exits, fun _ _ _ out => (by cases out),
      fun serious => absurd serious mild, fun _ _ => attempt_startRule_of_none steers.attempt⟩
  | false =>
    obtain ⟨w, eq, whole, same, none, stopped, told, -, steers, -, -⟩ := close (startResync .retry opened)
      (body.trans (if_neg (by rw [safe, within]; decide))) (chained _ (opens.trans (moved_mapChain _ _))) (by rw [← store]; rfl) rfl
      unknown settle
    have busy : startRule w = w := startRule_of_blocked (.inl (by rw [steers.op]; rfl))
    rw [busy] at eq whole same none stopped told
    refine ⟨_, eq, whole, same, none, stopped, told, fun exit => absurd exit exits, fun _ _ _ _ => ⟨steers.attempt, ?_⟩,
      fun serious => absurd serious mild, fun _ on => (by cases on)⟩
    rw [steers.op]
    show some _ = _
    have policy : s.policy = v.policy := congrArg Table.policy table.symm
    rw [← latched, policy]
    rfl

end Sys2Proof.Machine
end

section
/-! Claims that are turned away (R52, R60 to R62). -/

namespace Sys2Proof.Machine

/-! ## CLAIM as its three rows take it -/

theorem exec_claim_of_offers {s : State} {p : Position} {f : Frame} (offered : Offers s p f 1) (kind : f.kind = 0x03) (m : Manner)
    (fit : claimManner f.payload = some m ∨ claimManner f.payload = none) :
    exec (claimCommand p m) s = .next (closeStep s (freeSlot p (serveClaim p f s))) := by
  have fits : claimFits m f = true := by simpa [claimFits, kind, kindClaim] using fit
  cases m with
  | wait => exact wholeStep_takeRequest_of_offers (need := fun _ => 1) offered fits _
  | now => exact wholeStep_takeRequest_of_offers (need := fun _ => 1) offered fits _
  | take => exact wholeStep_takeRequest_of_offers (need := fun _ => 1) offered fits _

theorem exec_claim_of_answer {s : State} {p : Position} {f : Frame} (offered : Offers s p f 1) (kind : f.kind = 0x03) {m : Manner}
    (fit : claimManner f.payload = some m ∨ claimManner f.payload = none) {c : Code} (refused : serveClaim p f s = answer p f c s) :
    exec (claimCommand p m) s = .next (startRule (s.answered p [f.reply c []])) := by
  rw [exec_claim_of_offers offered kind m fit, refused, freeSlot_answer, closeStep_answered]

theorem claimManner_code (n : Byte) (m : Manner) : claimManner [n, byte m.code] = some m := by cases m <;> rfl

theorem claimManner_eq_none {bs : List Byte} (out : bs.length ≠ 2 ∨ 3 ≤ byteAt bs 1) : claimManner bs = none := by
  unfold claimManner
  split
  · next two =>
    obtain ⟨n, large⟩ : ∃ n, byteAt bs 1 = n + 3 := ⟨byteAt bs 1 - 3, by have := out.resolve_left (not_not.2 two); omega⟩
    rw [large]
    rfl
  · rfl

/-- A CLAIM of a route as it is served in READY outside safe state. -/
theorem serveClaim_of_route {s : State} {p : Position} {f : Frame} {r : Route} {m : Manner} (payload : f.payload = [byte r.val, byte m.code])
    (ready : s.isReady = true) (safe : s.safe = false) :
    serveClaim p f s = match s.claimRefusal p r with
      | some c => answer p f c s
      | none => serveClaimOf p f r m s := by
  have index : below 48 (byteAt f.payload 0) = some r := by rw [payload]; exact below_byte r (by decide)
  rw [serveClaim, payload, claimManner_code, ← payload]
  simp only [ready, safe, index, Bool.not_true, Bool.false_eq_true, if_false] <;> rfl

/-! ## The tests of R52 on a route -/

theorem claimRefusal_eq_none_iff (s : State) (p : Position) (r : Route) :
    s.claimRefusal p r = none ↔
      s.routeEnabled r = true ∧ s.reservedFrom (s.routeOf r).line p = false ∧ s.breakingOn p (s.routeOf r).line = false := by
  unfold State.claimRefusal
  dsimp only
  split
  · next off => simp_all
  · split
    · next reserved => simp [reserved]
    · split
      · next leaving => simp [leaving]
      · next on free stays => simp_all

theorem breakingOn_of_none {s : State} {p : Position} {l : Line} (none : s.recordAt p l = none) : s.breakingOn p l = false := by
  rw [State.breakingOn, none]

/-- A claim that the allocator refuses changes nothing but its port. -/
theorem serveClaimOf_of_refused {s : State} {p : Position} {f : Frame} {r : Route} {m : Manner} {c : Code} {w : Work}
    (refused : claimRoute p r m (Work.start s) = (w, .refused c)) : serveClaimOf p f r m s = answer p f c s := by
  rw [serveClaimOf, refused]

/-- A claim of a line without a record of the position that can be had (R58, R63). -/
theorem claimRoute_of_free {p : Position} {r : Route} {w : Work} (none : w.s.recordAt p (w.s.routeOf r).line = none)
    (free : w.s.canBeHad (w.s.routeOf r).line r = true) (m : Manner) : claimRoute p r m w = (admitFreed (assign p r w), .ok) := by
  simp only [claimRoute, none, free, if_true]

/-- A claim of an occupied line, by its manner (R59 to R62). -/
theorem claimRoute_of_occupied {p : Position} {r : Route} {w : Work} (none : w.s.recordAt p (w.s.routeOf r).line = none)
    (busy : w.s.canBeHad (w.s.routeOf r).line r = false) (m : Manner) :
    claimRoute p r m w = match m with
      | .wait => (enqueueWait p r w, .queued ((enqueueWait p r w).s.placeIn p (w.s.routeOf r).line))
      | .now => (w, .refused .unavailable)
      | .take => if w.s.portOf (w.s.routeOf r).line = .main then takeMain p r w else takeRx p r w := by
  simp only [claimRoute, none, busy, Bool.false_eq_true, if_false] <;> cases m <;> rfl

theorem outranks_eq_false_iff (s : State) (p : Position) (l : Line) :
    s.outranks p l = false ↔ ∃ x ∈ s.recordsOn l, (s.settingsOf p).priority ≤ (s.settingsOf x.pos).priority := by
  simp [State.outranks]

theorem recordAt_spec {s : State} {p : Position} {l : Line} {h : Holder} (at' : s.recordAt p l = some h) :
    h ∈ s.alloc.records ∧ h.pos = p ∧ h.line = l := by
  have found := List.find?_some at'
  simp only [Bool.and_eq_true, decide_eq_true_eq] at found
  exact ⟨List.mem_of_find?_eq_some at', found⟩

/-- Settles O41: each test that fails answers at once, and the allocator's refusals leave its work as it began. -/
theorem claimsTurnedAway : Obligations.ClaimsTurnedAway := by
  intro s p f m offered kind
  refine ⟨fun bad => ?_, fun n payload => ?_⟩
  · refine exec_claim_of_answer offered kind (.inr (claimManner_eq_none bad)) ?_
    rw [serveClaim, claimManner_eq_none bad]
  have manner : claimManner f.payload = some m := by rw [payload, claimManner_code]
  have refuse {c : Code} (refused : serveClaim p f s = answer p f c s) := exec_claim_of_answer offered kind (.inl manner) refused
  refine ⟨fun starting => refuse ?_, fun ready safe => refuse ?_, fun ready safe large => refuse ?_, ?_⟩
  · simp [serveClaim, manner, starting]
  · simp [serveClaim, manner, ready, safe]
  · have index : below 48 (byteAt f.payload 0) = none := by rw [payload]; exact below_eq_none large
    simp [serveClaim, manner, ready, safe, index]
  rintro r rfl ready safe
  dsimp only
  have served := serveClaim_of_route (p := p) payload ready safe
  have tested {c : Code} (test : s.claimRefusal p r = some c) : serveClaim p f s = answer p f c s := by rw [served, test]
  have allocated {c : Code} {w : Work} (test : s.claimRefusal p r = none) (refused : claimRoute p r m (Work.start s) = (w, .refused c)) :
      serveClaim p f s = answer p f c s := by rw [served, test]; exact serveClaimOf_of_refused refused
  refine ⟨fun off => refuse (tested ?_), fun on reserved => refuse (tested ?_), fun on free leaving => refuse (tested ?_),
    fun on free stays keyed aux => ?_, ?_, ?_, ?_⟩
  · simp [State.claimRefusal, off]
  · simp [State.claimRefusal, on, reserved]
  · simp [State.claimRefusal, on, free, leaving]
  · rintro ⟨h, at', other⟩ ⟨x, shares, apart⟩
    obtain ⟨mem, -, line⟩ := recordAt_spec at'
    obtain ⟨-, port, -⟩ := keyed.routed h mem
    refine refuse (allocated (w := Work.start s) ((claimRefusal_eq_none_iff s p r).2 ⟨on, free, stays⟩) ?_)
    have shared : ((Work.start s).s.recordsOn h.line).any (fun x => x.pos ≠ p) = true := by
      rw [line]
      exact List.any_eq_true.2 ⟨x, shares, by simpa using apart⟩
    have kindAux : h.kind = .aux := by rw [port, line, aux]
    have held : (Work.start s).s.recordAt p ((Work.start s).s.routeOf r).line = some h := at'
    simp only [claimRoute, held, if_neg other, rerouteRecord, kindAux, shared]
    rfl
  all_goals
    rintro ⟨on, free, none, busy⟩
    have test := (claimRefusal_eq_none_iff s p r).2 ⟨on, free, breakingOn_of_none none⟩
    have claim := claimRoute_of_occupied (w := Work.start s) none busy m
  · rintro rfl
    exact refuse (allocated test claim)
  · rintro rfl aux ⟨e, listed, take⟩
    have has : hasTake ((Work.start s).s.listOf ((Work.start s).s.routeOf r).line) = true :=
      List.any_eq_true.2 ⟨e, listed, by simpa using take⟩
    have other : ¬(Work.start s).s.portOf ((Work.start s).s.routeOf r).line = .main := by
      show ¬s.portOf (s.routeOf r).line = .main
      rw [aux]
      decide
    refine refuse (allocated (w := Work.start s) test (claim.trans ?_))
    simp only [if_neg other, takeRx, has, if_true]
  · rintro rfl lone ⟨x, mem, low⟩
    have outranked : (Work.start s).s.outranks p ((Work.start s).s.routeOf r).line = false :=
      (outranks_eq_false_iff _ _ _).2 ⟨x, mem, low⟩
    refine refuse (allocated (w := Work.start s) test (claim.trans ?_))
    dsimp only
    split
    · simp [takeMain, outranked]
    · next rx =>
      have empty : hasTake ((Work.start s).s.listOf ((Work.start s).s.routeOf r).line) = false := by
        show hasTake (s.listOf (s.routeOf r).line) = false
        simpa [hasTake] using lone.resolve_left rx
      simp [takeRx, empty, outranked]

end Sys2Proof.Machine
end

section
/-! The laws of the allocation and the order of the lists, kept by every step (section 3.1, R50). -/

namespace Sys2Proof.Machine

variable {c : Option Instr}

/-- How a move may change allocator and table: not at all, by the allocator's own changes, from the latched flags where it is a
completion, or by a written table that serves what stands. -/
theorem alloc_of_act {s t : State} (move : Act c s t) :
    (t.alloc = s.alloc ∧ t.table = s.table) ∨
    (t.table = s.table ∧ (s.AllocationKeyed → ∃ u v : State, (u = s ∨ u = flagged (latchChange s)) ∧ Dealt u v ∧ t.alloc = v.alloc)) ∨
    ∃ T, s.Serves T ∧ t = { s with table := T } := by
  have same {ps : List Part} {u v : State} (moved : Moved ps u v) (alloc : Part.alloc ∉ ps) (table : Part.table ∉ ps) :
      v.alloc = u.alloc ∧ v.table = u.table := ⟨moved.alloc alloc, moved.table table⟩
  cases move with
  | quiet quiet => exact .inl (same quiet.moved (by decide) (by decide))
  | leave p _ => exact .inl (same (moved_leaveSlot p .idle s) (by decide) (by decide))
  | keyDown p _ _ => exact .inl (same (moved_keyDown p s) (by decide) (by decide))
  | keyUp p _ => exact .inl (same (moved_keyUp p s) (by decide) (by decide))
  | report p r quiet =>
    obtain ⟨alloc, table⟩ := same quiet.moved (by decide) (by decide)
    split
    · exact .inl ⟨alloc, table⟩
    · obtain ⟨alloc', table'⟩ := same (moved_withdrawGrant p .band _) (by decide) (by decide)
      exact .inl ⟨alloc'.trans alloc, table'.trans table⟩
  | restart v quiet _ => exact .inl ⟨quiet.moved.alloc (by decide), quiet.moved.table (by decide)⟩
  | enter _ quiet _ =>
    obtain ⟨alloc, table⟩ := same quiet.moved (by decide) (by decide)
    obtain ⟨alloc', table'⟩ := same (moved_stopForEntry _) (by decide) (by decide)
    exact .inl ⟨alloc'.trans alloc, table'.trans table⟩
  | deal a moves => exact .inr (.inl ⟨rfl, fun keyed => ⟨s, _, .inl rfl, moves keyed, rfl⟩⟩)
  | calm a moves _ => exact .inr (.inl ⟨rfl, fun keyed => ⟨s, _, .inl rfl, moves keyed, rfl⟩⟩)
  | latch _ _ a moves =>
    exact .inr (.inl ⟨(moved_latched s a).table (by decide), fun keyed => ⟨_, _, .inr rfl, moves keyed, rfl⟩⟩)
  | table i _ _ T _ serves => exact .inr (.inr ⟨T, serves, rfl⟩)
  | _ => exact .inl ⟨rfl, rfl⟩

theorem listsOrdered_of_same {s t : State} (ordered : s.ListsOrdered) (lists : t.alloc.lists = s.alloc.lists) : t.ListsOrdered := fun l => by
  rw [listOf_of_alloc lists]
  exact ordered l

theorem allocationKeyed_act {s t : State} (move : Act c s t) (keyed : s.AllocationKeyed) : t.AllocationKeyed := by
  obtain ⟨alloc, table⟩ | ⟨table, dealt⟩ | ⟨T, serves, rfl⟩ := alloc_of_act move
  · exact allocationKeyed_of_same keyed table alloc
  · obtain ⟨u, v, start, moves, alloc⟩ := dealt keyed
    have latched := moved_latchChange s
    have before : u.AllocationKeyed ∧ u.table = s.table := by
      obtain rfl | rfl := start
      · exact ⟨keyed, rfl⟩
      · exact ⟨allocationKeyed_flagged (allocationKeyed_of_same keyed (latched.table (by decide)) (latched.alloc (by decide))),
          latched.table (by decide)⟩
    have same : t.table = v.table := by rw [table, table_of_moves moves, before.2]
    exact allocationKeyed_of_same (allocationKeyed_moves moves before.1) same alloc
  · exact allocationKeyed_serves serves keyed

theorem listsOrdered_act {s t : State} (move : Act c s t) (keyed : s.AllocationKeyed) (ordered : s.ListsOrdered) : t.ListsOrdered := by
  obtain ⟨alloc, -⟩ | ⟨-, dealt⟩ | ⟨T, -, rfl⟩ := alloc_of_act move
  · exact listsOrdered_of_same ordered (by rw [alloc])
  · obtain ⟨u, v, start, moves, alloc⟩ := dealt keyed
    have before : u.ListsOrdered := by
      obtain rfl | rfl := start
      · exact ordered
      · exact listsOrdered_of_same ordered (by rw [← (moved_latchChange s).alloc (by decide)]; rfl)
    exact listsOrdered_of_same (listsOrdered_moves moves before) (by rw [alloc])
  · exact ordered

/-- An allocator at rest: no record, no entry. -/
theorem allocation_of_clear {s : State} (clear : s.alloc = clearAllocator) : s.AllocationKeyed ∧ s.ListsOrdered := by
  have records : s.alloc.records = [] := by rw [clear]; rfl
  have list (l : Line) : s.listOf l = [] := by
    rw [State.listOf, clear]
    simp [clearAllocator]
  refine ⟨⟨?_, ?_, ?_, fun l => ?_, fun l e mem => ?_, fun k l x mem => ?_, fun l e mem => ?_⟩, fun l => ?_⟩
  · rw [records]
    exact List.nodup_nil
  · simp [records]
  · simp [records]
  · rw [list]
    exact List.nodup_nil
  · rw [list] at mem
    cases mem
  · rw [list] at mem
    cases mem
  · rw [list] at mem
    cases mem
  · rw [list]
    exact ⟨by simp, .nil⟩

/-- Settles O11: the laws of the allocation and the order of the lists are kept by every move of the allocator and by every table that
serves what stands. -/
theorem allocationKept : Obligations.AllocationKept := by
  intro s t keyed ordered stepped
  refine kept_of_step (I := fun s => s.AllocationKeyed ∧ s.ListsOrdered) (fun s cs kept => ?_) (fun s kept => ?_)
    (fun s _ => allocation_of_clear rfl) (fun s _ => allocation_of_clear rfl) (fun c s t move kept =>
      ⟨allocationKeyed_act move kept.1, listsOrdered_act move kept.1 kept.2⟩)
    s t ⟨keyed, ordered⟩ stepped
  · exact ⟨allocationKeyed_of_same kept.1 rfl rfl, listsOrdered_of_same kept.2 rfl⟩
  · unfold idle
    split
    · exact ⟨allocationKeyed_of_same kept.1 rfl rfl, listsOrdered_of_same kept.2 rfl⟩
    · exact kept

end Sys2Proof.Machine
end

section
/-! The pending image is the composed one, and crosspoint flags, current filters and the images stand with the records (sections 3.2, 3.7,
7.2 and 7.3). -/

namespace Sys2Proof.Machine

variable {c : Option Instr}

/-! ## How a move may change the images and what they are composed of -/

/-- Records, table, filters and images are as they were, and an operation in flight carries an image that stood. -/
structure Still (s t : State) : Prop where
  records : t.alloc.records = s.alloc.records
  table : t.table = s.table
  latched : t.chain.latched = s.chain.latched
  pending : t.chain.pending = s.chain.pending
  ops : ∀ o, t.chain.op = some o →
    (∃ o', s.chain.op = some o' ∧ o.image = o'.image) ∨ o.image = s.chain.latched ∨ o.image = s.chain.pending
  filters : ∀ p, (t.filterOf p).image = (s.filterOf p).image ∧ (t.filterOf p).current = (s.filterOf p).current

theorem still_of_same {s t : State} (chain : t.chain = s.chain) (alloc : t.alloc.records = s.alloc.records) (table : t.table = s.table) :
    Still s t :=
  ⟨alloc, table, by rw [chain], by rw [chain], fun o op => .inl ⟨o, by rw [← chain, op], rfl⟩,
    fun p => by rw [State.filterOf, chain]; exact ⟨rfl, rfl⟩⟩

theorem still_of_moved {ps : List Part} {s t : State} (moved : Moved ps s t) (chain : Part.chain ∉ ps) (alloc : Part.alloc ∉ ps)
    (table : Part.table ∉ ps) : Still s t := still_of_same (moved.chain chain) (by rw [moved.alloc alloc]) (moved.table table)

theorem Still.after {s u t : State} (still : Still u t) (chain : u.chain = s.chain) (alloc : u.alloc = s.alloc) (table : u.table = s.table) :
    Still s t := by
  obtain ⟨records, table', latched, pending, ops, filters⟩ := still
  refine ⟨by rw [records, alloc], table'.trans table, by rw [latched, chain], by rw [pending, chain], ?_, fun q => ?_⟩
  · rw [chain] at ops
    exact ops
  · rw [(filters q).1, (filters q).2, State.filterOf, chain]
    exact ⟨rfl, rfl⟩

theorem still_stopForEntry (s : State) : Still s (stopForEntry s) := by
  obtain ⟨latched, pending, op, filters⟩ := chain_stopForEntry s
  have moved := moved_stopForEntry s
  refine ⟨by rw [moved.alloc (by decide)], moved.table (by decide), latched, pending, fun o eq => ?_, fun p => ?_⟩
  · obtain same | none := op
    · exact .inl ⟨o, same ▸ eq, rfl⟩
    · rw [none] at eq
      cases eq
  · rw [State.filterOf, filters]
    exact ⟨rfl, rfl⟩

/-- A move leaves the images and what they are composed of, or is one of the four that change them. -/
theorem images_of_act {s t : State} (move : Act c s t) :
    Still s t ∨
    (∃ a, (s.AllocationKeyed → Dealt s { s with alloc := a }) ∧ t = recompose { s with alloc := a }) ∨
    (∃ p f, s.pathQuiet p = true ∧ t = recompose (s.mapFilter p fun x => { x with image := f })) ∨
    (∃ a, s.inPhase .change .settling = true ∧
      (s.AllocationKeyed → Dealt (flagged (latchChange s)) { latchChange s with alloc := a }) ∧
      t = recompose { latchChange s with alloc := a }) ∨
    ∃ T, s.Serves T ∧ t = { s with table := T } := by
  have mapped (f : Operation → Operation) (image : ∀ o, (f o).image = o.image) (o : Operation) (op : s.chain.op.map f = some o) :
      ∃ o', s.chain.op = some o' ∧ o.image = o'.image := by
    obtain ⟨o', was, rfl⟩ := Option.map_eq_some_iff.1 op
    exact ⟨o', was, image o'⟩
  cases move with
  | quiet quiet => exact .inl (still_of_moved quiet.moved (by decide) (by decide) (by decide))
  | leave p _ => exact .inl (still_of_moved (moved_leaveSlot p .idle s) (by decide) (by decide) (by decide))
  | keyDown p _ _ => exact .inl (still_of_moved (moved_keyDown p s) (by decide) (by decide) (by decide))
  | keyUp p _ => exact .inl (still_of_moved (moved_keyUp p s) (by decide) (by decide) (by decide))
  | report p r quiet =>
    have kept := quiet.moved
    split
    · exact .inl (still_of_same (kept.chain (by decide)) (by rw [kept.alloc (by decide)]; rfl) (kept.table (by decide)))
    · exact .inl ((still_of_moved (moved_withdrawGrant p .band _) (by decide) (by decide) (by decide)).after (kept.chain (by decide))
        (kept.alloc (by decide)) (kept.table (by decide)))
  | restart v quiet _ =>
    have kept := quiet.moved
    exact .inl (still_of_same (kept.chain (by decide)) (by rw [← show _ = s.alloc from kept.alloc (by decide)]; rfl) (kept.table (by decide)))
  | enter _ quiet _ =>
    have kept := quiet.moved
    exact .inl ((still_stopForEntry _).after (kept.chain (by decide)) (kept.alloc (by decide)) (kept.table (by decide)))
  | marks d kept =>
    exact .inl ⟨rfl, rfl, kept.latched, kept.pending, fun o op => .inl ⟨o, kept.op ▸ op, rfl⟩, kept.filters⟩
  | start o may =>
    refine .inl ⟨rfl, rfl, rfl, rfl, fun x op => .inr ?_, fun _ => ⟨rfl, rfl⟩⟩
    obtain rfl := Option.some.inj op
    have image := may.image
    split at image
    · exact .inr image
    · exact .inl image
  | stop => exact .inl ⟨rfl, rfl, rfl, rfl, fun o op => (by cases op), fun _ => ⟨rfl, rfl⟩⟩
  | shiftEnd n _ _ => exact .inl ⟨rfl, rfl, rfl, rfl, fun o op => .inl (mapped (fun x => { x with phase := .settling }) (fun _ => rfl) o op), fun _ => ⟨rfl, rfl⟩⟩
  | fillEnd _ => exact .inl ⟨rfl, rfl, rfl, rfl, fun o op => .inl (mapped (fun x => { x with phase := .checking }) (fun _ => rfl) o op), fun _ => ⟨rfl, rfl⟩⟩
  | verifyTimer n _ _ => exact .inl ⟨rfl, rfl, rfl, rfl, fun o op => .inl ⟨o, op, rfl⟩, fun _ => ⟨rfl, rfl⟩⟩
  | deal a moves => exact .inr (.inl ⟨a, moves, rfl⟩)
  | calm a _ records => exact .inl (still_of_same rfl records rfl)
  | filter p f quiet => exact .inr (.inr (.inl ⟨p, f, quiet, rfl⟩))
  | latch _ phase a moves => exact .inr (.inr (.inr (.inl ⟨a, phase, moves, rfl⟩)))
  | table i _ _ T _ serves => exact .inr (.inr (.inr (.inr ⟨T, serves, rfl⟩)))
  | _ => exact .inl (still_of_same rfl rfl rfl)

/-! ## Crosspoints of the composed image -/

theorem crosspointBit_injective {p q : Position} {l j : Line} (same : crosspointBit p l = crosspointBit q j) : p = q ∧ l = j := by
  unfold crosspointBit at same
  exact ⟨Fin.ext (by omega), Fin.ext (by omega)⟩

/-- A record whose crosspoint the composed image closes (R47). -/
def Holder.Closed (x : Holder) : Prop := x.state = .making ∨ x.state = .connected ∨ (x.state = .breaking ∧ x.breakRequested = false)

theorem composed_crosspointBit (s : State) (p : Position) (l : Line) :
    s.composed.getLsbD (crosspointBit p l) = true ↔ ∃ x ∈ s.alloc.records, x.pos = p ∧ x.line = l ∧ x.Closed := by
  rw [getLsbD_composed]
  have low := crosspointBit_lt p l
  constructor
  · rintro (⟨x, mem, eq, closed⟩ | ⟨x, -, -, e, -, -, eq⟩ | ⟨q, g, -, eq⟩)
    · obtain ⟨rfl, rfl⟩ := crosspointBit_injective eq
      exact ⟨x, mem, rfl, rfl, closed⟩
    · have := selectBit_bounds x.line (s.table.elements.get e).select
      omega
    · have := filterBit_bounds q g
      omega
  · rintro ⟨x, mem, rfl, rfl, closed⟩
    exact .inl ⟨x, mem, rfl, closed⟩

theorem Holder.Closed.not_pending {x : Holder} (closed : x.Closed) : x.state ≠ .pending := by
  obtain on | on | ⟨on, -⟩ := closed <;> rw [on] <;> nofun

theorem composed_congr {s t : State} (records : t.alloc.records = s.alloc.records)
    (selects : ∀ x ∈ s.alloc.records, t.routeSelects x.route x.line = s.routeSelects x.route x.line)
    (filters : ∀ p, (t.filterOf p).image = (s.filterOf p).image) : t.composed = s.composed := by
  have contribution : t.contribution = s.contribution := by
    unfold State.contribution
    rw [records]
    refine List.foldl_ext _ _ _ fun im x mem => ?_
    simp only [selects x mem]
  have filterImage : t.filterImage = s.filterImage := by
    unfold State.filterImage
    simp only [filters]
  rw [State.composed, contribution, filterImage]
  rfl

theorem composed_of_same {s t : State} (records : t.alloc.records = s.alloc.records) (table : t.table = s.table)
    (filters : ∀ p, (t.filterOf p).image = (s.filterOf p).image) : t.composed = s.composed :=
  composed_congr records (fun x _ => by simp only [State.routeSelects, State.routeOf, table]) filters

/-! ## Flags and owned crosspoints -/

/-- The images other than the pending one: the latched image and that of an operation in flight. -/
def Chain.Carries (d : Chain) (im : Image) : Prop := im = d.latched ∨ ∃ o, d.op = some o ∧ im = o.image

/-- Crosspoint flags are the latched bits, and a closed crosspoint is that of a record beyond PENDING (R46). -/
structure State.Owned (s : State) : Prop where
  flags : ∀ x ∈ s.alloc.records, x.latched = s.chain.latched.getLsbD (crosspointBit x.pos x.line)
  owned : ∀ im, s.chain.Carries im → ∀ p l, im.getLsbD (crosspointBit p l) = true →
    ∃ x ∈ s.alloc.records, x.pos = p ∧ x.line = l ∧ x.state ≠ .pending

theorem owned_of_relaysHeld {s : State} (held : s.RelaysHeld) : s.Owned where
  flags := held.flags
  owned := by
    rintro im (rfl | ⟨o, op, rfl⟩) p l closed
    · exact held.owned p l (.inl closed)
    · exact held.owned p l (.inr ⟨o, op, closed⟩)

/-- Records changed in place, none back to PENDING. -/
theorem owned_of_map {s t : State} {f : Holder → Holder} (start : s.Owned) (chain : t.chain = s.chain)
    (records : t.alloc.records = s.alloc.records.map f)
    (placed : ∀ r, (f r).pos = r.pos ∧ (f r).line = r.line ∧ (f r).latched = r.latched)
    (beyond : ∀ r ∈ s.alloc.records, r.state ≠ .pending → (f r).state ≠ .pending) : t.Owned := by
  constructor
  · intro x mem
    rw [records, List.mem_map] at mem
    obtain ⟨x, mem, rfl⟩ := mem
    obtain ⟨pos, line, latched⟩ := placed x
    rw [pos, line, latched, chain]
    exact start.flags x mem
  · intro im carries p l closed
    rw [chain] at carries
    obtain ⟨x, mem, pos, line, state⟩ := start.owned im carries p l closed
    refine ⟨f x, by rw [records]; exact List.mem_map_of_mem mem, ?_, ?_, beyond x mem state⟩
    · rw [(placed x).1, pos]
    · rw [(placed x).2.1, line]

theorem owned_mapRecord {s : State} (keyed : s.AllocationKeyed) (start : s.Owned) (p : Position) (l : Line) {f : Holder → Holder}
    (placed : ∀ r, (f r).pos = r.pos ∧ (f r).line = r.line ∧ (f r).latched = r.latched)
    (beyond : ∀ h, s.recordAt p l = some h → h.state ≠ .pending → (f h).state ≠ .pending) : (mapRecord p l f s).Owned := by
  refine owned_of_map start rfl (records_mapRecord p l f s) (fun r => ?_) fun r stands => ?_ <;> split
  · exact placed r
  · exact ⟨rfl, rfl, rfl⟩
  · next key => exact beyond r ((recordAt_eq_some_iff keyed.records).2 ⟨stands, key⟩)
  · exact id

theorem owned_without {s : State} (keyed : s.AllocationKeyed) (start : s.Owned) {p : Position} {l : Line} {h : Holder}
    (held : s.recordAt p l = some h) (gone : h.state = .pending ∨ neverClosed h s = true) : (s.without p l).Owned := by
  constructor
  · exact fun x mem => start.flags x ((mem_records_without s p l x).1 mem).1
  · intro im carries q j closed
    obtain ⟨x, mem, pos, line, state⟩ := start.owned im carries q j closed
    refine ⟨x, (mem_records_without s p l x).2 ⟨mem, fun key => ?_⟩, pos, line, state⟩
    obtain rfl := Option.some.inj (held.symm.trans ((recordAt_eq_some_iff keyed.records).2 ⟨mem, key⟩))
    obtain pending | never := gone
    · exact state pending
    · simp only [neverClosed, Bool.and_eq_true, Bool.not_eq_true'] at never
      obtain ⟨opened, apart⟩ := never
      subst pos line
      change s.chain.Carries im at carries
      obtain rfl | ⟨o, op, rfl⟩ := carries
      · rw [← start.flags h mem, opened] at closed
        cases closed
      · rw [op] at apart
        simp [closed] at apart

theorem owned_move {A : Position → PortKind → Prop} {B : Prop} {s t : State} (move : Move A B s t) (keyed : s.AllocationKeyed)
    (start : s.Owned) : t.Owned := by
  cases move with
  | withdraw _ _ => exact ⟨start.flags, start.owned⟩
  | standing _ _ => exact ⟨start.flags, start.owned⟩
  | leave _ _ _ => exact owned_mapRecord keyed start _ _ (fun r => ⟨rfl, rfl, rfl⟩) fun h _ _ => nofun
  | remove _ held gone _ => exact owned_without keyed start held gone
  | @create p r _ none _ _ =>
    have mem {x : Holder} (h : x ∈ (s.withRecord p r).alloc.records) : x ∈ s.alloc.records ∨ x = s.newRecord p r := by
      simpa [records_withRecord] using h
    constructor
    · intro x stands
      obtain was | rfl := mem stands
      · exact start.flags x was
      · cases closed : s.chain.latched.getLsbD (crosspointBit p (s.routeOf r).line) with
        | false => exact closed.symm
        | true =>
          obtain ⟨x, was, pos, line, -⟩ := start.owned _ (.inl rfl) p (s.routeOf r).line closed
          exact absurd line ((recordAt_eq_none_iff s _ _).1 none x was pos)
    · intro im carries q j closed
      obtain ⟨x, was, key⟩ := start.owned im carries q j closed
      exact ⟨x, by rw [records_withRecord]; exact List.mem_append_left _ was, key⟩
  | enqueue _ _ => exact ⟨start.flags, start.owned⟩
  | take _ _ _ _ => exact ⟨start.flags, start.owned⟩
  | unstore _ _ => exact owned_mapRecord keyed start _ _ (fun r => ⟨rfl, rfl, rfl⟩) fun h _ => id
  | store _ _ _ => exact owned_mapRecord keyed start _ _ (fun r => ⟨rfl, rfl, rfl⟩) fun h _ => id
  | replace st _ held rule _ =>
    refine owned_mapRecord keyed start _ _ (fun r => ⟨rfl, rfl, rfl⟩) fun h at' => ?_
    obtain rfl := Option.some.inj (held.symm.trans at')
    obtain ⟨rfl, -⟩ | ⟨rfl, -, -⟩ := rule
    · exact id
    · exact fun _ => nofun
  | connect _ _ _ _ => exact owned_mapRecord keyed start _ _ (fun r => ⟨rfl, rfl, rfl⟩) fun h _ _ => nofun
  | request _ _ => exact owned_of_map start rfl rfl (fun r => by split <;> exact ⟨rfl, rfl, rfl⟩) fun r _ beyond => by split <;> exact beyond
  | make =>
    exact owned_of_map start rfl rfl (fun r => by split <;> exact ⟨rfl, rfl, rfl⟩) fun r _ beyond => by split; exacts [nofun, beyond]
  | clear _ => exact owned_of_map start rfl rfl (fun r => ⟨rfl, rfl, rfl⟩) fun r _ => id

/-! ## The laws that the moves carry together -/

/-- The laws that O14's rest on: the allocation's, break before make, and the relays' among the images and records. -/
structure State.Wired (s : State) : Prop where
  keyed : s.AllocationKeyed
  exclusive : s.Exclusive
  images : ChainImages s.chain
  relays : s.RelaysHeld

theorem records_moves {A : Position → PortKind → Prop} {B : Prop} {s t : State} (moves : Moves A B s t) (keyed : s.AllocationKeyed)
    (exclusive : s.Exclusive) (owned : s.Owned) : t.AllocationKeyed ∧ t.Exclusive ∧ t.Owned := by
  induction moves with
  | refl => exact ⟨keyed, exclusive, owned⟩
  | tail moves move ih =>
    obtain ⟨keyed, exclusive, owned⟩ := ih
    exact ⟨allocationKeyed_move move keyed, exclusive_move move keyed exclusive, owned_move move keyed owned⟩

theorem exclusive_of_same {s t : State} (start : s.Exclusive) (records : t.alloc.records = s.alloc.records) (table : t.table = s.table) :
    t.Exclusive := exclusive_of_subset start table fun r mem => records ▸ mem

/-- No image of a state closes two crosspoints onto one MAIN line. -/
def State.OneCrosspoint (s : State) (im : Image) : Prop :=
  ∀ l, s.portOf l = .main → ∀ p q, im.getLsbD (crosspointBit p l) = true → im.getLsbD (crosspointBit q l) = true → p = q

theorem oneCrosspoint_composed {s : State} (exclusive : s.Exclusive) : s.OneCrosspoint s.composed := by
  intro l main p q closed closed'
  obtain ⟨x, hx, rfl, rfl, on⟩ := (composed_crosspointBit s p l).1 closed
  obtain ⟨y, hy, rfl, line, on'⟩ := (composed_crosspointBit s q _).1 closed'
  exact (exclusive x hx y hy line.symm main).1 on.not_pending on'.not_pending

/-- A recomposed state has the relays' laws, where its flags, crosspoints and current filters stand with its images. -/
theorem relaysHeld_recompose {s : State} (owned : s.Owned) (exclusive : s.Exclusive)
    (filters : ∀ p f, (s.filterOf p).current = some f ↔ s.chain.latched.getLsbD (filterBit p f) = true)
    (one : ∀ im, s.chain.Carries im → s.OneCrosspoint im) : (recompose s).RelaysHeld where
  composed := (composed_of_same (t := recompose s) (s := s) rfl rfl fun _ => rfl).symm
  flags := owned.flags
  owned p l closed := by
    obtain closed | ⟨o, op, closed⟩ := closed
    · exact owned.owned _ (.inl rfl) p l closed
    · exact owned.owned _ (.inr ⟨o, op, rfl⟩) p l closed
  filters := filters
  oneCrosspoint l main im which p q := by
    obtain rfl | rfl | ⟨o, op, rfl⟩ := which
    · exact one _ (.inl rfl) l main p q
    · exact oneCrosspoint_composed exclusive l main p q
    · exact one _ (.inr ⟨o, op, rfl⟩) l main p q

theorem oneCrosspoint_of_relaysHeld {s : State} (held : s.RelaysHeld) {im : Image} (carries : s.chain.Carries im) : s.OneCrosspoint im := by
  intro l main p q
  obtain rfl | ⟨o, op, rfl⟩ := carries
  · exact held.oneCrosspoint l main _ (.inl rfl) p q
  · exact held.oneCrosspoint l main _ (.inr (.inr ⟨o, op, rfl⟩)) p q

/-! ## Each kind of move -/

theorem relaysHeld_still {s t : State} (still : Still s t) (held : s.RelaysHeld) : t.RelaysHeld := by
  obtain ⟨records, table, latched, pending, ops, filters⟩ := still
  have pendingOwned {p : Position} {l : Line} (closed : s.chain.pending.getLsbD (crosspointBit p l) = true) :
      ∃ x ∈ s.alloc.records, x.pos = p ∧ x.line = l ∧ x.state ≠ .pending := by
    rw [held.composed, composed_crosspointBit] at closed
    obtain ⟨x, mem, pos, line, on⟩ := closed
    exact ⟨x, mem, pos, line, on.not_pending⟩
  refine ⟨?_, ?_, fun p l closed => ?_, fun p f => ?_, fun l main im which => ?_⟩
  · rw [pending, held.composed, composed_of_same records table fun p => (filters p).1]
  · rw [records, latched]
    exact held.flags
  · rw [records]
    rw [latched] at closed
    obtain closed | ⟨o, op, closed⟩ := closed
    · exact held.owned p l (.inl closed)
    · obtain ⟨o', was, image⟩ | image | image := ops o op
      · exact held.owned p l (.inr ⟨o', was, image ▸ closed⟩)
      · exact held.owned p l (.inl (image ▸ closed))
      · exact pendingOwned (image ▸ closed)
  · rw [(filters p).2, latched]
    exact held.filters p f
  · rw [portOf_of_table table] at main
    refine held.oneCrosspoint l main im ?_
    rw [latched, pending] at which
    obtain same | same | ⟨o, op, rfl⟩ := which
    · exact .inl same
    · exact .inr (.inl same)
    · obtain ⟨o', was, image⟩ | image | image := ops o op
      · exact .inr (.inr ⟨o', was, image⟩)
      · exact .inl image
      · exact .inr (.inl image)

theorem latchedFilter_eq_some_iff {im : Image} (legal : ImageLegal im) (p : Position) (f : FilterNo) :
    latchedFilter im p = some f ↔ im.getLsbD (filterBit p f) = true := by
  have mem (g : FilterNo) : g ∈ (List.finRange 8).filter (fun f => im.getLsbD (filterBit p f)) ↔ im.getLsbD (filterBit p g) = true := by
    simp
  have once : ((List.finRange 8).filter fun f => im.getLsbD (filterBit p f)).Nodup := (List.nodup_finRange 8).filter _
  unfold latchedFilter
  split
  · next g eq =>
    have only := mem
    simp only [eq, List.mem_singleton] at only
    rw [Option.some.injEq, ← only, eq_comm]
  · next other =>
    refine ⟨nofun, fun closed => absurd ?_ (other f)⟩
    have here := (mem f).2 closed
    generalize (List.finRange 8).filter (fun f => im.getLsbD (filterBit p f)) = fs at mem once here
    match fs, here with
    | [g], here => rw [List.mem_singleton.1 here]
    | g :: h :: gs, _ =>
      have same := legal.filters p g h ((mem g).1 (by simp)) ((mem h).1 (by simp))
      simp [same] at once

theorem chain_latched {s : State} (phase : s.inPhase .change .settling = true) : ∃ o, s.chain.op = some o ∧
    (latchChange s).chain.latched = o.image ∧ (latchChange s).chain.op = none ∧
    ∀ p, (latchChange s).filterOf p = { s.filterOf p with current := latchedFilter o.image p } := by
  obtain ⟨o, op, -, -⟩ := (inPhase_iff s _ _).1 phase
  obtain ⟨idle, -, latched, -, -⟩ := chain_latchChange s
  have image : (latchChange s).chain.latched = o.image := by rw [latched, op]; rfl
  refine ⟨o, op, image, idle, fun p => ?_⟩
  rw [← image]
  obtain ⟨-, -, -, -, -, filters⟩ := chain_endOperation s.chain.content (s.mapChain fun c =>
    { c with latched := (c.op.map (·.image)).getD c.latched, refreshDue := false,
             restartHold := c.restartHold && s.purpose ≠ some .restart })
  show (mapFin _ _).get p = _
  rw [get_mapFin, filters]
  rfl

theorem records_latchChange (s : State) : (flagged (latchChange s)).alloc.records =
    s.alloc.records.map fun r => { r with latched := (latchChange s).chain.latched.getLsbD (crosspointBit r.pos r.line) } := by
  have alloc : (latchChange s).alloc = s.alloc := (moved_latchChange s).alloc (by decide)
  rw [flagged, mapAlloc_alloc, alloc]

/-- The state a completion's allocator changes start from: flags, crosspoints and filters are those of the image just latched. -/
theorem owned_latched {s : State} (relays : s.RelaysHeld) (phase : s.inPhase .change .settling = true) :
    (flagged (latchChange s)).Owned := by
  obtain ⟨o, op, latched, idle, -⟩ := chain_latched phase
  have records := records_latchChange s
  constructor
  · intro x mem
    rw [records, List.mem_map] at mem
    obtain ⟨x, -, rfl⟩ := mem
    rfl
  · intro im carries p l closed
    obtain rfl | ⟨o', flying, -⟩ := carries
    · obtain ⟨x, mem, pos, line, state⟩ := relays.owned p l (.inr ⟨o, op, latched ▸ closed⟩)
      exact ⟨{ x with latched := (latchChange s).chain.latched.getLsbD (crosspointBit x.pos x.line) },
        records ▸ List.mem_map.2 ⟨x, mem, rfl⟩, pos, line, state⟩
    · rw [show (flagged (latchChange s)).chain.op = none from idle] at flying
      cases flying

theorem exclusive_flagged {s : State} (exclusive : s.Exclusive) : (flagged s).Exclusive :=
  exclusive_of_map exclusive rfl rfl (fun _ _ => ⟨rfl, rfl⟩) (fun _ _ => id) fun _ _ => id

theorem wired_recompose {s : State} (keyed : s.AllocationKeyed) (exclusive : s.Exclusive) (owned : s.Owned)
    (images : ChainImages (recompose s).chain)
    (filters : ∀ p f, (s.filterOf p).current = some f ↔ s.chain.latched.getLsbD (filterBit p f) = true)
    (one : ∀ im, s.chain.Carries im → s.OneCrosspoint im) : (recompose s).Wired where
  keyed := allocationKeyed_of_same keyed rfl rfl
  exclusive := exclusive_of_same exclusive rfl rfl
  images := images
  relays := relaysHeld_recompose owned exclusive filters one

theorem wired_table {s : State} {T : Table} (serves : s.Serves T) (start : s.Wired) : { s with table := T }.Wired := by
  obtain ⟨keyed, exclusive, images, relays⟩ := start
  have main {x : Holder} (mem : x ∈ s.alloc.records) (main : { s with table := T }.portOf x.line = .main) : s.portOf x.line = .main := by
    rw [State.portOf, State.lineOf, serves.ports _ (lineInUse_of_record mem)] at main
    exact main
  refine ⟨allocationKeyed_serves serves keyed, fun x hx y hy line on => exclusive x hx y hy line (main hx on), images, ?_, relays.flags,
    relays.owned, relays.filters, fun l on im which p q closed closed' => ?_⟩
  · exact relays.composed.trans (composed_congr (s := s) (t := { s with table := T }) rfl serves.selects fun _ => rfl).symm
  · have held : ∃ x ∈ s.alloc.records, x.line = l := by
      obtain rfl | rfl | ⟨o, op, rfl⟩ := which
      · obtain ⟨x, mem, -, line, -⟩ := relays.owned p l (.inl closed)
        exact ⟨x, mem, line⟩
      · obtain ⟨x, mem, -, line, -⟩ := (composed_crosspointBit s p l).1 (relays.composed ▸ closed)
        exact ⟨x, mem, line⟩
      · obtain ⟨x, mem, -, line, -⟩ := relays.owned p l (.inr ⟨o, op, closed⟩)
        exact ⟨x, mem, line⟩
    obtain ⟨x, mem, rfl⟩ := held
    exact relays.oneCrosspoint _ (main mem on) im which p q closed closed'

theorem wired_act {s t : State} (move : Act c s t) (start : s.Wired) : t.Wired := by
  obtain ⟨keyed, exclusive, images, relays⟩ := start
  have keyed' := allocationKeyed_act move keyed
  have images' := chainImages_act move images
  have owned := owned_of_relaysHeld relays
  obtain still | ⟨a, moves, rfl⟩ | ⟨p, f, quiet, rfl⟩ | ⟨a, phase, moves, rfl⟩ | ⟨T, serves, rfl⟩ := images_of_act move
  · exact ⟨keyed', exclusive_of_same exclusive still.records still.table, images', relaysHeld_still still relays⟩
  · obtain ⟨keyed, exclusive, owned⟩ := records_moves (moves keyed) keyed exclusive owned
    exact wired_recompose keyed exclusive owned images' relays.filters fun im carries => oneCrosspoint_of_relaysHeld relays carries
  · refine wired_recompose (allocationKeyed_of_same keyed rfl rfl) exclusive ⟨owned.flags, owned.owned⟩ images' (fun q g => ?_)
      fun im carries => oneCrosspoint_of_relaysHeld relays carries
    have kept : ((s.mapFilter p fun x => { x with image := f }).filterOf q).current = (s.filterOf q).current := by
      by_cases same : q = p
      · subst same
        simp [State.mapFilter, State.filterOf, get_put_self]
      · simp [State.mapFilter, State.filterOf, get_put_ne _ _ same]
    rw [kept]
    exact relays.filters q g
  · obtain ⟨o, op, latched, idle, filters⟩ := chain_latched phase
    have moved := moved_latchChange s
    have before : (latchChange s).AllocationKeyed := allocationKeyed_of_same keyed (moved.table (by decide)) (moved.alloc (by decide))
    have apart : (latchChange s).Exclusive :=
      exclusive_of_same exclusive (by rw [moved.alloc (by decide)]) (moved.table (by decide))
    obtain ⟨keyed, exclusive, owned⟩ := records_moves (moves keyed) (allocationKeyed_flagged before) (exclusive_flagged apart)
      (owned_latched relays phase)
    refine wired_recompose keyed exclusive owned images' (fun p f => ?_) fun im carries l main p q => ?_
    · have current : ((latchChange s).filterOf p).current = latchedFilter o.image p := by rw [filters p]
      show ((latchChange s).filterOf p).current = some f ↔ (latchChange s).chain.latched.getLsbD (filterBit p f) = true
      rw [current, latched]
      exact latchedFilter_eq_some_iff (images.op o op) p f
    · replace main : s.portOf l = .main := main ▸ (portOf_of_table (moved.table (by decide)) l).symm
      obtain rfl | ⟨o', flying, -⟩ := carries
      · show (latchChange s).chain.latched.getLsbD _ = true → (latchChange s).chain.latched.getLsbD _ = true → _
        rw [latched]
        exact relays.oneCrosspoint l main _ (.inr (.inr ⟨o, op, rfl⟩)) p q
      · change (latchChange s).chain.op = some o' at flying
        rw [idle] at flying
        cases flying
  · exact wired_table serves ⟨keyed, exclusive, images, relays⟩

/-! ## Power -/

theorem relaysHeld_of_clear {s : State} (alloc : s.alloc = clearAllocator) (chain : s.chain = clearChain) : s.RelaysHeld := by
  have records : s.alloc.records = [] := by rw [alloc]; rfl
  have closes {im : Image} {l : Line} {p : Position}
      (which : im = s.chain.latched ∨ im = s.chain.pending ∨ ∃ o, s.chain.op = some o ∧ im = o.image)
      (closed : im.getLsbD (crosspointBit p l) = true) : False := by
    rw [chain] at which
    obtain rfl | rfl | ⟨o, flying, -⟩ := which
    · rw [show clearChain.latched = 0 from rfl, getLsbD_open] at closed; cases closed
    · rw [show clearChain.pending = 0 from rfl, getLsbD_open] at closed; cases closed
    · cases flying
  refine ⟨?_, by simp [records], fun p l closed => ?_, ?_, fun l _ im which p q closed => (closes which closed).elim⟩
  · rw [composed_congr (s := State.reset) (t := s) (by rw [alloc]; rfl) (fun x mem => absurd mem List.not_mem_nil)
      (fun p => by rw [State.filterOf, chain]; rfl), composed_reset, chain]
    rfl
  · obtain closed | ⟨o, op, closed⟩ := closed
    · exact (closes (.inl rfl) closed).elim
    · exact (closes (.inr (.inr ⟨o, op, rfl⟩)) closed).elim
  · simp only [State.filterOf, chain]
    exact relaysHeld_reset.filters

theorem wired_of_clear {s : State} (alloc : s.alloc = clearAllocator) (chain : s.chain = clearChain) : s.Wired where
  keyed := (allocation_of_clear alloc).1
  exclusive x mem := by rw [alloc] at mem; cases mem
  images := by rw [chain]; exact ⟨imageLegal_zero, imageLegal_zero, nofun⟩
  relays := relaysHeld_of_clear alloc chain

theorem relaysHeld_step {s t : State} (keyed : s.AllocationKeyed) (exclusive : s.MainExclusive) (images : s.ImagesLegal)
    (relays : s.RelaysHeld) (stepped : step s = .next t) : t.RelaysHeld := by
  have still (u v : State) (same : Still u v) (wired : u.Wired) (chain : v.chain = u.chain) (lists : v.alloc = u.alloc) : v.Wired :=
    ⟨allocationKeyed_of_same wired.keyed same.table lists, exclusive_of_same wired.exclusive same.records same.table,
      chain ▸ wired.images, relaysHeld_still same wired.relays⟩
  refine (kept_of_step (I := State.Wired) (fun s cs => fun wired => still s _ (still_of_same rfl rfl rfl) wired rfl rfl) (fun s wired => ?_)
    (fun s _ => wired_of_clear rfl rfl) (fun s _ => wired_of_clear rfl rfl) (fun c s t => wired_act) s t
    ⟨keyed, exclusive_of_mainExclusive exclusive, (imagesLegal_iff s).1 images, relays⟩ stepped).relays
  unfold idle
  split
  · exact still s _ (still_of_same rfl rfl rfl) wired rfl rfl
  · exact wired

end Sys2Proof.Machine
end

section
/-! The paths of positions on the air or in their tail (R104, R143): what keeps them still while records, filters and images change. -/

namespace Sys2Proof.Machine

variable {c : Option Instr}

/-! ## Who is on the air or in its tail -/

theorem engaged_of_sameTx {s t : State} (same : t.tx = s.tx) (p : Position) : t.Engaged p ↔ s.Engaged p := by
  rw [State.Engaged, State.Engaged, onAir_of_sameTx same, State.txOf, same]
  rfl

theorem engaged_put {s t : State} {p q : Position} {x : TxRecord} (tx : t.tx = put s.tx p x)
    (off : x.state.onAir = true ∨ x.tailTimer.isSome = true → s.Engaged p) (on : t.Engaged q) : s.Engaged q := by
  rw [State.Engaged, State.onAir, State.txOf, tx, get_put] at on
  split at on
  · rename_i same
    exact same ▸ off on
  · exact on

theorem engaged_withdrawGrant {p q : Position} {cause : RevocationCause} {s : State} (on : (withdrawGrant p cause s).Engaged q) :
    s.Engaged q := by
  have tx := tx_withdrawGrant p cause s
  cases state : (s.txOf p).state with
  | granted => rw [state] at tx; exact engaged_put tx (fun _ => .inl (by rw [State.onAir, state]; rfl)) on
  | hang => rw [state] at tx; exact engaged_put tx (fun _ => .inl (by rw [State.onAir, state]; rfl)) on
  | _ => rw [state] at tx; exact (engaged_of_sameTx tx q).1 on

theorem Quieted.engaged {s t : State} (quiet : Quieted s t) {p : Position} (on : t.Engaged p) : s.Engaged p := by
  induction quiet with
  | refl => exact on
  | tail _ move ih =>
    refine ih ?_
    cases move with
    | reason q r => exact engaged_put (mapTx_tx _ q _) id on
    | withdraw q cause => exact engaged_withdrawGrant on
    | _ => exact on

theorem engaged_clearWaiting (s : State) (q : Position) : (clearWaiting s).Engaged q ↔ s.Engaged q := by
  rw [State.Engaged, onAir_clearWaiting, State.txOf, clearWaiting, get_mapFin]
  rfl

theorem engaged_leaveSlot {p q : Position} {next : TxState} {s : State} (on : s.onAir p = true) (after : (leaveSlot p next s).Engaged q) :
    s.Engaged q := engaged_put (tx_leaveSlot p next s) (fun _ => .inl on) after

/-- Only a grant makes a position on the air, or in its tail, of one that is neither. -/
theorem engaged_act {s t : State} (move : Act c s t) :
    (∃ p, p ∈ s.waiting ∧ judge s p = none ∧ t = putOnAir p s) ∨ ∀ q, t.Engaged q → s.Engaged q := by
  cases move with
  | quiet quiet => exact .inr fun q => Quieted.engaged (.single quiet)
  | grant p waits eligible => exact .inl ⟨p, waits, eligible, rfl⟩
  | leave p hang => exact .inr fun q => engaged_leaveSlot (by rw [State.onAir, hang]; rfl)
  | skip p _ => exact .inr fun q => engaged_put (p := p) rfl id
  | keyDown p _ _ =>
    refine .inr fun q => engaged_put (tx_keyDown p s) fun on => ?_
    rw [State.Engaged, State.onAir]
    unfold TxRecord.keyedDown at on
    cases found : (s.txOf p).state <;> simp_all [TxState.onAir, TxState.keyedDown]
  | keyUp p _ =>
    refine .inr fun q => engaged_put (tx_keyUp p s) fun on => ?_
    rw [State.Engaged, State.onAir]
    unfold TxRecord.keyedUp at on
    cases found : (s.txOf p).state <;> simp_all [TxState.onAir]
  | tail p => exact .inr fun q => engaged_put (p := p) rfl (·.elim .inl nofun)
  | levels p x state _ _ _ tail => exact .inr fun q => engaged_put (p := p) rfl fun on => by rwa [state, tail] at on
  | report p r quiet =>
    refine .inr fun q on => ?_
    split at on
    · exact Quieted.engaged quiet on
    · exact Quieted.engaged quiet (engaged_withdrawGrant on)
  | restart v quiet off => exact .inr fun q on => Quieted.engaged quiet ((engaged_clearWaiting _ q).1 on)
  | latch _ _ a _ => exact .inr fun q => (engaged_of_sameTx ((moved_latched s a).tx (by decide)) q).1
  | enter _ quiet _ =>
    exact .inr fun q on => Quieted.engaged quiet ((engaged_of_sameTx ((moved_stopForEntry _).tx (by decide)) q).1 on)
  | _ => exact .inr fun q on => on

theorem engaged_putOnAir {p q : Position} {s : State} (on : (putOnAir p s).Engaged q) : q = p ∨ s.Engaged q := by
  by_cases same : q = p
  · exact .inl same
  · have granted : (putOnAir p s).tx = put s.tx p { s.txOf p with state := .granted, tailTimer := none, skipHang := false } := rfl
    rw [State.Engaged, State.onAir, State.txOf, granted, get_put_ne _ _ same] at on
    exact .inr on

theorem not_pathQuiet_of_engaged {s : State} {p : Position} (on : s.Engaged p) : s.pathQuiet p = false := by
  obtain air | tail := on
  · simp [State.pathQuiet, show (s.txOf p).state.onAir = true from air]
  · simp [State.pathQuiet, Option.isNone_eq_false_iff.2 tail]

/-! ## A path at rest -/

/-- A record on the path of a position that is on the air or in its tail. -/
def Holder.AtRest (x : Holder) : Prop :=
  x.state = .pending ∨ (x.state = .connected ∧ x.latched = true) ∨ (x.state = .breaking ∧ x.latched = !x.breakRequested)

/-- A position's path stands still among records, filter and images but the pending one: no record is MAKING or being broken, its
crosspoints and the select relays of its lines' routes are latched as the records call for, its filter is SETTLED, and an operation in
flight moves none of its relays. -/
structure State.PathAtRest (s : State) (p : Position) : Prop where
  records : ∀ x ∈ s.alloc.records, x.pos = p → x.AtRest
  selects : ∀ x ∈ s.alloc.records, x.pos = p → x.state ≠ .pending → ∀ i,
    s.chain.latched.getLsbD (selectBit x.line i) = (s.routeSelects x.route x.line).getLsbD (selectBit x.line i)
  filter : (s.filterOf p).image = (s.filterOf p).current
  carried : ∀ b, s.OnPath p b → ∀ o, s.chain.op = some o → o.image.getLsbD b = s.chain.latched.getLsbD b

/-- A position that is on the air has its band's filter, and a MAIN record whose crosspoint is closed. -/
structure State.Aired (s : State) (p : Position) : Prop where
  filter : ∃ b, (s.freqOf p).band = some b ∧ (s.filterOf p).current = some (s.table.bands.get b).filter
  line : ∃ x ∈ s.alloc.records, x.pos = p ∧ x.kind = .main ∧ x.state ≠ .pending ∧ x.latched = true

theorem routeSelects_line {s : State} {r : Route} {l j : Line} {i : Select}
    (closed : (s.routeSelects r l).getLsbD (selectBit j i) = true) : l = j := by
  obtain ⟨e, -, -, same⟩ := (getLsbD_routeSelects s r l _).1 closed
  unfold selectBit at same
  exact Fin.ext (by omega)

/-- Among select relays, the composed image closes those of the route of any record of the line that drives it. -/
theorem composed_selectBit {s : State} (exclusive : s.Exclusive) (oneRoute : s.OneRoute) (keyed : s.AllocationKeyed) {x : Holder}
    (mem : x ∈ s.alloc.records) (drives : x.state ≠ .pending) (i : Select) :
    s.composed.getLsbD (selectBit x.line i) = (s.routeSelects x.route x.line).getLsbD (selectBit x.line i) := by
  have bounds := selectBit_bounds x.line i
  rw [Bool.eq_iff_iff, getLsbD_composed]
  constructor
  · rintro (⟨y, -, eq, -⟩ | ⟨y, hy, driven, e, listed, on, eq⟩ | ⟨q, g, -, eq⟩)
    · have := crosspointBit_lt y.pos y.line
      omega
    · have closed : (s.routeSelects y.route y.line).getLsbD (selectBit x.line i) = true :=
        (getLsbD_routeSelects s _ _ _).2 ⟨e, listed, on, eq⟩
      have line := routeSelects_line closed
      cases port : s.portOf y.line with
      | main =>
        have same := (exclusive y hy x mem line port).1 driven drives
        obtain rfl := Option.some.inj (((recordAt_eq_some_iff keyed.records).2 ⟨hy, same, line⟩).symm.trans
          ((recordAt_eq_some_iff keyed.records).2 ⟨mem, rfl, rfl⟩))
        exact closed
      | aux => rwa [oneRoute y hy x mem line port, line] at closed
    · have := filterBit_bounds q g
      omega
  · intro closed
    obtain ⟨e, listed, on, eq⟩ := (getLsbD_routeSelects s _ _ _).1 closed
    exact .inr (.inl ⟨x, mem, drives, e, listed, on, eq⟩)

/-- The images agree on a path that stands still, once the pending image is the composed one. -/
theorem pending_of_atRest {s : State} (wired : s.Wired) (oneRoute : s.OneRoute) {p : Position} (rest : s.PathAtRest p) {b : Nat}
    (on : s.OnPath p b) : s.chain.pending.getLsbD b = s.chain.latched.getLsbD b := by
  obtain ⟨keyed, exclusive, images, relays⟩ := wired
  rw [relays.composed]
  obtain ⟨l, rfl⟩ | ⟨i, rfl⟩ | ⟨x, mem, pos, state, i, rfl⟩ := on
  · rw [Bool.eq_iff_iff, composed_crosspointBit]
    constructor
    · rintro ⟨x, mem, rfl, rfl, closed⟩
      rw [← relays.flags x mem]
      obtain pending | ⟨-, latched⟩ | ⟨breaking, latched⟩ := rest.records x mem rfl
      · exact absurd pending closed.not_pending
      · exact latched
      · obtain making | connected | ⟨-, unasked⟩ := closed
        · rw [breaking] at making; cases making
        · rw [breaking] at connected; cases connected
        · rw [latched, unasked]; rfl
    · intro closed
      obtain ⟨x, mem, rfl, rfl, beyond⟩ := relays.owned p l (.inl closed)
      rw [← relays.flags x mem] at closed
      refine ⟨x, mem, rfl, rfl, ?_⟩
      obtain pending | ⟨connected, -⟩ | ⟨breaking, latched⟩ := rest.records x mem rfl
      · exact absurd pending beyond
      · exact .inr (.inl connected)
      · rw [closed] at latched
        exact .inr (.inr ⟨breaking, by simpa using latched.symm⟩)
  · rw [Bool.eq_iff_iff, composed_filterBit, rest.filter]
    exact relays.filters p i
  · have drives : x.state ≠ .pending := by obtain on | on | on := state <;> rw [on] <;> nofun
    rw [composed_selectBit exclusive oneRoute keyed mem drives, rest.selects x mem pos drives]

theorem onPath_lt {s : State} {p : Position} {b : Nat} (on : s.OnPath p b) : b < 256 := by
  obtain ⟨l, rfl⟩ | ⟨i, rfl⟩ | ⟨x, -, -, -, i, rfl⟩ := on
  · exact (crosspointBit_lt p l).trans (by decide)
  · exact (filterBit_bounds p i).2.trans (by decide)
  · exact (selectBit_bounds x.line i).2.trans (by decide)

/-- A path that R103 or R104 gives stands still. -/
theorem atRest_of_still {s : State} (wired : s.Wired) (oneRoute : s.OneRoute) {p : Position}
    (unswitched : ∀ x ∈ s.alloc.records, x.pos = p →
      x.state ≠ .making ∧ ¬(x.state = .breaking ∧ x.breakRequested = true ∧ x.latched = true))
    (still : ∀ b, s.OnPath p b → s.chain.pending.getLsbD b = s.chain.latched.getLsbD b ∧
      ∀ o, s.chain.op = some o → o.image.getLsbD b = s.chain.latched.getLsbD b) : s.PathAtRest p := by
  obtain ⟨keyed, exclusive, images, relays⟩ := wired
  constructor
  · intro x mem pos
    have flag : x.latched = true ↔ ∃ y ∈ s.alloc.records, y.pos = x.pos ∧ y.line = x.line ∧ y.Closed := by
      rw [relays.flags x mem, ← (still _ (.inl ⟨x.line, by rw [pos]⟩)).1, relays.composed, composed_crosspointBit]
    have closed : x.latched = true ↔ x.Closed := by
      rw [flag]
      constructor
      · rintro ⟨y, hy, same, line, closed⟩
        obtain rfl := Option.some.inj (((recordAt_eq_some_iff keyed.records).2 ⟨hy, same, line⟩).symm.trans
          ((recordAt_eq_some_iff keyed.records).2 ⟨mem, rfl, rfl⟩))
        exact closed
      · exact fun closed => ⟨x, mem, rfl, rfl, closed⟩
    cases state : x.state with
    | pending => exact .inl state
    | making => exact absurd state (unswitched x mem pos).1
    | connected => exact .inr (.inl ⟨state, closed.2 (.inr (.inl state))⟩)
    | breaking =>
      refine .inr (.inr ⟨state, ?_⟩)
      rw [Bool.eq_iff_iff, closed, Bool.not_eq_true', Holder.Closed]
      simp [state]
  · intro x mem pos drives i
    have moving : x.state = .making ∨ x.state = .connected ∨ x.state = .breaking := by
      cases state : x.state <;> simp_all
    rw [← composed_selectBit exclusive oneRoute keyed mem drives, ← relays.composed,
      (still _ (.inr (.inr ⟨x, mem, pos, moving, i, rfl⟩))).1]
  · refine Option.ext fun f => ?_
    rw [relays.filters p f, ← composed_filterBit, ← relays.composed, (still _ (.inr (.inl ⟨f, rfl⟩))).1]
  · exact fun b on => (still b on).2

/-- The laws of R104 and R143, by what a move keeps of them. -/
structure State.PathsAtRest (s : State) : Prop where
  wired : s.Wired
  oneRoute : s.OneRoute
  rest : ∀ p, s.Engaged p → s.PathAtRest p
  aired : ∀ p, s.onAir p = true → s.Aired p

theorem pathsHeld_of_atRest {s : State} (start : s.PathsAtRest) : s.PathsHeld := by
  obtain ⟨wired, oneRoute, rest, aired⟩ := start
  refine ⟨fun p on x mem pos => ?_, fun p b on path => ⟨pending_of_atRest wired oneRoute (rest p on) path, (rest p on).carried b path⟩,
    fun p on => ⟨(rest p (.inl on)).filter, (aired p on).filter⟩, fun p on => ?_⟩
  · obtain pending | ⟨connected, -⟩ | ⟨breaking, latched⟩ := (rest p on).records x mem pos
    · simp [pending]
    · simp [connected]
    · simp [breaking, latched]
  · obtain ⟨x, mem, pos, kind, beyond, latched⟩ := (aired p on).line
    refine ⟨x, mem, pos, kind, ?_⟩
    obtain pending | ⟨connected, -⟩ | ⟨breaking, -⟩ := (rest p (.inl on)).records x mem pos
    · exact absurd pending beyond
    · exact .inl connected
    · exact .inr ⟨breaking, latched⟩

theorem atRest_of_pathsHeld {s : State} (wired : s.Wired) (oneRoute : s.OneRoute) (held : s.PathsHeld) : s.PathsAtRest := by
  have rest (p : Position) (on : s.Engaged p) : s.PathAtRest p :=
    atRest_of_still wired oneRoute (held.unswitched p on) fun b path => held.still p b on path
  refine ⟨wired, oneRoute, rest, fun p on => ⟨(held.filter p on).2, ?_⟩⟩
  obtain ⟨x, mem, pos, kind, connected | ⟨breaking, latched⟩⟩ := held.line p on
  · refine ⟨x, mem, pos, kind, by rw [connected]; nofun, ?_⟩
    obtain state | ⟨-, latched⟩ | ⟨state, -⟩ := (rest p (.inl on)).records x mem pos
    · rw [connected] at state; cases state
    · exact latched
    · rw [connected] at state; cases state
  · exact ⟨x, mem, pos, kind, by rw [breaking]; nofun, latched⟩

end Sys2Proof.Machine
end

section
/-! Every move keeps the paths of positions on the air or in their tail still (R104, R143). -/

namespace Sys2Proof.Machine

variable {c : Option Instr}

/-! ## The allocator's moves -/

/-- What the allocator's moves leave of the records of a position whose path is not quiet. -/
structure State.Outlasts (s t : State) (p : Position) : Prop where
  back : ∀ y ∈ t.alloc.records, y.pos = p → y.state = .pending ∨
    (y.AtRest ∧ ∃ x ∈ s.alloc.records, x.pos = p ∧ x.line = y.line ∧ x.route = y.route ∧ x.state ≠ .pending)
  forth : ∀ x ∈ s.alloc.records, x.pos = p → x.state ≠ .pending → x.latched = true →
    ∃ y ∈ t.alloc.records, y.pos = p ∧ y.kind = x.kind ∧ y.state ≠ .pending ∧ y.latched = true

theorem outlasts_of_mem {s t : State} {p : Position} (rest : ∀ x ∈ s.alloc.records, x.pos = p → x.AtRest)
    (back : ∀ y ∈ t.alloc.records, y.pos = p → y.state = .pending ∨ y ∈ s.alloc.records)
    (forth : ∀ x ∈ s.alloc.records, x.pos = p → x.state ≠ .pending → x.latched = true → x ∈ t.alloc.records) : s.Outlasts t p where
  back y mem pos := by
    by_cases pending : y.state = .pending
    · exact .inl pending
    · have was := (back y mem pos).resolve_left pending
      exact .inr ⟨rest y was pos, y, was, pos, rfl, rfl, pending⟩
  forth x mem pos beyond latched := ⟨x, forth x mem pos beyond latched, pos, rfl, beyond, latched⟩

/-- How a record of a position whose path is not quiet may change in place. -/
structure Holder.Outlasts (x y : Holder) : Prop where
  placed : y.pos = x.pos ∧ y.line = x.line ∧ y.kind = x.kind ∧ y.latched = x.latched
  pending : x.state = .pending → y.state = .pending
  beyond : x.state ≠ .pending → y.state ≠ .pending ∧ y.route = x.route ∧ (x.AtRest → y.AtRest)

theorem Holder.Outlasts.of_kept {x y : Holder} (placed : y.pos = x.pos ∧ y.line = x.line ∧ y.kind = x.kind ∧ y.latched = x.latched)
    (state : y.state = x.state) (route : y.route = x.route) (asked : y.breakRequested = x.breakRequested) : x.Outlasts y where
  placed := placed
  pending := state.trans
  beyond on := ⟨state ▸ on, route, fun rest => by rwa [Holder.AtRest, state, placed.2.2.2, asked]⟩

theorem outlasts_of_map {s t : State} {p : Position} {f : Holder → Holder} (rest : ∀ x ∈ s.alloc.records, x.pos = p → x.AtRest)
    (records : t.alloc.records = s.alloc.records.map f) (placed : ∀ x ∈ s.alloc.records, (f x).pos = x.pos)
    (each : ∀ x ∈ s.alloc.records, x.pos = p → x.Outlasts (f x)) : s.Outlasts t p where
  back y mem pos := by
    rw [records, List.mem_map] at mem
    obtain ⟨x, mem, rfl⟩ := mem
    have here := (placed x mem).symm.trans pos
    obtain ⟨⟨-, line, -, -⟩, pending, beyond⟩ := each x mem here
    by_cases state : x.state = .pending
    · exact .inl (pending state)
    · obtain ⟨-, route, keeps⟩ := beyond state
      exact .inr ⟨keeps (rest x mem here), x, mem, here, line.symm, route.symm, state⟩
  forth x mem pos state latched := by
    obtain ⟨⟨here, -, kind, flag⟩, -, beyond⟩ := each x mem pos
    exact ⟨f x, by rw [records]; exact List.mem_map_of_mem mem, here.trans pos, kind, (beyond state).1, flag.trans latched⟩

theorem outlasts_mapRecord {s : State} {p q : Position} {l : Line} {f : Holder → Holder} (keyed : s.AllocationKeyed)
    (rest : ∀ x ∈ s.alloc.records, x.pos = p → x.AtRest) (placed : ∀ x, (f x).pos = x.pos)
    (each : ∀ h, s.recordAt q l = some h → q = p → h.Outlasts (f h)) : s.Outlasts (mapRecord q l f s) p := by
  refine outlasts_of_map rest (records_mapRecord q l f s) (fun x _ => ?_) fun x mem pos => ?_
  · split
    · exact placed x
    · rfl
  · split
    · rename_i key
      exact each x ((recordAt_eq_some_iff keyed.records).2 ⟨mem, key⟩) (key.1.symm.trans pos)
    · exact .of_kept ⟨rfl, rfl, rfl, rfl⟩ rfl rfl rfl

theorem outlasts_same {s t : State} {p : Position} (rest : ∀ x ∈ s.alloc.records, x.pos = p → x.AtRest)
    (same : t.alloc.records = s.alloc.records) : s.Outlasts t p :=
  outlasts_of_mem rest (fun y mem _ => .inr (same ▸ mem)) fun x mem _ _ _ => same ▸ mem

/-- The record at a key is at rest where every record of its position is. -/
theorem atRest_of_recordAt {s : State} {p : Position} {l : Line} {h : Holder} (rest : ∀ x ∈ s.alloc.records, x.pos = p → x.AtRest)
    (held : s.recordAt p l = some h) : h.AtRest := rest h (mem_of_recordAt held).1 (mem_of_recordAt held).2.1

theorem outlasts_move {A : Position → PortKind → Prop} {B : Prop} {s t : State} (move : Move A B s t) (keyed : s.AllocationKeyed)
    {p : Position} (busy : s.pathQuiet p = false) (rest : ∀ x ∈ s.alloc.records, x.pos = p → x.AtRest) : s.Outlasts t p := by
  cases move with
  | withdraw _ _ => exact outlasts_same rest rfl
  | standing _ _ => exact outlasts_same rest rfl
  | enqueue _ _ => exact outlasts_same rest rfl
  | take _ _ _ _ => exact outlasts_same rest rfl
  | @leave q l h _ held stands =>
    refine outlasts_mapRecord keyed rest (fun _ => rfl) fun x at' same => ?_
    obtain rfl := Option.some.inj (held.symm.trans at')
    subst same
    refine ⟨⟨rfl, rfl, rfl, rfl⟩, fun pending => ?_, fun _ => ⟨nofun, rfl, fun rest => .inr (.inr ⟨rfl, ?_⟩)⟩⟩
    · rw [pending] at stands; simp at stands
    · obtain pending | ⟨-, latched⟩ | ⟨breaking, -⟩ := rest
      · rw [pending] at stands; simp at stands
      · simp [latched, busy]
      · rw [breaking] at stands; simp at stands
  | @remove q l h _ held gone _ =>
    refine outlasts_of_mem rest (fun y mem _ => .inr ((mem_records_without _ _ _ y).1 mem).1) fun x mem pos beyond latched => ?_
    refine (mem_records_without s q l x).2 ⟨mem, fun key => ?_⟩
    obtain rfl := Option.some.inj (held.symm.trans ((recordAt_eq_some_iff keyed.records).2 ⟨mem, key⟩))
    obtain pending | never := gone
    · exact beyond pending
    · simp [neverClosed, latched] at never
  | @create q r _ _ _ _ =>
    refine outlasts_of_mem rest (fun y mem _ => ?_) fun x mem _ _ _ => by rw [records_withRecord]; exact List.mem_append_left _ mem
    rw [records_withRecord, List.mem_append, List.mem_singleton] at mem
    obtain was | rfl := mem
    · exact .inr was
    · exact .inl rfl
  | unstore l _ => exact outlasts_mapRecord keyed rest (fun _ => rfl) fun x _ _ => .of_kept ⟨rfl, rfl, rfl, rfl⟩ rfl rfl rfl
  | store _ _ _ => exact outlasts_mapRecord keyed rest (fun _ => rfl) fun x _ _ => .of_kept ⟨rfl, rfl, rfl, rfl⟩ rfl rfl rfl
  | @replace q r h st _ held rule _ =>
    refine outlasts_mapRecord keyed rest (fun _ => rfl) fun x at' same => ?_
    obtain rfl := Option.some.inj (held.symm.trans at')
    subst same
    have pending : h.state = .pending ∧ st = .pending := by
      obtain ⟨rfl, pending | making⟩ | ⟨-, -, quiet⟩ := rule
      · exact ⟨pending, pending⟩
      · obtain state | ⟨state, -⟩ | ⟨state, -⟩ := atRest_of_recordAt rest held <;> rw [state] at making <;> cases making
      · rw [busy] at quiet; cases quiet
    exact ⟨⟨rfl, rfl, rfl, rfl⟩, fun _ => pending.2, fun beyond => absurd pending.1 beyond⟩
  | @connect q l h _ held making _ =>
    refine outlasts_mapRecord keyed rest (fun _ => rfl) fun x at' same => ?_
    obtain rfl := Option.some.inj (held.symm.trans at')
    subst same
    obtain state | ⟨state, -⟩ | ⟨state, -⟩ := atRest_of_recordAt rest held <;> rw [state] at making <;> cases making
  | @request q _ quiet =>
    refine outlasts_of_map rest rfl (fun x _ => by split <;> rfl) fun x _ pos => ?_
    have other : x.pos ≠ q := fun same => by rw [← same, pos, busy] at quiet; cases quiet
    simp only [other, decide_false, Bool.false_and, Bool.false_eq_true, if_false]
    exact .of_kept ⟨rfl, rfl, rfl, rfl⟩ rfl rfl rfl
  | make =>
    refine outlasts_of_map rest rfl (fun x _ => by split <;> rfl) fun x _ pos => ?_
    have idle : s.mayMake x = false := by simp [State.mayMake, pos, busy]
    simp only [idle, Bool.and_false, Bool.false_eq_true, if_false]
    exact .of_kept ⟨rfl, rfl, rfl, rfl⟩ rfl rfl rfl
  | clear _ => exact outlasts_of_map rest rfl (fun _ _ => rfl) fun x _ _ => .of_kept ⟨rfl, rfl, rfl, rfl⟩ rfl rfl rfl

/-- Path and line of a position whose path is not quiet, after changes of the records that outlast them. -/
theorem pathAtRest_of_outlasts {s t : State} {p : Position} (rest : s.PathAtRest p) (outlasts : s.Outlasts t p)
    (chain : t.chain = s.chain) (table : t.table = s.table) : t.PathAtRest p := by
  obtain ⟨records, selects, filter, carried⟩ := rest
  have was {y : Holder} (mem : y ∈ t.alloc.records) (pos : y.pos = p) (beyond : y.state ≠ .pending) :=
    ((outlasts.back y mem pos).resolve_left beyond).2
  refine ⟨fun y mem pos => (outlasts.back y mem pos).elim .inl And.left, fun y mem pos beyond i => ?_, ?_, fun b on => ?_⟩
  · obtain ⟨x, hx, pos', line, route, drives⟩ := was mem pos beyond
    rw [chain, ← line, ← route, selects x hx pos' drives]
    simp only [State.routeSelects, State.routeOf, table]
  · rw [State.filterOf, chain]
    exact filter
  · rw [chain]
    refine carried b (on.imp_right (.imp_right fun ⟨y, mem, pos, state, i, eq⟩ => ?_))
    obtain ⟨x, hx, pos', line, -, drives⟩ := was mem pos (by obtain on | on | on := state <;> rw [on] <;> nofun)
    exact ⟨x, hx, pos', by cases state : x.state <;> simp_all, i, by rw [line, eq]⟩

theorem aired_of_outlasts {s t : State} {p : Position} (aired : s.Aired p) (outlasts : s.Outlasts t p)
    (chain : t.chain = s.chain) (table : t.table = s.table) (freq : t.freq = s.freq) : t.Aired p := by
  obtain ⟨filter, x, mem, pos, kind, beyond, latched⟩ := aired
  constructor
  · rw [State.freqOf, State.filterOf, freq, chain, table]
    exact filter
  · obtain ⟨y, mem, pos, kind', beyond, latched⟩ := outlasts.forth x mem pos beyond latched
    exact ⟨y, mem, pos, kind'.trans kind, beyond, latched⟩

/-- Keyed records, break before make and the one route are kept along, and each path that is at rest where it is not quiet. -/
theorem pathAtRest_moves {A : Position → PortKind → Prop} {B : Prop} {s t : State} (moves : Moves A B s t) (keyed : s.AllocationKeyed)
    (oneRoute : s.OneRoute) : t.OneRoute ∧ ∀ p, s.pathQuiet p = false →
      (s.PathAtRest p → t.PathAtRest p ∧ (s.Aired p → t.Aired p)) := by
  induction moves with
  | refl => exact ⟨oneRoute, fun p _ rest => ⟨rest, id⟩⟩
  | tail moves move ih =>
    rename_i u v
    obtain ⟨oneRoute, kept⟩ := ih
    have keyed := allocationKeyed_moves moves keyed
    refine ⟨oneRoute_move move keyed oneRoute, fun p busy rest => ?_⟩
    obtain ⟨rest, airs⟩ := kept p busy rest
    have same := move.eq
    have busy : u.pathQuiet p = false := by rw [Moves.eq moves]; exact busy
    have outlasts := outlasts_move move keyed busy rest.records
    exact ⟨pathAtRest_of_outlasts rest outlasts (by rw [same]) (by rw [same]),
      fun aired => aired_of_outlasts (airs aired) outlasts (by rw [same]) (by rw [same]) (by rw [same])⟩

/-! ## Each kind of move -/

theorem oneRoute_act {s t : State} (move : Act c s t) (keyed : s.AllocationKeyed) (oneRoute : s.OneRoute) : t.OneRoute := by
  have same {u v : State} (one : u.OneRoute) (records : v.alloc.records = u.alloc.records) (table : v.table = u.table) : v.OneRoute :=
    oneRoute_of_map (f := id) one table (by rw [records, List.map_id]) fun _ => ⟨rfl, rfl⟩
  obtain ⟨alloc, table⟩ | ⟨table, dealt⟩ | ⟨T, serves, rfl⟩ := alloc_of_act move
  · exact same oneRoute (by rw [alloc]) table
  · obtain ⟨u, v, start, moves, alloc⟩ := dealt keyed
    have latched := moved_latchChange s
    have before : u.AllocationKeyed ∧ u.OneRoute ∧ u.table = s.table := by
      obtain rfl | rfl := start
      · exact ⟨keyed, oneRoute, rfl⟩
      · have kept : (latchChange s).OneRoute := same oneRoute (by rw [latched.alloc (by decide)]) (latched.table (by decide))
        exact ⟨allocationKeyed_flagged (allocationKeyed_of_same keyed (latched.table (by decide)) (latched.alloc (by decide))),
          oneRoute_of_map kept rfl rfl fun _ => ⟨rfl, rfl⟩, latched.table (by decide)⟩
    exact same (pathAtRest_moves moves before.1 before.2.1).1 (by rw [alloc]) (by rw [table, table_of_moves moves, before.2.2])
  · intro x hx y hy line aux
    rw [State.portOf, State.lineOf, serves.ports _ (lineInUse_of_record hx)] at aux
    exact oneRoute x hx y hy line aux

theorem pathAtRest_still {s t : State} (wired : s.Wired) (oneRoute : s.OneRoute) (still : Still s t) {p : Position}
    (rest : s.PathAtRest p) : t.PathAtRest p := by
  obtain ⟨sameRecords, table, latched, pending, ops, filters⟩ := still
  have path {b : Nat} (on : t.OnPath p b) : s.OnPath p b := by
    rw [State.OnPath, sameRecords] at on
    exact on
  constructor
  · rw [sameRecords]
    exact rest.records
  · rw [sameRecords, latched]
    intro x mem pos beyond i
    rw [rest.selects x mem pos beyond i]
    simp only [State.routeSelects, State.routeOf, table]
  · rw [(filters p).1, (filters p).2]
    exact rest.filter
  · intro b on o op
    rw [latched]
    obtain ⟨o', was, image⟩ | image | image := ops o op
    · rw [image]
      exact rest.carried b (path on) o' was
    · rw [image]
    · rw [image]
      exact pending_of_atRest wired oneRoute rest (path on)

theorem aired_still {s t : State} (still : Still s t) {p : Position} (aired : s.Aired p)
    (band : (t.freqOf p).band = (s.freqOf p).band) : t.Aired p := by
  constructor
  · rw [(still.filters p).2, band, still.table]
    exact aired.filter
  · rw [still.records]
    exact aired.line

theorem pathAtRest_recompose {s : State} {p : Position} (rest : s.PathAtRest p) : (recompose s).PathAtRest p :=
  ⟨rest.records, rest.selects, rest.filter, rest.carried⟩

theorem aired_recompose {s : State} {p : Position} (aired : s.Aired p) : (recompose s).Aired p := ⟨aired.filter, aired.line⟩

/-- A completion latches no other relay than stood on a path at rest. -/
theorem pathAtRest_latched {s : State} (wired : s.Wired) (phase : s.inPhase .change .settling = true) {p : Position}
    (rest : s.PathAtRest p) : (flagged (latchChange s)).PathAtRest p ∧ (s.Aired p → (flagged (latchChange s)).Aired p) := by
  obtain ⟨o, op, latched, idle, filters⟩ := chain_latched phase
  have moved := moved_latchChange s
  have records := records_latchChange s
  have flag {x : Holder} (mem : x ∈ s.alloc.records) (pos : x.pos = p) :
      (latchChange s).chain.latched.getLsbD (crosspointBit x.pos x.line) = x.latched := by
    rw [latched, rest.carried _ (.inl ⟨x.line, by rw [pos]⟩) o op, wired.relays.flags x mem]
  have current : latchedFilter o.image p = (s.filterOf p).current := by
    refine Option.ext fun f => ?_
    rw [latchedFilter_eq_some_iff (wired.images.op o op), rest.carried _ (.inr (.inl ⟨f, rfl⟩)) o op]
    exact (wired.relays.filters p f).symm
  have filterOf : (flagged (latchChange s)).filterOf p = s.filterOf p := by
    rw [show (flagged (latchChange s)).filterOf p = (latchChange s).filterOf p from rfl, filters p, current]
  refine ⟨⟨fun y mem pos => ?_, fun y mem pos beyond i => ?_, ?_, fun b on o' flying => ?_⟩, fun aired => ⟨?_, ?_⟩⟩
  · rw [records, List.mem_map] at mem
    obtain ⟨x, mem, rfl⟩ := mem
    have := rest.records x mem pos
    rw [Holder.AtRest] at this ⊢
    dsimp only
    rwa [flag mem pos]
  · rw [records, List.mem_map] at mem
    obtain ⟨x, mem, rfl⟩ := mem
    have on : s.OnPath p (selectBit x.line i) :=
      .inr (.inr ⟨x, mem, pos, by dsimp only at beyond; cases state : x.state <;> simp_all, i, rfl⟩)
    show (latchChange s).chain.latched.getLsbD (selectBit x.line i) = _
    rw [latched, rest.carried _ on o op, rest.selects x mem pos beyond i]
    simp only [State.routeSelects, State.routeOf]
    rw [show (flagged (latchChange s)).table = s.table from moved.table (by decide)]
  · rw [filterOf]
    exact rest.filter
  · rw [show (flagged (latchChange s)).chain.op = none from idle] at flying
    cases flying
  · rw [filterOf, show (flagged (latchChange s)).freqOf p = s.freqOf p from freqOf_of_moved moved (by decide) p,
      show (flagged (latchChange s)).table = s.table from moved.table (by decide)]
    exact aired.filter
  · obtain ⟨x, mem, pos, kind, beyond, closed⟩ := aired.line
    exact ⟨{ x with latched := (latchChange s).chain.latched.getLsbD (crosspointBit x.pos x.line) },
      records ▸ List.mem_map.2 ⟨x, mem, rfl⟩, pos, kind, beyond, (flag mem pos).trans closed⟩

/-- A grant finds the path settled, and the MAIN record connected (R102, R103). -/
theorem atRest_of_eligible {s : State} (wired : s.Wired) (oneRoute : s.OneRoute) {p : Position} (eligible : judge s p = none) :
    s.PathAtRest p ∧ s.Aired p := by
  obtain ⟨-, -, ⟨r, b, connected, -, -⟩, -, settled, -⟩ := (judge_eq_none_iff s p).1 eligible
  obtain ⟨unswitched, ⟨-, filter⟩, still⟩ := (pathSettled_iff s p).1 settled
  have rest := atRest_of_still wired oneRoute unswitched fun b on => still b (onPath_lt on) on
  refine ⟨rest, filter, ?_⟩
  have mem := List.mem_of_find?_eq_some connected
  have state : r.state = .connected := by simpa using List.find?_some connected
  obtain ⟨mem, pos, kind⟩ := (mem_recordsOf s p .main r).1 mem
  refine ⟨r, mem, pos, kind, by rw [state]; nofun, ?_⟩
  obtain pending | ⟨-, latched⟩ | ⟨breaking, -⟩ := rest.records r mem pos
  · rw [state] at pending; cases pending
  · exact latched
  · rw [state] at breaking; cases breaking

theorem pathsAtRest_table {s : State} {T : Table} (serves : s.Serves T) (start : s.PathsAtRest) (oneRoute : { s with table := T }.OneRoute) :
    { s with table := T }.PathsAtRest := by
  obtain ⟨wired, -, rest, aired⟩ := start
  refine ⟨wired_table serves wired, oneRoute, fun p on => ?_, fun p on => ⟨?_, (aired p on).line⟩⟩
  · obtain ⟨records, selects, filter, carried⟩ := rest p on
    exact ⟨records, fun x mem pos beyond i => by rw [serves.selects x mem]; exact selects x mem pos beyond i, filter, carried⟩
  · obtain off | bands := serves.bands
    · exact absurd ((off p).symm.trans on) nofun
    · show ∃ b, (s.freqOf p).band = some b ∧ (s.filterOf p).current = some (T.bands.get b).filter
      rw [bands]
      exact (aired p on).filter

theorem pathsAtRest_grant {s : State} {p : Position} (eligible : judge s p = none) (start : s.PathsAtRest)
    (wired : (putOnAir p s).Wired) : (putOnAir p s).PathsAtRest := by
  obtain ⟨wired', oneRoute, rest, aired⟩ := start
  refine ⟨wired, oneRoute, fun q on => ?_, fun q on => ?_⟩
  · obtain ⟨records, selects, filter, carried⟩ : s.PathAtRest q := by
      obtain rfl | on := engaged_putOnAir on
      · exact (atRest_of_eligible wired' oneRoute eligible).1
      · exact rest q on
    exact ⟨records, selects, filter, carried⟩
  · obtain ⟨filter, line⟩ : s.Aired q := by
      rw [onAir_putOnAir, Bool.or_eq_true, decide_eq_true_eq] at on
      obtain on | rfl := on
      · exact aired q on
      · exact (atRest_of_eligible wired' oneRoute eligible).2
    exact ⟨filter, line⟩

theorem pathsAtRest_act {s t : State} (move : Act c s t) (start : s.PathsAtRest) : t.PathsAtRest := by
  have wired' := wired_act move start.wired
  have oneRoute' := oneRoute_act move start.wired.keyed start.oneRoute
  have band := band_act move
  obtain ⟨p, -, eligible, rfl⟩ | engaged := engaged_act move
  · exact pathsAtRest_grant eligible start wired'
  obtain ⟨p, -, eligible, rfl⟩ | onAir := onAir_act move
  · exact pathsAtRest_grant eligible start wired'
  obtain ⟨wired, oneRoute, rest, aired⟩ := start
  obtain still | ⟨a, moves, rfl⟩ | ⟨p, f, quiet, rfl⟩ | ⟨a, phase, moves, rfl⟩ | ⟨T, serves, rfl⟩ := images_of_act move
  · exact ⟨wired', oneRoute', fun p on => pathAtRest_still wired oneRoute still (rest p (engaged p on)),
      fun p on => aired_still still (aired p (onAir p on)) (band p on)⟩
  · obtain ⟨-, kept⟩ := pathAtRest_moves (moves wired.keyed) wired.keyed oneRoute
    refine ⟨wired', oneRoute', fun p on => pathAtRest_recompose (kept p (not_pathQuiet_of_engaged on) (rest p on)).1, fun p on => ?_⟩
    exact aired_recompose ((kept p (not_pathQuiet_of_engaged (.inl on)) (rest p (.inl on))).2 (aired p on))
  · have kept {q : Position} (on : s.Engaged q) : (s.mapFilter p fun x => { x with image := f }).filterOf q = s.filterOf q := by
      have other : q ≠ p := fun same => by rw [same] at on; rw [not_pathQuiet_of_engaged on] at quiet; cases quiet
      exact get_put_ne _ _ other
    refine ⟨wired', oneRoute', fun q on => ?_, fun q on => ?_⟩
    · obtain ⟨records, selects, filter, carried⟩ := rest q on
      exact pathAtRest_recompose ⟨records, selects, by rw [kept on]; exact filter, carried⟩
    · obtain ⟨filter, line⟩ := aired q on
      exact aired_recompose ⟨by rw [kept (.inl on)]; exact filter, line⟩
  · have moved := moved_latchChange s
    have keyed : (flagged (latchChange s)).AllocationKeyed :=
      allocationKeyed_flagged (allocationKeyed_of_same wired.keyed (moved.table (by decide)) (moved.alloc (by decide)))
    have same : (latchChange s).OneRoute := oneRoute_of_map (f := id) oneRoute (moved.table (by decide))
      (by rw [moved.alloc (by decide), List.map_id]) fun _ => ⟨rfl, rfl⟩
    obtain ⟨-, kept⟩ := pathAtRest_moves (moves wired.keyed) keyed (oneRoute_of_map same rfl rfl fun _ => ⟨rfl, rfl⟩)
    have engaged {q : Position} (on : (recompose { latchChange s with alloc := a }).Engaged q) : (flagged (latchChange s)).Engaged q := on
    refine ⟨wired', oneRoute', fun q on => ?_, fun q on => ?_⟩
    · have was := (engaged_of_sameTx (moved.tx (by decide)) q).1 on
      exact pathAtRest_recompose (kept q (not_pathQuiet_of_engaged (engaged on)) (pathAtRest_latched wired phase (rest q was)).1).1
    · have was := (onAir_of_sameTx (moved.tx (by decide)) q).symm.trans on
      obtain ⟨rested, airs⟩ := pathAtRest_latched wired phase (rest q (.inl was))
      exact aired_recompose ((kept q (not_pathQuiet_of_engaged (engaged (.inl on))) rested).2 (airs (aired q was)))
  · exact pathsAtRest_table serves ⟨wired, oneRoute, rest, aired⟩ oneRoute'

/-! ## Every step (O14) -/

theorem not_engaged_powerOnState (T : Table) (s : State) (p : Position) : ¬(powerOnState T s).Engaged p := by
  have tx : (powerOnState T s).tx = txAtPowerOn T.policy s.tx := rfl
  rw [State.Engaged, off_powerOnState, State.txOf, tx, txAtPowerOn, get_mapFin]
  simp [clearTx]

theorem not_engaged_unpowered (s : State) (p : Position) : ¬(unpowered s).Engaged p := by
  have tx : (unpowered s).tx = txAtPowerLoss s.tx := rfl
  rw [State.Engaged, off_unpowered, State.txOf, tx, txAtPowerLoss, get_mapFin]
  simp [clearTx]

theorem pathsAtRest_of_clear {s : State} (alloc : s.alloc = clearAllocator) (chain : s.chain = clearChain) (off : ∀ p, ¬s.Engaged p) :
    s.PathsAtRest where
  wired := wired_of_clear alloc chain
  oneRoute x mem := by rw [alloc] at mem; cases mem
  rest p on := absurd on (off p)
  aired p on := absurd (.inl on) (off p)

theorem pathsHeld_step {s t : State} (start : s.PathsAtRest) (stepped : step s = .next t) : t.PathsHeld := by
  have same {u v : State} (start : u.PathsAtRest) (records : v.alloc = u.alloc) (table : v.table = u.table) (chain : v.chain = u.chain)
      (tx : v.tx = u.tx) (freq : v.freq = u.freq) : v.PathsAtRest := by
    have still := still_of_same chain (by rw [records]) table
    obtain ⟨wired, oneRoute, rest, aired⟩ := start
    refine ⟨⟨allocationKeyed_of_same wired.keyed table records, exclusive_of_same wired.exclusive still.records table,
      chain ▸ wired.images, relaysHeld_still still wired.relays⟩, ?_, fun p on => ?_, fun p on => ?_⟩
    · exact oneRoute_of_map (f := id) oneRoute table (by rw [records, List.map_id]) fun _ => ⟨rfl, rfl⟩
    · exact pathAtRest_still wired oneRoute still (rest p ((engaged_of_sameTx tx p).1 on))
    · exact aired_still still (aired p ((onAir_of_sameTx tx p).symm.trans on)) (by rw [State.freqOf, freq]; rfl)
  refine pathsHeld_of_atRest (kept_of_step (I := State.PathsAtRest) (fun s cs start => same start rfl rfl rfl rfl rfl) (fun s start => ?_)
    (fun s _ => pathsAtRest_of_clear rfl rfl (not_engaged_powerOnState _ s))
    (fun s _ => pathsAtRest_of_clear rfl rfl (not_engaged_unpowered s)) (fun c s t => pathsAtRest_act) s t start stepped)
  unfold idle
  split
  · exact same start rfl rfl rfl rfl rfl
  · exact start

/-- Settles O14: latches come from completions alone, and records, images, filters and paths stand together along every move. -/
theorem onlyCompletionsMoveRelays : Obligations.OnlyCompletionsMoveRelays := by
  refine ⟨fun c s t taken => latched_exec taken, getLsbD_composed, fun s t keyed exclusive _ images relays stepped =>
    relaysHeld_step keyed exclusive images relays stepped, fun s t keyed exclusive _ shared images relays held stepped => ?_,
    fun c s t held taken on off p b => latched_on_path held taken on off⟩
  exact pathsHeld_step (atRest_of_pathsHeld ⟨keyed, exclusive_of_mainExclusive exclusive, (imagesLegal_iff s).1 images, relays⟩
    (oneRoute_of_linesShared shared) held) stepped

end Sys2Proof.Machine
end

section
/-! What the allocator's changes hand on: the events for the interlock, the lines they free and the standings they leave (R44, R45, R65). -/

namespace Sys2Proof.Machine

/-- Every record has its line's port kind. -/
def State.Kinded (s : State) : Prop := ∀ r ∈ s.alloc.records, r.kind = s.portOf r.line

theorem kinded_of_keyed {s : State} (keyed : s.AllocationKeyed) : s.Kinded := fun r mem => (keyed.routed r mem).2.1

/-- Records of the kinds `K` alone leave their lines from one work to the next: the events added are their MAIN release events, the lines
freed are of those kinds, and notices and standings stay. -/
structure Yields (K : PortKind → Prop) (w v : Work) : Prop where
  table : v.s.table = w.s.table
  kinded : v.s.Kinded
  standings : v.s.alloc.standings = w.s.alloc.standings
  notes : v.notes = w.notes
  freed : (∀ l ∈ w.freed, K (w.s.portOf l)) → ∀ l ∈ v.freed, K (w.s.portOf l)
  events : ∃ es, v.events = w.events ++ es ∧ ∀ e ∈ es, K .main ∧ ∃ q, e = .mainRelease q

variable {K : PortKind → Prop}

theorem Yields.refl {w : Work} (kinded : w.s.Kinded) : Yields K w w :=
  ⟨rfl, kinded, rfl, rfl, id, [], by simp, by simp⟩

theorem Yields.port {w v : Work} (h : Yields K w v) (l : Line) : v.s.portOf l = w.s.portOf l := portOf_of_table h.table l

theorem Yields.trans {u v w : Work} (h : Yields K u v) (g : Yields K v w) : Yields K u w := by
  obtain ⟨es, events, own⟩ := h.events
  obtain ⟨es', events', own'⟩ := g.events
  refine ⟨g.table.trans h.table, g.kinded, g.standings.trans h.standings, g.notes.trans h.notes, fun freed l mem => ?_, es ++ es', ?_, ?_⟩
  · rw [← h.port l]
    exact g.freed (fun j mem => by rw [h.port]; exact h.freed freed j mem) l mem
  · rw [events', events, List.append_assoc]
  · intro e mem
    obtain mem | mem := List.mem_append.1 mem
    · exact own e mem
    · exact own' e mem

theorem Yields.mono {K' : PortKind → Prop} {w v : Work} (wider : ∀ k, K k → K' k) (h : Yields K w v) (start : ∀ l ∈ w.freed, K (w.s.portOf l)) :
    Yields K' w v := by
  obtain ⟨es, events, own⟩ := h.events
  exact ⟨h.table, h.kinded, h.standings, h.notes, fun _ l mem => wider _ (h.freed start l mem), es, events,
    fun e mem => ⟨wider _ (own e mem).1, (own e mem).2⟩⟩

/-- A change of state alone. -/
theorem yields_of_s {w v : Work} (kinded : v.s.Kinded) (table : v.s.table = w.s.table)
    (standings : v.s.alloc.standings = w.s.alloc.standings) (rest : v = { w with s := v.s }) : Yields K w v := by
  rw [rest]
  exact ⟨table, kinded, standings, rfl, id, [], by simp, by simp⟩

theorem kinded_of_map {s t : State} {f : Holder → Holder} (kinded : s.Kinded) (table : t.table = s.table)
    (records : t.alloc.records = s.alloc.records.map f) (placed : ∀ r, (f r).kind = r.kind ∧ (f r).line = r.line) : t.Kinded := by
  intro r mem
  rw [records, List.mem_map] at mem
  obtain ⟨x, mem, rfl⟩ := mem
  rw [(placed x).1, (placed x).2, portOf_of_table table]
  exact kinded x mem

theorem kinded_mapRecord {s : State} (kinded : s.Kinded) {p : Position} {l : Line} {f : Holder → Holder} (placed : Placed f) :
    (mapRecord p l f s).Kinded := kinded_of_map kinded rfl (records_mapRecord p l f s) fun r => by
  split
  · exact ⟨(placed r).2.2, (placed r).2.1⟩
  · exact ⟨rfl, rfl⟩

theorem kinded_of_subset {s t : State} (kinded : s.Kinded) (table : t.table = s.table) (sub : ∀ r ∈ t.alloc.records, r ∈ s.alloc.records) :
    t.Kinded := fun r mem => by rw [portOf_of_table table]; exact kinded r (sub r mem)

theorem kinded_without {s : State} (kinded : s.Kinded) (p : Position) (l : Line) : (s.without p l).Kinded :=
  kinded_of_subset kinded rfl fun r mem => ((mem_records_without s p l r).1 mem).1

theorem kinded_withRecord {s : State} (kinded : s.Kinded) (p : Position) (r : Route) : (s.withRecord p r).Kinded := by
  intro x mem
  rw [records_withRecord, List.mem_append, List.mem_singleton] at mem
  obtain mem | rfl := mem
  · exact kinded x mem
  · rfl

theorem yields_mapRecord {w : Work} (kinded : w.s.Kinded) (p : Position) (l : Line) {f : Holder → Holder} (placed : Placed f) :
    Yields K w (w.mapRecord p l f) := yields_of_s (kinded_mapRecord kinded placed) rfl rfl rfl

theorem yields_withdraw {w : Work} (kinded : w.s.Kinded) (p : Position) (k : PortKind) (keep : Option Line) :
    Yields K w (withdraw p k keep w) := yields_of_s (kinded_of_subset kinded rfl fun _ => id) rfl rfl rfl

theorem yields_createRecord {w : Work} (kinded : w.s.Kinded) (p : Position) (r : Route) : Yields K w (createRecord p r w) :=
  yields_of_s (kinded_withRecord kinded p r) rfl rfl rfl

theorem yields_enqueueWait {w : Work} (kinded : w.s.Kinded) (p : Position) (r : Route) : Yields K w (enqueueWait p r w) :=
  yields_of_s (kinded_of_subset kinded rfl fun _ => id) rfl rfl rfl

theorem yields_removeRecord {w : Work} (kinded : w.s.Kinded) (p : Position) {l : Line} (own : K (w.s.portOf l)) :
    Yields K w (removeRecord p l w) := by
  refine ⟨rfl, kinded_without kinded p l, rfl, rfl, fun freed j mem => ?_, [], (List.append_nil _).symm, by simp⟩
  obtain mem | rfl := List.mem_append.1 mem |>.imp_right List.mem_singleton.1
  · exact freed j mem
  · exact own

theorem yields_freeIfAux {w : Work} (kinded : w.s.Kinded) {l : Line} (own : w.s.portOf l = .aux → K .aux) : Yields K w (freeIfAux l w) := by
  unfold freeIfAux
  split
  · next aux =>
    refine ⟨rfl, kinded, rfl, rfl, fun freed j mem => ?_, [], (List.append_nil _).symm, by simp⟩
    obtain mem | rfl := List.mem_append.1 mem |>.imp_right List.mem_singleton.1
    · exact freed j mem
    · rw [aux]; exact own aux
  · exact .refl kinded

theorem yields_goBreaking {w : Work} (kinded : w.s.Kinded) (p : Position) {l : Line} (own : K (w.s.portOf l)) :
    Yields K w (goBreaking p l w) := by
  have moving {h : Holder} (held : w.s.recordAt p l = some h) : Yields K w (dropNeverClosed h (noteRelease p h.kind (toBreaking p l w))) := by
    obtain ⟨mem, pos, line⟩ := mem_of_recordAt held
    have kind : h.kind = w.s.portOf l := by rw [kinded h mem, line]
    have broken : Yields K w (toBreaking p l w) := yields_mapRecord kinded p l fun r => ⟨rfl, rfl, rfl⟩
    have noted : Yields K (toBreaking p l w) (noteRelease p h.kind (toBreaking p l w)) := by
      cases port : h.kind with
      | main => exact ⟨rfl, broken.kinded, rfl, rfl, id, [.mainRelease p], rfl, by simpa [← kind, port] using own⟩
      | aux => exact .refl broken.kinded
    refine (broken.trans noted).trans ?_
    unfold dropNeverClosed
    split
    · exact yields_removeRecord noted.kinded _ (by rw [line, noted.port, broken.port]; exact own)
    · exact .refl noted.kinded
  unfold goBreaking
  split
  · exact .refl kinded
  · next h held =>
    split
    · exact yields_removeRecord kinded p own
    · exact .refl kinded
    · exact moving held
    · exact moving held

theorem yields_foldl {α : Type} {f : Work → α → Work} (P : Table → α → Prop)
    (each : ∀ w a, w.s.Kinded → P w.s.table a → Yields K w (f w a)) :
    ∀ (xs : List α) {w : Work}, w.s.Kinded → (∀ a ∈ xs, P w.s.table a) → Yields K w (xs.foldl f w)
  | [], _, kinded, _ => .refl kinded
  | a :: xs, w, kinded, all => by
    have first := each w a kinded (all a List.mem_cons_self)
    refine first.trans (yields_foldl P each xs first.kinded fun b mem => ?_)
    rw [first.table]
    exact all b (List.mem_cons_of_mem _ mem)

theorem yields_goBreakings {w : Work} (kinded : w.s.Kinded) (p : Position) (xs : List Holder) (own : ∀ x ∈ xs, K (w.s.portOf x.line)) :
    Yields K w (xs.foldl (fun w r => goBreaking p r.line w) w) :=
  yields_foldl (fun T (r : Holder) => K (T.lines.get r.line).kind.port) (fun w r kinded own => yields_goBreaking kinded p own) xs kinded own

theorem yields_releaseOthers {w : Work} (kinded : w.s.Kinded) (p : Position) {k : PortKind} (own : K k) (l : Line) :
    Yields K w (releaseOthers p k l w) := by
  refine yields_goBreakings kinded p _ fun x mem => ?_
  obtain ⟨stands, -, rfl⟩ := (mem_recordsOf _ _ _ _).1 (List.mem_of_mem_filter mem)
  rw [← kinded x stands]
  exact own

theorem yields_admitEntry {w : Work} (kinded : w.s.Kinded) {l : Line} (own : K (w.s.portOf l)) (e : WaitEntry) :
    Yields K w (admitEntry l e w) := by
  have one : Yields K w (withdraw e.pos (w.s.portOf l) none w) := yields_withdraw kinded _ _ _
  have two : Yields K _ (createRecord e.pos e.route (withdraw e.pos (w.s.portOf l) none w)) := yields_createRecord one.kinded _ _
  unfold admitEntry
  dsimp only
  split
  · exact (one.trans two).trans (yields_releaseOthers two.kinded _ own _)
  · exact one.trans two

theorem yields_admitSame {l : Line} {r : Route} : ∀ (es : List WaitEntry) {w : Work}, w.s.Kinded → K (w.s.portOf l) →
    Yields K w (admitSame l r es w)
  | [], _, kinded, _ => .refl kinded
  | e :: es, w, kinded, own => by
    unfold admitSame
    split
    · have one : Yields K w (admitEntry l e w) := yields_admitEntry kinded own e
      exact one.trans (yields_admitSame es one.kinded (by rw [one.port]; exact own))
    · exact yields_admitSame es kinded own

theorem yields_admitLine {w : Work} (kinded : w.s.Kinded) {l : Line} (own : K (w.s.portOf l)) : Yields K w (admitLine l w) := by
  unfold admitLine
  split
  · exact .refl kinded
  · next e es _ =>
    have one : Yields K w (admitEntry l e w) := yields_admitEntry kinded own e
    split
    · dsimp only
      split
      · exact one.trans (yields_admitSame es one.kinded (by rw [one.port]; exact own))
      · exact one
    · split
      · split
        · exact yields_admitSame _ kinded own
        · exact .refl kinded
      · exact .refl kinded

theorem yields_admitAll : ∀ (n : Nat) {w : Work}, w.s.Kinded → (∀ l ∈ w.freed, K (w.s.portOf l)) → Yields K w (admitAll n w)
  | 0, _, kinded, _ => .refl kinded
  | n + 1, w, kinded, own => by
    unfold admitAll
    split
    · exact .refl kinded
    · next l ls freed =>
      rw [freed] at own
      have popped : Yields K w { w with freed := ls } :=
        ⟨rfl, kinded, rfl, rfl, fun _ j mem => own j (List.mem_cons_of_mem _ mem), [], (List.append_nil _).symm, by simp⟩
      have line : Yields K { w with freed := ls } (admitLine l { w with freed := ls }) :=
        yields_admitLine (w := { w with freed := ls }) kinded (own l List.mem_cons_self)
      refine (popped.trans line).trans (yields_admitAll n line.kinded fun j mem => ?_)
      rw [line.port]
      exact line.freed (fun j mem => own j (List.mem_cons_of_mem _ mem)) j mem

theorem yields_admitFreed {w : Work} (kinded : w.s.Kinded) (own : ∀ l ∈ w.freed, K (w.s.portOf l)) : Yields K w (admitFreed w) :=
  yields_admitAll _ kinded own

theorem yields_requestBreaks {w : Work} (kinded : w.s.Kinded) (p : Position) : Yields K w (requestBreaks p w) :=
  yields_of_s (kinded_of_map (t := w.s.requested p) kinded rfl rfl fun r => by split <;> exact ⟨rfl, rfl⟩) rfl rfl rfl

/-- Stored reroutes are applied with no event: they free RX lines alone. -/
theorem yields_applyReroutes {w : Work} (kinded : w.s.Kinded) (p : Position) (aux : K .aux) : Yields K w (applyReroutes p w) := by
  unfold applyReroutes
  split
  · exact .refl kinded
  · refine yields_foldl (fun _ _ => True) (fun u r kinded _ => ?_) _ kinded fun _ _ => trivial
    have one : Yields K u (u.mapRecord p r.line Holder.takeReroute) := yields_mapRecord kinded p r.line placed_takeReroute
    exact one.trans (yields_freeIfAux one.kinded fun _ => aux)

theorem yields_assign {w : Work} (kinded : w.s.Kinded) (p : Position) {r : Route} (own : K (w.s.portOf (w.s.routeOf r).line)) :
    Yields K w (assign p r w) := by
  have one : Yields K w (withdraw p (w.s.portOf (w.s.routeOf r).line) none w) := yields_withdraw kinded _ _ _
  have two := one.trans (yields_releaseOthers one.kinded p own (w.s.routeOf r).line)
  exact two.trans (yields_createRecord two.kinded p r)

theorem yields_replaceRoute {w : Work} (kinded : w.s.Kinded) (p : Position) {l : Line} (r : Route) (st : HolderState)
    (own : K (w.s.portOf l)) (start : ∀ l ∈ w.freed, K (w.s.portOf l)) : Yields K w (replaceRoute p l r st w) := by
  have one : Yields K w (w.mapRecord p l fun x => { x with route := r, reroute := none, state := st }) :=
    yields_mapRecord kinded p l fun r => ⟨rfl, rfl, rfl⟩
  have two := one.trans (yields_freeIfAux one.kinded (l := l) fun aux => by rw [one.port] at aux; exact aux ▸ own)
  refine two.trans (yields_admitFreed two.kinded fun j mem => ?_)
  rw [two.port]
  exact two.freed start j mem

theorem yields_rerouteRecord {w : Work} (kinded : w.s.Kinded) (p : Position) (r : Route) (h : Holder) (own : K (w.s.portOf h.line))
    (start : ∀ l ∈ w.freed, K (w.s.portOf l)) : Yields K w (rerouteRecord p r h w).1 := by
  unfold rerouteRecord
  split
  · exact .refl kinded
  · have one : Yields K w (withdraw p h.kind none w) := yields_withdraw kinded _ _ _
    refine one.trans ?_
    have replaced (st : HolderState) := yields_replaceRoute (w := withdraw p h.kind none w) one.kinded p r st own start
    unfold rerouteBy
    split
    · exact replaced .pending
    · exact replaced .making
    · split
      · exact replaced .making
      · exact yields_mapRecord one.kinded p h.line fun r => ⟨rfl, rfl, rfl⟩
    · exact .refl one.kinded

/-- A claim that takes no line from anybody. -/
theorem yields_claimRoute {w : Work} (kinded : w.s.Kinded) (p : Position) {r : Route} {m : Manner} (manner : m ≠ .take)
    (own : K (w.s.portOf (w.s.routeOf r).line)) (start : ∀ l ∈ w.freed, K (w.s.portOf l)) : Yields K w (claimRoute p r m w).1 := by
  unfold claimRoute
  dsimp only
  split
  · next h held =>
    obtain ⟨-, -, line⟩ := mem_of_recordAt held
    split
    · have one : Yields K w (w.mapRecord p (w.s.routeOf r).line fun x => { x with reroute := none }) :=
        yields_mapRecord kinded _ _ fun r => ⟨rfl, rfl, rfl⟩
      exact one.trans (yields_withdraw one.kinded _ _ _)
    · exact yields_rerouteRecord kinded p r h (by rw [line]; exact own) start
  · split
    · have one : Yields K w (assign p r w) := yields_assign kinded p own
      exact one.trans (yields_admitFreed one.kinded fun j mem => by rw [one.port]; exact one.freed start j mem)
    · split
      · exact yields_enqueueWait kinded p r
      · exact .refl kinded
      · exact absurd rfl manner

end Sys2Proof.Machine
end

section
/-! The close of an allocator event where every re-claim line still holds its BREAKING record: no ring claim is called for (R85), and only
the make tests follow a request's events. -/

namespace Sys2Proof.Machine

variable {A : Position → PortKind → Prop}

/-! ## BREAKING records stay, and re-claim lines with them (R85) -/

theorem breakingOn_iff (s : State) (p : Position) (l : Line) :
    s.breakingOn p l = true ↔ ∃ h, s.recordAt p l = some h ∧ h.state = .breaking := by
  unfold State.breakingOn
  split
  · next h held => simp [held]
  · next none => simp [none]

theorem breakingOn_mapRecord {s : State} {p q : Position} {l j : Line} {f : Holder → Holder} (placed : Placed f)
    (stays : ∀ h, s.recordAt p l = some h → h.state = .breaking → (f h).state = .breaking) (on : s.breakingOn q j = true) :
    (mapRecord p l f s).breakingOn q j = true := by
  obtain ⟨h, held, breaking⟩ := (breakingOn_iff s q j).1 on
  rw [breakingOn_iff, recordAt_mapRecord placed]
  split
  · next key =>
    obtain ⟨rfl, rfl⟩ := key
    exact ⟨f h, by rw [held]; rfl, stays h held breaking⟩
  · exact ⟨h, held, breaking⟩

theorem breakingOn_of_map {s t : State} {q : Position} {j : Line} {f : Holder → Holder} (records : t.alloc.records = s.alloc.records.map f)
    (placed : ∀ r, (f r).pos = r.pos ∧ (f r).line = r.line) (stays : ∀ r, r.state = .breaking → (f r).state = .breaking)
    (on : s.breakingOn q j = true) : t.breakingOn q j = true := by
  obtain ⟨h, held, breaking⟩ := (breakingOn_iff s q j).1 on
  refine (breakingOn_iff t q j).2 ⟨f h, ?_, stays h breaking⟩
  rw [State.recordAt, records, List.find?_map]
  have test : (fun r : Holder => decide (r.pos = q) && decide (r.line = j)) ∘ f = fun r => decide (r.pos = q) && decide (r.line = j) := by
    funext r
    rw [Function.comp, (placed r).1, (placed r).2]
  rw [test, show s.alloc.records.find? (fun r => decide (r.pos = q) && decide (r.line = j)) = some h from held]
  rfl

theorem breakingOn_move {s t : State} (move : Move A False s t) {q : Position} {j : Line} (on : s.breakingOn q j = true) :
    t.breakingOn q j = true := by
  cases move with
  | leave _ _ _ => exact breakingOn_mapRecord (fun r => ⟨rfl, rfl, rfl⟩) (fun _ _ _ => rfl) on
  | @remove p l x _ held _ breaks =>
    obtain ⟨h, at', breaking⟩ := (breakingOn_iff s q j).1 on
    refine (breakingOn_iff _ q j).2 ⟨h, ?_, breaking⟩
    rw [recordAt_without, if_neg]
    · exact at'
    · rintro ⟨rfl, rfl⟩
      obtain rfl := Option.some.inj (held.symm.trans at')
      exact breaks breaking
  | create _ _ _ _ =>
    obtain ⟨h, at', breaking⟩ := (breakingOn_iff s q j).1 on
    exact (breakingOn_iff _ q j).2 ⟨h, by rw [recordAt_withRecord, at']; rfl, breaking⟩
  | unstore _ _ => exact breakingOn_mapRecord (fun r => ⟨rfl, rfl, rfl⟩) (fun _ _ => id) on
  | store _ _ _ => exact breakingOn_mapRecord (fun r => ⟨rfl, rfl, rfl⟩) (fun _ _ => id) on
  | replace st _ held rule _ =>
    refine breakingOn_mapRecord (fun r => ⟨rfl, rfl, rfl⟩) (fun x at' breaking => ?_) on
    obtain rfl := Option.some.inj (held.symm.trans at')
    obtain ⟨rfl, -⟩ | ⟨-, connected, -⟩ := rule
    · exact breaking
    · rw [breaking] at connected; cases connected
  | connect _ held making _ =>
    refine breakingOn_mapRecord (fun r => ⟨rfl, rfl, rfl⟩) (fun x at' breaking => ?_) on
    obtain rfl := Option.some.inj (held.symm.trans at')
    rw [breaking] at making; cases making
  | request _ _ =>
    exact breakingOn_of_map rfl (fun r => by split <;> exact ⟨rfl, rfl⟩) (fun r breaking => by split <;> exact breaking) on
  | make =>
    refine breakingOn_of_map rfl (fun r => by split <;> exact ⟨rfl, rfl⟩) (fun r breaking => ?_) on
    rw [if_neg (by simp [breaking])]
    exact breaking
  | clear _ => exact breakingOn_of_map rfl (fun r => ⟨rfl, rfl⟩) (fun r => id) on
  | _ => exact on

theorem breakingOn_moves {s t : State} (moves : Moves A False s t) {q : Position} {j : Line} (on : s.breakingOn q j = true) :
    t.breakingOn q j = true := by
  induction moves with
  | refl => exact on
  | tail _ move ih => exact breakingOn_move move ih

theorem reclaimsHeld_of_moves {s t : State} (held : s.ReclaimsHeld) (moves : Moves A False s t)
    (standings : t.alloc.standings = s.alloc.standings) : t.ReclaimsHeld := by
  intro q k l named
  rw [State.standing, standings] at named
  exact breakingOn_moves moves (held q k l named)

theorem reclaimsHeld_of_alloc {s t : State} (held : s.ReclaimsHeld) (same : t.alloc = s.alloc) : t.ReclaimsHeld := by
  intro q k l named
  rw [State.standing, same] at named
  rw [State.breakingOn, State.recordAt, same]
  exact held q k l named

/-- Where every re-claim line still holds its BREAKING record, no ring claim is called for. -/
theorem reclaims_of_held {w : Work} (held : w.s.ReclaimsHeld) : reclaims w = w := by
  have one (p : Position) (k : PortKind) : reclaimOne p k w = w := by
    unfold reclaimOne
    split
    · next l named =>
      obtain ⟨h, at', -⟩ := (breakingOn_iff _ _ _).1 (held p k l named)
      simp [at']
    · rfl
  unfold reclaims eachPort
  induction allPositions with
  | nil => rfl
  | cons p ps ih => rw [List.foldl_cons, one, one, ih]

/-! ## The close of an event -/

/-- Switching-ended events are added for positions whose indication turned off, and nothing else. -/
theorem switchingEnded_eq (b : State) (w : Work) :
    ∃ es, switchingEnded b w = { w with events := w.events ++ es } ∧
      ∀ e ∈ es, ∃ q, e = .switchingEnded q ∧ b.switching q = true ∧ w.s.switching q = false := by
  unfold switchingEnded
  generalize allPositions = ps
  induction ps generalizing w with
  | nil => exact ⟨[], by simp, by simp⟩
  | cons p ps ih =>
    rw [List.foldl_cons]
    split
    · next off =>
      simp only [Bool.and_eq_true, Bool.not_eq_true'] at off
      obtain ⟨es, same, own⟩ := ih (w.event (.switchingEnded p))
      refine ⟨.switchingEnded p :: es, ?_, fun e mem => ?_⟩
      · rw [same]
        simp [Work.event]
      · obtain rfl | mem := List.mem_cons.1 mem
        · exact ⟨p, rfl, off.1⟩
        · exact own e mem
    · exact ih w

/-- The closed work: the admissions of the freed lines, the make tests, and switching-ended events behind the others. -/
theorem closeWork_eq (b : State) (w : Work) :
    ∃ es, (closeWork b w).events = (admitFreed w).events ++ es ∧ (closeWork b w).notes = (admitFreed w).notes ∧
      ∀ e ∈ es, ∃ q, e = .switchingEnded q ∧ b.switching q = true ∧ (admitFreed w).s.made.switching q = false := by
  obtain ⟨es, same, own⟩ := switchingEnded_eq b ((makeTests (admitFreed w)).map recompose)
  rw [closeWork, same]
  exact ⟨es, rfl, rfl, own⟩

theorem switching_iff (s : State) (p : Position) : s.switching p = true ↔ ∃ x ∈ s.alloc.records, x.pos = p ∧
    (x.state = .making ∨ (x.state = .breaking ∧ x.breakRequested = true ∧ x.latched = true)) := by
  simp only [State.switching, List.any_eq_true, Bool.and_eq_true, Bool.or_eq_true, decide_eq_true_eq, and_assoc]

/-- The make tests turn no switching indication off. -/
theorem switching_made {s : State} {p : Position} (on : s.switching p = true) : s.made.switching p = true := by
  obtain ⟨x, mem, pos, how⟩ := (switching_iff s p).1 on
  refine (switching_iff _ p).2 ⟨x, ?_, pos, how⟩
  refine List.mem_map.2 ⟨x, mem, if_neg ?_⟩
  obtain state | ⟨state, -⟩ := how <;> simp [state]

theorem handOn_of_quiet {w : Work} (notes : w.notes = []) : handOn w = takeTxiEvents w.events w.s := by
  rw [handOn, Work.grants, Work.losses, notes]
  rfl

/-- An allocator event without changes of its own comes to the make tests, where no ring claim is called for. -/
theorem allocEvent_id {u : State} (held : u.ReclaimsHeld) : allocEvent id u = recompose u.made := by
  have admitted : admitFreed (Work.start u) = Work.start u := admitFreed_of_freed_nil rfl
  obtain ⟨es, events, notes, own⟩ := closeWork_eq u (Work.start u)
  have none : es = [] := by
    refine List.eq_nil_iff_forall_not_mem.2 fun e mem => ?_
    obtain ⟨q, -, on, off⟩ := own e mem
    rw [admitted] at off
    rw [show (Work.start u).s.made.switching q = true from switching_made on] at off
    cases off
  rw [admitted, none] at events
  rw [admitted] at notes
  rw [allocEvent, id, admitted, reclaims_of_held (w := Work.start u) held, handOn_of_quiet notes, events, closeWork_s, admitted]
  rfl

/-- The close of a request under whose re-claim lines all records stand: reply, events and notices, and the make tests once more. -/
theorem closeRequest_of_held {b : State} {a : State → State} {w : Work} (held : (handOn ((closeWork b w).map a)).ReclaimsHeld) :
    closeRequest b a w = recompose (handOn ((closeWork b w).map a)).made := allocEvent_id held

/-! ## Runs of the arbiter (R49, R101) -/

/-- Runs of the arbiter, one after another. -/
abbrev Arbitrated : State → State → Prop := Relation.ReflTransGen fun s t => t = arbiter s

theorem Arbitrated.moved {s t : State} (runs : Arbitrated s t) : Moved airParts s t := by
  induction runs with
  | refl => exact .refl _ _
  | tail _ run ih => exact run ▸ ih.trans (moved_arbiter _)

theorem Arbitrated.noneQuieted {s t : State} (runs : Arbitrated s t) : NoneQuieted s t := by
  induction runs with
  | refl => exact .refl _
  | tail _ run ih => exact run ▸ ih.trans (noneQuieted_arbiter _)

/-- Events that call for nothing but an arbiter run. -/
theorem arbitrated_takeTxiEvents : ∀ (es : List TxiEvent) (s : State), (∀ e ∈ es, ∃ q, e = .switchingEnded q) →
    Arbitrated s (takeTxiEvents es s)
  | [], _, _ => .refl
  | e :: es, s, all => by
    obtain ⟨q, rfl⟩ := all e List.mem_cons_self
    exact .head rfl (arbitrated_takeTxiEvents es _ fun e mem => all e (List.mem_cons_of_mem _ mem))

/-- An allocator event that hands nothing on but switching-ended events. -/
theorem allocEvent_of_quiet {f : Work → Work} {s : State} (notes : (f (Work.start s)).notes = []) (events : (f (Work.start s)).events = [])
    (kinded : (f (Work.start s)).s.Kinded) (freed : ∀ l ∈ (f (Work.start s)).freed, (f (Work.start s)).s.portOf l = .aux)
    (held : (admitFreed (f (Work.start s))).s.ReclaimsHeld) :
    Arbitrated (recompose (admitFreed (admitFreed (f (Work.start s)))).s.made) (allocEvent f s) := by
  have one := yields_admitFreed (K := fun k => k = .aux) kinded freed
  have freed' := one.freed freed
  have two := yields_admitFreed (K := fun k => k = .aux) one.kinded fun l mem => by rw [one.port]; exact freed' l mem
  have both := one.trans two
  obtain ⟨es, events', own⟩ := both.events
  have none : es = [] := List.eq_nil_iff_forall_not_mem.2 fun e mem => nomatch (own e mem).1
  obtain ⟨gs, closed, told, ended⟩ := closeWork_eq s (admitFreed (f (Work.start s)))
  rw [events', none, events] at closed
  rw [both.notes, notes] at told
  rw [allocEvent, reclaims_of_held held, handOn_of_quiet told, closed, closeWork_s]
  exact arbitrated_takeTxiEvents _ _ fun e mem => (ended e (by simpa using mem)).imp fun q => And.left

end Sys2Proof.Machine
end

section
/-! What interlock, allocator and driver leave of the transmit record of a position that does not wait (sections 5.3 to 5.7). -/

namespace Sys2Proof.Machine

/-! ## A position that does not wait -/

/-- The transmit record of `p`, where it does not wait, is as it was, and it waits no more than before. -/
def Aloof (p : Position) (s t : State) : Prop := p ∉ s.waiting → t.txOf p = s.txOf p ∧ p ∉ t.waiting

theorem Aloof.refl (p : Position) (s : State) : Aloof p s s := fun out => ⟨rfl, out⟩

theorem Aloof.trans {p : Position} {s t u : State} (h : Aloof p s t) (g : Aloof p t u) : Aloof p s u := fun out => by
  obtain ⟨same, out⟩ := h out
  obtain ⟨same', out⟩ := g out
  exact ⟨same'.trans same, out⟩

theorem aloof_of_moved {ps : List Part} {s t : State} {p : Position} (moved : Moved ps s t) (tx : Part.tx ∉ ps) (waiting : Part.waiting ∉ ps) :
    Aloof p s t := fun out => ⟨by rw [State.txOf, moved.tx tx]; rfl, by rw [moved.waiting waiting]; exact out⟩

theorem aloof_of_same {s t : State} {p : Position} (tx : t.tx = s.tx) (waiting : t.waiting = s.waiting) : Aloof p s t :=
  fun out => ⟨by rw [State.txOf, tx]; rfl, waiting ▸ out⟩

theorem aloof_mapTx {p q : Position} (other : p ≠ q) (f : TxRecord → TxRecord) (s : State) : Aloof p s (s.mapTx q f) :=
  fun out => ⟨by rw [txOf_mapTx, if_neg other], out⟩

theorem aloof_evaluateAdvisories (p : Position) (s : State) : Aloof p s (evaluateAdvisories s) :=
  aloof_of_moved (moved_evaluateAdvisories s) (by decide) (by decide)

theorem aloof_grant {p q : Position} (other : p ≠ q) (s : State) : Aloof p s (grant q s) := by
  have onAir : Aloof p s (putOnAir q s) := fun out => by
    refine ⟨?_, fun mem => out (List.mem_filter.1 mem).1⟩
    have kept := aloof_mapTx other (fun x => { x with state := .granted, tailTimer := none, skipHang := false }) s out
    exact kept.1
  exact onAir.trans (aloof_evaluateAdvisories p _)

theorem aloof_arbiterPass {p : Position} : ∀ (qs : List Position) (s : State), p ∉ qs → Aloof p s (arbiterPass qs s).1
  | [], s, _ => .refl p s
  | q :: qs, s, out => by
    have other : p ≠ q := fun same => out (same ▸ List.mem_cons_self)
    have rest : p ∉ qs := fun mem => out (List.mem_cons_of_mem _ mem)
    unfold arbiterPass
    split
    · exact (aloof_grant other s).trans (aloof_arbiterPass qs _ rest)
    · exact (aloof_mapTx other _ s).trans (aloof_arbiterPass qs _ rest)

theorem aloof_arbiterPasses {p : Position} : ∀ (n : Nat) (s : State), Aloof p s (arbiterPasses n s)
  | 0, s => .refl p s
  | n + 1, s => fun out => by
    have one := aloof_arbiterPass s.waiting s out
    unfold arbiterPasses
    split
    · next t same => rw [same] at one; exact (one.trans (aloof_arbiterPasses n t)) out
    · next t same => rw [same] at one; exact one out

theorem aloof_arbiter (p : Position) (s : State) : Aloof p s (arbiter s) := aloof_arbiterPasses _ s

theorem Arbitrated.aloof {p : Position} {s t : State} (runs : Arbitrated s t) : Aloof p s t := by
  induction runs with
  | refl => exact .refl p _
  | tail _ run ih => exact run ▸ ih.trans (aloof_arbiter p _)

theorem aloof_leaveSlot {p q : Position} (other : p ≠ q) (next : TxState) (s : State) : Aloof p s (leaveSlot q next s) := fun out => by
  refine ⟨?_, by rw [(moved_leaveSlot q next s).waiting (by decide)]; exact out⟩
  rw [State.txOf, tx_leaveSlot, get_put_ne _ _ other]
  rfl

theorem aloof_leaveAir {p q : Position} (other : p ≠ q) (next : TxState) (s : State) : Aloof p s (leaveAir q next s) :=
  (aloof_leaveSlot other next s).trans (aloof_evaluateAdvisories p _)

theorem aloof_revoke {p q : Position} (other : p ≠ q) (cause : RevocationCause) (s : State) : Aloof p s (revoke q cause s) := by
  unfold revoke
  split
  · refine Aloof.trans (fun out => ⟨txOf_withdrawGrant_of_ne other cause s, ?_⟩) (aloof_evaluateAdvisories p _)
    rw [(moved_withdrawGrant q cause s).waiting (by decide)]
    exact out
  · exact .refl p s

/-- The position whose transmission an event of the allocator ends or marks. -/
def TxiEvent.Ends (p : Position) : TxiEvent → Prop
  | .mainRelease q => q = p
  | .revoke q => q = p
  | _ => False

theorem aloof_takeTxiEvent {p : Position} {e : TxiEvent} (other : ¬e.Ends p) (s : State) : Aloof p s (takeTxiEvent e s) := by
  cases e with
  | connected q => exact aloof_arbiter p s
  | switchingEnded q => exact aloof_arbiter p s
  | mainRelease q =>
    show Aloof p s (takeMainRelease q s)
    unfold takeMainRelease
    split
    · exact aloof_mapTx (Ne.symm other) _ s
    · exact (aloof_leaveAir (Ne.symm other) _ s).trans (aloof_arbiter p _)
    · exact .refl p s
  | revoke q =>
    show Aloof p s (revokeAndRun q .taken s)
    unfold revokeAndRun
    split
    · exact (aloof_revoke (Ne.symm other) _ s).trans (aloof_arbiter p _)
    · exact .refl p s

theorem aloof_takeTxiEvents {p : Position} : ∀ (es : List TxiEvent) (s : State), (∀ e ∈ es, ¬e.Ends p) → Aloof p s (takeTxiEvents es s)
  | [], s, _ => .refl p s
  | e :: es, s, others => (aloof_takeTxiEvent (others e List.mem_cons_self) s).trans
      (aloof_takeTxiEvents es _ fun e mem => others e (List.mem_cons_of_mem _ mem))

theorem aloof_notifyEach (p : Position) (ns : List (Position × Notice)) (s : State) : Aloof p s (notifyEach ns s) :=
  aloof_of_moved (moved_notifyEach ns s) (by decide) (by decide)

/-! ## A position off the air that does not wait -/

/-- The transmit record of `p`, where it is off the air and does not wait, is as it was, and it waits no more than before. -/
def Grounds (p : Position) (s t : State) : Prop := s.onAir p = false → Aloof p s t

theorem onAir_of_txOf {s t : State} {p : Position} (same : t.txOf p = s.txOf p) : t.onAir p = s.onAir p := by
  rw [State.onAir, same]; rfl

theorem Aloof.grounds {p : Position} {s t : State} (h : Aloof p s t) : Grounds p s t := fun _ => h

theorem Grounds.trans {p : Position} {s t u : State} (h : Grounds p s t) (g : Grounds p t u) : Grounds p s u := fun off out => by
  obtain ⟨same, out⟩ := h off out
  obtain ⟨same', out⟩ := g ((onAir_of_txOf same).trans off) out
  exact ⟨same'.trans same, out⟩

theorem grounds_takeTxiEvent (p : Position) (e : TxiEvent) (s : State) : Grounds p s (takeTxiEvent e s) := by
  by_cases ends : e.Ends p
  · intro off
    cases e with
    | connected q => exact ends.elim
    | switchingEnded q => exact ends.elim
    | mainRelease q =>
      obtain rfl := ends
      have same : takeTxiEvent (.mainRelease q) s = s := by
        show takeMainRelease q s = s
        unfold takeMainRelease
        rw [State.onAir] at off
        split
        · next on => rw [on] at off; cases off
        · next on => rw [on] at off; cases off
        · rfl
      rw [same]
      exact .refl q s
    | revoke q =>
      obtain rfl := ends
      have same : takeTxiEvent (.revoke q) s = s := if_neg (by simp [off])
      rw [same]
      exact .refl q s
  · exact (aloof_takeTxiEvent ends s).grounds

theorem grounds_takeTxiEvents (p : Position) : ∀ (es : List TxiEvent) (s : State), Grounds p s (takeTxiEvents es s)
  | [], s => (Aloof.refl p s).grounds
  | e :: es, s => (grounds_takeTxiEvent p e s).trans (grounds_takeTxiEvents p es _)

theorem grounds_handOn (p : Position) (w : Work) : Grounds p w.s (handOn w) :=
  ((aloof_notifyEach p _ _).grounds.trans (grounds_takeTxiEvents p _ _)).trans (aloof_notifyEach p _ _).grounds

theorem aloof_closeWork (p : Position) (b : State) (w : Work) : Aloof p w.s (closeWork b w).s :=
  aloof_of_moved (moved_closeWork b w) (by decide) (by decide)

theorem grounds_allocEvent {f : Work → Work} (worked : ∀ w, Worked w (f w)) (p : Position) (s : State) : Grounds p s (allocEvent f s) := by
  have before : Aloof p s (reclaims (admitFreed (f (Work.start s)))).s :=
    aloof_of_moved (((worked (Work.start s)).trans (worked_admitFreed _)).trans (worked_reclaims _)).moved (by decide) (by decide)
  exact (before.trans (aloof_closeWork p s _)).grounds.trans (grounds_handOn p _)

theorem aloof_filterMove (p q : Position) (s : State) : Aloof p s (filterMove q s) :=
  aloof_of_moved (moved_filterMove q s) (by decide) (by decide)

theorem worked_pathQuiet (p : Position) (w : Work) : Worked w (applyReroutes p (requestBreaks p w)) :=
  (worked_requestBreaks p w).trans (worked_applyReroutes _ _)

theorem grounds_pathQuietEvent (p q : Position) (s : State) : Grounds p s (pathQuietEvent q s) :=
  (grounds_allocEvent (worked_pathQuiet q) p s).trans (aloof_filterMove p q _).grounds

theorem grounds_quietEvents (p : Position) (b : State) : ∀ (n : Nat) (d : List Position) (s : State), Grounds p s (quietEvents b n d s)
  | 0, _, s => (Aloof.refl p s).grounds
  | n + 1, d, s => by
    unfold quietEvents
    split
    · exact (grounds_pathQuietEvent p _ s).trans (grounds_quietEvents p b n _ _)
    · exact (Aloof.refl p s).grounds

theorem aloof_startRule (p : Position) (s : State) : Aloof p s (startRule s) := aloof_of_moved (moved_startRule s) (by decide) (by decide)

/-- The close of a step leaves the transmit record of a position that is off the air and does not wait. -/
theorem grounds_closeStep (p : Position) {b s : State} (ready : s.store.ready = b.store.ready) : Grounds p s (closeStep b s) := by
  rw [closeStep, watchPin_same b s ready]
  exact (grounds_quietEvents p b _ _ _).trans (aloof_startRule p _).grounds

end Sys2Proof.Machine
end

section
/-! Admissions, exactly: the records that they leave as they were, and the lists that they only shorten (R65, R66). -/

namespace Sys2Proof.Machine

/-- Positions and kinds whose records are to stand. -/
abbrev Standers := Position → PortKind → Bool

/-- The records of a state that are of some positions and kinds. -/
def State.those (s : State) (U : Standers) : List Holder := s.alloc.records.filter fun r => U r.pos r.kind

/-- From one work to the next the records of `U` stand, and nobody joins a list. -/
structure Spares (U : Standers) (w v : Work) : Prop where
  records : v.s.those U = w.s.those U
  lists : ∀ j, ∀ e ∈ v.s.listOf j, ∃ x ∈ w.s.listOf j, x.still = e.still

variable {U : Standers}

theorem Spares.refl (U : Standers) (w : Work) : Spares U w w := ⟨rfl, fun _ e mem => ⟨e, mem, rfl⟩⟩

theorem Spares.trans {u v w : Work} (h : Spares U u v) (g : Spares U v w) : Spares U u w := by
  refine ⟨g.records.trans h.records, fun j e mem => ?_⟩
  obtain ⟨x, mem, same⟩ := g.lists j e mem
  obtain ⟨y, mem, same'⟩ := h.lists j x mem
  exact ⟨y, mem, same'.trans same⟩

theorem those_mapRecord {s : State} (kinded : s.Kinded) {p : Position} {l : Line} (out : U p (s.portOf l) = false) {f : Holder → Holder}
    (placed : Placed f) : (mapRecord p l f s).those U = s.those U := by
  rw [State.those, records_mapRecord, List.filter_map, State.those]
  have test : (fun r : Holder => U r.pos r.kind) ∘ (fun r => if r.pos = p ∧ r.line = l then f r else r) = fun r => U r.pos r.kind := by
    funext r
    obtain ⟨pos, -, kind⟩ := placed r
    rw [Function.comp]
    split <;> simp only [pos, kind]
  rw [test]
  refine (List.map_congr_left fun r mem => ?_).trans (List.map_id _)
  obtain ⟨stands, mine⟩ := List.mem_filter.1 mem
  rw [if_neg]
  · rfl
  · rintro ⟨rfl, rfl⟩
    rw [kinded r stands, out] at mine
    cases mine

theorem those_without {s : State} (kinded : s.Kinded) {p : Position} {l : Line} (out : U p (s.portOf l) = false) :
    (s.without p l).those U = s.those U := by
  rw [State.those, records_without, List.filter_filter, State.those]
  refine List.filter_congr fun r stands => ?_
  cases mine : U r.pos r.kind with
  | false => rfl
  | true =>
    have other : (decide (r.pos = p) && decide (r.line = l)) = false := by
      rw [Bool.and_eq_false_iff, decide_eq_false_iff_not, decide_eq_false_iff_not, ← not_and_or]
      rintro ⟨rfl, rfl⟩
      rw [kinded r stands, out] at mine
      cases mine
    simp [other]

theorem those_withRecord {s : State} {p : Position} {r : Route} (out : U p (s.portOf (s.routeOf r).line) = false) :
    (s.withRecord p r).those U = s.those U := by
  rw [State.those, records_withRecord, List.filter_append, State.those]
  have none : List.filter (fun x : Holder => U x.pos x.kind) [s.newRecord p r] = [] := by
    simp [State.newRecord, out]
  rw [none, List.append_nil]

theorem spares_goBreaking {w : Work} (kinded : w.s.Kinded) {p : Position} {l : Line} (out : U p (w.s.portOf l) = false) :
    Spares U w (goBreaking p l w) := by
  refine ⟨?_, fun j e mem => ?_⟩
  · rw [goBreaking_s]
    obtain same | ⟨-, -, -, -, eq⟩ | ⟨-, -, -, -, eq⟩ := left_cases w.s p l
    · rw [same]
    · rw [eq, those_without kinded out]
    · rw [eq]
      exact those_mapRecord kinded out fun r => ⟨rfl, rfl, rfl⟩
  · rw [goBreaking_s] at mem
    have := List.mem_map_of_mem (f := WaitEntry.still) mem
    rw [lists_left] at this
    exact List.mem_map.1 this

theorem spares_goBreakings {p : Position} : ∀ (xs : List Holder) {w : Work}, w.s.Kinded → (∀ x ∈ xs, U p (w.s.portOf x.line) = false) →
    Spares U w (xs.foldl (fun w r => goBreaking p r.line w) w)
  | [], w, _, _ => .refl U w
  | x :: xs, w, kinded, out => by
    have one : Spares U w (goBreaking p x.line w) := spares_goBreaking kinded (out x List.mem_cons_self)
    have yields : Yields (fun _ => True) w (goBreaking p x.line w) := yields_goBreaking kinded p trivial
    refine one.trans (spares_goBreakings xs yields.kinded fun y mem => ?_)
    rw [yields.port]
    exact out y (List.mem_cons_of_mem _ mem)

theorem spares_releaseOthers {w : Work} (kinded : w.s.Kinded) {p : Position} {k : PortKind} (out : U p k = false) (l : Line) :
    Spares U w (releaseOthers p k l w) := by
  refine spares_goBreakings _ kinded fun x mem => ?_
  obtain ⟨stands, -, rfl⟩ := (mem_recordsOf _ _ _ _).1 (List.mem_of_mem_filter mem)
  rw [← kinded x stands]
  exact out

theorem spares_withdraw (p : Position) (k : PortKind) (keep : Option Line) (w : Work) : Spares U w (withdraw p k keep w) := by
  refine ⟨rfl, fun j e mem => ?_⟩
  rw [withdraw_s, listOf_withdrawn] at mem
  split at mem
  · exact ⟨e, List.mem_of_mem_filter mem, rfl⟩
  · exact ⟨e, mem, rfl⟩

theorem spares_createRecord {w : Work} {p : Position} {r : Route} (out : U p (w.s.portOf (w.s.routeOf r).line) = false) :
    Spares U w (createRecord p r w) := ⟨those_withRecord out, fun j e mem => ⟨e, mem, rfl⟩⟩

/-- An entry that may be admitted to `l` without a record of `U`. -/
structure Foreign (U : Standers) (s : State) (l : Line) (e : WaitEntry) : Prop where
  out : U e.pos (s.portOf l) = false
  line : (s.routeOf e.route).line = l

theorem Foreign.of_table {s t : State} {l : Line} {e : WaitEntry} (h : Foreign U s l e) (table : t.table = s.table) : Foreign U t l e :=
  ⟨by rw [portOf_of_table table]; exact h.out, by rw [routeOf_of_table table]; exact h.line⟩

theorem Foreign.of_still {s : State} {l : Line} {e x : WaitEntry} (h : Foreign U s l x) (same : x.still = e.still) : Foreign U s l e := by
  obtain ⟨pos, route, -⟩ := pos_of_still same
  exact ⟨pos ▸ h.out, route ▸ h.line⟩

theorem spares_admitEntry {w : Work} (kinded : w.s.Kinded) {l : Line} {e : WaitEntry} (foreign : Foreign U w.s l e) :
    Spares U w (admitEntry l e w) := by
  have yields := yields_withdraw (K := fun _ => True) kinded e.pos (w.s.portOf l) none
  have one : Spares U w (withdraw e.pos (w.s.portOf l) none w) := spares_withdraw _ _ _ _
  have two : Spares U w (createRecord e.pos e.route (withdraw e.pos (w.s.portOf l) none w)) :=
    one.trans (spares_createRecord (by
      show U e.pos (w.s.portOf (w.s.routeOf e.route).line) = false
      rw [foreign.line]
      exact foreign.out))
  unfold admitEntry
  dsimp only
  split
  · exact two.trans (spares_releaseOthers (kinded_withRecord yields.kinded _ _) foreign.out _)
  · exact two

theorem spares_admitSame {l : Line} {r : Route} : ∀ (es : List WaitEntry) {w : Work}, w.s.Kinded → (∀ e ∈ es, Foreign U w.s l e) →
    Spares U w (admitSame l r es w)
  | [], w, _, _ => .refl U w
  | e :: es, w, kinded, foreign => by
    unfold admitSame
    split
    · have yields := yields_admitEntry (K := fun _ => True) kinded (l := l) trivial e
      refine (spares_admitEntry kinded (foreign e List.mem_cons_self)).trans (spares_admitSame es yields.kinded fun x mem => ?_)
      exact (foreign x (List.mem_cons_of_mem _ mem)).of_table yields.table
    · exact spares_admitSame es kinded fun x mem => foreign x (List.mem_cons_of_mem _ mem)

theorem spares_admitLine {w : Work} (kinded : w.s.Kinded) {l : Line} (foreign : ∀ e ∈ w.s.listOf l, Foreign U w.s l e) :
    Spares U w (admitLine l w) := by
  unfold admitLine
  split
  · exact .refl U w
  · next e es list =>
    rw [list] at foreign
    have yields := yields_admitEntry (K := fun _ => True) kinded (l := l) trivial e
    have one := spares_admitEntry kinded (foreign e List.mem_cons_self)
    split
    · dsimp only
      split
      · exact one.trans (spares_admitSame es yields.kinded fun x mem => (foreign x (List.mem_cons_of_mem _ mem)).of_table yields.table)
      · exact one
    · split
      · split
        · exact spares_admitSame _ kinded foreign
        · exact .refl U w
      · exact .refl U w

/-- The entries on lines of the kinds `K` may be admitted without a record of `U`. -/
def State.Foreigners (U : Standers) (K : PortKind → Prop) (s : State) : Prop :=
  ∀ l, K (s.portOf l) → ∀ e ∈ s.listOf l, Foreign U s l e

theorem Spares.foreigners {K : PortKind → Prop} {w v : Work} (h : Spares U w v) (table : v.s.table = w.s.table)
    (foreign : w.s.Foreigners U K) : v.s.Foreigners U K := by
  intro l kind e mem
  obtain ⟨x, was, same⟩ := h.lists l e mem
  rw [portOf_of_table table] at kind
  exact ((foreign l kind x was).of_still same).of_table table

theorem spares_admitAll {K : PortKind → Prop} : ∀ (n : Nat) {w : Work}, w.s.Kinded → (∀ l ∈ w.freed, K (w.s.portOf l)) →
    w.s.Foreigners U K → Spares U w (admitAll n w)
  | 0, w, _, _, _ => .refl U w
  | n + 1, w, kinded, own, foreign => by
    unfold admitAll
    split
    · exact .refl U w
    · next l ls freed =>
      rw [freed] at own
      have line := spares_admitLine (w := { w with freed := ls }) kinded (foreign l (own l List.mem_cons_self))
      have one : Spares U w (admitLine l { w with freed := ls }) := ⟨line.records, line.lists⟩
      have yields : Yields K { w with freed := ls } (admitLine l { w with freed := ls }) :=
        yields_admitLine (w := { w with freed := ls }) kinded (own l List.mem_cons_self)
      refine one.trans (spares_admitAll n yields.kinded (fun j mem => ?_) (one.foreigners yields.table foreign))
      rw [yields.port]
      exact yields.freed (fun j mem => own j (List.mem_cons_of_mem _ mem)) j mem

theorem spares_admitFreed {K : PortKind → Prop} {w : Work} (kinded : w.s.Kinded) (own : ∀ l ∈ w.freed, K (w.s.portOf l))
    (foreign : w.s.Foreigners U K) : Spares U w (admitFreed w) := spares_admitAll _ kinded own foreign

end Sys2Proof.Machine
end

section
/-! A path-quiet event, exactly: what it leaves of the position's own records (R42, R57, R106). -/

namespace Sys2Proof.Machine

variable {A : Position → PortKind → Prop} {B : Prop}

/-! ## Records under a change of them all -/

theorem recordAt_of_map {s t : State} {f : Holder → Holder} (records : t.alloc.records = s.alloc.records.map f)
    (placed : ∀ r, (f r).pos = r.pos ∧ (f r).line = r.line) (q : Position) (j : Line) : t.recordAt q j = (s.recordAt q j).map f := by
  rw [State.recordAt, records, List.find?_map, State.recordAt]
  congr 2
  funext r
  rw [Function.comp, (placed r).1, (placed r).2]

theorem recordAt_made (s : State) (q : Position) (j : Line) :
    s.made.recordAt q j = (s.recordAt q j).map fun r => if r.state = .pending && s.mayMake r then { r with state := .making } else r :=
  recordAt_of_map rfl (fun r => by split <;> exact ⟨rfl, rfl⟩) q j

theorem recordAt_requested (s : State) (p q : Position) (j : Line) :
    (s.requested p).recordAt q j =
      (s.recordAt q j).map fun r => if r.pos = p && r.state = .breaking then { r with breakRequested := true } else r :=
  recordAt_of_map rfl (fun r => by split <;> exact ⟨rfl, rfl⟩) q j

theorem recordAt_of_those {s t : State} {U : Standers} (sameThose : t.those U = s.those U) (keyed : s.AllocationKeyed)
    (keyed' : t.AllocationKeyed) (table : t.table = s.table) {q : Position} {j : Line} (mine : U q (s.portOf j) = true) :
    t.recordAt q j = s.recordAt q j := by
  refine Option.ext fun h => ?_
  rw [recordAt_eq_some_iff keyed'.records, recordAt_eq_some_iff keyed.records]
  have mem (u : State) (kinded : u.Kinded) (port : u.portOf j = s.portOf j) :
      h ∈ u.alloc.records ∧ h.pos = q ∧ h.line = j ↔ h ∈ u.those U ∧ h.pos = q ∧ h.line = j := by
    rw [State.those, List.mem_filter]
    constructor
    · rintro ⟨stands, rfl, rfl⟩
      exact ⟨⟨stands, by rw [kinded h stands, port]; exact mine⟩, rfl, rfl⟩
    · rintro ⟨⟨stands, -⟩, key⟩
      exact ⟨stands, key⟩
  rw [mem t (kinded_of_keyed keyed') (portOf_of_table table j), mem s (kinded_of_keyed keyed) rfl, sameThose]

/-! ## A BREAKING record whose break is requested -/

/-- The moves that remove no BREAKING record leave one whose break is requested as it is. -/
theorem requested_move {s t : State} (move : Move A False s t) {q : Position} {j : Line} {x : Holder} (held : s.recordAt q j = some x)
    (breaking : x.state = .breaking) (asked : x.breakRequested = true) (bare : x.reroute = none) : t.recordAt q j = some x := by
  have kept {p : Position} {l : Line} {f : Holder → Holder} (placed : Placed f)
      (same : s.recordAt p l = some x → f x = x) : (mapRecord p l f s).recordAt q j = some x := by
    rw [recordAt_mapRecord placed]
    split
    · next key =>
      rw [held, Option.map_some, same (key.1 ▸ key.2 ▸ held)]
    · exact held
  cases move with
  | @leave p l h _ at' stands =>
    refine kept (fun r => ⟨rfl, rfl, rfl⟩) fun same => ?_
    obtain rfl := Option.some.inj (at'.symm.trans same)
    rw [breaking] at stands
    simp at stands
  | @remove p l h _ at' _ breaks =>
    rw [recordAt_without, if_neg]
    · exact held
    · rintro ⟨rfl, rfl⟩
      obtain rfl := Option.some.inj (at'.symm.trans held)
      exact breaks breaking
  | create _ _ _ _ =>
    rw [recordAt_withRecord, held]
    rfl
  | unstore _ _ =>
    refine kept (fun r => ⟨rfl, rfl, rfl⟩) fun _ => ?_
    rw [← bare]
  | store _ at' connected =>
    refine kept (fun r => ⟨rfl, rfl, rfl⟩) fun same => ?_
    obtain rfl := Option.some.inj (at'.symm.trans same)
    rw [breaking] at connected
    cases connected
  | replace st _ at' rule _ =>
    refine kept (fun r => ⟨rfl, rfl, rfl⟩) fun same => ?_
    obtain rfl := Option.some.inj (at'.symm.trans same)
    obtain ⟨rfl, stands⟩ | ⟨-, connected, -⟩ := rule
    · rw [breaking] at stands
      simp at stands
    · rw [breaking] at connected
      cases connected
  | connect _ at' making _ =>
    refine kept (fun r => ⟨rfl, rfl, rfl⟩) fun same => ?_
    obtain rfl := Option.some.inj (at'.symm.trans same)
    rw [breaking] at making
    cases making
  | @request p _ _ =>
    rw [recordAt_requested, held, Option.map_some]
    split
    · rw [← asked]
    · rfl
  | make =>
    rw [recordAt_made, held, Option.map_some, if_neg (by simp [breaking])]
  | clear _ =>
    rw [recordAt_of_map (s := s) (f := fun r => { r with reroute := none }) rfl (fun r => ⟨rfl, rfl⟩), held, Option.map_some, ← bare]
  | _ => exact held

theorem requested_moves {s t : State} (moves : Moves A False s t) {q : Position} {j : Line} {x : Holder} (held : s.recordAt q j = some x)
    (breaking : x.state = .breaking) (asked : x.breakRequested = true) (bare : x.reroute = none) : t.recordAt q j = some x := by
  induction moves with
  | refl => exact held
  | tail _ move ih => exact requested_move move ih breaking asked bare

/-! ## An allocator event by its moves -/

theorem alloc_handOn (w : Work) : (handOn w).alloc = w.s.alloc := (moved_handOn w).alloc (by decide)

theorem alloc_allocEvent (f : Work → Work) (s : State) :
    (allocEvent f s).alloc = (admitFreed (reclaims (admitFreed (f (Work.start s))))).s.made.alloc := by
  rw [allocEvent, alloc_handOn, closeWork_s]
  rfl

theorem moves_allocEvent {f : Work → Work} {s : State} (sound : Sound A s) (deals : Deals A B (Work.start s) (f (Work.start s))) :
    Moves A B s { s with alloc := (allocEvent f s).alloc } := by
  have all := (((deals.trans (deals_admitFreed _)).trans (deals_reclaims _)).trans (deals_admitFreed _) sound).tail (.make _)
  have same : (admitFreed (reclaims (admitFreed (f (Work.start s))))).s.made = { s with alloc := (allocEvent f s).alloc } := by
    rw [alloc_allocEvent]
    exact Moves.eq all
  exact same ▸ all

/-! ## Stored reroutes applied (R57) -/

theorem records_rerouted {p : Position} : ∀ (rs : List Holder) (w : Work), (∀ r ∈ rs, r.pos = p) →
    (rs.map fun r => (r.pos, r.line)).Nodup →
    (rs.foldl (fun w r => freeIfAux r.line (w.mapRecord p r.line Holder.takeReroute)) w).s.alloc.records =
      w.s.alloc.records.map fun x => if x.pos = p ∧ ∃ r ∈ rs, r.line = x.line then x.takeReroute else x
  | [], w, _, _ => by simp
  | r :: rs, w, own, once => by
    obtain ⟨fresh, once⟩ := List.nodup_cons.1 once
    have pos := own r List.mem_cons_self
    rw [List.foldl_cons, records_rerouted rs _ (fun x mem => own x (List.mem_cons_of_mem _ mem)) once, s_freeIfAux,
      show (w.mapRecord p r.line Holder.takeReroute).s = mapRecord p r.line Holder.takeReroute w.s from rfl, records_mapRecord, List.map_map]
    refine List.map_congr_left fun x _ => ?_
    rw [Function.comp]
    by_cases here : x.pos = p ∧ x.line = r.line
    · rw [if_pos here, if_neg, if_pos ⟨here.1, r, List.mem_cons_self, here.2.symm⟩]
      rintro ⟨-, y, mem, line⟩
      rw [(placed_takeReroute x).2.1, here.2] at line
      exact fresh (List.mem_map.2 ⟨y, mem, Prod.ext ((own y (List.mem_cons_of_mem _ mem)).trans pos.symm) line⟩)
    · rw [if_neg here]
      refine if_congr (and_congr_right fun at' => ?_) rfl rfl
      constructor
      · rintro ⟨y, mem, line⟩
        exact ⟨y, List.mem_cons_of_mem _ mem, line⟩
      · rintro ⟨y, mem, line⟩
        obtain rfl | mem := List.mem_cons.1 mem
        · exact absurd ⟨at', line.symm⟩ here
        · exact ⟨y, mem, line⟩

/-- The records once a position's stored reroutes have been applied. -/
theorem records_applyReroutes {w : Work} (keyed : w.s.AllocationKeyed) (p : Position) :
    (applyReroutes p w).s.alloc.records = w.s.alloc.records.map fun x =>
      if w.s.safe = false ∧ w.s.pathQuiet p = true ∧ w.s.mayReroute p x = true then x.takeReroute else x := by
  unfold applyReroutes
  by_cases runs : w.s.safe = false ∧ w.s.pathQuiet p = true
  · rw [if_neg (by simp [runs.1, runs.2])]
    obtain ⟨listed, once⟩ := listed_filter keyed fun r => w.s.mayReroute p r
    have own : ∀ r ∈ w.s.alloc.records.filter (fun r => w.s.mayReroute p r), r.pos = p := fun r mem =>
      (reroutes_of_mayReroute runs.2 (List.mem_filter.1 mem).2).pos
    rw [records_rerouted _ w own once]
    refine List.map_congr_left fun x mem => if_congr ?_ rfl rfl
    constructor
    · rintro ⟨pos, r, chosen, line⟩
      obtain ⟨stands, may⟩ := List.mem_filter.1 chosen
      obtain rfl := Option.some.inj ((recordAt_of_mem keyed.records stands).symm.trans
        ((recordAt_eq_some_iff keyed.records).2 ⟨mem, pos.trans (own r chosen).symm, line.symm⟩))
      exact ⟨runs.1, runs.2, may⟩
    · rintro ⟨-, -, may⟩
      exact ⟨(reroutes_of_mayReroute runs.2 may).pos, x, List.mem_filter.2 ⟨mem, may⟩, rfl⟩
  · have out : (w.s.safe || !w.s.pathQuiet p) = true := by
      cases safe : w.s.safe <;> cases quiet : w.s.pathQuiet p <;> simp [safe, quiet] at runs ⊢
    rw [if_pos out]
    refine ((List.map_congr_left fun x _ => if_neg fun all => runs ⟨all.1, all.2.1⟩).trans (List.map_id _)).symm

/-- RX lines are freed alone, and none where no reroute of an RX line is applied. -/
theorem freed_applyReroutes {w : Work} (p : Position) (start : w.freed = []) :
    (∀ l ∈ (applyReroutes p w).freed, w.s.portOf l = .aux ∧ ∃ r ∈ w.s.alloc.records, w.s.mayReroute p r = true ∧ r.line = l) := by
  unfold applyReroutes
  split
  · simp [start]
  · suffices ∀ (rs : List Holder) (u : Work), u.s.table = w.s.table → ∀ l ∈ (rs.foldl (fun w r =>
        freeIfAux r.line (w.mapRecord p r.line Holder.takeReroute)) u).freed, l ∈ u.freed ∨ (w.s.portOf l = .aux ∧ ∃ r ∈ rs, r.line = l) by
      intro l mem
      obtain was | ⟨aux, r, chosen, line⟩ := this _ w rfl l mem
      · rw [start] at was
        cases was
      · obtain ⟨stands, may⟩ := List.mem_filter.1 chosen
        exact ⟨aux, r, stands, may, line⟩
    intro rs
    induction rs with
    | nil => exact fun u _ l mem => .inl mem
    | cons r rs ih =>
      intro u table l mem
      rw [List.foldl_cons] at mem
      obtain was | ⟨aux, x, chosen, line⟩ := ih _ (by rw [s_freeIfAux]; exact table) l mem
      · unfold freeIfAux at was
        split at was
        · next aux =>
          obtain was | rfl := List.mem_append.1 was |>.imp_right List.mem_singleton.1
          · exact .inl was
          · exact .inr ⟨(portOf_of_table table _).symm.trans aux, r, List.mem_cons_self, rfl⟩
        · exact .inl was
      · exact .inr ⟨aux, x, List.mem_cons_of_mem _ chosen, line⟩

end Sys2Proof.Machine
end

section
/-! A path-quiet event of a position that waits for no line: its stored reroutes and its PENDING records (R42, R57, R106). -/

namespace Sys2Proof.Machine

/-- A path-quiet event's work, up to the first admission tests. -/
abbrev quietWork (p : Position) (s : State) : Work := applyReroutes p (requestBreaks p (Work.start s))

theorem kinded_requested {s : State} (keyed : s.AllocationKeyed) (p : Position) : (s.requested p).Kinded :=
  kinded_of_map (kinded_of_keyed keyed) rfl rfl fun r => by split <;> exact ⟨rfl, rfl⟩

theorem yields_quietWork {s : State} (keyed : s.AllocationKeyed) (p : Position) :
    Yields (fun k => k = .aux) (Work.start s) (quietWork p s) :=
  (yields_requestBreaks (w := Work.start s) (kinded_of_keyed keyed) p).trans (yields_applyReroutes (kinded_requested keyed p) p rfl)

theorem freed_quietWork {s : State} (keyed : s.AllocationKeyed) (p : Position) : ∀ l ∈ (quietWork p s).freed, s.portOf l = .aux :=
  (yields_quietWork keyed p).freed (by simp [Work.start])

theorem moves_quietWork {s : State} (keyed : s.AllocationKeyed) {p : Position} (quiet : s.pathQuiet p = true) :
    Moves (fun _ _ => True) False s (quietWork p s).s :=
  deals_pathQuiet (w := Work.start s) (fun _ => trivial) quiet ⟨keyed, cover_true s⟩

theorem reclaimsHeld_quietWork {s : State} (keyed : s.AllocationKeyed) (held : s.ReclaimsHeld) {p : Position} (quiet : s.pathQuiet p = true) :
    (admitFreed (quietWork p s)).s.ReclaimsHeld := by
  have yields := yields_quietWork keyed p
  have admitted := yields_admitFreed (K := fun _ => True) yields.kinded (w := quietWork p s) fun _ _ => trivial
  have moves := moves_quietWork keyed quiet
  exact reclaimsHeld_of_moves held (moves.trans (moves_admitFreed (allocationKeyed_moves moves keyed) (cover_true _)))
    (admitted.standings.trans yields.standings)

/-- Under its re-claim lines a path-quiet event comes to its admissions, the make tests, and arbiter runs. -/
theorem arbitrated_pathQuiet {s : State} (keyed : s.AllocationKeyed) (held : s.ReclaimsHeld) {p : Position} (quiet : s.pathQuiet p = true) :
    Arbitrated (recompose (admitFreed (admitFreed (quietWork p s))).s.made) (allocPathQuiet p s) := by
  have yields := yields_quietWork keyed p
  obtain ⟨es, events, own⟩ := yields.events
  have none : es = [] := List.eq_nil_iff_forall_not_mem.2 fun e mem => nomatch (own e mem).1
  rw [none] at events
  refine allocEvent_of_quiet (f := fun w => applyReroutes p (requestBreaks p w)) yields.notes events yields.kinded (fun l mem => ?_) (reclaimsHeld_quietWork keyed held quiet)
  rw [yields.port]
  exact freed_quietWork keyed p l mem

/-- The positions and kinds whose records the admissions to RX lines leave to a position that waits for none. -/
def spared (p : Position) : Standers := fun q k => decide (q = p) || decide (k = .main)

theorem foreigners_of_waitsNowhere {s : State} (keyed : s.AllocationKeyed) {p : Position} (alone : s.WaitsNowhere p) :
    s.Foreigners (spared p) fun k => k = .aux := by
  intro l aux e mem
  exact ⟨by simp [spared, alone l e mem, aux], keyed.placed l e mem⟩

/-- A record of the position whose breaks are requested (R106). -/
def Holder.asked (p : Position) (x : Holder) : Holder :=
  if x.pos = p && x.state = .breaking then { x with breakRequested := true } else x

/-- How a path-quiet event changes the position's own records before the make tests. -/
def Holder.quieted (s : State) (p : Position) (x : Holder) : Holder :=
  if s.safe = false ∧ (s.requested p).mayReroute p (x.asked p) = true then (x.asked p).takeReroute else x.asked p

theorem asked_placed (p : Position) (x : Holder) :
    (x.asked p).pos = x.pos ∧ (x.asked p).line = x.line ∧ (x.asked p).kind = x.kind ∧ (x.asked p).state = x.state := by
  unfold Holder.asked
  split <;> exact ⟨rfl, rfl, rfl, rfl⟩

theorem asked_of_ne {p : Position} {x : Holder} (other : x.pos ≠ p) : x.asked p = x := if_neg (by simp [other])

theorem asked_of_standing {p : Position} {x : Holder} (standing : x.state ≠ .breaking) : x.asked p = x := if_neg (by simp [standing])

theorem records_quietWork {s : State} (keyed : s.AllocationKeyed) {p : Position} (quiet : s.pathQuiet p = true) :
    (quietWork p s).s.alloc.records = s.alloc.records.map (Holder.quieted s p) := by
  have moved : (requestBreaks p (Work.start s)).s = s.requested p := rfl
  have keyed' : (requestBreaks p (Work.start s)).s.AllocationKeyed :=
    allocationKeyed_move (Move.request (A := fun _ _ => True) (B := False) (fun _ => trivial) quiet) keyed
  rw [records_applyReroutes keyed', moved, show (s.requested p).alloc.records = s.alloc.records.map (Holder.asked p) from rfl, List.map_map]
  refine List.map_congr_left fun x _ => ?_
  have safe : (s.requested p).safe = s.safe := rfl
  have still : (s.requested p).pathQuiet p = true := quiet
  simp only [Function.comp, Holder.quieted, safe, still, true_and]

theorem lists_applyReroutes (p : Position) (w : Work) : (applyReroutes p w).s.alloc.lists = w.s.alloc.lists := by
  unfold applyReroutes
  split
  · rfl
  · suffices ∀ (rs : List Holder) (u : Work), (rs.foldl (fun w r =>
        freeIfAux r.line (w.mapRecord p r.line Holder.takeReroute)) u).s.alloc.lists = u.s.alloc.lists from this _ _
    intro rs
    induction rs with
    | nil => exact fun _ => rfl
    | cons r rs ih =>
      intro u
      rw [List.foldl_cons, ih, s_freeIfAux]
      rfl

theorem lists_quietWork (p : Position) (s : State) : (quietWork p s).s.alloc.lists = s.alloc.lists := lists_applyReroutes p _

/-- The records of `p`, and of every position on MAIN lines, once the admissions of its path-quiet event are done. -/
theorem those_quietWork {s : State} (keyed : s.AllocationKeyed) {p : Position} (quiet : s.pathQuiet p = true) (alone : s.WaitsNowhere p) :
    (admitFreed (admitFreed (quietWork p s))).s.those (spared p) = (quietWork p s).s.those (spared p) := by
  have yields := yields_quietWork keyed p
  have moves := moves_quietWork keyed quiet
  have keyed' := allocationKeyed_moves moves keyed
  have alone' : (quietWork p s).s.WaitsNowhere p := fun l e mem => alone l e (by
    rw [listOf_of_alloc (lists_quietWork p s)] at mem
    exact mem)
  have freed : ∀ l ∈ (quietWork p s).freed, (quietWork p s).s.portOf l = .aux := fun l mem => by
    rw [yields.port]
    exact freed_quietWork keyed p l mem
  have foreign := foreigners_of_waitsNowhere keyed' alone'
  have one := spares_admitFreed (K := fun k => k = .aux) yields.kinded freed foreign
  have yields' := yields_admitFreed (K := fun k => k = .aux) yields.kinded freed
  have two := spares_admitFreed (K := fun k => k = .aux) yields'.kinded (fun l mem => by rw [yields'.port]; exact yields'.freed freed l mem)
    (one.foreigners yields'.table foreign)
  exact two.records.trans one.records

theorem quieted_placed (s : State) (p : Position) (x : Holder) :
    (x.quieted s p).pos = x.pos ∧ (x.quieted s p).line = x.line ∧ (x.quieted s p).kind = x.kind := by
  obtain ⟨pos, line, kind, -⟩ := asked_placed p x
  obtain ⟨pos', line', kind'⟩ := placed_takeReroute (x.asked p)
  unfold Holder.quieted
  split
  · exact ⟨pos'.trans pos, line'.trans line, kind'.trans kind⟩
  · exact ⟨pos, line, kind⟩

theorem not_mayReroute_of_ne {s : State} {p : Position} {x : Holder} (other : x.pos ≠ p) : s.mayReroute p x = false := by
  simp [State.mayReroute, other]

theorem not_mayReroute_of_state {s : State} {p : Position} {x : Holder} (other : x.state ≠ .connected) : s.mayReroute p x = false := by
  simp [State.mayReroute, other]

theorem quieted_of_ne {s : State} {p : Position} {x : Holder} (other : x.pos ≠ p) : x.quieted s p = x := by
  rw [Holder.quieted, asked_of_ne other, not_mayReroute_of_ne other]
  exact if_neg nofun

theorem quieted_of_connected {s : State} {p : Position} {x : Holder} (connected : x.state = .connected) :
    x.quieted s p = if s.safe = false ∧ (s.requested p).mayReroute p x = true then x.takeReroute else x := by
  rw [Holder.quieted, asked_of_standing (by rw [connected]; nofun)]

theorem quieted_of_unconnected {s : State} {p : Position} {x : Holder} (other : x.state ≠ .connected) : x.quieted s p = x.asked p := by
  rw [Holder.quieted, not_mayReroute_of_state (by rw [(asked_placed p x).2.2.2]; exact other)]
  exact if_neg nofun

theorem quieted_breaking {s : State} {p : Position} {x : Holder} : (x.quieted s p).state = .breaking ↔ x.state = .breaking := by
  by_cases connected : x.state = .connected
  · rw [quieted_of_connected connected, connected]
    split
    · unfold Holder.takeReroute
      split <;> simp [connected]
    · simp [connected]
  · rw [quieted_of_unconnected connected, (asked_placed p x).2.2.2]

theorem quieted_of_pending {s : State} {p : Position} {x : Holder} (pending : x.state = .pending) : x.quieted s p = x := by
  rw [quieted_of_unconnected (by rw [pending]; nofun), asked_of_standing (by rw [pending]; nofun)]

/-- Which reroutes a path-quiet event applies (R57; assumption 8). -/
theorem mayReroute_requested {s : State} {p : Position} {x : Holder} (pos : x.pos = p) (connected : x.state = .connected) :
    (s.requested p).mayReroute p x = true ↔ x.reroute.isSome = true ∧ (s.portOf x.line = .main ∨ ∀ y ∈ s.recordsOn x.line, y.pos = p) := by
  have shares : (s.requested p).sharesLine x = true ↔ s.portOf x.line = .aux ∧ ∃ y ∈ s.recordsOn x.line, y.pos ≠ p := by
    simp only [State.sharesLine, Bool.and_eq_true, decide_eq_true_eq, List.any_eq_true, pos]
    refine and_congr Iff.rfl ⟨?_, ?_⟩
    · rintro ⟨z, mem, other⟩
      obtain ⟨stands, line⟩ := (mem_recordsOn _ _ _).1 mem
      obtain ⟨y, was, rfl⟩ := List.mem_map.1 (show z ∈ s.alloc.records.map (Holder.asked p) from stands)
      obtain ⟨pos, line', -⟩ := asked_placed p y
      exact ⟨y, (mem_recordsOn _ _ _).2 ⟨was, line' ▸ line⟩, pos ▸ other⟩
    · rintro ⟨y, mem, other⟩
      obtain ⟨stands, line⟩ := (mem_recordsOn _ _ _).1 mem
      exact ⟨y, (mem_recordsOn _ _ _).2 ⟨List.mem_map.2 ⟨y, stands, if_neg (by simp [other])⟩, line⟩, other⟩
  have port : s.portOf x.line = .main ↔ ¬s.portOf x.line = .aux := by cases s.portOf x.line <;> simp
  simp only [State.mayReroute, pos, connected, decide_true, Bool.true_and, Bool.and_eq_true, Bool.not_eq_true', ← Bool.not_eq_true, shares,
    port]
  refine and_congr_right fun _ => ?_
  simp only [not_and_or, not_exists, not_not, ← imp_iff_not_or]

/-- The state that a path-quiet event's make tests find. -/
abbrev admittedQuiet (p : Position) (s : State) : State := (admitFreed (admitFreed (quietWork p s))).s

theorem moves_admittedQuiet {s : State} (keyed : s.AllocationKeyed) {p : Position} (quiet : s.pathQuiet p = true) :
    Moves (fun _ _ => True) False s (admittedQuiet p s) := by
  have moves := moves_quietWork keyed quiet
  have one := moves.trans (moves_admitFreed (allocationKeyed_moves moves keyed) (cover_true _))
  exact one.trans (moves_admitFreed (allocationKeyed_moves one keyed) (cover_true _))

theorem mem_quietWork {s : State} (keyed : s.AllocationKeyed) {p : Position} (quiet : s.pathQuiet p = true) (r : Holder) :
    r ∈ (quietWork p s).s.alloc.records ↔ ∃ y ∈ s.alloc.records, y.quieted s p = r := by
  rw [records_quietWork keyed quiet, List.mem_map]

theorem spared_admittedQuiet {s : State} (keyed : s.AllocationKeyed) {p : Position} (quiet : s.pathQuiet p = true) (alone : s.WaitsNowhere p)
    {r : Holder} (mine : spared p r.pos r.kind = true) :
    r ∈ (admittedQuiet p s).alloc.records ↔ ∃ y ∈ s.alloc.records, y.quieted s p = r := by
  have those := those_quietWork keyed quiet alone
  have mem (u : State) : r ∈ u.alloc.records ↔ r ∈ u.those (spared p) := by rw [State.those, List.mem_filter, and_iff_left mine]
  rw [mem, those, ← mem, mem_quietWork keyed quiet]

/-- A line's records as the make tests find them, where no reroute of it lets anybody in. -/
theorem mem_admittedQuiet {s : State} (keyed : s.AllocationKeyed) {p : Position} (quiet : s.pathQuiet p = true) (alone : s.WaitsNowhere p)
    {r : Holder} (still : s.portOf r.line = .aux → (quietWork p s).freed = []) :
    r ∈ (admittedQuiet p s).alloc.records ↔ ∃ y ∈ s.alloc.records, y.quieted s p = r := by
  have keyed' := allocationKeyed_moves (moves_admittedQuiet keyed quiet) keyed
  have table := table_of_moves (moves_admittedQuiet keyed quiet)
  have yields := yields_quietWork keyed p
  by_cases mine : spared p r.pos r.kind = true
  · exact spared_admittedQuiet keyed quiet alone mine
  · cases port : s.portOf r.line with
    | aux =>
      have freed := still port
      rw [admittedQuiet, admitFreed_of_freed_nil (w := quietWork p s) freed, admitFreed_of_freed_nil freed, mem_quietWork keyed quiet]
    | main =>
      have out (u : State) (kinded : u.Kinded) (same : u.table = s.table) : r ∉ u.alloc.records := fun mem => by
        refine mine ?_
        rw [spared, kinded r mem, portOf_of_table same, port]
        simp
      rw [← mem_quietWork keyed quiet]
      exact iff_of_false (out _ (kinded_of_keyed keyed') table) (out _ yields.kinded yields.table)

/-- The make test of a PENDING record of the position whose path has become quiet (R42). -/
theorem mayMake_admittedQuiet {s : State} (keyed : s.AllocationKeyed) {p : Position} (quiet : s.pathQuiet p = true) (alone : s.WaitsNowhere p)
    {x : Holder} (mem : x ∈ s.alloc.records) (pos : x.pos = p) (pending : x.state = .pending) :
    (admittedQuiet p s).mayMake x = true ↔ s.safe = false ∧ (∀ y ∈ s.alloc.records, y.pos = p → y.kind = x.kind → y.line = x.line) ∧
      ∀ y ∈ s.recordsOn x.line, y.pos = p ∨ y.state ≠ .breaking := by
  have moves := moves_admittedQuiet keyed quiet
  have same := Moves.eq moves
  have safe : (admittedQuiet p s).safe = s.safe := by rw [same]; rfl
  have quiet' : (admittedQuiet p s).pathQuiet p = true := by rw [same]; exact quiet
  have line (r : Holder) : (r.quieted s p).line = r.line := (quieted_placed s p r).2.1
  have own : (∀ y ∈ (admittedQuiet p s).recordsOf x.pos x.kind, y.line = x.line) ↔
      ∀ y ∈ s.alloc.records, y.pos = p → y.kind = x.kind → y.line = x.line := by
    have found {r : Holder} (at' : r.pos = p) := spared_admittedQuiet keyed quiet alone (r := r) (by simp [spared, at'])
    constructor
    · intro test y stands pos' kind'
      obtain ⟨posq, lineq, kindq⟩ := quieted_placed s p y
      rw [← lineq]
      exact test _ ((mem_recordsOf _ _ _ _).2 ⟨(found (posq.trans pos')).2 ⟨y, stands, rfl⟩, posq.trans (pos'.trans pos.symm), kindq.trans kind'⟩)
    · intro test r of
      obtain ⟨stands, pos', kind'⟩ := (mem_recordsOf _ _ _ _).1 of
      obtain ⟨y, was, rfl⟩ := (found (pos'.trans pos)).1 stands
      obtain ⟨posq, lineq, kindq⟩ := quieted_placed s p y
      rw [lineq]
      exact test y was (posq.symm.trans (pos'.trans pos)) (kindq.symm.trans kind')
  have still (all : ∀ y ∈ s.alloc.records, y.pos = p → y.kind = x.kind → y.line = x.line) (aux : s.portOf x.line = .aux) :
      (quietWork p s).freed = [] := by
    refine List.eq_nil_iff_forall_not_mem.2 fun l freed => ?_
    obtain ⟨port, r, mem', may, rfl⟩ := freed_applyReroutes (w := requestBreaks p (Work.start s)) p rfl l freed
    obtain ⟨y, stands, rfl⟩ := List.mem_map.1 (show r ∈ s.alloc.records.map (Holder.asked p) from mem')
    obtain ⟨pos', line', kind', state'⟩ := asked_placed p y
    have here : y.pos = p := by
      by_contra other
      rw [asked_of_ne other, not_mayReroute_of_ne other] at may
      cases may
    have kinded := kinded_of_keyed keyed
    have kind : y.kind = x.kind := by
      rw [kinded y stands, kinded x mem, aux, ← line']
      exact port
    obtain rfl := Option.some.inj ((recordAt_of_mem keyed.records mem).symm.trans
      ((recordAt_eq_some_iff keyed.records).2 ⟨stands, here.trans pos.symm, all y stands here kind⟩))
    rw [not_mayReroute_of_state (by rw [state', pending]; nofun)] at may
    cases may
  have others (all : ∀ y ∈ s.alloc.records, y.pos = p → y.kind = x.kind → y.line = x.line) :
      (∀ y ∈ (admittedQuiet p s).recordsOn x.line, y.pos = p ∨ y.state ≠ .breaking) ↔
        ∀ y ∈ s.recordsOn x.line, y.pos = p ∨ y.state ≠ .breaking := by
    have found (r : Holder) (at' : r.line = x.line) := mem_admittedQuiet keyed quiet alone (r := r) (by rw [at']; exact still all)
    constructor
    · intro test y on
      obtain ⟨stands, at'⟩ := (mem_recordsOn _ _ _).1 on
      have := test (y.quieted s p) ((mem_recordsOn _ _ _).2 ⟨(found _ ((line y).trans at')).2 ⟨y, stands, rfl⟩, (line y).trans at'⟩)
      rwa [(quieted_placed s p y).1, Ne, quieted_breaking] at this
    · intro test r on
      obtain ⟨stands, at'⟩ := (mem_recordsOn _ _ _).1 on
      obtain ⟨y, was, rfl⟩ := (found r at').1 stands
      rw [(quieted_placed s p y).1, Ne, quieted_breaking]
      exact test y ((mem_recordsOn _ _ _).2 ⟨was, (line y).symm.trans at'⟩)
  simp only [State.mayMake, Bool.and_eq_true, Bool.not_eq_true', List.all_eq_true, decide_eq_true_eq, Bool.or_eq_true, pos, safe, quiet',
    and_true, and_assoc]
  rw [pos] at own
  rw [own]
  exact and_congr_right fun _ => and_congr_right others

end Sys2Proof.Machine
end

section
/-! The path-quiet events that close a step: what they come to where one position alone is newly quiet (R106). -/

namespace Sys2Proof.Machine

/-! ## The pending image is the composed one after each event -/

theorem pending_allocEvent {f : Work → Work} (worked : ∀ w, Worked w (f w)) (s : State) :
    (allocEvent f s).chain.pending = (allocEvent f s).composed := by
  generalize same : reclaims (admitFreed (f (Work.start s))) = w
  have worked' : Worked (Work.start s) w := same ▸ (worked (Work.start s)).trans ((worked_admitFreed _).trans (worked_reclaims _))
  have event : allocEvent f s = handOn (closeWork s w) := by rw [allocEvent, same]
  have pending : (allocEvent f s).chain.pending = (makeTests (admitFreed w)).s.composed := by
    rw [event, (moved_handOn _).chain (by decide), chain_closeWork]
  have filters : (makeTests (admitFreed w)).s.chain.filters = (allocEvent f s).chain.filters := by
    rw [event, (moved_handOn _).chain (by decide), chain_closeWork, ((worked_admitFreed w).trans (worked_makeTests _)).moved.chain (by decide)]
  have made := (worked'.trans ((worked_admitFreed _).trans (worked_makeTests _))).moved.table (by decide)
  rw [pending]
  refine composed_of_same ?_ ?_ fun q => ?_
  · rw [alloc_allocEvent, same]
    rfl
  · exact made.trans ((moved_allocEvent f worked s).table (by decide)).symm
  · rw [State.filterOf, filters, ← State.filterOf]

theorem pending_filterMove (p : Position) {s : State} (composed : s.chain.pending = s.composed) :
    (filterMove p s).chain.pending = (filterMove p s).composed := by
  unfold filterMove
  split
  · exact composed_of_same rfl rfl fun _ => rfl
  · exact composed

theorem pending_pathQuietEvent (p : Position) (s : State) : (pathQuietEvent p s).chain.pending = (pathQuietEvent p s).composed :=
  pending_filterMove p (pending_allocEvent (worked_pathQuiet p) s)

theorem pending_startRule {s : State} (composed : s.chain.pending = s.composed) :
    (startRule s).chain.pending = (startRule s).composed := by
  have kept := startKept_startRule s
  have moved := moved_startRule s
  rw [kept.pending, composed]
  refine composed_of_same (by rw [moved.alloc (by decide)]) (moved.table (by decide)).symm fun q => ?_
  rw [State.filterOf, State.filterOf, kept.filters]

/-! ## Filters -/

theorem filterOf_filterMove_of_ne {p q : Position} (other : p ≠ q) (s : State) : (filterMove q s).filterOf p = s.filterOf p := by
  unfold filterMove
  split
  · show (put s.chain.filters q _).get p = _
    rw [get_put, if_neg other]
    rfl
  · rfl

theorem filterOf_pathQuietEvent_of_ne {p q : Position} (other : p ≠ q) (s : State) : (pathQuietEvent q s).filterOf p = s.filterOf p := by
  obtain ⟨im, chain⟩ := chain_allocEvent (worked_pathQuiet q) s
  rw [pathQuietEvent, filterOf_filterMove_of_ne other, State.filterOf, allocPathQuiet, chain]
  rfl

/-- The image filter of a position that stays off the air takes what it moves toward. -/
theorem filterOf_pathQuietEvent {p : Position} {s : State} (quiet : s.pathQuiet p = true) (out : p ∉ s.waiting) :
    (pathQuietEvent p s).filterOf p = { s.filterOf p with image := s.movesToward p } := by
  have off : s.onAir p = false := by
    simp only [State.pathQuiet, Bool.and_eq_true, Bool.not_eq_true'] at quiet
    exact quiet.1.1
  obtain ⟨same, -⟩ := grounds_allocEvent (worked_pathQuiet p) p s off out
  obtain ⟨im, chain⟩ := chain_allocEvent (worked_pathQuiet p) s
  have still : (allocPathQuiet p s).pathQuiet p = true := by
    rw [State.pathQuiet, allocPathQuiet, same]
    exact quiet
  have filter : (allocPathQuiet p s).filterOf p = s.filterOf p := by
    rw [State.filterOf, allocPathQuiet, chain]
    rfl
  have toward : (allocPathQuiet p s).movesToward p = s.movesToward p := by
    rw [State.movesToward, filter, allocPathQuiet, chain]
    rfl
  rw [pathQuietEvent, filterMove, still, Bool.and_true, toward, filter]
  by_cases moves : (s.filterOf p).image = s.movesToward p
  · rw [if_neg (by simp [moves]), filter, ← moves]
  · rw [if_pos (by simp [moves])]
    show (put (allocPathQuiet p s).chain.filters p _).get p = _
    rw [get_put, if_pos rfl, filter]

/-! ## The events of one step -/

/-- What each path-quiet event of a position not yet served keeps, all of them keep. -/
theorem quietEvents_keep {P : State → Prop} (b : State) {p : Position} (event : ∀ q s, q ≠ p → s.pathQuiet q = true → P s → P (pathQuietEvent q s)) :
    ∀ (n : Nat) (d : List Position) (s : State), p ∈ d → P s → P (quietEvents b n d s)
  | 0, _, _, _, holds => holds
  | n + 1, d, s, done, holds => by
    unfold quietEvents
    split
    · next q found =>
      have spec := List.find?_some found
      simp only [Bool.and_eq_true, Bool.not_eq_true', List.contains_eq_mem, decide_eq_false_iff_not] at spec
      obtain ⟨⟨fresh, -⟩, quiet⟩ := spec
      have other : q ≠ p := fun same => fresh (same ▸ done)
      exact quietEvents_keep b event n _ _ (List.mem_cons_of_mem _ done) (event q s other quiet holds)
    · exact holds

/-- No further event where nobody else is newly quiet. -/
theorem quietEvents_of_nobody {b s : State} {p : Position} (nobody : ∀ q, q ≠ p → s.pathQuiet q = true → b.pathQuiet q = true) (n : Nat) :
    quietEvents b n [p] s = s := by
  cases n with
  | zero => rfl
  | succ n =>
    have none : newlyQuiet b [p] s = none := by
      simp only [newlyQuiet, List.find?_eq_none]
      intro q _ found
      simp only [List.contains_eq_mem, List.mem_singleton, Bool.and_eq_true, Bool.not_eq_true', decide_eq_false_iff_not] at found
      obtain ⟨⟨other, loud⟩, quiet⟩ := found
      rw [nobody q other quiet] at loud
      cases loud
    rw [quietEvents, none]

/-- A state in which the path of one position alone is newly quiet. -/
structure QuietsOne (b u : State) (p : Position) : Prop where
  loud : b.pathQuiet p = false
  quiet : u.pathQuiet p = true
  others : ∀ q, q ≠ p → u.pathQuiet q = true → b.pathQuiet q = true
  out : p ∉ u.waiting

theorem deliverQuiet_of_one {b u : State} {p : Position} (one : QuietsOne b u p) :
    deliverQuiet b u = quietEvents b 5 [p] (pathQuietEvent p u) := by
  have found : newlyQuiet b [] u = some p := by
    have test : ∀ q, (!([] : List Position).contains q && !b.pathQuiet q && u.pathQuiet q) = decide (q = p) := fun q => by
      by_cases same : q = p
      · rw [same, one.loud, one.quiet]
        simp
      · cases quiet : u.pathQuiet q with
        | false => simp [same]
        | true => simp [same, one.others q same quiet]
    rw [newlyQuiet, funext test]
    exact (by decide : ∀ q, List.find? (fun x => decide (x = q)) allPositions = some q) p
  rw [deliverQuiet, show allPositions.length = 5 + 1 from rfl, quietEvents, found]

theorem closeStep_of_one {b u : State} {p : Position} (ready : u.store.ready = b.store.ready) (one : QuietsOne b u p) :
    closeStep b u = startRule (quietEvents b 5 [p] (pathQuietEvent p u)) := by
  rw [closeStep, watchPin_same b u ready, deliverQuiet_of_one one]

/-- Each BREAKING record of a position that becomes quiet keeps its place, its break requested, whatever follows in the step. -/
theorem breaksRequested_of_one {b u : State} {p : Position} (keyed : u.AllocationKeyed) (ready : u.store.ready = b.store.ready)
    (one : QuietsOne b u p) : u.BreaksRequested (closeStep b u) p := by
  intro x mem pos breaking
  rw [closeStep_of_one ready one, recordAt_of_alloc (congrArg _ ((moved_startRule _).alloc (by decide)))]
  suffices (quietEvents b 5 [p] (pathQuietEvent p u)).AllocationKeyed ∧
      (quietEvents b 5 [p] (pathQuietEvent p u)).recordAt p x.line = some { x with breakRequested := true } from this.2
  have bare : x.reroute = none := by
    by_contra stored
    rw [keyed.stored x mem stored] at breaking
    cases breaking
  have moves (q : Position) (s : State) (keyed : s.AllocationKeyed) (quiet : s.pathQuiet q = true) :
      Moves (fun _ _ => True) False s { s with alloc := (pathQuietEvent q s).alloc } := by
    rw [show (pathQuietEvent q s).alloc = (allocPathQuiet q s).alloc from (moved_filterMove q _).alloc (by decide)]
    exact moves_allocEvent (sound_true keyed) (deals_pathQuiet (w := Work.start s) (fun _ => trivial) quiet)
  have keyed' (q : Position) (s : State) (start : s.AllocationKeyed) (quiet : s.pathQuiet q = true) : (pathQuietEvent q s).AllocationKeyed :=
    allocationKeyed_of_same (allocationKeyed_moves (moves q s start quiet) start) ((moved_pathQuietEvent q s).table (by decide)) rfl
  refine quietEvents_keep (P := fun s => s.AllocationKeyed ∧ s.recordAt p x.line = some { x with breakRequested := true }) b
    (fun q s _ quiet held => ⟨keyed' q s held.1 quiet, ?_⟩) 5 [p] _ List.mem_cons_self ⟨keyed' p u keyed one.quiet, ?_⟩
  · exact requested_moves (moves q s held.1 quiet) held.2 breaking rfl bare
  · have held : (u.requested p).recordAt p x.line = some { x with breakRequested := true } := by
      rw [recordAt_requested, ← pos, recordAt_of_mem keyed.records mem, Option.map_some, if_pos (by simp [breaking])]
    have asked : Move (fun _ _ => True) False u (u.requested p) := .request (fun _ => trivial) one.quiet
    have later := ((((deals_applyReroutes (B := False) (p := p) (fun _ => trivial) (requestBreaks p (Work.start u))).trans (deals_admitFreed _)).trans
      (deals_reclaims _)).trans (deals_admitFreed _) (sound_true (allocationKeyed_move asked keyed))).tail (.make _)
    rw [pathQuietEvent, recordAt_of_alloc (congrArg _ ((moved_filterMove p _).alloc (by decide))), allocPathQuiet,
      recordAt_of_alloc (congrArg _ (alloc_allocEvent _ u))]
    exact requested_moves later held breaking rfl bare

theorem filterOf_of_one {b u : State} {p : Position} (ready : u.store.ready = b.store.ready) (one : QuietsOne b u p) :
    (closeStep b u).filterOf p = { u.filterOf p with image := u.movesToward p } := by
  rw [closeStep_of_one ready one, State.filterOf, (startKept_startRule _).filters, ← State.filterOf]
  exact quietEvents_keep (P := fun s => s.filterOf p = { u.filterOf p with image := u.movesToward p }) b
    (fun q s other _ held => (filterOf_pathQuietEvent_of_ne other.symm s).trans held) 5 [p] _ List.mem_cons_self
    (filterOf_pathQuietEvent one.quiet one.out)

theorem pending_of_one {b u : State} {p : Position} (ready : u.store.ready = b.store.ready) (one : QuietsOne b u p) :
    (closeStep b u).chain.pending = (closeStep b u).composed := by
  rw [closeStep_of_one ready one]
  exact pending_startRule (quietEvents_keep (P := fun s => s.chain.pending = s.composed) b (fun q s _ _ _ => pending_pathQuietEvent q s) 5 [p] _
    List.mem_cons_self (pending_pathQuietEvent p u))

theorem alloc_pathQuietEvent {u : State} {p : Position} (keyed : u.AllocationKeyed) (held : u.ReclaimsHeld) (quiet : u.pathQuiet p = true) :
    (pathQuietEvent p u).alloc = (admittedQuiet p u).made.alloc := by
  have runs := (arbitrated_pathQuiet keyed held quiet).moved.alloc (by decide)
  rw [pathQuietEvent, (moved_filterMove p _).alloc (by decide), runs, (moved_recompose _).alloc (by decide)]

theorem noneQuieted_pathQuietEvent {u : State} {p : Position} (keyed : u.AllocationKeyed) (held : u.ReclaimsHeld) (quiet : u.pathQuiet p = true) :
    NoneQuieted u (pathQuietEvent p u) := by
  have same := Moves.eq (moves_admittedQuiet keyed quiet)
  have tx : (recompose (admittedQuiet p u).made).tx = u.tx := by
    rw [(moved_recompose _).tx (by decide), same]
    rfl
  exact ((noneQuieted_of_tx tx).trans (arbitrated_pathQuiet keyed held quiet).noneQuieted).trans
    (noneQuieted_of_tx ((moved_filterMove p _).tx (by decide)))

/-- Under the re-claim lines the step ends with the one event: its make tests are the last change of the records. -/
theorem recordAt_of_one {b u : State} {p : Position} (keyed : u.AllocationKeyed) (ready : u.store.ready = b.store.ready) (one : QuietsOne b u p)
    (held : u.ReclaimsHeld) (l : Line) : (closeStep b u).recordAt p l = (admittedQuiet p u).made.recordAt p l := by
  have none := noneQuieted_pathQuietEvent keyed held one.quiet
  rw [closeStep_of_one ready one, quietEvents_of_nobody (fun q other quiet => one.others q other (none q quiet)) 5]
  refine recordAt_of_alloc (congrArg _ ?_) p l
  rw [(moved_startRule _).alloc (by decide), alloc_pathQuietEvent keyed held one.quiet]

/-- The position's record once the step's make tests are done, where it waits for no line. -/
theorem recordAt_admittedQuiet {u : State} (keyed : u.AllocationKeyed) {p : Position} (quiet : u.pathQuiet p = true) (alone : u.WaitsNowhere p)
    {x : Holder} (mem : x ∈ u.alloc.records) (pos : x.pos = p) : (admittedQuiet p u).recordAt p x.line = some (x.quieted u p) := by
  have moves := moves_admittedQuiet keyed quiet
  obtain ⟨pos', line', -⟩ := quieted_placed u p x
  refine (recordAt_eq_some_iff (allocationKeyed_moves moves keyed).records).2 ⟨?_, pos'.trans pos, line'⟩
  exact (spared_admittedQuiet keyed quiet alone (by simp [spared, pos'.trans pos])).2 ⟨x, mem, rfl⟩

theorem quietTaken_of_one {b u : State} {p : Position} (keyed : u.AllocationKeyed) (ready : u.store.ready = b.store.ready) (one : QuietsOne b u p) :
    u.QuietTaken (closeStep b u) p where
  filter := filterOf_of_one ready one
  pending _ := pending_of_one ready one
  rerouted held alone x mem pos connected := by
    rw [recordAt_of_one keyed ready one held, recordAt_made, recordAt_admittedQuiet keyed one.quiet alone mem pos, Option.map_some,
      quieted_of_connected connected]
    cases stored : x.reroute with
    | none =>
      have out : x.takeReroute = x := by simp [Holder.takeReroute, stored]
      rw [out, ite_self, if_neg (by simp [connected])]
    | some r =>
      have taken : x.takeReroute = { x with route := r, reroute := none, state := .making } := by simp [Holder.takeReroute, stored]
      have test := mayReroute_requested (s := u) pos connected
      rw [stored, Option.isSome_some] at test
      simp only [test, true_and, taken]
      split
      · rw [if_neg (by simp)]
      · rw [if_neg (by simp [connected])]
  made held alone x mem pos pending := by
    rw [recordAt_of_one keyed ready one held, recordAt_made, recordAt_admittedQuiet keyed one.quiet alone mem pos, Option.map_some,
      quieted_of_pending pending]
    have test := mayMake_admittedQuiet keyed one.quiet alone mem pos pending
    simp only [pending, decide_true, Bool.true_and, test]

/-- The taken event stands by the records, filters and frequency records, which the interlock's own operations leave. -/
theorem quietTaken_of_air {s u t : State} {p : Position} (air : Moved airParts s u) (taken : u.QuietTaken t p) : s.QuietTaken t p := by
  have alloc := air.alloc (by decide)
  have chain := air.chain (by decide)
  have table := air.table (by decide)
  have safe : u.safe = s.safe := congrArg FaultLog.safe (air.log (by decide))
  obtain ⟨filter, pending, rerouted, made⟩ := taken
  have nowhere : s.WaitsNowhere p → u.WaitsNowhere p := fun alone l e mem => alone l e (by rwa [listOf_of_alloc (congrArg _ alloc)] at mem)
  have held : s.ReclaimsHeld → u.ReclaimsHeld := fun held => reclaimsHeld_of_alloc held alloc
  have on (l : Line) : u.recordsOn l = s.recordsOn l := by rw [State.recordsOn, alloc, ← State.recordsOn]
  have port (l : Line) : u.portOf l = s.portOf l := portOf_of_table table l
  simp only [State.filterOf, chain, alloc, safe, on, port] at filter pending rerouted made
  exact ⟨filter, pending, fun lines alone => rerouted (held lines) (nowhere alone), fun lines alone => made (held lines) (nowhere alone)⟩

end Sys2Proof.Machine
end

section
/-! What an arbiter run makes of a waiter, and what a position's leaving of the air comes to by the end of the step (R98, R101, R106). -/

namespace Sys2Proof.Machine

/-! ## A waiter in an arbiter run (R101) -/

/-- A judgment depends on the transmit records by who is on the air alone. -/
theorem judge_of_onAir {s : State} {tx : Vector TxRecord 6} {waiting : List Position} {inbox : List LogEvent}
    (same : { s with tx := tx, waiting := waiting, inbox := inbox }.onAir = s.onAir) (q : Position) :
    judge { s with tx := tx, waiting := waiting, inbox := inbox } q = judge s q := by
  simp only [judge, State.onAirCount, State.bandBusy, State.harmonicConflict, State.protectedFrom, same]
  rfl

/-- What becomes of a waiter: it keeps waiting under a reason, or it is granted and left alone from then on. -/
def Arbitrates (p : Position) (s t : State) : Prop := p ∈ s.waiting →
  (p ∈ t.waiting ∧ ∃ r, t.txOf p = { s.txOf p with reason := r }) ∨
    (p ∉ t.waiting ∧ ∃ r, t.txOf p = { s.txOf p with reason := r, state := .granted, tailTimer := none, skipHang := false })

theorem Arbitrates.refl (p : Position) (s : State) : Arbitrates p s s := fun waits => .inl ⟨waits, _, rfl⟩

theorem Arbitrates.trans {p : Position} {s t u : State} (one : Arbitrates p s t) (two : Arbitrates p t u) (aloof : Aloof p t u) :
    Arbitrates p s u := fun waits => by
  obtain ⟨still, r, record⟩ | ⟨out, r, record⟩ := one waits
  · obtain ⟨still, x, later⟩ | ⟨out, x, later⟩ := two still
    · exact .inl ⟨still, x, by rw [later, record]⟩
    · exact .inr ⟨out, x, by rw [later, record]⟩
  · obtain ⟨same, out⟩ := aloof out
    exact .inr ⟨out, r, same.trans record⟩

theorem arbitrates_grant (p q : Position) (s : State) : Arbitrates p s (grant q s) := fun waits => by
  have record : (grant q s).txOf p = (putOnAir q s).txOf p := by
    rw [State.txOf, grant, (moved_evaluateAdvisories _).tx (by decide)]
    rfl
  rw [waiting_grant, record]
  by_cases same : p = q
  · subst same
    refine .inr ⟨by simp, (s.txOf p).reason, ?_⟩
    show (s.mapTx p fun x => { x with state := .granted, tailTimer := none, skipHang := false }).txOf p = _
    rw [txOf_mapTx, if_pos rfl]
  · refine .inl ⟨by simp [waits, same], (s.txOf p).reason, ?_⟩
    show (s.mapTx q fun x => { x with state := .granted, tailTimer := none, skipHang := false }).txOf p = _
    rw [txOf_mapTx, if_neg same]

theorem arbitrates_reason (p q : Position) (r : Option WaiterReason) (s : State) : Arbitrates p s (s.mapTx q fun x => { x with reason := r }) :=
  fun waits => by
    refine .inl ⟨waits, ?_⟩
    rw [txOf_mapTx]
    split
    · next same => exact ⟨r, by rw [same]⟩
    · exact ⟨_, rfl⟩

theorem arbitrates_arbiterPass {p : Position} : ∀ (qs : List Position) (s : State), qs.Nodup → (∀ q ∈ qs, q ∈ s.waiting) →
    Arbitrates p s (arbiterPass qs s).1
  | [], s, _, _ => .refl p s
  | q :: qs, s, once, waits => by
    obtain ⟨fresh, once⟩ := List.nodup_cons.1 once
    unfold arbiterPass
    split
    · have still : ∀ x ∈ qs, x ∈ (grant q s).waiting := fun x mem => by
        rw [waiting_grant]
        exact List.mem_filter.2 ⟨waits x (List.mem_cons_of_mem _ mem), by simpa using fun same : x = q => fresh (same ▸ mem)⟩
      refine (arbitrates_grant p q s).trans (arbitrates_arbiterPass qs _ once still) fun out => ?_
      exact aloof_arbiterPass qs _ (fun mem => out (still p mem)) out
    · next r _ =>
      refine (arbitrates_reason p q (some r) s).trans (arbitrates_arbiterPass qs _ once fun x mem => waits x (List.mem_cons_of_mem _ mem))
        fun out => ?_
      exact aloof_arbiterPass qs _ (fun mem => out (waits p (List.mem_cons_of_mem _ mem))) out

theorem arbitrates_arbiterPasses {p : Position} : ∀ (n : Nat) (s : State), s.waiting.Nodup → Arbitrates p s (arbiterPasses n s)
  | 0, s, _ => .refl p s
  | n + 1, s, once => by
    have one := arbitrates_arbiterPass (p := p) s.waiting s once fun _ => id
    have fewer := waiting_arbiterPass_sublist s.waiting s
    unfold arbiterPasses
    split
    · next t pass =>
      rw [pass] at one fewer
      exact one.trans (arbitrates_arbiterPasses n t (once.sublist fewer)) (aloof_arbiterPasses n t)
    · next t pass =>
      rw [pass] at one
      exact one

theorem arbitrates_arbiter (p : Position) {s : State} (once : s.waiting.Nodup) : Arbitrates p s (arbiter s) := arbitrates_arbiterPasses _ s once

/-- A run for one waiter alone grants it where it is eligible. -/
theorem arbiter_of_alone {s : State} {p : Position} (alone : s.waiting = [p]) :
    arbiter s = match judge s p with
      | none => grant p s
      | some r => s.mapTx p fun x => { x with reason := some r } := by
  rw [arbiter, show Config.arbiterPasses = 5 + 1 + 1 from rfl, arbiterPasses, alone]
  cases held : judge s p with
  | some r => simp only [arbiterPass, held]
  | none =>
    simp only [arbiterPass, held]
    have nobody : (grant p s).waiting = [] := by simp [waiting_grant, alone]
    rw [arbiterPasses, nobody]
    rfl

/-! ## A position that leaves the air -/

/-- A position's own change and its leaving of the air, with the arbiter run that follows. -/
abbrev departed (p : Position) (next : TxState) (g : TxRecord → TxRecord) (s : State) : State := arbiter (leaveAir p next (s.mapTx p g))

section

variable {b s : State} {p : Position} {next : TxState} {g : TxRecord → TxRecord}

theorem out_of_onAir (coherent : s.TransmitCoherent) (on : s.onAir p = true) : p ∉ s.waiting := fun waits => by
  simp [State.onAir, (coherent.1.2 p).1 waits, TxState.onAir] at on

theorem txOf_departed (coherent : s.TransmitCoherent) (on : s.onAir p = true) :
    (departed p next g s).txOf p = (g (s.txOf p)).leave next s.policy ∧ p ∉ (departed p next g s).waiting := by
  have left : (leaveAir p next (s.mapTx p g)).txOf p = (g (s.txOf p)).leave next s.policy := by
    rw [State.txOf, leaveAir, (moved_evaluateAdvisories _).tx (by decide), tx_leaveSlot, get_put, if_pos rfl, txOf_mapTx, if_pos rfl]
    rfl
  have waiting : (leaveAir p next (s.mapTx p g)).waiting = s.waiting :=
    ((moved_evaluateAdvisories _).waiting (by decide)).trans ((moved_leaveSlot ..).waiting (by decide))
  obtain ⟨same, out⟩ := aloof_arbiter p (leaveAir p next (s.mapTx p g)) (by rw [waiting]; exact out_of_onAir coherent on)
  exact ⟨same.trans left, out⟩

theorem moved_departed : Moved airParts s (departed p next g s) :=
  (((moved_mapTx s p g).mono (by decide)).trans (moved_leaveAir p next _)).trans (moved_arbiter _)

theorem pathQuiet_leave {x : TxRecord} (off : next.onAir = false) (q : Policy) :
    (!(x.leave next q).state.onAir && (x.leave next q).tailTimer.isNone && !(x.leave next q).rf) = (decide (q.tTail = 0) && !x.rf) := by
  simp only [TxRecord.leave, off, Bool.not_false, Bool.true_and]
  split <;> simp_all

theorem noneQuieted_leaveAir_of_ne (s : State) {q : Position} (other : q ≠ p) (quiet : (departed p next g s).pathQuiet q = true) :
    s.pathQuiet q = true := by
  have before := noneQuieted_arbiter _ q quiet
  have record : (leaveAir p next (s.mapTx p g)).txOf q = s.txOf q := by
    rw [State.txOf, leaveAir, (moved_evaluateAdvisories _).tx (by decide), tx_leaveSlot, get_put, if_neg other, ← State.txOf, txOf_mapTx,
      if_neg other]
  rwa [State.pathQuiet, record] at before

theorem quietsOne_departed (coherent : s.TransmitCoherent) (on : s.onAir p = true) (off : next.onAir = false)
    (zero : s.policy.tTail = 0) (rf : (g (s.txOf p)).rf = false) : QuietsOne s (departed p next g s) p := by
  obtain ⟨record, out⟩ := txOf_departed (next := next) (g := g) coherent on
  refine ⟨by simp [State.pathQuiet, show (s.txOf p).state.onAir = true from on], ?_, fun q => noneQuieted_leaveAir_of_ne s, out⟩
  rw [State.pathQuiet, record, pathQuiet_leave off, zero, rf]
  rfl

/-- The step in which a position leaves the air: its record by the end, and what a tail of 0 comes to. -/
theorem leftAir_departed (keyed : s.AllocationKeyed) (coherent : s.TransmitCoherent) (on : s.onAir p = true) (off : next.onAir = false)
    (rf : ∀ x, (g x).rf = x.rf) :
    LeftAir next s (closeStep s (departed p next g s)) p ∧
      (closeStep s (departed p next g s)).txOf p = (g (s.txOf p)).leave next s.policy ∧
      Moved allocParts s (closeStep s (departed p next g s)) := by
  have air := moved_departed (s := s) (p := p) (next := next) (g := g)
  have ready : (departed p next g s).store.ready = s.store.ready := congrArg Store.ready (air.store (by decide))
  obtain ⟨record, out⟩ := txOf_departed (next := next) (g := g) coherent on
  have grounded : (departed p next g s).onAir p = false := by
    rw [State.onAir, record]
    exact off
  have final : (closeStep s (departed p next g s)).txOf p = (g (s.txOf p)).leave next s.policy :=
    (grounds_closeStep p ready grounded out).1.trans record
  have moved : Moved allocParts s (closeStep s (departed p next g s)) := (air.mono (by decide)).trans (moved_closeStep s _ ready)
  refine ⟨?_, final, moved⟩
  constructor
  · rw [final]; rfl
  · rw [State.inhibit, State.onAir, final]
    simp [TxRecord.leave, off]
  · rw [final]; exact ⟨rfl, rfl⟩
  · rw [final]; exact rf _
  · rw [final]
    rfl
  · intro zero sensed
    have raised : LogEvent.occurred { kind := .ungrantedRf, pos := some p, line := none, band := (s.freqOf p).band, detail := .rf .tail } ∈
        (leaveSlot p next (s.mapTx p g)).inbox := by
      rw [leaveSlot_eq, if_pos ⟨zero, by rw [txOf_mapTx, if_pos rfl, rf]; exact sensed⟩]
      exact List.mem_append_right _ (List.mem_singleton.2 rfl)
    have later : Moved allocParts (leaveSlot p next (s.mapTx p g)) (closeStep s (departed p next g s)) :=
      (((moved_evaluateAdvisories _).mono (by decide)).trans ((moved_arbiter _).mono (by decide))).trans (moved_closeStep s _ ready)
    exact later.inbox.subset raised
  · intro zero silent
    have one := quietsOne_departed coherent on off (g := g) zero ((rf _).trans silent)
    have keyed' : (departed p next g s).AllocationKeyed :=
      allocationKeyed_of_same keyed (air.table (by decide)) (air.alloc (by decide))
    refine ⟨fun x mem => ?_, quietTaken_of_air air (quietTaken_of_one keyed' ready one)⟩
    have requested := breaksRequested_of_one keyed' ready one
    exact requested x (by rw [air.alloc (by decide)]; exact mem)

end

end Sys2Proof.Machine
end

section
/-! PTT_ON and PTT_OFF (sections 5.3, 5.4 and 5.7). -/

namespace Sys2Proof.Machine

section

variable {s : State} {p : Position}

theorem exec_pttOn (powered : s.powered = true) (runs : (s.txOf p).pttTimer.isSome = true) (raw : (s.txOf p).pttRaw = true)
    (up : (s.txOf p).ptt = false) : exec (.pttOn p) s = .next (takePttOn p (s.mapTx p fun x => { x with ptt := true, pttTimer := none })) := by
  show execPttOn p s = _
  simp only [execPttOn, whilePowered, powered, runs, raw, up, Bool.not_false, Bool.and_self, if_true]

theorem exec_pttOff (powered : s.powered = true) (runs : (s.txOf p).pttTimer.isSome = true) (raw : (s.txOf p).pttRaw = false)
    (down : (s.txOf p).ptt = true) :
    exec (.pttOff p) s = .next (closeStep s (takePttOff p (s.mapTx p fun x => { x with ptt := false, pttTimer := none }))) := by
  show execPttOff p s = _
  simp only [execPttOff, wholeStep, whilePowered, powered, runs, raw, down, Bool.not_false, Bool.and_self, if_true]

/-- The OOB_PTT occurrence of a key down (R114). -/
def State.oobPtt (s : State) (p : Position) : List LogEvent :=
  if (s.freqOf p).outOfBand = true then
    [.occurred { kind := .oobPtt, pos := some p, line := s.mainLine p, band := (s.freqOf p).band, detail := .none }]
  else []

theorem raiseOobPtt_eq (p : Position) (s : State) : raiseOobPtt p s = { s with inbox := s.inbox ++ s.oobPtt p } := by
  unfold raiseOobPtt State.oobPtt
  split
  · rfl
  · rw [List.append_nil]

/-- A key down from IDLE, before the arbiter run (R95). -/
def keyedWaiter (p : Position) (s : State) : State :=
  { s with
    tx := put s.tx p { s.txOf p with ptt := true, pttTimer := none, state := .waiting, reason := none }
    waiting := s.waiting ++ [p]
    inbox := s.inbox ++ s.oobPtt p }

theorem takePttOn_of_idle (idle : (s.txOf p).state = .idle) :
    takePttOn p (s.mapTx p fun x => { x with ptt := true, pttTimer := none }) = arbiter (keyedWaiter p s) := by
  simp only [takePttOn, txOf_mapTx, if_true, idle, raiseOobPtt_eq, joinWaiting, mapTx_mapTx]
  rfl

theorem takePttOn_of_hang (hang : (s.txOf p).state = .hang) :
    takePttOn p (s.mapTx p fun x => { x with ptt := true, pttTimer := none }) = { s with
      tx := put s.tx p { s.txOf p with state := .granted, ptt := true, pttTimer := none, hangTimer := none }
      inbox := s.inbox ++ s.oobPtt p } := by
  simp only [takePttOn, txOf_mapTx, if_true, hang, raiseOobPtt_eq, mapTx_mapTx]
  rfl

theorem txOf_keyedWaiter (p : Position) (s : State) :
    (keyedWaiter p s).txOf p = { s.txOf p with ptt := true, pttTimer := none, state := .waiting, reason := none } := by
  rw [State.txOf, keyedWaiter, get_put, if_pos rfl]

theorem onAir_keyedWaiter (idle : (s.txOf p).state = .idle) : (keyedWaiter p s).onAir = s.onAir := by
  funext q
  by_cases same : q = p
  · subst same
    rw [State.onAir, State.onAir, txOf_keyedWaiter, idle]
    rfl
  · show ((put s.tx p _).get q).state.onAir = _
    rw [get_put, if_neg same]
    rfl

theorem judge_keyedWaiter (idle : (s.txOf p).state = .idle) (q : Position) : judge (keyedWaiter p s) q = judge s q :=
  judge_of_onAir (onAir_keyedWaiter idle) q

theorem nodup_keyedWaiter (coherent : s.TransmitCoherent) (idle : (s.txOf p).state = .idle) : (keyedWaiter p s).waiting.Nodup := by
  have out : p ∉ s.waiting := fun waits => by simp [(coherent.1.2 p).1 waits] at idle
  show (s.waiting ++ [p]).Nodup
  rw [List.nodup_append]
  refine ⟨coherent.1.1, List.nodup_singleton p, fun a listed b here same => out ?_⟩
  rw [List.mem_singleton.1 here] at same
  exact same ▸ listed

theorem moved_keyedWaiter : Moved airParts s (keyedWaiter p s) := by
  refine ⟨fun x kept => ?_, List.prefix_append _ _, fun q => .refl _⟩
  cases x <;> first | rfl | simp at kept

/-- PTT_ON from IDLE: the position joins the waiting set, and the arbiter run grants it or names its reason. -/
theorem pttOn_of_idle (coherent : s.TransmitCoherent) (idle : (s.txOf p).state = .idle) :
    let t := arbiter (keyedWaiter p s)
    (t.txOf p).ptt = true ∧ (t.txOf p).pttTimer = none ∧
      (((t.txOf p).state = .granted ∧ (t.txOf p).tailTimer = none ∧ p ∉ t.waiting) ∨
        ((t.txOf p).state = .waiting ∧ p ∈ t.waiting ∧ (t.txOf p).tailTimer = (s.txOf p).tailTimer ∧
          ∃ r, judge t p = some r ∧ (t.txOf p).reason = some r)) := by
  have once := nodup_keyedWaiter coherent idle
  have own := txOf_keyedWaiter p s
  obtain ⟨waits, r, record⟩ | ⟨out, r, record⟩ := arbitrates_arbiter p once (List.mem_append_right _ (List.mem_singleton.2 rfl))
  · rw [own] at record
    have reason := arbiterLeavesNoEligibleWaiter (keyedWaiter p s) once p waits
    dsimp only
    rw [record] at reason ⊢
    exact ⟨rfl, rfl, .inr ⟨rfl, waits, rfl, reason⟩⟩
  · rw [own] at record
    dsimp only
    rw [record]
    exact ⟨rfl, rfl, .inl ⟨rfl, rfl, out⟩⟩

/-- With nobody else waiting the judgment before the key down decides. -/
theorem pttOn_of_alone (idle : (s.txOf p).state = .idle) (alone : s.waiting = []) :
    (judge s p = none → ((arbiter (keyedWaiter p s)).txOf p).state = .granted) ∧
      ∀ r, judge s p = some r → ((arbiter (keyedWaiter p s)).txOf p).state = .waiting ∧
        ((arbiter (keyedWaiter p s)).txOf p).reason = some r := by
  have single : (keyedWaiter p s).waiting = [p] := by
    show s.waiting ++ [p] = [p]
    rw [alone, List.nil_append]
  rw [arbiter_of_alone single, judge_keyedWaiter idle]
  refine ⟨fun eligible => ?_, fun r held => ?_⟩
  · rw [eligible]
    show ((grant p (keyedWaiter p s)).txOf p).state = .granted
    rw [grant, State.txOf, (moved_evaluateAdvisories _).tx (by decide)]
    show (((keyedWaiter p s).mapTx p fun x => { x with state := .granted, tailTimer := none, skipHang := false }).txOf p).state = .granted
    rw [txOf_mapTx, if_pos rfl]
  · rw [held]
    show (((keyedWaiter p s).mapTx p fun x => { x with reason := some r }).txOf p).state = .waiting ∧
      (((keyedWaiter p s).mapTx p fun x => { x with reason := some r }).txOf p).reason = some r
    rw [txOf_mapTx, if_pos rfl, txOf_keyedWaiter]
    exact ⟨rfl, rfl⟩

/-- A key up that leaves the path as loud as it was is closed by the start rule alone. -/
theorem closeStep_of_keyUp {t : State} {x : TxRecord} (tx : t.tx = put s.tx p x) (moved : t.store.ready = s.store.ready)
    (loud : (!x.state.onAir && x.tailTimer.isNone && !x.rf) = true → s.pathQuiet p = true) : closeStep s t = startRule t := by
  refine closeStep_of_noneQuieted (fun q quiet => ?_) moved
  rw [State.pathQuiet, State.txOf, tx, get_put] at quiet
  split at quiet
  · next same =>
    rw [same]
    exact loud quiet
  · exact quiet

end

/-- Settles O53: PTT_ON by the arbiter run that it calls for, PTT_OFF by the record that it leaves. -/
theorem pttTaken : Obligations.PttTaken := by
  refine ⟨fun s p powered runs raw up coherent => ?_, fun s p powered runs raw down => ?_⟩
  · refine ⟨fun idle => ?_, fun hang => ?_⟩
    · refine ⟨_, by rw [exec_pttOn powered runs raw up, takePttOn_of_idle idle], moved_keyedWaiter.trans (moved_arbiter _),
        (moved_arbiter (keyedWaiter p s)).inbox, ?_⟩
      obtain ⟨ptt, timer, outcome⟩ := pttOn_of_idle coherent idle
      exact ⟨ptt, timer, outcome, fun alone => pttOn_of_alone idle alone⟩
    · rw [exec_pttOn powered runs raw up, takePttOn_of_hang hang]
      rfl
  · rw [exec_pttOff powered runs raw down]
    refine ⟨fun waiting => ?_, fun revoked => ?_, fun granted unskipped hang => ?_, fun granted skips coherent keyed => ?_⟩
    · simp only [takePttOff, txOf_mapTx, if_true, waiting, mapTx_mapTx]
      refine congrArg _ (closeStep_of_keyUp rfl rfl fun quiet => ?_)
      simpa [State.pathQuiet, waiting, TxState.onAir] using quiet
    · simp only [takePttOff, txOf_mapTx, if_true, revoked, mapTx_mapTx]
      refine congrArg _ (closeStep_of_keyUp rfl rfl fun quiet => ?_)
      simpa [State.pathQuiet, revoked, TxState.onAir] using quiet
    · have applies : (s.mapTx p fun x => { x with ptt := false, pttTimer := none }).hangApplies p = true := by
        simp only [State.hangApplies, txOf_mapTx, if_true, unskipped]
        exact decide_eq_true hang
      simp only [takePttOff, txOf_mapTx, if_true, granted, applies, mapTx_mapTx]
      refine congrArg _ (closeStep_of_keyUp rfl rfl fun quiet => ?_)
      simp [TxState.onAir] at quiet
    · have ends : (s.mapTx p fun x => { x with ptt := false, pttTimer := none }).hangApplies p = false := by
        simp only [State.hangApplies, txOf_mapTx, if_true]
        obtain skipped | zero := skips
        · rw [skipped]; rfl
        · show (_ && decide (0 < s.policy.tHang)) = false
          rw [zero, Bool.and_comm]; rfl
      have left : takePttOff p (s.mapTx p fun x => { x with ptt := false, pttTimer := none }) =
          departed p .idle (fun x => { x with ptt := false, pttTimer := none }) s := by
        simp only [takePttOff, txOf_mapTx, if_true, granted, ends, Bool.false_eq_true, if_false]
      have on : s.onAir p = true := by rw [State.onAir, granted]; rfl
      obtain ⟨leaves, record, moved⟩ := leftAir_departed (next := .idle) (g := fun x => { x with ptt := false, pttTimer := none }) keyed coherent on
        rfl fun _ => rfl
      rw [left]
      refine ⟨_, rfl, moved, leaves, ?_⟩
      rw [record]
      exact ⟨rfl, rfl, rfl⟩

end Sys2Proof.Machine
end

section
/-! Requests that hand nothing on: the reply, the make tests and the start rule are all that follows (R42, R63). -/

namespace Sys2Proof.Machine

/-! ## Records that the make tests alone change (R42) -/

theorem recordsKept_of_records {s t : State} (same : t.alloc.records = s.alloc.records) (q : Position) : s.RecordsKept t q := by
  rw [State.RecordsKept, same]
  exact List.forall₂_same.2 fun x _ => .inl rfl

theorem recordsKept_of_filter {s t : State} {q : Position}
    (same : (t.alloc.records.filter fun r => r.pos = q) = s.alloc.records.filter fun r => r.pos = q) : s.RecordsKept t q := by
  rw [State.RecordsKept, same]
  exact List.forall₂_same.2 fun x _ => .inl rfl

/-- A change of the records in place that makes or ends no BREAKING one leaves the make tests. -/
theorem mayMake_of_map {s t : State} {f : Holder → Holder} (records : t.alloc.records = s.alloc.records.map f)
    (placed : ∀ r, (f r).pos = r.pos ∧ (f r).line = r.line ∧ (f r).kind = r.kind) (breaking : ∀ r, (f r).state = .breaking ↔ r.state = .breaking)
    (safe : t.safe = s.safe) (tx : t.tx = s.tx) : t.mayMake = s.mayMake := by
  funext r
  simp only [State.mayMake, State.recordsOf, State.recordsOn, State.pathQuiet, State.txOf, safe, tx, records, List.filter_map, List.all_map,
    Function.comp_def, placed, breaking, ne_eq, decide_not]

/-- The make tests find the same after they have been made. -/
theorem mayMake_made (s : State) : s.made.mayMake = s.mayMake := by
  refine mayMake_of_map rfl (fun r => by split <;> exact ⟨rfl, rfl, rfl⟩) (fun r => ?_) rfl rfl
  split
  · next may =>
    simp only [Bool.and_eq_true, decide_eq_true_eq] at may
    simp [may.1]
  · rfl

theorem recordAt_made_made (s : State) (q : Position) (j : Line) : s.made.made.recordAt q j = s.made.recordAt q j := by
  rw [recordAt_made, recordAt_made, Option.map_map]
  refine congrFun (congrArg Option.map (funext fun r => ?_)) _
  rw [Function.comp, mayMake_made]
  by_cases may : r.state = .pending ∧ s.mayMake r = true
  · simp [may.1, may.2]
  · have out : (decide (r.state = .pending) && s.mayMake r) = false := by simpa using may
    simp [out]

theorem recordsKept_made (s : State) (q : Position) : s.RecordsKept s.made q := by
  have records : s.made.alloc.records.filter (fun r => r.pos = q) =
      (s.alloc.records.filter fun r => r.pos = q).map fun r => if r.state = .pending && s.mayMake r then { r with state := .making } else r := by
    rw [show s.made.alloc.records = s.alloc.records.map fun r => if r.state = .pending && s.mayMake r then { r with state := .making } else r from rfl,
      List.filter_map]
    congr 1
    refine List.filter_congr fun r _ => ?_
    rw [Function.comp]
    split <;> rfl
  rw [State.RecordsKept, records, List.forall₂_map_right_iff]
  refine List.forall₂_same.2 fun x _ => ?_
  split
  · next may =>
    simp only [Bool.and_eq_true, decide_eq_true_eq] at may
    exact .inr ⟨may.1, rfl⟩
  · exact .inl rfl

theorem forall₂_trans {α : Type} {R : α → α → Prop} (trans : ∀ x y z, R x y → R y z → R x z) : ∀ {xs ys zs : List α},
    List.Forall₂ R xs ys → List.Forall₂ R ys zs → List.Forall₂ R xs zs
  | _, _, _, .nil, .nil => .nil
  | _, _, _, .cons h hs, .cons g gs => .cons (trans _ _ _ h g) (forall₂_trans trans hs gs)

theorem State.RecordsKept.trans {s t u : State} {q : Position} (one : s.RecordsKept t q) (two : t.RecordsKept u q) : s.RecordsKept u q := by
  refine forall₂_trans (fun x y z first second => ?_) one two
  obtain rfl | ⟨pending, rfl⟩ := first
  · exact second
  · obtain rfl | ⟨again, -⟩ := second
    · exact .inr ⟨pending, rfl⟩
    · cases again

theorem alloc_made_congr {s t : State} (alloc : t.alloc = s.alloc) (tx : t.tx = s.tx) (safe : t.safe = s.safe) :
    t.made.alloc = s.made.alloc := by
  have may : t.mayMake = s.mayMake := by
    funext r
    simp only [State.mayMake, State.recordsOf, State.recordsOn, State.pathQuiet, State.txOf, alloc, tx, safe]
  show ({ t.alloc with records := t.alloc.records.map fun r => if r.state = .pending && t.mayMake r then { r with state := .making } else r } :
    Allocator) = _
  rw [alloc, may]
  rfl

/-! ## Standings whose re-claim line is cleared -/

theorem reclaimsHeld_of_cleared {s : State} (held : s.ReclaimsHeld) (p : Position) (k : PortKind) :
    (s.mapStanding p k fun x => { x with reclaim := none }).ReclaimsHeld := by
  intro q j l named
  rw [standing_mapStanding] at named
  split at named
  · cases named
  · exact held q j l named

theorem reclaimsHeld_of_records {s t : State} (held : s.ReclaimsHeld) (records : t.alloc.records = s.alloc.records)
    (standings : ∀ q k, t.standing q k = s.standing q k) : t.ReclaimsHeld := by
  intro q k l named
  rw [standings] at named
  rw [State.breakingOn, State.recordAt, records]
  exact held q k l named

/-! ## A request that hands nothing on -/

/-- The work of a request that has nothing to hand on but its reply. -/
structure Work.Silent (s : State) (w : Work) : Prop where
  worked : Worked (Work.start s) w
  events : w.events = []
  losses : ∀ n ∈ w.notes, n.2.isGranted = false
  freed : w.freed = []
  held : w.s.ReclaimsHeld
  switching : ∀ q, s.switching q = true → w.s.switching q = true

theorem closeRequest_of_silent {s : State} {w : Work} (silent : w.Silent s) {a : State → State} (links : ∀ u, Moved [.links] u (a u)) :
    closeRequest s a w = recompose (notifyEach w.notes (a (recompose w.s.made))).made := by
  have admitted : admitFreed w = w := admitFreed_of_freed_nil silent.freed
  obtain ⟨es, events, notes, own⟩ := closeWork_eq s w
  have none : es = [] := List.eq_nil_iff_forall_not_mem.2 fun e mem => by
    obtain ⟨q, -, on, off⟩ := own e mem
    rw [admitted, switching_made (silent.switching q on)] at off
    cases off
  rw [admitted, none, silent.events] at events
  rw [admitted] at notes
  have handed : handOn ((closeWork s w).map a) = notifyEach w.notes (a (recompose w.s.made)) := by
    have grants : ((closeWork s w).map a).grants = [] := List.filter_eq_nil_iff.2 fun n mem => by
      rw [show ((closeWork s w).map a).notes = (closeWork s w).notes from rfl, notes] at mem
      rw [silent.losses n mem]
      nofun
    have losses : ((closeWork s w).map a).losses = w.notes := by
      rw [Work.losses, show ((closeWork s w).map a).notes = (closeWork s w).notes from rfl, notes]
      exact List.filter_eq_self.2 fun n mem => by rw [silent.losses n mem]; rfl
    rw [handOn, grants, losses, show ((closeWork s w).map a).events = (closeWork s w).events from rfl, events,
      show ((closeWork s w).map a).s = a (closeWork s w).s from rfl, closeWork_s, admitted]
    rfl
  rw [closeRequest_of_held, handed]
  rw [handed]
  refine reclaimsHeld_of_alloc (s := w.s.made) ?_ (((moved_notifyEach _ _).alloc (by decide)).trans ((links _).alloc (by decide)))
  exact reclaimsHeld_of_moves (A := fun _ _ => True) silent.held (.single (.make _)) rfl

/-- A request served without anything to hand on: by the end of the step its reply has been given, and the make tests and the start rule
have followed. -/
theorem served_of_silent {s : State} {w : Work} (silent : w.Silent s) {p : Position} {f : Frame} {c : Code} {d : List Byte} :
    ∃ t, closeStep s (freeSlot p (closeRequest s (reply p f.kind c d) w)) = t ∧ Served allocParts p (f.reply c d) s t ∧ t.tx = s.tx ∧ t.alloc = w.s.made.made.alloc := by
  have links (u : State) : Moved [.links] u (reply p f.kind c d u) := moved_reply ..
  have closed := closeRequest_of_silent silent links
  have first : Moved allocParts s (recompose w.s.made) := by
    have all := moved_closeWork s w
    rw [closeWork_s, admitFreed_of_freed_nil silent.freed] at all
    exact (silent.worked.moved.mono (by decide)).trans (all.mono (by decide))
  have tx : (recompose w.s.made).tx = s.tx := silent.worked.moved.tx (by decide)
  have told : Moved [.links, .inbox] (recompose w.s.made) (notifyEach w.notes (reply p f.kind c d (recompose w.s.made))) :=
    ((links _).mono (by decide)).trans (moved_notifyEach _ _)
  have waiting : NoneQuieted s (freeSlot p (closeRequest s (reply p f.kind c d) w)) := by
    rw [closed]
    refine noneQuieted_of_tx ?_
    show (notifyEach w.notes (reply p f.kind c d (recompose w.s.made))).tx = s.tx
    rw [told.tx (by decide), tx]
  have ready : (freeSlot p (closeRequest s (reply p f.kind c d) w)).store.ready = s.store.ready := by
    rw [closed]
    show (notifyEach w.notes (reply p f.kind c d (recompose w.s.made))).store.ready = s.store.ready
    rw [told.store (by decide), first.store (by decide)]
  have made (u : State) : Moved allocParts u (recompose u.made) :=
    (((worked_makeTests (Work.start u)).moved).mono (by decide)).trans ((moved_recompose _).mono (by decide))
  have last : Moved allocParts (reply p f.kind c d (recompose w.s.made))
      (recompose (notifyEach w.notes (reply p f.kind c d (recompose w.s.made))).made) :=
    ((moved_notifyEach _ _).mono (by decide)).trans (made _)
  refine ⟨_, rfl, ?_⟩
  rw [closeStep_of_noneQuieted waiting ready, closed]
  refine ⟨served_of_moved first (silent.worked.moved.same .links (by decide)) last ((moved_startRule _).mono (by decide)), ?_, ?_⟩
  · rw [(moved_startRule _).tx (by decide)]
    show (notifyEach w.notes (reply p f.kind c d (recompose w.s.made))).tx = s.tx
    rw [told.tx (by decide), tx]
  · rw [(moved_startRule _).alloc (by decide)]
    exact alloc_made_congr (s := w.s.made) (told.alloc (by decide)) (told.tx (by decide)) (congrArg FaultLog.safe (told.log (by decide)))

end Sys2Proof.Machine
end

section
/-! A CLAIM that is taken, and the WAIT claim of an occupied line (R50, R51, R59, R63). -/

namespace Sys2Proof.Machine

/-- The work of a request with the re-claim line of a kind cleared, as an accepted CLAIM or STEP leaves it (R85). -/
abbrev Work.cleared (w : Work) (p : Position) (k : PortKind) : Work := w.mapStanding p k fun x => { x with reclaim := none }

theorem serveClaimOf_of_done {s : State} {p : Position} {f : Frame} {r : Route} {m : Manner} {w : Work} {out : ClaimOutcome}
    (claimed : claimRoute p r m (Work.start s) = (w, out)) (taken : ∀ c, out ≠ .refused c) :
    serveClaimOf p f r m s = closeRequest s (answerClaim p f out) (w.cleared p (s.portOf (s.routeOf r).line)) := by
  rw [serveClaimOf, claimed]
  cases out with
  | refused c => exact absurd rfl (taken c)
  | ok => rfl
  | queued n => rfl

/-- A CLAIM that passes its tests and is carried out (R52, R63). -/
theorem exec_claim_of_done {s : State} {p : Position} {f : Frame} {r : Route} {m : Manner} {w : Work} {out : ClaimOutcome}
    (offered : Offers s p f 1) (kind : f.kind = 0x03) (payload : f.payload = [byte r.val, byte m.code]) (ready : s.isReady = true)
    (safe : s.safe = false) (enabled : s.routeEnabled r = true) (free : s.reservedFrom (s.routeOf r).line p = false)
    (stays : s.breakingOn p (s.routeOf r).line = false) (claimed : claimRoute p r m (Work.start s) = (w, out)) (taken : ∀ c, out ≠ .refused c) :
    exec (claimCommand p m) s = .next (closeStep s (freeSlot p
      (closeRequest s (answerClaim p f out) (w.cleared p (s.portOf (s.routeOf r).line))))) := by
  rw [exec_claim_of_offers offered kind m (.inl (by rw [payload, claimManner_code])), serveClaim_of_route payload ready safe,
    (claimRefusal_eq_none_iff s p r).2 ⟨enabled, free, stays⟩, ← serveClaimOf_of_done claimed taken]

/-- Behind an entry of lower priority in an ordered list there is none that outranks it. -/
theorem lower_of_ordered {back : List WaitEntry} {e : WaitEntry} (order : back.Pairwise fun a b => a.manner = .take ∨ b.priority ≤ a.priority)
    (next : ∀ x, back.head? = some x → x.manner ≠ .take ∧ x.priority < e.priority) : ∀ x ∈ back, x.priority < e.priority := by
  cases back with
  | nil => nofun
  | cons y ys =>
    obtain ⟨wait, lower⟩ := next y rfl
    intro x mem
    obtain rfl | mem := List.mem_cons.1 mem
    · exact lower
    · exact lt_of_le_of_lt ((List.rel_of_pairwise_cons order mem).resolve_left wait) lower

theorem silent_enqueueWait {s : State} (held : s.ReclaimsHeld) (p : Position) (r : Route) (k : PortKind) :
    ((enqueueWait p r (Work.start s)).cleared p k).Silent s where
  worked := (worked_enqueueWait p r _).trans (worked_mapStanding _ _ _ _)
  events := rfl
  losses := nofun
  freed := rfl
  held := reclaimsHeld_of_cleared (reclaimsHeld_of_records (t := s.enqueued p r) held rfl fun _ _ => rfl) p k
  switching _ := id

/-- Settles O42: the entry is queued, and beside the reply only the make tests follow. -/
theorem claimWaitQueues : Obligations.ClaimWaitQueues := by
  intro s p f r offered kind payload ready safe enabled keyed ordered held l k free none busy
  have claimed := claimRoute_of_occupied (w := Work.start s) none busy .wait
  have silent := silent_enqueueWait held p r k
  obtain ⟨t, closes, served, tx, alloc⟩ := served_of_silent silent (p := p) (f := f) (c := .queued)
    (d := [byte ((enqueueWait p r (Work.start s)).s.placeIn p l)])
  have executed := exec_claim_of_done offered kind (m := .wait) payload ready safe enabled free (breakingOn_of_none none) claimed nofun
  refine ⟨t, executed.trans (congrArg _ closes), ?_⟩
  have lists (j : Line) : t.listOf j = (s.enqueued p r).listOf j := by rw [State.listOf, alloc]; rfl
  have place : t.placeIn p l = (s.enqueued p r).placeIn p l := by rw [State.placeIn, lists, ← State.placeIn]
  refine ⟨by rw [place]; exact served, fun q => ?_, by rw [State.txOf, tx]; rfl, fun j other => ?_, fun listed => ?_, fun unlisted => ?_⟩
  · have first : s.RecordsKept ((enqueueWait p r (Work.start s)).cleared p k).s q := recordsKept_of_records rfl q
    exact ((first.trans (recordsKept_made _ q)).trans (recordsKept_made _ q)).trans (recordsKept_of_records (by rw [alloc]) q)
  · rw [lists, listOf_enqueued, if_neg other]
  · rw [lists, listOf_enqueued, if_pos rfl, State.queueFor, if_pos]
    simpa using listed
  · have fresh : ((s.listOf l).any fun e => e.pos = p) = false := by simpa using unlisted
    obtain ⟨front, back, split, inserted, ahead, next⟩ := insertWait_split (newEntry p r .wait s) (s.listOf l)
    refine ⟨front, back, newEntry p r .wait s, split, ?_, rfl, rfl, rfl, rfl, ?_, ahead, fun x mem _ => ?_⟩
    · rw [lists, listOf_enqueued, if_pos rfl, State.queueFor, fresh, if_neg nofun, inserted, List.append_assoc, List.singleton_append]
    · show ((s.recordsOf p k).any fun x => x.line ≠ l) = true ↔ _
      simp [mem_recordsOf, and_assoc]
    · have order := (ordered l).2
      rw [split] at order
      exact lower_of_ordered (List.pairwise_append.1 order).2.1 next x mem

end Sys2Proof.Machine
end

section
/-! What every admission keeps, step by step, and a BREAKING record where its position waits for its line no more (R65, R66). -/

namespace Sys2Proof.Machine

section

variable {K : Line → Prop} {I : Work → Prop} {N : Line → WaitEntry → Prop}

/-- The steps of which admissions to the lines `K` are made keep a fact `I` of the work, for admissions of entries of which `N` holds. -/
structure AdmissionsKeep (K : Line → Prop) (I : Work → Prop) (N : Line → WaitEntry → Prop) : Prop where
  entries : ∀ w, I w → ∀ l, K l → ∀ e ∈ w.s.listOf l, N l e
  takes : ∀ w, I w → ∀ l e, K l → N l e → I (createRecord e.pos e.route (withdraw e.pos (w.s.portOf l) none w))
  leave : ∀ w, I w → ∀ v, I v → ∀ l e, K l → N l e → ∀ x ∈ v.s.alloc.records, x.pos = e.pos → x.kind = v.s.portOf l → x.line ≠ l →
    I (goBreaking e.pos x.line w)

variable (keep : AdmissionsKeep K I N)

include keep

theorem AdmissionsKeep.releases {l : Line} (own : K l) {e : WaitEntry} (entry : N l e) {v : Work} (from' : I v) : ∀ (xs : List Holder) {w : Work}, I w →
    (∀ x ∈ xs, x ∈ v.s.alloc.records ∧ x.pos = e.pos ∧ x.kind = v.s.portOf l ∧ x.line ≠ l) → I (xs.foldl (fun w r => goBreaking e.pos r.line w) w)
  | [], _, at', _ => at'
  | x :: xs, w, at', of => by
    obtain ⟨mem, pos, kind, line⟩ := of x List.mem_cons_self
    exact AdmissionsKeep.releases own entry from' xs (keep.leave w at' v from' l e own entry x mem pos kind line)
      fun y mem => of y (List.mem_cons_of_mem _ mem)

theorem AdmissionsKeep.admitEntry {w : Work} (at' : I w) {l : Line} (own : K l) {e : WaitEntry} (entry : N l e) : I (admitEntry l e w) := by
  have created := keep.takes w at' l e own entry
  unfold Machine.admitEntry
  dsimp only
  split
  · refine keep.releases own entry created _ created fun x mem => ?_
    obtain ⟨mem, line⟩ := List.mem_filter.1 mem
    obtain ⟨mem, pos, kind⟩ := (mem_recordsOf _ _ _ _).1 mem
    exact ⟨mem, pos, kind, by simpa using line⟩
  · exact created

theorem AdmissionsKeep.admitSame {l : Line} (own : K l) {r : Route} : ∀ (es : List WaitEntry) {w : Work}, I w → (∀ e ∈ es, N l e) →
    I (admitSame l r es w)
  | [], _, at', _ => at'
  | e :: es, w, at', entries => by
    have rest := fun x mem => entries x (List.mem_cons_of_mem e mem)
    unfold Machine.admitSame
    split
    · exact AdmissionsKeep.admitSame own es (keep.admitEntry at' own (entries e List.mem_cons_self)) rest
    · exact AdmissionsKeep.admitSame own es at' rest

theorem AdmissionsKeep.admitLine {w : Work} (at' : I w) {l : Line} (own : K l) : I (admitLine l w) := by
  have entries := keep.entries w at' l own
  unfold Machine.admitLine
  split
  · exact at'
  · next e es list =>
    rw [list] at entries
    have head := keep.admitEntry at' own (entries e List.mem_cons_self)
    have rest := fun x mem => entries x (List.mem_cons_of_mem e mem)
    split
    · dsimp only
      split
      · exact keep.admitSame own es head rest
      · exact head
    · split
      · split
        · exact keep.admitSame own _ at' entries
        · exact at'
      · exact at'

theorem AdmissionsKeep.admitAll (all : ∀ l, K l) (freed : ∀ w ls, I w → I { w with freed := ls }) : ∀ (n : Nat) {w : Work}, I w → I (admitAll n w)
  | 0, _, at' => at'
  | n + 1, w, at' => by
    unfold Machine.admitAll
    split
    · exact at'
    · exact AdmissionsKeep.admitAll all freed n (keep.admitLine (freed w _ at') (all _))

end

/-! ## A line that a position has left (R44) -/

/-- The position waits for the line no more, and a record that it still has there is BREAKING. -/
structure State.Spent (s : State) (p : Position) (l : Line) : Prop where
  out : ∀ e ∈ s.listOf l, e.pos ≠ p
  broken : ∀ h, s.recordAt p l = some h → h.state = .breaking

/-- An entry on the line of its route, of another position or on another line. -/
structure ApartFrom (b : State) (q : Position) (j l : Line) (e : WaitEntry) : Prop where
  placed : (b.routeOf e.route).line = l
  apart : e.pos = q → l ≠ j

/-- A work with the table of `b`, its record of (q, j), and no entry of `q` for `j`. -/
structure SpentWork (b : State) (q : Position) (j : Line) (w : Work) : Prop where
  table : w.s.table = b.table
  entries : ∀ l, ∀ e ∈ w.s.listOf l, ApartFrom b q j l e
  record : w.s.recordAt q j = b.recordAt q j

theorem admissionsKeep_spent {b : State} {q : Position} {j : Line} (broken : ∀ h, b.recordAt q j = some h → h.state = .breaking) :
    AdmissionsKeep (fun _ => True) (SpentWork b q j) (ApartFrom b q j) where
  entries _ at' l _ := at'.entries l
  takes v at' l e _ entry := by
    refine ⟨at'.table, fun i x mem => at'.entries i x ?_, ?_⟩
    · rw [createRecord_s, listOf_withRecord, withdraw_s, listOf_withdrawn] at mem
      split at mem
      · exact (List.mem_filter.1 mem).1
      · exact mem
    · have line : ((withdraw e.pos (v.s.portOf l) none v).s.routeOf e.route).line = l := by
        rw [routeOf_of_table (show (withdraw e.pos (v.s.portOf l) none v).s.table = b.table from at'.table)]
        exact entry.placed
      rw [createRecord_s, recordAt_withRecord, line, if_neg fun here => entry.apart here.1.symm here.2.symm, Option.or_none]
      exact at'.record
  leave v at' _ _ _ c _ _ x _ _ _ _ := by
    generalize c.pos = p, x.line = l
    refine ⟨((worked_goBreaking p l v).moved.table (by decide)).trans at'.table, fun i x mem => ?_, ?_⟩
    · rw [goBreaking_s] at mem
      have was : x.still ∈ (v.s.listOf i).map WaitEntry.still := lists_left v.s p l i ▸ List.mem_map_of_mem mem
      obtain ⟨y, mem', same⟩ := List.mem_map.1 was
      obtain ⟨pos, route, -⟩ := pos_of_still same
      exact ⟨route ▸ (at'.entries i y mem').placed, pos ▸ (at'.entries i y mem').apart⟩
    · rw [goBreaking_s, ← at'.record]
      by_cases here : q = p ∧ j = l
      · obtain ⟨rfl, rfl⟩ := here
        cases held : v.s.recordAt q j with
        | none => rw [left_of_none held, held]
        | some h => rw [left_of_breaking held (broken h (at'.record ▸ held)), held]
      · exact recordAt_left_of_ne here

/-- Admissions leave a position's record, or none, on a line that it has left. -/
theorem spent_admitFreed {w : Work} {q : Position} {j : Line} (placed : ∀ l, ∀ e ∈ w.s.listOf l, (w.s.routeOf e.route).line = l)
    (spent : w.s.Spent q j) : (admitFreed w).s.recordAt q j = w.s.recordAt q j ∧ (admitFreed w).s.Spent q j := by
  have start : SpentWork w.s q j w := ⟨rfl, fun l e mem => ⟨placed l e mem, fun pos line => spent.out e (line ▸ mem) pos⟩, rfl⟩
  obtain ⟨-, entries, record⟩ := (admissionsKeep_spent spent.broken).admitAll (fun _ => trivial) (fun _ _ at' => ⟨at'.table, at'.entries, at'.record⟩)
    (w.freed.length + w.s.alloc.records.length) start
  exact ⟨record, fun e mem pos => (entries j e mem).apart pos rfl, fun h held => spent.broken h (record ▸ held)⟩

end Sys2Proof.Machine
end

section
/-! What follows a request: the records of positions that wait for no line of a kind only go on (R42, R57, R106). -/

namespace Sys2Proof.Machine

variable {P : Position → PortKind → Line → Prop}

/-! ## Records that go on -/

/-- One thing that the events after a request may do to a record: its make test, the request of its break, its stored reroute. -/
inductive Holder.Goes : Holder → Holder → Prop where
  | make {x : Holder} : x.state = .pending → Goes x { x with state := .making }
  | ask {x : Holder} : x.state = .breaking → Goes x { x with breakRequested := true }
  | reroute {x : Holder} : x.state = .connected → Goes x x.takeReroute

abbrev Holder.Later : Holder → Holder → Prop := Relation.ReflTransGen Holder.Goes

theorem Holder.Later.placed {x y : Holder} (later : x.Later y) :
    y.pos = x.pos ∧ y.line = x.line ∧ y.kind = x.kind ∧ y.latched = x.latched := by
  induction later with
  | refl => exact ⟨rfl, rfl, rfl, rfl⟩
  | tail _ goes ih =>
    cases goes with
    | make _ => exact ih
    | ask _ => exact ih
    | reroute _ =>
      unfold Holder.takeReroute
      split <;> exact ih

theorem Holder.Later.breaking {x y : Holder} (later : x.Later y) : y.state = .breaking ↔ x.state = .breaking := by
  induction later with
  | refl => rfl
  | tail _ goes ih =>
    rw [← ih]
    cases goes with
    | make pending => simp [pending]
    | ask _ => rfl
    | reroute connected =>
      unfold Holder.takeReroute
      split <;> simp [connected]

/-- A record without a stored reroute that is not BREAKING is made, or stays. -/
theorem Holder.Later.eq_of_bare {x y : Holder} (later : x.Later y) (stands : x.state ≠ .breaking) (bare : x.reroute = none) :
    y = x ∨ (x.state = .pending ∧ y = { x with state := .making }) := by
  induction later with
  | refl => exact .inl rfl
  | tail _ goes ih =>
    have kept {z : Holder} (of : z = x ∨ (x.state = .pending ∧ z = { x with state := .making })) : z.reroute = none ∧ z.state ≠ .breaking := by
      obtain rfl | ⟨-, rfl⟩ := of
      · exact ⟨bare, stands⟩
      · exact ⟨bare, nofun⟩
    obtain ⟨bare', stands'⟩ := kept ih
    cases goes with
    | make pending =>
      obtain rfl | ⟨-, rfl⟩ := ih
      · exact .inr ⟨pending, rfl⟩
      · cases pending
    | ask breaking => exact absurd breaking stands'
    | reroute _ =>
      rw [Holder.takeReroute, bare']
      exact ih

/-- A BREAKING record stays as it is, but that its break may be requested. -/
theorem Holder.Later.of_breaking {x y : Holder} (later : x.Later y) (breaking : x.state = .breaking) :
    y = x ∨ y = { x with breakRequested := true } := by
  induction later with
  | refl => exact .inl rfl
  | tail steps goes ih =>
    have still := (Holder.Later.breaking steps).2 breaking
    cases goes with
    | make pending => rw [pending] at still; cases still
    | reroute connected => rw [connected] at still; cases still
    | ask _ =>
      right
      obtain rfl | rfl := ih <;> rfl

/-- The route that a record names in the end, its stored reroute before its own. -/
theorem Holder.Later.wanted {x y : Holder} (later : x.Later y) : y.reroute.getD y.route = x.reroute.getD x.route := by
  induction later with
  | refl => rfl
  | tail _ goes ih =>
    rw [← ih]
    cases goes with
    | make _ => rfl
    | ask _ => rfl
    | reroute _ =>
      unfold Holder.takeReroute
      split
      · next stored => rw [stored]; rfl
      · rfl

/-! ## Positions that wait for no line of a kind -/

/-- The laws under which the records of the positions, kinds and lines `P` only go on: nobody waits for such a line, and the position has
left the line, or waits for no line of the kind. -/
structure State.Settled (s : State) (P : Position → PortKind → Line → Prop) : Prop where
  keyed : s.AllocationKeyed
  held : s.ReclaimsHeld
  out : ∀ j, ∀ e ∈ s.listOf j, ¬P e.pos (s.portOf j) j
  calm : ∀ q j, P q (s.portOf j) j → (∀ h, s.recordAt q j = some h → h.state = .breaking) ∨ ∀ i, s.portOf i = s.portOf j → P q (s.portOf i) i

/-- From a settled state to the next: the laws stand, and the records of `P` have gone on. -/
structure GoesOn (P : Position → PortKind → Line → Prop) (s t : State) : Prop where
  settled : t.Settled P
  table : t.table = s.table
  standings : t.alloc.standings = s.alloc.standings
  records : ∀ q j, P q (s.portOf j) j → Option.Rel Holder.Later (s.recordAt q j) (t.recordAt q j)

/-- From a settled state on, the records of `P` only go on. -/
def Passes (P : Position → PortKind → Line → Prop) (s t : State) : Prop := s.Settled P → GoesOn P s t

theorem optionRel_refl {α : Type} {R : α → α → Prop} (refl : ∀ x, R x x) : ∀ o : Option α, Option.Rel R o o
  | none => .none
  | some x => .some (refl x)

theorem optionRel_trans {α : Type} {R : α → α → Prop} (trans : ∀ x y z, R x y → R y z → R x z) {a b c : Option α} (one : Option.Rel R a b)
    (two : Option.Rel R b c) : Option.Rel R a c := by
  cases one with
  | none => exact two
  | some first =>
    cases two with
    | some second => exact .some (trans _ _ _ first second)

theorem some_of_rel {α : Type} {R : α → α → Prop} {x : α} {o : Option α} (rel : Option.Rel R (some x) o) : ∃ y, o = some y ∧ R x y := by
  cases rel with
  | some related => exact ⟨_, rfl, related⟩

/-- Where the records of `P` have gone on the laws stand, if nobody waits who did not. -/
theorem goesOn_of_records {s t : State} (settled : s.Settled P) (keyed : t.AllocationKeyed) (held : t.ReclaimsHeld) (table : t.table = s.table)
    (standings : t.alloc.standings = s.alloc.standings) (lists : ∀ j, ∀ e ∈ t.listOf j, ∃ x ∈ s.listOf j, x.pos = e.pos)
    (records : ∀ q j, P q (s.portOf j) j → Option.Rel Holder.Later (s.recordAt q j) (t.recordAt q j)) : GoesOn P s t := by
  have port := portOf_of_table table
  refine ⟨⟨keyed, held, fun j e mem => ?_, fun q j own => ?_⟩, table, standings, records⟩
  · obtain ⟨x, was, pos⟩ := lists j e mem
    rw [port, ← pos]
    exact settled.out j x was
  · rw [port] at own
    refine (settled.calm q j own).imp (fun breaking h held => ?_) fun whole i same => ?_
    · have rel := records q j own
      rw [held] at rel
      cases was : s.recordAt q j with
      | none => rw [was] at rel; cases rel
      | some x =>
        rw [was] at rel
        obtain ⟨y, eq, later⟩ := some_of_rel rel
        cases eq
        exact later.breaking.2 (breaking x was)
    · rw [port, port] at same
      rw [port]
      exact whole i same

theorem Passes.trans {s t u : State} (one : Passes P s t) (two : Passes P t u) : Passes P s u := fun settled => by
  obtain ⟨settled', table, standings, records⟩ := one settled
  obtain ⟨settled'', table', standings', records'⟩ := two settled'
  refine ⟨settled'', table'.trans table, standings'.trans standings, fun q j own => ?_⟩
  exact optionRel_trans (fun _ _ _ => .trans) (records q j own) (records' q j (by rwa [portOf_of_table table]))

theorem passes_of_same {s t : State} (table : t.table = s.table) (alloc : t.alloc = s.alloc) : Passes P s t := fun settled => by
  refine goesOn_of_records settled (allocationKeyed_of_same settled.keyed table alloc) (reclaimsHeld_of_alloc settled.held alloc) table
    (congrArg _ alloc) (fun j e mem => ?_) fun q j _ => ?_
  · rw [listOf_of_alloc (congrArg _ alloc)] at mem
    exact ⟨e, mem, rfl⟩
  · rw [recordAt_of_alloc (congrArg _ alloc)]
    exact optionRel_refl (fun _ => .refl) _

theorem Passes.refl (s : State) : Passes P s s := passes_of_same rfl rfl

theorem passes_of_moved {ps : List Part} {s t : State} (moved : Moved ps s t) (table : Part.table ∉ ps) (alloc : Part.alloc ∉ ps) :
    Passes P s t := passes_of_same (moved.table table) (moved.alloc alloc)

/-- Moves that remove no BREAKING record, keep the lists, and let each record go on. -/
theorem passes_of_moves {s t : State} {f : Holder → Holder} (moves : s.AllocationKeyed → Moves (fun _ _ => True) False s t) (table : t.table = s.table)
    (standings : t.alloc.standings = s.alloc.standings) (lists : t.alloc.lists = s.alloc.lists)
    (records : t.alloc.records = s.alloc.records.map f) (placed : ∀ r, (f r).pos = r.pos ∧ (f r).line = r.line) (goes : ∀ r : Holder, r.Later (f r)) :
    Passes P s t := fun settled => by
  refine goesOn_of_records settled (allocationKeyed_moves (moves settled.keyed) settled.keyed)
    (reclaimsHeld_of_moves settled.held (moves settled.keyed) standings) table standings (fun j e mem => ?_) fun q j _ => ?_
  · rw [listOf_of_alloc lists] at mem
    exact ⟨e, mem, rfl⟩
  · rw [recordAt_of_map records placed]
    cases s.recordAt q j with
    | none => exact .none
    | some x => exact .some (goes x)

theorem passes_made (s : State) : Passes P s s.made := by
  refine passes_of_moves (fun _ => .single (.make _)) rfl rfl rfl rfl (fun r => by split <;> exact ⟨rfl, rfl⟩) fun r => ?_
  split
  · next may =>
    simp only [Bool.and_eq_true, decide_eq_true_eq] at may
    exact .single (.make may.1)
  · exact .refl

theorem later_quieted (s : State) (q : Position) (x : Holder) : x.Later (x.quieted s q) := by
  have asked : x.Later (x.asked q) := by
    unfold Holder.asked
    split
    · next here =>
      simp only [Bool.and_eq_true, decide_eq_true_eq] at here
      exact .single (.ask here.2)
    · exact .refl
  unfold Holder.quieted
  split
  · next may =>
    have connected : (x.asked q).state = .connected := by
      by_contra other
      rw [not_mayReroute_of_state other] at may
      cases may.2
    exact asked.tail (.reroute connected)
  · exact asked

theorem passes_quietWork {s : State} {q : Position} (quiet : s.pathQuiet q = true) : Passes P s (quietWork q s).s := fun settled => by
  have yields := yields_quietWork settled.keyed q
  exact passes_of_moves (fun keyed => moves_quietWork keyed quiet) yields.table yields.standings (lists_quietWork q s)
    (records_quietWork settled.keyed quiet) (fun r => ⟨(quieted_placed s q r).1, (quieted_placed s q r).2.1⟩) (later_quieted s q) settled

open scoped Classical in
/-- Admissions leave the records on a line that their position has left, or of a position that waits for no line of their kind; nobody joins
a list. -/
theorem admitFreed_leaves (w : Work) (keyed : w.s.AllocationKeyed) (out : ∀ j, ∀ e ∈ w.s.listOf j, ¬P e.pos (w.s.portOf j) j)
    (calm : ∀ q j, P q (w.s.portOf j) j →
      (∀ h, w.s.recordAt q j = some h → h.state = .breaking) ∨ ∀ i, w.s.portOf i = w.s.portOf j → P q (w.s.portOf i) i) :
    (∀ j, ∀ e ∈ (admitFreed w).s.listOf j, ∃ x ∈ w.s.listOf j, x.pos = e.pos) ∧
      ∀ q j, P q (w.s.portOf j) j → (admitFreed w).s.recordAt q j = w.s.recordAt q j := by
  have kinded := kinded_of_keyed keyed
  have yields := yields_admitFreed (K := fun _ => True) kinded fun _ _ => trivial
  have moves : Moves (fun _ _ => True) False w.s (admitFreed w).s := moves_admitFreed keyed (cover_true _)
  have foreign : w.s.Foreigners (fun q k => decide (∀ i, w.s.portOf i = k → P q k i)) fun _ => True := fun l _ e mem =>
    ⟨decide_eq_false fun whole => out l e mem (whole l rfl), keyed.placed l e mem⟩
  have spares := spares_admitFreed kinded (fun _ _ => trivial) foreign
  refine ⟨fun j e mem => ?_, fun q j own => ?_⟩
  · obtain ⟨x, was, same⟩ := spares.lists j e mem
    exact ⟨x, was, (pos_of_still same).1⟩
  · obtain breaking | whole := calm q j own
    · exact (spent_admitFreed keyed.placed ⟨fun e mem pos => out j e mem (pos ▸ own), breaking⟩).1
    · exact recordAt_of_those spares.records keyed (allocationKeyed_moves moves keyed) yields.table
        (decide_eq_true fun i port => port ▸ whole i port)

theorem passes_admitFreed (w : Work) : Passes P w.s (admitFreed w).s := fun settled => by
  have yields := yields_admitFreed (K := fun _ => True) (kinded_of_keyed settled.keyed) fun _ _ => trivial
  have moves : Moves (fun _ _ => True) False w.s (admitFreed w).s := moves_admitFreed settled.keyed (cover_true _)
  obtain ⟨lists, records⟩ := admitFreed_leaves w settled.keyed settled.out settled.calm
  refine goesOn_of_records settled (allocationKeyed_moves moves settled.keyed) (reclaimsHeld_of_moves settled.held moves yields.standings)
    yields.table yields.standings lists fun q j own => ?_
  rw [records q j own]
  exact optionRel_refl (fun _ => .refl) _

/-- One position and one kind. -/
abbrev only (p : Position) (k : PortKind) : Position → PortKind → Line → Prop := fun q j _ => q = p ∧ j = k

/-- The lines that one position has left. -/
abbrev spentOn (p : Position) (L : Line → Prop) : Position → PortKind → Line → Prop := fun q _ l => q = p ∧ L l

/-- Nobody: the laws and the standings alone. -/
abbrev nobody : Position → PortKind → Line → Prop := fun _ _ _ => False

theorem settled_only {s : State} {p : Position} {k : PortKind} (keyed : s.AllocationKeyed) (held : s.ReclaimsHeld)
    (out : ∀ j, s.portOf j = k → ∀ e ∈ s.listOf j, e.pos ≠ p) : s.Settled (only p k) :=
  ⟨keyed, held, fun j e mem own => out j own.2 e mem own.1, fun _ _ own => .inr fun _ same => ⟨own.1, same.trans own.2⟩⟩

theorem settled_nobody {s : State} (keyed : s.AllocationKeyed) (held : s.ReclaimsHeld) : s.Settled nobody :=
  ⟨keyed, held, fun _ _ _ => id, nofun⟩

theorem settled_spent {s : State} {p : Position} {L : Line → Prop} (keyed : s.AllocationKeyed) (held : s.ReclaimsHeld)
    (spent : ∀ j, L j → s.Spent p j) : s.Settled (spentOn p L) :=
  ⟨keyed, held, fun j e mem own => (spent j own.2).out e mem own.1, fun q j own => .inl (own.1 ▸ (spent j own.2).broken)⟩

theorem State.Settled.apart {s : State} {p : Position} {k : PortKind} (settled : s.Settled (only p k)) :
    ∀ j, s.portOf j = k → ∀ e ∈ s.listOf j, e.pos ≠ p := fun j port e mem pos => settled.out j e mem ⟨pos, port⟩

theorem GoesOn.own {s t : State} {p : Position} {k : PortKind} (goes : GoesOn (only p k) s t) (j : Line) (port : s.portOf j = k) :
    Option.Rel Holder.Later (s.recordAt p j) (t.recordAt p j) := goes.records p j ⟨rfl, port⟩

/-! ## Events -/

theorem passes_recompose (s : State) : Passes P s (recompose s) := passes_of_same rfl rfl

theorem passes_freeSlot (q : Position) (s : State) : Passes P s (freeSlot q s) := passes_of_same rfl rfl

theorem passes_handOn (w : Work) : Passes P w.s (handOn w) := passes_of_moved (moved_handOn w) (by decide) (by decide)

theorem passes_closed (b : State) (w : Work) : Passes P (admitFreed w).s (closeWork b w).s := by
  rw [closeWork_s]
  exact (passes_made _).trans (passes_recompose _)

theorem passes_closeWork (b : State) (w : Work) : Passes P w.s (closeWork b w).s := (passes_admitFreed w).trans (passes_closed b w)

theorem passes_allocPathQuiet {s : State} {q : Position} (quiet : s.pathQuiet q = true) : Passes P s (allocPathQuiet q s) := fun settled => by
  have one := ((passes_quietWork quiet).trans (passes_admitFreed (quietWork q s)) settled)
  have rest : Passes P (admitFreed (quietWork q s)).s (allocPathQuiet q s) := by
    rw [allocPathQuiet, allocEvent, reclaims_of_held one.settled.held]
    exact (passes_closeWork s _).trans (passes_handOn _)
  exact ((passes_quietWork quiet).trans (passes_admitFreed (quietWork q s))).trans rest settled

theorem passes_pathQuietEvent {s : State} {q : Position} (quiet : s.pathQuiet q = true) : Passes P s (pathQuietEvent q s) :=
  (passes_allocPathQuiet quiet).trans (passes_of_moved (moved_filterMove q _) (by decide) (by decide))

theorem passes_quietEvents (b : State) : ∀ (n : Nat) (d : List Position) (s : State), Passes P s (quietEvents b n d s)
  | 0, _, s => .refl s
  | n + 1, d, s => by
    unfold quietEvents
    split
    · next q found =>
      have spec := List.find?_some found
      simp only [Bool.and_eq_true] at spec
      exact (passes_pathQuietEvent spec.2).trans (passes_quietEvents b n _ _)
    · exact .refl s

theorem passes_closeStep {b s : State} (ready : s.store.ready = b.store.ready) : Passes P s (closeStep b s) := by
  rw [closeStep, watchPin_same b s ready]
  exact (passes_quietEvents b _ _ _).trans (passes_of_moved (moved_startRule _) (by decide) (by decide))

/-- The close of a request, from its admissions to the reply and the make tests that follow it. -/
theorem passes_closeRequest (b : State) {a : State → State} (links : ∀ u, Moved [.links] u (a u)) (w : Work) :
    Passes P (admitFreed w).s (closeRequest b a w) := fun settled => by
  have answered : Passes P (admitFreed w).s (handOn ((closeWork b w).map a)) :=
    ((passes_closed b w).trans (passes_of_moved (links _) (by decide) (by decide))).trans (passes_handOn ((closeWork b w).map a))
  have rest : Passes P (handOn ((closeWork b w).map a)) (closeRequest b a w) := by
    rw [closeRequest_of_held (answered settled).settled.held]
    exact (passes_made _).trans (passes_recompose _)
  exact answered.trans rest settled

theorem ready_closeRequest {s : State} {w : Work} (worked : Worked (Work.start s) w) {p : Position} {f : Frame} {c : Code} {d : List Byte} :
    (freeSlot p (closeRequest s (reply p f.kind c d) w)).store.ready = s.store.ready := by
  have links : Moved [.links] (closeWork s w).s (reply p f.kind c d (closeWork s w).s) := moved_reply ..
  have first : Moved allocParts s (closeWork s w).s := (worked.moved.mono (by decide)).trans ((moved_closeWork s w).mono (by decide))
  have last : Moved allocParts (reply p f.kind c d (closeWork s w).s) (closeRequest s (reply p f.kind c d) w) :=
    ((moved_handOn ((closeWork s w).map (reply p f.kind c d))).mono (by decide)).trans (moved_allocEvent id (fun w => .refl w) _)
  show (closeRequest s (reply p f.kind c d) w).store.ready = _
  rw [last.store (by decide), links.store (by decide), first.store (by decide)]

/-- A request served: the reply has been given before anything else, and from its work on the position's records of the kind have gone on. -/
theorem served_of_work {s : State} {w : Work} (worked : Worked (Work.start s) w) {p : Position} {f : Frame} {c : Code} {d : List Byte} :
    Served allocParts p (f.reply c d) s (closeStep s (freeSlot p (closeRequest s (reply p f.kind c d) w))) ∧
      (∀ P, Passes P (admitFreed w).s (closeStep s (freeSlot p (closeRequest s (reply p f.kind c d) w)))) ∧
      ∀ P, Passes P w.s (closeStep s (freeSlot p (closeRequest s (reply p f.kind c d) w))) := by
  have links (u : State) : Moved [.links] u (reply p f.kind c d u) := moved_reply ..
  have first : Moved allocParts s (closeWork s w).s := (worked.moved.mono (by decide)).trans ((moved_closeWork s w).mono (by decide))
  have last : Moved allocParts (reply p f.kind c d (closeWork s w).s) (closeRequest s (reply p f.kind c d) w) :=
    ((moved_handOn ((closeWork s w).map (reply p f.kind c d))).mono (by decide)).trans (moved_allocEvent id (fun w => .refl w) _)
  have ready := ready_closeRequest worked (p := p) (f := f) (c := c) (d := d)
  have admitted (P) : Passes P (admitFreed w).s (closeStep s (freeSlot p (closeRequest s (reply p f.kind c d) w))) :=
    ((passes_closeRequest s links w).trans (passes_freeSlot p _)).trans (passes_closeStep ready)
  refine ⟨served_of_moved first ?_ last (moved_closeStep s _ ready), admitted, fun P => (passes_admitFreed w).trans (admitted P)⟩
  · exact ((moved_closeWork s w).same .links (by decide)).trans (worked.moved.same .links (by decide))

end Sys2Proof.Machine
end

section
/-! Records that leave their lines, and the record of a line assigned, each where it stands (R44, R45, R58). -/

namespace Sys2Proof.Machine

/-! ## Leaving (R44, R45) -/

/-- What is left of a record that leaves its line. -/
def Holder.leaving (s : State) (h : Holder) : Option Holder :=
  if h.state = .breaking then some h
  else if h.state = .pending ∨ neverClosed h s = true then none
  else some { h with state := .breaking, reroute := none, breakRequested := s.pathQuiet h.pos }

theorem recordAt_left (s : State) (p : Position) (l : Line) : (s.left p l).recordAt p l = (s.recordAt p l).bind (Holder.leaving s) := by
  cases held : s.recordAt p l with
  | none => rw [left_of_none held, held]; rfl
  | some h =>
    obtain ⟨-, rfl, -⟩ := mem_of_recordAt held
    rw [Option.bind_some, Holder.leaving]
    by_cases breaking : h.state = .breaking
    · rw [left_of_breaking held breaking, held, if_pos breaking]
    · rw [if_neg breaking]
      by_cases gone : h.state = .pending ∨ neverClosed h s = true
      · rw [left_of_gone held breaking gone, recordAt_without, if_pos ⟨rfl, rfl⟩, if_pos gone]
      · rw [left_of_closed held breaking gone, recordAt_broken, if_pos ⟨rfl, rfl⟩, if_neg gone, held]
        rfl

theorem leaving_leaving (s : State) (h : Holder) : (Holder.leaving s h).bind (Holder.leaving s) = Holder.leaving s h := by
  unfold Holder.leaving
  split
  · next breaking => simp [breaking]
  · split
    · rfl
    · simp

theorem leaving_breaking {s : State} {h x : Holder} (left : Holder.leaving s h = some x) :
    x.state = .breaking ∧ x.pos = h.pos ∧ x.line = h.line ∧ x.kind = h.kind := by
  unfold Holder.leaving at left
  split at left
  · next breaking => cases left; exact ⟨breaking, rfl, rfl, rfl⟩
  · split at left
    · cases left
    · cases left; exact ⟨rfl, rfl, rfl, rfl⟩

theorem leaving_congr {s t : State} (chain : t.chain = s.chain) (tx : t.tx = s.tx) : Holder.leaving t = Holder.leaving s := by
  funext h
  rw [Holder.leaving, Holder.leaving, neverClosed_of_chain chain, State.pathQuiet, State.txOf, tx]
  rfl

/-- Releases of records of `p`, one after another. -/
abbrev Work.releases (p : Position) (xs : List Holder) (w : Work) : Work := xs.foldl (fun w r => goBreaking p r.line w) w

theorem recordAt_releases (p : Position) : ∀ (xs : List Holder) (w : Work) (q : Position) (j : Line),
    (w.releases p xs).s.recordAt q j =
      if q = p ∧ ∃ x ∈ xs, x.line = j then (w.s.recordAt q j).bind (Holder.leaving w.s) else w.s.recordAt q j
  | [], w, q, j => by simp
  | x :: xs, w, q, j => by
    have worked := (worked_goBreaking p x.line w).moved
    have same := leaving_congr (worked.chain (by decide)) (worked.tx (by decide))
    have first : (goBreaking p x.line w).s.recordAt q j =
        if q = p ∧ x.line = j then (w.s.recordAt q j).bind (Holder.leaving w.s) else w.s.recordAt q j := by
      rw [goBreaking_s]
      split
      · next here =>
        obtain ⟨rfl, rfl⟩ := here
        exact recordAt_left _ _ _
      · next other => exact recordAt_left_of_ne fun here => other ⟨here.1, here.2.symm⟩
    rw [Work.releases, List.foldl_cons, ← Work.releases, recordAt_releases p xs, same, first]
    by_cases own : q = p
    · subst own
      by_cases here : x.line = j
      · simp only [here, true_and, List.mem_cons, exists_eq_or_imp, true_or, if_true, Option.bind_assoc, leaving_leaving, ite_self]
      · simp only [here, true_and, List.mem_cons, exists_eq_or_imp, false_or, if_false]
    · simp only [own, false_and, if_false]

theorem worked_releases (p : Position) (xs : List Holder) (w : Work) : Worked w (w.releases p xs) :=
  Worked.foldl _ (fun w x => worked_goBreaking p x.line w) xs w

theorem still_releases (p : Position) : ∀ (xs : List Holder) (w : Work) (j : Line),
    ((w.releases p xs).s.listOf j).map WaitEntry.still = (w.s.listOf j).map WaitEntry.still
  | [], _, _ => rfl
  | x :: xs, w, j => by
    rw [Work.releases, List.foldl_cons, ← Work.releases, still_releases p xs, goBreaking_s, lists_left]

/-- A position with no entry in a list has none there after its releases. -/
theorem out_releases {p : Position} {xs : List Holder} {w : Work} {q : Position} {j : Line} (out : ∀ e ∈ w.s.listOf j, e.pos ≠ q) :
    ∀ e ∈ (w.releases p xs).s.listOf j, e.pos ≠ q := fun e mem => by
  have : e.still ∈ (w.s.listOf j).map WaitEntry.still := still_releases p xs w j ▸ List.mem_map_of_mem mem
  obtain ⟨x, was, same⟩ := List.mem_map.1 this
  rw [← (pos_of_still same).1]
  exact out x was

/-! ## Assignment (R58) -/

section

variable {w : Work} {p : Position} {r : Route}

/-- The records of the kind on other lines that an assignment releases. -/
abbrev Work.others (w : Work) (p : Position) (r : Route) : List Holder :=
  (w.s.recordsOf p (w.s.portOf (w.s.routeOf r).line)).filter fun x => x.line ≠ (w.s.routeOf r).line

/-- The work of an assignment before the new record. -/
abbrev Work.vacated (w : Work) (p : Position) (r : Route) : Work :=
  (withdraw p (w.s.portOf (w.s.routeOf r).line) none w).releases p (w.others p r)

theorem assign_eq : assign p r w = createRecord p r (w.vacated p r) := rfl

theorem table_vacated : (w.vacated p r).s.table = w.s.table := (worked_releases p _ _).moved.table (by decide)

theorem recordAt_vacated (q : Position) (j : Line) : (w.vacated p r).s.recordAt q j =
    if q = p ∧ ∃ x ∈ w.others p r, x.line = j then (w.s.recordAt q j).bind (Holder.leaving w.s) else w.s.recordAt q j := by
  rw [recordAt_releases]
  rfl

theorem recordAt_assign (none : w.s.recordAt p (w.s.routeOf r).line = none) (q : Position) (j : Line) :
    (assign p r w).s.recordAt q j = if q = p ∧ j = (w.s.routeOf r).line then some (w.s.newRecord p r) else (w.vacated p r).s.recordAt q j := by
  have table := table_vacated (w := w) (p := p) (r := r)
  have fresh : (w.vacated p r).s.newRecord p r = w.s.newRecord p r := by
    rw [State.newRecord, routeOf_of_table table, portOf_of_table table]
    rfl
  rw [assign_eq, createRecord_s, recordAt_withRecord, routeOf_of_table table, fresh]
  split
  · next here =>
    obtain ⟨rfl, rfl⟩ := here
    rw [recordAt_vacated, none, Option.bind_none, ite_self]
    rfl
  · rw [Option.or_none]

theorem others_recordAt (keyed : w.s.AllocationKeyed) {x : Holder} (mem : x ∈ w.s.alloc.records) (pos : x.pos = p)
    (kind : x.kind = w.s.portOf (w.s.routeOf r).line) (line : x.line ≠ (w.s.routeOf r).line) : x ∈ w.others p r :=
  List.mem_filter.2 ⟨(mem_recordsOf _ _ _ _).2 ⟨mem, pos, kind⟩, by simpa using line⟩

theorem keyed_assign (keyed : w.s.AllocationKeyed) (none : w.s.recordAt p (w.s.routeOf r).line = none)
    (had : w.s.canBeHad (w.s.routeOf r).line r = true) : (assign p r w).s.AllocationKeyed :=
  allocationKeyed_moves (moves_assign (A := fun _ _ => True) (B := False) keyed trivial none (roomy_of_canBeHad had)) keyed

/-- After an assignment the position's other records of the kind are leaving. -/
theorem breaking_assign (keyed : w.s.AllocationKeyed) (none : w.s.recordAt p (w.s.routeOf r).line = none)
    (had : w.s.canBeHad (w.s.routeOf r).line r = true) {j : Line} {x : Holder} (port : w.s.portOf j = w.s.portOf (w.s.routeOf r).line)
    (other : j ≠ (w.s.routeOf r).line) (held : (assign p r w).s.recordAt p j = some x) : x.state = .breaking := by
  rw [recordAt_assign none, if_neg fun here => other here.2, recordAt_vacated] at held
  split at held
  · cases was : w.s.recordAt p j with
    | none => rw [was] at held; cases held
    | some y =>
      rw [was] at held
      exact (leaving_breaking held).1
  · next stays =>
    obtain ⟨mem, pos, line⟩ := mem_of_recordAt held
    refine absurd ⟨rfl, x, others_recordAt keyed mem pos ?_ (line ▸ other), line⟩ stays
    rw [(keyed.routed x mem).2.1, line, port]

theorem settled_assign (keyed : w.s.AllocationKeyed) (held : w.s.ReclaimsHeld) (none : w.s.recordAt p (w.s.routeOf r).line = none)
    (had : w.s.canBeHad (w.s.routeOf r).line r = true) : (assign p r w).s.Settled (only p (w.s.portOf (w.s.routeOf r).line)) := by
  have moves : Moves (fun _ _ => True) False w.s (assign p r w).s := moves_assign keyed trivial none (roomy_of_canBeHad had)
  have yields : Yields (fun _ => True) w (assign p r w) := yields_assign (kinded_of_keyed keyed) p trivial
  refine settled_only (allocationKeyed_moves moves keyed) (reclaimsHeld_of_moves held moves yields.standings) fun j port e mem => ?_
  rw [portOf_of_table yields.table] at port
  rw [assign_eq] at mem
  refine out_releases (w := withdraw p (w.s.portOf (w.s.routeOf r).line) .none w) (fun e mem => ?_) e mem
  exact withdrawn_apart w.s p port e mem

end

end Sys2Proof.Machine
end

section
/-! A CLAIM of a line that can be had (R55, R58, R63). -/

namespace Sys2Proof.Machine

theorem canBeHad_iff {s : State} {l : Line} {r : Route} : s.canBeHad l r = true ↔
    s.recordsOn l = [] ∨ (s.portOf l = .aux ∧ (∀ x ∈ s.recordsOn l, x.route = r) ∧ (s.recordsOn l).length < (s.lineOf l).ports ∧
      ∀ e ∈ s.listOf l, e.manner ≠ .take) := by
  have take : (!hasTake (s.listOf l)) = true ↔ ∀ e ∈ s.listOf l, e.manner ≠ .take := by simp [hasTake]
  simp only [State.canBeHad, Bool.or_eq_true, Bool.and_eq_true, decide_eq_true_eq, take, List.isEmpty_iff, and_assoc]
  by_cases empty : s.recordsOn l = []
  · simp [empty]
  · simp only [empty, false_or]
    refine and_congr_right fun _ => and_congr_left fun _ => ?_
    unfold State.namedRoute
    cases on : s.recordsOn l with
    | nil => exact absurd on empty
    | cons x xs =>
      dsimp only
      split
      · next all =>
        simp only [List.all_eq_true, decide_eq_true_eq] at all
        constructor
        · rintro named y mem
          cases named
          obtain rfl | mem := List.mem_cons.1 mem
          · rfl
          · exact all y mem
        · exact fun named => congrArg some (named x List.mem_cons_self)
      · next some' =>
        refine iff_of_false nofun fun named => some' ?_
        simp only [List.all_eq_true, decide_eq_true_eq]
        intro y mem
        rw [named y (List.mem_cons_of_mem _ mem), named x List.mem_cons_self]

section

variable {s : State} {p : Position} {r : Route}

/-- The work of a CLAIM that assigns a line, before its close. -/
abbrev assigned (p : Position) (r : Route) (s : State) : Work :=
  (admitFreed (assign p r (Work.start s))).cleared p (s.portOf (s.routeOf r).line)

theorem worked_assigned : Worked (Work.start s) (assigned p r s) :=
  ((worked_assign p r _).trans (worked_admitFreed _)).trans (worked_mapStanding _ _ _ _)

theorem passes_assigned (P : Position → PortKind → Line → Prop) : Passes P (assign p r (Work.start s)).s (admitFreed (assign p r (Work.start s))).s :=
  passes_admitFreed _

theorem recordAt_cleared (w : Work) (p q : Position) (k : PortKind) (j : Line) : (w.cleared p k).s.recordAt q j = w.s.recordAt q j := rfl

theorem settled_cleared {P : Position → PortKind → Line → Prop} {w : Work} {q : Position} {j : PortKind} (settled : w.s.Settled P) :
    (w.cleared q j).s.Settled P := by
  refine ⟨?_, reclaimsHeld_of_cleared settled.held q j, settled.out, settled.calm⟩
  obtain ⟨records, routed, stored, lists, placed, oneList, apart⟩ := settled.keyed
  exact ⟨records, routed, stored, lists, placed, oneList, apart⟩

/-- Where a position has no record of the kind, an assignment releases nothing. -/
theorem assign_of_alone (alone : ∀ x ∈ s.alloc.records, x.pos = p → x.kind ≠ s.portOf (s.routeOf r).line) :
    assign p r (Work.start s) = createRecord p r (withdraw p (s.portOf (s.routeOf r).line) none (Work.start s)) := by
  have nobody : (Work.start s).others p r = [] := List.filter_eq_nil_iff.2 fun x mem => by
    obtain ⟨stands, pos, kind⟩ := (mem_recordsOf _ _ _ _).1 mem
    exact absurd kind (alone x stands pos)
  rw [assign_eq, Work.vacated, nobody]
  rfl

/-- The state in which a position without a record of the kind has been assigned a line. -/
abbrev newcomer (p : Position) (r : Route) (s : State) : State :=
  (s.withdrawn p (s.portOf (s.routeOf r).line) none).withRecord p r

theorem assigned_of_alone (alone : ∀ x ∈ s.alloc.records, x.pos = p → x.kind ≠ s.portOf (s.routeOf r).line) :
    assigned p r s = { Work.start s with s := (newcomer p r s).mapStanding p (s.portOf (s.routeOf r).line) fun x => { x with reclaim := none } } := by
  rw [assigned, assign_of_alone alone, admitFreed_of_freed_nil rfl]
  rfl

theorem silent_assigned (held : s.ReclaimsHeld) (alone : ∀ x ∈ s.alloc.records, x.pos = p → x.kind ≠ s.portOf (s.routeOf r).line)
    (keyed : s.AllocationKeyed) (none : s.recordAt p (s.routeOf r).line = none) (had : s.canBeHad (s.routeOf r).line r = true) :
    (assigned p r s).Silent s := by
  have settled := settled_assign (w := Work.start s) keyed held none had
  have eq := assigned_of_alone alone
  have assigned' : (assigned p r s).s = ((assign p r (Work.start s)).cleared p (s.portOf (s.routeOf r).line)).s := by
    rw [eq, assign_of_alone alone]
    rfl
  refine ⟨worked_assigned, by rw [eq]; rfl, by rw [eq]; nofun, by rw [eq]; rfl, ?_, fun q on => ?_⟩
  · rw [assigned']
    exact (settled_cleared settled).held
  · obtain ⟨x, mem, switches⟩ := (switching_iff _ _).1 on
    refine (switching_iff _ _).2 ⟨x, ?_, switches⟩
    rw [eq]
    exact List.mem_append_left _ mem

/-- The make test of the new record. -/
theorem mayMake_newcomer (safe : s.safe = false) (alone : ∀ x ∈ s.alloc.records, x.pos = p → x.kind ≠ s.portOf (s.routeOf r).line)
    (none : s.recordAt p (s.routeOf r).line = none) :
    (newcomer p r s).mayMake (s.newRecord p r) = true ↔ s.pathQuiet p = true ∧ ∀ x ∈ s.recordsOn (s.routeOf r).line, x.state ≠ .breaking := by
  have records : (newcomer p r s).alloc.records = s.alloc.records ++ [s.newRecord p r] := rfl
  have own : ∀ x ∈ (newcomer p r s).recordsOf p (s.portOf (s.routeOf r).line), x.line = (s.routeOf r).line := fun x mem => by
    rw [mem_recordsOf, records, List.mem_append, List.mem_singleton] at mem
    obtain ⟨stands | rfl, pos, kind⟩ := mem
    · exact absurd kind (alone x stands pos)
    · rfl
  have others : (∀ x ∈ (newcomer p r s).recordsOn (s.routeOf r).line, x.pos = p ∨ x.state ≠ .breaking) ↔
      ∀ x ∈ s.recordsOn (s.routeOf r).line, x.state ≠ .breaking := by
    simp only [mem_recordsOn, records, List.mem_append, List.mem_singleton]
    constructor
    · rintro all x ⟨mem, line⟩
      refine (all x ⟨.inl mem, line⟩).resolve_left fun pos => ?_
      exact (recordAt_eq_none_iff s p _).1 none x mem pos line
    · rintro all x ⟨mem | rfl, line⟩
      · exact .inr (all x ⟨mem, line⟩)
      · exact .inl rfl
  have safe' : (newcomer p r s).safe = false := safe
  have quiet : (newcomer p r s).pathQuiet p = s.pathQuiet p := rfl
  simp only [State.mayMake, safe', Bool.not_false, Bool.true_and, Bool.and_eq_true, List.all_eq_true, decide_eq_true_eq, Bool.or_eq_true,
    show (s.newRecord p r).pos = p from rfl, show (s.newRecord p r).kind = s.portOf (s.routeOf r).line from rfl,
    show (s.newRecord p r).line = (s.routeOf r).line from rfl, quiet, others]
  exact ⟨fun ⟨⟨_, all⟩, quiet⟩ => ⟨quiet, all⟩, fun ⟨quiet, all⟩ => ⟨⟨own, all⟩, quiet⟩⟩

/-- An assignment through the close of its request: the position's records of the kind go on from those that it leaves. -/
theorem served_assigned (keyed : s.AllocationKeyed) (held : s.ReclaimsHeld) (none : s.recordAt p (s.routeOf r).line = none)
    (had : s.canBeHad (s.routeOf r).line r = true) (f : Frame) :
    ∃ t, closeStep s (freeSlot p (closeRequest s (reply p f.kind .ok []) (assigned p r s))) = t ∧ Served allocParts p (f.reply .ok []) s t ∧
      t.Settled (only p (s.portOf (s.routeOf r).line)) ∧ t.table = s.table ∧ ∀ j, s.portOf j = s.portOf (s.routeOf r).line →
        Option.Rel Holder.Later ((assign p r (Work.start s)).s.recordAt p j) (t.recordAt p j) := by
  have settled := settled_assign (w := Work.start s) keyed held none had
  obtain ⟨settled', -, -, records⟩ := passes_assigned _ settled
  obtain ⟨served, -, passes⟩ := served_of_work (worked_assigned (s := s) (p := p) (r := r)) (p := p) (f := f) (c := .ok) (d := [])
  have table : (assigned p r s).s.table = s.table := worked_assigned.moved.table (by decide)
  obtain ⟨final, last, -, records'⟩ := passes _ (settled_cleared settled')
  refine ⟨_, rfl, served, final, last.trans table, fun j port => ?_⟩
  have one := records p j ⟨rfl, by rw [portOf_of_table ((worked_assign p r (Work.start s)).moved.table (by decide))]; exact port⟩
  have two := records' p j ⟨rfl, by rw [portOf_of_table table]; exact port⟩
  rw [recordAt_cleared] at two
  exact optionRel_trans (fun _ _ _ => .trans) one two

/-- Where the position had no record of the kind, the make tests are all that follows the assignment. -/
theorem alone_assigned (keyed : s.AllocationKeyed) (held : s.ReclaimsHeld) (safe : s.safe = false)
    (none : s.recordAt p (s.routeOf r).line = none) (had : s.canBeHad (s.routeOf r).line r = true)
    (alone : ∀ x ∈ s.alloc.records, x.pos = p → x.kind ≠ s.portOf (s.routeOf r).line) {f : Frame} {t : State}
    (closes : closeStep s (freeSlot p (closeRequest s (reply p f.kind .ok []) (assigned p r s))) = t) :
    (∀ h, t.recordAt p (s.routeOf r).line = some h →
      (h.state = .making ↔ s.pathQuiet p = true ∧ ∀ x ∈ s.recordsOn (s.routeOf r).line, x.state ≠ .breaking)) ∧
    (∀ q, q ≠ p → s.RecordsKept t q) ∧
    ∀ j, t.listOf j = if s.portOf j = s.portOf (s.routeOf r).line then (s.listOf j).filter (fun e => e.pos ≠ p) else s.listOf j := by
  have silent := silent_assigned held alone keyed none had
  obtain ⟨t', closes', -, -, alloc⟩ := served_of_silent silent (p := p) (f := f) (c := .ok) (d := [])
  obtain rfl := closes.symm.trans closes'
  have work : (assigned p r s).s.alloc.records = (newcomer p r s).alloc.records := by rw [assigned_of_alone alone]; rfl
  have lists : (assigned p r s).s.alloc.lists = (newcomer p r s).alloc.lists := by rw [assigned_of_alone alone]; rfl
  have may : (assigned p r s).s.mayMake = (newcomer p r s).mayMake := by rw [assigned_of_alone alone]; rfl
  refine ⟨fun h at' => ?_, fun q other => ?_, fun j => ?_⟩
  · have fresh : (assigned p r s).s.recordAt p (s.routeOf r).line = some (s.newRecord p r) := by
      rw [recordAt_of_alloc work, newcomer, recordAt_withRecord]
      have before : (s.withdrawn p (s.portOf (s.routeOf r).line) .none).recordAt p (s.routeOf r).line = .none := none
      rw [before, Option.none_or, if_pos ⟨rfl, rfl⟩]
      rfl
    rw [recordAt_of_alloc (congrArg _ alloc), recordAt_made_made, recordAt_made, fresh, Option.map_some, may] at at'
    rw [← mayMake_newcomer safe alone none, ← Option.some.inj at']
    cases test : (newcomer p r s).mayMake (s.newRecord p r) <;> simp [State.newRecord]
  · have first : s.RecordsKept (assigned p r s).s q := recordsKept_of_filter (by
      rw [work, newcomer, records_withRecord, List.filter_append]
      have out : List.filter (fun x : Holder => decide (x.pos = q)) [(s.withdrawn p (s.portOf (s.routeOf r).line) .none).newRecord p r] = [] := by
        simp [State.newRecord, Ne.symm other]
      rw [out, List.append_nil]
      rfl)
    exact ((first.trans (recordsKept_made _ q)).trans (recordsKept_made _ q)).trans (recordsKept_of_records (by rw [alloc]) q)
  · have same : t.alloc.lists = (newcomer p r s).alloc.lists := by rw [alloc]; exact lists
    rw [listOf_of_alloc same]
    show (s.withdrawn p _ .none).listOf j = _
    rw [listOf_withdrawn]
    simp

end

/-- Settles O39: the new record and the releases before the close, and what the close lets go on. -/
theorem claimAssignsLine : Obligations.ClaimAssignsLine := by
  intro s p f r m offered kind payload ready safe enabled keyed held l k free none had
  have had' : s.canBeHad l r = true := canBeHad_iff.2 had
  have executed := exec_claim_of_done offered kind payload ready safe enabled free (breakingOn_of_none none)
    (claimRoute_of_free (w := Work.start s) none had' m) nofun
  obtain ⟨t, closes, served, settled, table, records⟩ := served_assigned keyed held none had' f
  have fresh : (assign p r (Work.start s)).s.recordAt p l = some (s.newRecord p r) := by
    rw [recordAt_assign (w := Work.start s) none, if_pos ⟨rfl, rfl⟩]
    rfl
  have own := records l rfl
  rw [fresh] at own
  cases stands : t.recordAt p l with
  | none => rw [stands] at own; cases own
  | some h =>
    rw [stands] at own
    obtain ⟨later⟩ := own
    have made := later.eq_of_bare nofun rfl
    refine ⟨t, h, executed.trans (congrArg _ closes), served, stands, ?_⟩
    have fields : h.route = r ∧ h.kind = k ∧ h.latched = false ∧ h.breakRequested = false ∧ h.reroute = .none ∧
        (h.state = .pending ∨ h.state = .making) := by
      obtain rfl | ⟨-, rfl⟩ := made
      · exact ⟨rfl, rfl, rfl, rfl, rfl, .inl rfl⟩
      · exact ⟨rfl, rfl, rfl, rfl, rfl, .inr rfl⟩
    obtain ⟨route, kind', latched, asked, bare, state⟩ := fields
    refine ⟨route, kind', latched, asked, bare, state, fun j port => settled.apart j (by rw [portOf_of_table table]; exact port),
      fun x mem pos kx other => ?_, fun alone => ?_⟩
    · have port : s.portOf x.line = k := by rw [← portOf_of_table table, ← (settled.keyed.routed x mem).2.1, kx]
      have from' := records x.line port
      rw [← pos, recordAt_of_mem settled.keyed.records mem] at from'
      cases was : (assign p r (Work.start s)).s.recordAt p x.line with
      | none => rw [pos, was] at from'; cases from'
      | some y =>
        rw [pos, was] at from'
        obtain ⟨later⟩ := from'
        exact later.breaking.2 (breaking_assign (w := Work.start s) keyed none had' port other was)
    · obtain ⟨making, others, lists⟩ := alone_assigned keyed held safe none had' alone closes
      exact ⟨making h stands, others, lists⟩

end Sys2Proof.Machine
end

section
/-! A claim of a line on which the position has a record already (R56, R57). -/

namespace Sys2Proof.Machine

/-- The record that a claim of route `r` makes of a standing record of its line, by whether the path is quiet (R56, R57). -/
def Holder.claimed (h : Holder) (r : Route) (quiet : Bool) : Holder :=
  if h.route = r then { h with reroute := none }
  else if h.state = .connected then
    if quiet then { h with route := r, reroute := none, state := .making } else { h with reroute := some r }
  else { h with route := r, reroute := none }

theorem claimed_stands {h : Holder} (stands : h.state ≠ .breaking) (r : Route) (quiet : Bool) : (h.claimed r quiet).state ≠ .breaking := by
  unfold Holder.claimed
  split
  · exact stands
  · split
    · split
      · nofun
      · exact stands
    · exact stands

theorem claimed_making {h : Holder} (making : h.state = .making) (r : Route) (quiet : Bool) : (h.claimed r quiet).state = .making := by
  unfold Holder.claimed
  split
  · exact making
  · rw [if_neg (by rw [making]; nofun)]
    exact making

theorem claimed_wants (h : Holder) (r : Route) (quiet : Bool) : (h.claimed r quiet).reroute.getD (h.claimed r quiet).route = r := by
  unfold Holder.claimed
  split
  · next same => exact same
  · split
    · split <;> rfl
    · rfl

section

variable {w : Work} {p : Position} {r : Route} {h : Holder}

/-- The work of a claim of a held line, the record changed by `g` and the position's entries of the kind withdrawn. -/
abbrev reclaimed (w : Work) (p : Position) (l : Line) (g : Holder → Holder) : Work :=
  { w with s := mapRecord p l g (w.s.withdrawn p (w.s.portOf l) none) }

/-- A claim of a line on which the position has a record that is not BREAKING: the record takes the route or stores it, and an RX line
whose route is so replaced admits (R56, R57, R66). -/
structure ClaimsHeld (w : Work) (p : Position) (r : Route) (h : Holder) (m : Manner) (g : Holder → Holder) : Prop where
  placed : Placed g
  changed : g h = h.claimed r (w.s.pathQuiet p)
  moves : Moves (fun _ _ => True) False w.s (reclaimed w p (w.s.routeOf r).line g).s
  claim : claimRoute p r m w = (reclaimed w p (w.s.routeOf r).line g, .ok) ∨
    (w.s.portOf (w.s.routeOf r).line = .aux ∧ (h.claimed r (w.s.pathQuiet p)).reroute = none ∧
      claimRoute p r m w = (admitFreed ((reclaimed w p (w.s.routeOf r).line g).free (w.s.routeOf r).line), .ok))

/-- The same, whatever lines have been freed before. -/
structure ClaimsHeldBy (w : Work) (p : Position) (r : Route) (h : Holder) (m : Manner) (g : Holder → Holder) : Prop where
  placed : Placed g
  changed : g h = h.claimed r (w.s.pathQuiet p)
  moves : Moves (fun _ _ => True) False w.s (reclaimed w p (w.s.routeOf r).line g).s
  claim : claimRoute p r m w = (reclaimed w p (w.s.routeOf r).line g, .ok) ∨ ((h.claimed r (w.s.pathQuiet p)).reroute = none ∧
    claimRoute p r m w = (admitFreed (freeIfAux (w.s.routeOf r).line (reclaimed w p (w.s.routeOf r).line g)), .ok))

theorem claimRoute_held (keyed : w.s.AllocationKeyed) (held : w.s.recordAt p (w.s.routeOf r).line = some h) (stands : h.state ≠ .breaking)
    (apart : h.route = r ∨ w.s.portOf (w.s.routeOf r).line = .main ∨ ∀ x ∈ w.s.recordsOn (w.s.routeOf r).line, x.pos = p) (m : Manner) :
    ∃ g, ClaimsHeldBy w p r h m g := by
  obtain ⟨mem, pos, line⟩ := mem_of_recordAt held
  have kind : h.kind = w.s.portOf (w.s.routeOf r).line := by rw [(keyed.routed h mem).2.1, line]
  have withdrawn : Move (fun _ _ => True) False w.s (w.s.withdrawn p (w.s.portOf (w.s.routeOf r).line) none) := .withdraw none trivial
  by_cases same : h.route = r
  · refine ⟨fun x => { x with reroute := none }, fun x => ⟨rfl, rfl, rfl⟩, by rw [Holder.claimed, if_pos same],
      (Relation.ReflTransGen.single withdrawn).tail (.unstore (s := w.s.withdrawn p _ none) _ trivial), .inl ?_⟩
    simp only [claimRoute, held, if_pos same, kind]
    rfl
  have claim : claimRoute p r m w = rerouteBy p r h (withdraw p h.kind none w) := by
    simp only [claimRoute, held, if_neg same, rerouteRecord]
    rw [if_neg]
    rw [Bool.and_eq_true, decide_eq_true_eq, List.any_eq_true, kind]
    rintro ⟨aux, x, on, other⟩
    obtain main | own := apart.resolve_left same
    · rw [main] at aux; cases aux
    · rw [line] at on
      exact absurd (own x on) (by simpa using other)
  have alone : w.s.portOf (w.s.routeOf r).line = .aux → ∀ x ∈ w.s.recordsOn (w.s.routeOf r).line, x.pos = p := fun aux =>
    (apart.resolve_left same).resolve_left (by rw [aux]; nofun)
  have replaced {st : HolderState} (rule : (st = h.state ∧ (st = .pending ∨ st = .making)) ∨
      (st = .making ∧ h.state = .connected ∧ w.s.pathQuiet p = true)) (bare : (h.claimed r (w.s.pathQuiet p)) = { h with route := r, reroute := none, state := st })
      (claim : claimRoute p r m w = (replaceRoute p h.line r st (withdraw p h.kind none w), .ok)) : ∃ g, ClaimsHeldBy w p r h m g := by
    refine ⟨fun x => { x with route := r, reroute := none, state := st }, fun x => ⟨rfl, rfl, rfl⟩, bare.symm,
      (Relation.ReflTransGen.single withdrawn).tail (.replace (s := w.s.withdrawn p _ none) (h := h) st trivial held rule alone), .inr ⟨by rw [bare], ?_⟩⟩
    have pre : (withdraw p h.kind none w).mapRecord p h.line (fun x => { x with route := r, reroute := none, state := st }) =
        reclaimed w p (w.s.routeOf r).line fun x => { x with route := r, reroute := none, state := st } := by
      rw [line, kind]
      rfl
    rw [claim, replaceRoute, pre, line]
  cases state : h.state with
  | breaking => exact absurd state stands
  | pending =>
    refine replaced (st := .pending) (.inl ⟨state.symm, .inl rfl⟩) ?_ (by rw [claim, rerouteBy, state])
    rw [Holder.claimed, if_neg same, if_neg (by rw [state]; nofun), ← state]
  | making =>
    refine replaced (st := .making) (.inl ⟨state.symm, .inr rfl⟩) ?_ (by rw [claim, rerouteBy, state])
    rw [Holder.claimed, if_neg same, if_neg (by rw [state]; nofun), ← state]
  | connected =>
    have still : (withdraw p h.kind none w).s.pathQuiet p = w.s.pathQuiet p := rfl
    by_cases quiet : w.s.pathQuiet p = true
    · refine replaced (st := .making) (.inr ⟨rfl, state, quiet⟩) ?_ (by rw [claim, rerouteBy, state]; dsimp only; rw [still, if_pos quiet])
      rw [Holder.claimed, if_neg same, if_pos state, if_pos quiet]
    · refine ⟨fun x => { x with reroute := some r }, fun x => ⟨rfl, rfl, rfl⟩, by rw [Holder.claimed, if_neg same, if_pos state, if_neg quiet],
        (Relation.ReflTransGen.single withdrawn).tail (.store (s := w.s.withdrawn p _ none) (h := h) trivial held state), .inl ?_⟩
      rw [claim, rerouteBy, state]
      dsimp only
      rw [still, if_neg quiet, storeReroute, line, kind]
      rfl

theorem claimRoute_of_held (keyed : w.s.AllocationKeyed) (freed : w.s.portOf (w.s.routeOf r).line = .main → w.freed = [])
    (held : w.s.recordAt p (w.s.routeOf r).line = some h) (stands : h.state ≠ .breaking)
    (apart : h.route = r ∨ w.s.portOf (w.s.routeOf r).line = .main ∨ ∀ x ∈ w.s.recordsOn (w.s.routeOf r).line, x.pos = p) (m : Manner) :
    ∃ g, ClaimsHeld w p r h m g := by
  obtain ⟨g, placed, changed, moves, claim⟩ := claimRoute_held keyed held stands apart m
  refine ⟨g, placed, changed, moves, ?_⟩
  obtain claim | ⟨bare, claim⟩ := claim
  · exact .inl claim
  · have port : (reclaimed w p (w.s.routeOf r).line g).s.portOf (w.s.routeOf r).line = w.s.portOf (w.s.routeOf r).line := rfl
    rw [claim, freeIfAux, port]
    cases aux : w.s.portOf (w.s.routeOf r).line with
    | main => exact .inl (by rw [if_neg nofun, admitFreed_of_freed_nil (w := reclaimed w p _ _) (freed aux)])
    | aux => exact .inr ⟨rfl, bare, by rw [if_pos rfl]⟩

end

end Sys2Proof.Machine
end

section
/-! A CLAIM of a line that the position has already (R56, R57). -/

namespace Sys2Proof.Machine

section

variable {w : Work} {s : State} {p : Position} {r : Route} {h : Holder} {m : Manner} {g : Holder → Holder}

theorem recordAt_reclaimed (placed : Placed g) (q : Position) (l j : Line) :
    (reclaimed w p l g).s.recordAt q j = if q = p ∧ j = l then (w.s.recordAt q j).map g else w.s.recordAt q j :=
  recordAt_mapRecord placed p l (w.s.withdrawn p (w.s.portOf l) none) q j

theorem listOf_reclaimed (l j : Line) : (reclaimed w p l g).s.listOf j =
    if w.s.portOf j = w.s.portOf l then (w.s.listOf j).filter fun e => e.pos ≠ p else w.s.listOf j := by
  show (w.s.withdrawn p (w.s.portOf l) none).listOf j = _
  rw [listOf_withdrawn]
  simp

/-- A claim of a held line leaves the position's records and lists of the kind settled. -/
theorem settled_reclaimed (keyed : w.s.AllocationKeyed) (held : w.s.ReclaimsHeld) (claims : ClaimsHeld w p r h m g) :
    (reclaimed w p (w.s.routeOf r).line g).s.Settled (only p (w.s.portOf (w.s.routeOf r).line)) :=
  settled_only (allocationKeyed_moves claims.moves keyed) (reclaimsHeld_of_moves held claims.moves rfl) fun j port e mem => by
    rw [listOf_reclaimed, if_pos (show w.s.portOf j = _ from port)] at mem
    simpa using (List.mem_filter.1 mem).2

theorem goesOn_free {P : Position → PortKind → Line → Prop} (w : Work) (l : Line) : Passes P w.s (admitFreed (w.free l)).s := passes_admitFreed (w.free l)

/-- The work of a claim of a held line goes on from the record changed. -/
theorem goesOn_claimHeld (keyed : w.s.AllocationKeyed) (held : w.s.ReclaimsHeld) (claims : ClaimsHeld w p r h m g) :
    ∃ v, claimRoute p r m w = (v, .ok) ∧ GoesOn (only p (w.s.portOf (w.s.routeOf r).line)) (reclaimed w p (w.s.routeOf r).line g).s v.s := by
  have settled := settled_reclaimed keyed held claims
  obtain claim | ⟨-, -, claim⟩ := claims.claim
  · exact ⟨_, claim, Passes.refl _ settled⟩
  · exact ⟨_, claim, goesOn_free _ _ settled⟩

/-- A claim that frees no line hands nothing on. -/
theorem silent_reclaimed (claims : ClaimsHeld (Work.start s) p r h m g) (keyed : s.AllocationKeyed) (held : s.ReclaimsHeld)
    (at' : s.recordAt p (s.routeOf r).line = some h) (stands : h.state ≠ .breaking) :
    ((reclaimed (Work.start s) p (s.routeOf r).line g).cleared p (s.portOf (s.routeOf r).line)).Silent s where
  worked := (worked_of_alloc (w := Work.start s) (v := reclaimed (Work.start s) p (s.routeOf r).line g) _ rfl).trans (worked_mapStanding _ _ _ _)
  events := rfl
  losses := nofun
  freed := rfl
  held := (settled_cleared (settled_reclaimed (w := Work.start s) keyed held claims)).held
  switching q on := by
    obtain ⟨x, mem, pos, state⟩ := (switching_iff _ _).1 on
    refine (switching_iff _ _).2 ?_
    have records : ((reclaimed (Work.start s) p (s.routeOf r).line g).cleared p (s.portOf (s.routeOf r).line)).s.alloc.records =
        s.alloc.records.map fun x => if x.pos = p ∧ x.line = (s.routeOf r).line then g x else x := records_mapRecord ..
    by_cases here : x.pos = p ∧ x.line = (s.routeOf r).line
    · obtain rfl := Option.some.inj (((recordAt_eq_some_iff keyed.records).2 ⟨mem, here⟩).symm.trans at')
      refine ⟨g x, by rw [records]; exact List.mem_map.2 ⟨x, mem, if_pos here⟩, (claims.placed x).1.trans pos, ?_⟩
      obtain making | ⟨breaking, asked, latched⟩ := state
      · rw [claims.changed]
        exact .inl (claimed_making making r _)
      · exact absurd breaking stands
    · exact ⟨x, by rw [records]; exact List.mem_map.2 ⟨x, mem, if_neg here⟩, pos, state⟩

theorem recordAt_reclaimed_self (claims : ClaimsHeld (Work.start s) p r h m g) (at' : s.recordAt p (s.routeOf r).line = some h) :
    (reclaimed (Work.start s) p (s.routeOf r).line g).s.recordAt p (s.routeOf r).line = some (h.claimed r (s.pathQuiet p)) := by
  rw [recordAt_reclaimed claims.placed, if_pos ⟨rfl, rfl⟩, show (Work.start s).s.recordAt p (s.routeOf r).line = some h from at', Option.map_some]
  exact congrArg some claims.changed

/-- A position's records on one line change no other's. -/
theorem recordsKept_reclaimed (placed : Placed g) (l : Line) {q : Position} (other : q ≠ p) :
    s.RecordsKept (reclaimed (Work.start s) p l g).s q := by
  refine recordsKept_of_filter ?_
  rw [show (reclaimed (Work.start s) p l g).s.alloc.records = s.alloc.records.map fun x => if x.pos = p ∧ x.line = l then g x else x from
    records_mapRecord .., List.filter_map]
  have test : (fun x : Holder => decide (x.pos = q)) ∘ (fun x => if x.pos = p ∧ x.line = l then g x else x) = fun x => decide (x.pos = q) := by
    funext x
    rw [Function.comp]
    split
    · rw [(placed x).1]
    · rfl
  rw [test]
  refine (List.map_congr_left fun x mem => if_neg fun key => other ?_).trans (List.map_id _)
  rw [← of_decide_eq_true (List.mem_filter.1 mem).2]
  exact key.1

/-- The lists and records by the end of a claim of a held line that hands nothing on. -/
theorem quiet_claimHeld (claims : ClaimsHeld (Work.start s) p r h m g) (keyed : s.AllocationKeyed) (held : s.ReclaimsHeld)
    (at' : s.recordAt p (s.routeOf r).line = some h) (stands : h.state ≠ .breaking) (f : Frame) :
    ∃ t h', closeStep s (freeSlot p (closeRequest s (reply p f.kind .ok [])
        ((reclaimed (Work.start s) p (s.routeOf r).line g).cleared p (s.portOf (s.routeOf r).line)))) = t ∧
      Served allocParts p (f.reply .ok []) s t ∧ t.recordAt p (s.routeOf r).line = some h' ∧
      (h' = h.claimed r (s.pathQuiet p) ∨ ((h.claimed r (s.pathQuiet p)).state = .pending ∧
        h' = { h.claimed r (s.pathQuiet p) with state := .making })) ∧
      (∀ q, q ≠ p → s.RecordsKept t q) ∧
      ∀ j, t.listOf j = if s.portOf j = s.portOf (s.routeOf r).line then (s.listOf j).filter (fun e => e.pos ≠ p) else s.listOf j := by
  obtain ⟨t, closes, served, -, alloc⟩ := served_of_silent (silent_reclaimed claims keyed held at' stands) (p := p) (f := f) (c := .ok) (d := [])
  have own := recordAt_reclaimed_self claims at'
  have record := recordAt_of_alloc (congrArg Allocator.records alloc) p (s.routeOf r).line
  rw [recordAt_made_made, recordAt_made, recordAt_cleared, own, Option.map_some] at record
  refine ⟨t, _, closes, served, record, ?_, fun q other => ?_, fun j => ?_⟩
  · split
    · next may =>
      rw [Bool.and_eq_true, decide_eq_true_eq] at may
      exact .inr ⟨may.1, rfl⟩
    · exact .inl rfl
  · have first : s.RecordsKept ((reclaimed (Work.start s) p (s.routeOf r).line g).cleared p (s.portOf (s.routeOf r).line)).s q :=
      recordsKept_reclaimed claims.placed _ other
    exact ((first.trans (recordsKept_made _ q)).trans (recordsKept_made _ q)).trans (recordsKept_of_records (by rw [alloc]) q)
  · rw [listOf_of_alloc (congrArg Allocator.lists alloc)]
    exact listOf_reclaimed (w := Work.start s) (g := g) _ j

/-- The record that a claim of a held line changes goes on from there, through the close of its request. -/
theorem goes_claimHeld (claims : ClaimsHeld (Work.start s) p r h m g) (keyed : s.AllocationKeyed) (held : s.ReclaimsHeld)
    (at' : s.recordAt p (s.routeOf r).line = some h) {v : Work} (claim : claimRoute p r m (Work.start s) = (v, .ok))
    (goes : GoesOn (only p (s.portOf (s.routeOf r).line)) (reclaimed (Work.start s) p (s.routeOf r).line g).s v.s) (f : Frame) :
    ∃ t h', closeStep s (freeSlot p (closeRequest s (reply p f.kind .ok []) (v.cleared p (s.portOf (s.routeOf r).line)))) = t ∧
      Served allocParts p (f.reply .ok []) s t ∧ t.recordAt p (s.routeOf r).line = some h' ∧ (h.claimed r (s.pathQuiet p)).Later h' ∧
      t.Settled (only p (s.portOf (s.routeOf r).line)) ∧ t.table = s.table := by
  have worked : Worked (Work.start s) (v.cleared p (s.portOf (s.routeOf r).line)) :=
    (claim ▸ worked_claimRoute p r m (Work.start s) : Worked _ (v, ClaimOutcome.ok).1).trans (worked_mapStanding _ _ _ _)
  obtain ⟨served, -, passes⟩ := served_of_work worked (p := p) (f := f) (c := .ok) (d := [])
  obtain ⟨final, last, -, records⟩ := passes _ (settled_cleared goes.settled)
  have two := records p (s.routeOf r).line ⟨rfl, portOf_of_table goes.table _⟩
  rw [recordAt_cleared] at two
  have record := optionRel_trans (fun _ _ _ => .trans) (goes.own (s.routeOf r).line rfl) two
  rw [recordAt_reclaimed_self claims at'] at record
  obtain ⟨h', stands, later⟩ := some_of_rel record
  exact ⟨_, h', rfl, served, stands, later, final, last.trans (worked.moved.table (by decide))⟩

end

/-- Settles O40: a record kept or rerouted hands nothing on, and an RX line whose route is replaced admits others alone. -/
theorem claimOfHeldLine : Obligations.ClaimOfHeldLine := by
  intro s p f r m h offered kind payload ready safe enabled keyed held l k free at' stands apart
  have stays : s.breakingOn p l = false := by simpa [State.breakingOn, at'] using stands
  obtain ⟨g, claims⟩ := claimRoute_of_held (w := Work.start s) keyed (fun _ => rfl) at' stands apart m
  have execute {v : Work} (claim : claimRoute p r m (Work.start s) = (v, .ok)) :=
    exec_claim_of_done offered kind payload ready safe enabled free stays claim nofun
  have own := recordAt_reclaimed_self claims at'
  obtain claim | ⟨aux, bare, claim⟩ := claims.claim
  · obtain ⟨t, h', closes, served, record, made, others, lists⟩ := quiet_claimHeld claims keyed held at' stands f
    refine ⟨t, h', (execute claim).trans (congrArg _ closes), served, record, fun j port e mem => ?_, made, fun _ => ⟨others, lists⟩⟩
    rw [lists, if_pos port] at mem
    simpa using (List.mem_filter.1 mem).2
  · obtain ⟨t, h', closes, served, record, later, settled, table⟩ := goes_claimHeld claims keyed held at' claim
      (goesOn_free _ l (settled_reclaimed (w := Work.start s) keyed held claims)) f
    refine ⟨t, h', (execute claim).trans (congrArg _ closes), served, record,
      fun j port => settled.apart j ((portOf_of_table table j).trans port), later.eq_of_bare (claimed_stands stands r _) bare, fun main => ?_⟩
    cases main.symm.trans aux

end Sys2Proof.Machine
end

section
/-! A claim NOW of a ring entry that qualifies, whoever called for it (R80, R90). -/

namespace Sys2Proof.Machine

section

variable {w : Work} {p : Position} {k : PortKind} {r : Route}

/-- A candidate's line serves the kind and carries no BREAKING record of the position, nor another route of it that others share (R80). -/
theorem candidate_spec {s : State} (candidate : s.candidateEntry p k r = true) :
    s.portOf (s.routeOf r).line = k ∧ s.routeEnabled r = true ∧ s.reservedFrom (s.routeOf r).line p = false ∧
      ∀ h, s.recordAt p (s.routeOf r).line = some h → h.state ≠ .breaking ∧
        (h.route = r ∨ s.portOf (s.routeOf r).line = .main ∨ ∀ x ∈ s.recordsOn (s.routeOf r).line, x.pos = p) := by
  simp only [State.candidateEntry, State.usable, Bool.and_eq_true, Bool.not_eq_true', decide_eq_true_eq] at candidate
  obtain ⟨⟨⟨⟨enabled, port⟩, free⟩, stays⟩, apart⟩ := candidate
  refine ⟨port, enabled, free, fun h held => ⟨?_, ?_⟩⟩
  · simpa [State.breakingOn, held] using stays
  · simp only [State.sharedOther, held, Bool.and_eq_false_iff, decide_eq_false_iff_not, List.any_eq_false, decide_eq_true_eq, not_not, ne_eq] at apart
    obtain (main | same) | own := apart
    · refine .inr (.inl ?_)
      cases port : s.portOf (s.routeOf r).line with
      | main => rfl
      | aux => exact absurd port main
    · exact .inl same
    · exact .inr (.inr own)

/-- What a claim NOW of a qualifying candidate comes to before its close: a standing record that names the route or stores it. -/
structure ClaimedNow (w v : Work) (p : Position) (k : PortKind) (r : Route) : Prop where
  settled : v.s.Settled (only p k)
  table : v.s.table = w.s.table
  standings : v.s.alloc.standings = w.s.alloc.standings
  record : ∃ x, v.s.recordAt p (w.s.routeOf r).line = some x ∧ x.state ≠ .breaking ∧ x.reroute.getD x.route = r

theorem claimedNow (keyed : w.s.AllocationKeyed) (held : w.s.ReclaimsHeld) (freed : k = .main → w.freed = []) (candidate : w.s.candidateEntry p k r = true)
    (qualifies : w.s.qualifies p r = true) : ClaimedNow w (claimRoute p r .now w).1 p k r := by
  obtain ⟨port, -, -, stands⟩ := candidate_spec candidate
  subst port
  have yields : Yields (fun _ => True) w (claimRoute p r .now w).1 := yields_claimRoute (kinded_of_keyed keyed) p nofun trivial fun _ _ => trivial
  cases at' : w.s.recordAt p (w.s.routeOf r).line with
  | none =>
    have had : w.s.canBeHad (w.s.routeOf r).line r = true := by simpa [State.qualifies, at'] using qualifies
    have claim := claimRoute_of_free at' had .now
    obtain ⟨settled, -, -, records⟩ := passes_admitFreed _ (settled_assign keyed held at' had)
    have record := records p (w.s.routeOf r).line ⟨rfl, portOf_of_table ((worked_assign p r w).moved.table (by decide)) _⟩
    rw [recordAt_assign at', if_pos ⟨rfl, rfl⟩] at record
    obtain ⟨x, stands', later⟩ := some_of_rel record
    have standing : x.state ≠ .breaking := fun breaking => nomatch later.breaking.1 breaking
    rw [claim] at yields ⊢
    exact ⟨settled, yields.table, yields.standings, x, stands', standing, later.wanted⟩
  | some h =>
    obtain ⟨standing, apart⟩ := stands h at'
    obtain ⟨g, claims⟩ := claimRoute_of_held keyed freed at' standing apart .now
    obtain ⟨v, claim, settled, -, -, records⟩ := goesOn_claimHeld keyed held claims
    have record := records p (w.s.routeOf r).line ⟨rfl, rfl⟩
    rw [recordAt_reclaimed claims.placed, if_pos ⟨rfl, rfl⟩, at', Option.map_some, claims.changed] at record
    obtain ⟨x, stands', later⟩ := some_of_rel record
    rw [claim] at yields ⊢
    exact ⟨settled, yields.table, yields.standings, x, stands', fun breaking => claimed_stands standing r _ (later.breaking.1 breaking),
      later.wanted.trans (claimed_wants h r _)⟩

theorem settled_mapStanding {P : Position → PortKind → Line → Prop} {s : State} (settled : s.Settled P) (q : Position) (j : PortKind) {f : Standing → Standing}
    (clears : ∀ x, (f x).reclaim = none ∨ (f x).reclaim = x.reclaim) : (s.mapStanding q j f).Settled P := by
  refine ⟨?_, fun x i l named => ?_, settled.out, settled.calm⟩
  · obtain ⟨records, routed, stored, lists, placed, oneList, apart⟩ := settled.keyed
    exact ⟨records, routed, stored, lists, placed, oneList, apart⟩
  · rw [standing_mapStanding] at named
    split at named
    · next here =>
      obtain ⟨rfl, rfl⟩ := here
      obtain none | same := clears (s.standing x i)
      · rw [none] at named; cases named
      · rw [same] at named; exact settled.held x i l named
    · exact settled.held x i l named

end

end Sys2Proof.Machine
end

section
/-! STEP (sections 4.3 and 4.5, R80, R88 to R90). -/

namespace Sys2Proof.Machine

section

variable {s : State} {p : Position} {k : PortKind} {r : Route} {f : Frame}

/-! ## STEP as it is served -/

theorem exec_step_of_offers (offered : Offers s p f 1) (kind : f.kind = 0x07) :
    exec (.step p) s = .next (closeStep s (freeSlot p (serveStep p f s))) :=
  wholeStep_takeRequest_of_offers (need := fun _ => 1) offered (by simp [isKind, kind, kindStep]) _

theorem exec_step_of_answer (offered : Offers s p f 1) (kind : f.kind = 0x07) {c : Code} (refused : serveStep p f s = answer p f c s) :
    exec (.step p) s = .next (startRule (s.answered p [f.reply c []])) := by
  rw [exec_step_of_offers offered kind, refused, freeSlot_answer, closeStep_answered]

theorem stepOf_bytes (k : PortKind) (back : Bool) : stepOf [byte k.code, flag back] = some (k, !back) := by
  cases k <;> cases back <;> rfl

theorem stepOf_eq_none {bs : List Byte} (out : bs.length ≠ 2 ∨ 2 ≤ byteAt bs 0 ∨ 2 ≤ byteAt bs 1) : stepOf bs = none := by
  match bs, out with
  | [], _ => rfl
  | [_], _ => rfl
  | _ :: _ :: _ :: _, _ => rfl
  | [a, b], out =>
    have large {n : Nat} (two : 2 ≤ n) : ∃ m, n = m + 2 := ⟨n - 2, by omega⟩
    obtain two | kind | flag := out
    · exact absurd rfl two
    · obtain ⟨m, eq⟩ := large kind
      have : a.toNat = m + 2 := eq
      simp [stepOf, this, portKindOf]
    · obtain ⟨m, eq⟩ := large flag
      have : b.toNat = m + 2 := eq
      simp [stepOf, this, flagOf]

theorem serveStep_of_band {forward : Bool} (payload : stepOf f.payload = some (k, forward)) (ready : s.isReady = true) (safe : s.safe = false) {b : Band}
    (band : (s.freqOf p).band = some b) (ring : s.ringOf p b k ≠ []) :
    serveStep p f s = match (walk (s.ringOf p b k) (s.currentRoute p k) forward).find? (s.stepQualifies p k) with
      | none => answer p f .busy s
      | some r => serveStepTo p f k r s := by
  have some' : (s.ringOf p b k).isEmpty = false := by simpa using ring
  simp only [serveStep, payload, ready, safe, band, some', Bool.not_true, Bool.false_eq_true, if_false] <;> rfl

/-! ## A STEP that finds its route -/

theorem stepped (keyed : s.AllocationKeyed) (held : s.ReclaimsHeld) (qualifies : s.stepQualifies p k r = true) :
    ∃ t h, closeStep s (freeSlot p (serveStepTo p f k r s)) = t ∧ Served allocParts p (f.reply .ok [byte r.val]) s t ∧
      t.recordAt p (s.routeOf r).line = some h ∧ h.state ≠ .breaking ∧ h.reroute.getD h.route = r ∧
      (t.standing p k).follow = (s.standing p k).follow ∧ (t.standing p k).due = false ∧ (t.standing p k).reclaim = none ∧
      ∀ j, s.portOf j = k → ∀ e ∈ t.listOf j, e.pos ≠ p := by
  obtain ⟨candidate, room⟩ := Bool.and_eq_true_iff.1 (show (s.candidateEntry p k r && s.qualifies p r) = true from qualifies)
  obtain ⟨settled, table, standings, x, at', stands, wants⟩ := claimedNow (w := Work.start s) keyed held (fun _ => rfl) candidate room
  have cleared := settled_mapStanding settled p k (f := fun x => { x with due := false, reclaim := none }) fun _ => .inl rfl
  have worked : Worked (Work.start s) (settleRing p k (claimRoute p r .now (Work.start s)).1) :=
    (worked_claimRoute p r .now _).trans (worked_settleRing p k _)
  obtain ⟨served, -, passes⟩ := served_of_work worked (p := p) (f := f) (c := .ok) (d := [byte r.val])
  obtain ⟨final, last, standing, records⟩ := passes _ cleared
  have record := records p (s.routeOf r).line ⟨rfl, (portOf_of_table table _).trans (candidate_spec candidate).1⟩
  rw [show (settleRing p k (claimRoute p r .now (Work.start s)).1).s.recordAt p (s.routeOf r).line = some x from at'] at record
  obtain ⟨h, stands', later⟩ := some_of_rel record
  refine ⟨_, h, rfl, served, stands', fun breaking => stands (later.breaking.1 breaking), later.wanted.trans wants, ?_⟩
  have own : (closeStep s (freeSlot p (serveStepTo p f k r s))).standing p k = { s.standing p k with due := false, reclaim := none } := by
    rw [State.standing, serveStepTo, standing, ← State.standing]
    show ((claimRoute p r .now (Work.start s)).1.s.mapStanding p k _).standing p k = _
    rw [standing_mapStanding, if_pos ⟨rfl, rfl⟩, State.standing, standings]
    rfl
  rw [own]
  refine ⟨rfl, rfl, rfl, fun j port => final.apart j ?_⟩
  rw [portOf_of_table last]
  exact (portOf_of_table table j).trans port

/-! ## Qualifying (R80, R90) -/

theorem recordAt_isSome_iff (s : State) (p : Position) (l : Line) : (s.recordAt p l).isSome = true ↔ ∃ x ∈ s.recordsOn l, x.pos = p := by
  constructor
  · intro some'
    obtain ⟨x, held⟩ := Option.isSome_iff_exists.1 some'
    obtain ⟨mem, pos, line⟩ := mem_of_recordAt held
    exact ⟨x, (mem_recordsOn _ _ _).2 ⟨mem, line⟩, pos⟩
  · rintro ⟨x, on, pos⟩
    obtain ⟨mem, line⟩ := (mem_recordsOn _ _ _).1 on
    cases at' : s.recordAt p l with
    | some _ => rfl
    | none => exact absurd line ((recordAt_eq_none_iff s p l).1 at' x mem pos)

theorem recordAt_forall_iff {s : State} (keyed : s.AllocationKeyed) (p : Position) (l : Line) (P : Holder → Prop) :
    (∀ h, s.recordAt p l = some h → P h) ↔ ∀ x ∈ s.recordsOn l, x.pos = p → P x := by
  constructor
  · intro all x on pos
    obtain ⟨mem, line⟩ := (mem_recordsOn _ _ _).1 on
    exact all x ((recordAt_eq_some_iff keyed.records).2 ⟨mem, pos, line⟩)
  · intro all h held
    obtain ⟨mem, pos, line⟩ := mem_of_recordAt held
    exact all h ((mem_recordsOn _ _ _).2 ⟨mem, line⟩) pos

theorem breakingOn_eq_false_iff (s : State) (p : Position) (l : Line) :
    s.breakingOn p l = false ↔ ∀ h, s.recordAt p l = some h → h.state ≠ .breaking := by
  unfold State.breakingOn
  split
  · next h held => simp [held]
  · next none => simp [none]

theorem sharedOther_eq_false_iff (s : State) (p : Position) (l : Line) (r : Route) :
    s.sharedOther p l r = false ↔ ∀ h, s.recordAt p l = some h → ¬(s.portOf l = .aux ∧ h.route ≠ r ∧ ∃ x ∈ s.recordsOn l, x.pos ≠ p) := by
  unfold State.sharedOther
  split
  · next h held =>
    simp only [held, Option.some.injEq, forall_eq', ← Bool.not_eq_true, Bool.and_eq_true, decide_eq_true_eq, List.any_eq_true, and_assoc]
  · next none => simp [none]

theorem reservedFrom_eq_false_iff (s : State) (l : Line) (p : Position) :
    s.reservedFrom l p = false ↔ (s.lineOf l).reserved = none ∨ (s.lineOf l).reserved = some p := by
  unfold State.reservedFrom
  split
  · next q reserved => simp [reserved]
  · next none => simp [none]

theorem candidateEntry_iff (keyed : s.AllocationKeyed) : s.candidateEntry p k r = true ↔
    ((s.routeOf r).enabled = true ∧ (s.lineOf (s.routeOf r).line).enabled = true ∧
      (∀ e ∈ (s.routeOf r).elements, (s.table.elements.get e).enabled = true) ∧ s.portOf (s.routeOf r).line = k) ∧
    ((s.lineOf (s.routeOf r).line).reserved = none ∨ (s.lineOf (s.routeOf r).line).reserved = some p) ∧
    (∀ x ∈ s.recordsOn (s.routeOf r).line, x.pos = p → x.state ≠ .breaking) ∧
    ¬(s.portOf (s.routeOf r).line = .aux ∧ (∃ x ∈ s.recordsOn (s.routeOf r).line, x.pos = p ∧ x.route ≠ r) ∧
      ∃ x ∈ s.recordsOn (s.routeOf r).line, x.pos ≠ p) := by
  have shared : (∀ x ∈ s.recordsOn (s.routeOf r).line, x.pos = p →
      ¬(s.portOf (s.routeOf r).line = .aux ∧ x.route ≠ r ∧ ∃ x ∈ s.recordsOn (s.routeOf r).line, x.pos ≠ p)) ↔
      ¬(s.portOf (s.routeOf r).line = .aux ∧ (∃ x ∈ s.recordsOn (s.routeOf r).line, x.pos = p ∧ x.route ≠ r) ∧
        ∃ x ∈ s.recordsOn (s.routeOf r).line, x.pos ≠ p) :=
    ⟨fun all ⟨aux, ⟨x, on, pos, other⟩, others⟩ => all x on pos ⟨aux, other, others⟩,
      fun none x on pos ⟨aux, other, others⟩ => none ⟨aux, ⟨x, on, pos, other⟩, others⟩⟩
  simp only [State.candidateEntry, State.usable, State.routeEnabled, Bool.and_eq_true, Bool.not_eq_true', decide_eq_true_eq, List.all_eq_true,
    reservedFrom_eq_false_iff, breakingOn_eq_false_iff, sharedOther_eq_false_iff, recordAt_forall_iff keyed, shared, and_assoc]

theorem qualifies_iff (s : State) (p : Position) (r : Route) : s.qualifies p r = true ↔
    s.canBeHad (s.routeOf r).line r = true ∨ ∃ x ∈ s.recordsOn (s.routeOf r).line, x.pos = p := by
  simp only [State.qualifies, Bool.or_eq_true, recordAt_isSome_iff]

/-! ## The current route and the walk (R89) -/

theorem currentRoute_of_standing (keyed : s.AllocationKeyed) (one : s.OneHeld) {x : Holder} (mem : x ∈ s.alloc.records) (pos : x.pos = p)
    (kind : x.kind = k) (stands : x.state ≠ .breaking) : s.currentRoute p k = some (x.reroute.getD x.route) := by
  have of : x ∈ s.recordsOf p k := (mem_recordsOf _ _ _ _).2 ⟨mem, pos, kind⟩
  cases found : (s.recordsOf p k).find? fun r => r.state ≠ .breaking with
  | none => exact absurd (List.find?_eq_none.1 found x of) (by simpa using stands)
  | some y =>
    obtain ⟨mem', pos', kind'⟩ := (mem_recordsOf _ _ _ _).1 (List.mem_of_find?_eq_some found)
    have stands' : y.state ≠ .breaking := by simpa using List.find?_some found
    have line := one.records x mem y mem' (pos.trans pos'.symm) (kind.trans kind'.symm) stands stands'
    obtain rfl := Option.some.inj ((recordAt_of_mem keyed.records mem).symm.trans
      ((recordAt_eq_some_iff keyed.records).2 ⟨mem', pos'.trans pos.symm, line.symm⟩))
    rw [State.currentRoute, found]
    rfl

theorem currentRoute_of_none (none : ∀ x ∈ s.alloc.records, x.pos = p → x.kind = k → x.state = .breaking) : s.currentRoute p k = .none := by
  have nobody : ((s.recordsOf p k).find? fun r => r.state ≠ .breaking) = .none := List.find?_eq_none.2 fun x of => by
    obtain ⟨mem, pos, kind⟩ := (mem_recordsOf _ _ _ _).1 of
    simpa using none x mem pos kind
  rw [State.currentRoute, nobody]
  rfl

/-- The walk goes round the ring from the entry behind the current route. -/
theorem walk_of_split {before after : List Route} {r : Route} (once : (before ++ r :: after).Nodup) (forward : Bool) :
    walk (before ++ r :: after) (some r) forward = if forward then after ++ before else (after ++ before).reverse := by
  have fresh : r ∉ before := fun mem => (List.nodup_append.1 once).2.2 r mem r List.mem_cons_self rfl
  have place : (before ++ r :: after).findIdx (fun x => x = r) = before.length := by
    rw [List.findIdx_append, List.findIdx_eq_length_of_false]
    · simp [List.findIdx_cons]
    · intro x mem
      simpa using fun same : x = r => fresh (same ▸ mem)
  have listed : (before ++ r :: after).contains r = true := by simp
  simp only [walk, listed, if_true, place]
  have onward : (before ++ r :: after).drop (before.length + 1) ++ (before ++ r :: after).take before.length = after ++ before := by
    rw [List.drop_append, List.take_append]
    simp
  rw [onward]

end

/-- Settles O44: STEP claims NOW what its walk finds. -/
theorem stepClaimsNext : Obligations.StepClaimsNext := by
  refine ⟨fun s p f k back offered kind payload => ?_, fun s p f offered kind bad => ?_, fun s p k r keyed => ?_, fun s p k => ?_,
    fun ring r once => ?_⟩
  · have step : stepOf f.payload = some (k, !back) := by rw [payload, stepOf_bytes]
    have refuse {c : Code} (refused : serveStep p f s = answer p f c s) := exec_step_of_answer offered kind refused
    refine ⟨fun starting => refuse ?_, fun ready safe => refuse ?_, fun ready safe none => refuse ?_, fun b band ready safe => ?_⟩
    · simp [serveStep, step, starting]
    · simp [serveStep, step, ready, safe]
    · simp [serveStep, step, ready, safe, none]
    · refine ⟨fun empty => refuse ?_, fun ring none => refuse ?_, fun r before after split unfit fit keyed held => ?_⟩
      · simp [serveStep, step, ready, safe, band, empty]
      · rw [serveStep_of_band step ready safe band ring, List.find?_eq_none.2 fun r mem => by simp [none r mem]]
      · have found : (walk (s.ringOf p b k) (s.currentRoute p k) (!back)).find? (s.stepQualifies p k) = some r := by
          rw [split, List.find?_append, List.find?_eq_none.2 fun x mem => by simp [unfit x mem], List.find?_cons_of_pos fit]
          rfl
        have ring : s.ringOf p b k ≠ [] := fun empty => by
          rw [empty] at found
          cases current : s.currentRoute p k <;> rw [current] at found <;> cases back <;> simp [walk] at found
        obtain ⟨t, h, closes, rest⟩ := stepped (f := f) keyed held fit
        refine ⟨t, h, ?_, rest⟩
        rw [exec_step_of_offers offered kind, serveStep_of_band step ready safe band ring, found]
        exact congrArg _ closes
  · refine exec_step_of_answer offered kind ?_
    rw [serveStep, stepOf_eq_none bad]
  · refine ⟨canBeHad_iff, ?_, candidateEntry_iff keyed, Bool.and_eq_true_iff⟩
    rw [qualifies_iff, canBeHad_iff]
  · exact ⟨fun keyed one x mem pos kind stands => currentRoute_of_standing keyed one mem pos kind stands, currentRoute_of_none⟩
  · refine ⟨fun before after split => ?_, fun out => ?_, rfl, rfl⟩
    · subst split
      exact ⟨walk_of_split once true, walk_of_split once false⟩
    · simp [walk, out]

end Sys2Proof.Machine
end

section
/-! What a claim on one port kind leaves of the other kind: its records, its lists but for move flags, and what a ring claim finds (R79, R80). -/

namespace Sys2Proof.Machine

/-! ## Lists of other kinds -/

/-- From one work to the next the lists of the kinds outside `K` stand, but for move flags. -/
structure Leaves (K : PortKind → Prop) (w v : Work) : Prop where
  table : v.s.table = w.s.table
  lists : ∀ j, ¬K (w.s.portOf j) → (v.s.listOf j).map WaitEntry.still = (w.s.listOf j).map WaitEntry.still

variable {K : PortKind → Prop}

theorem Leaves.refl (w : Work) : Leaves K w w := ⟨rfl, fun _ _ => rfl⟩

theorem Leaves.port {w v : Work} (h : Leaves K w v) (l : Line) : v.s.portOf l = w.s.portOf l := portOf_of_table h.table l

theorem Leaves.trans {u v w : Work} (h : Leaves K u v) (g : Leaves K v w) : Leaves K u w :=
  ⟨g.table.trans h.table, fun j out => (g.lists j (by rw [h.port]; exact out)).trans (h.lists j out)⟩

theorem leaves_of_lists {w v : Work} (table : v.s.table = w.s.table) (lists : v.s.alloc.lists = w.s.alloc.lists) : Leaves K w v :=
  ⟨table, fun j _ => by rw [listOf_of_alloc lists]⟩

theorem leaves_withdraw {w : Work} (p : Position) {k : PortKind} (own : K k) (keep : Option Line) : Leaves K w (withdraw p k keep w) := by
  refine ⟨rfl, fun j out => ?_⟩
  have other : ¬(w.s.portOf j = k ∧ keep ≠ some j) := fun both => out (by rw [both.1]; exact own)
  rw [withdraw_s, listOf_withdrawn, if_neg other]

theorem leaves_releases {w : Work} (p : Position) (xs : List Holder) : Leaves K w (w.releases p xs) :=
  ⟨(worked_releases p xs w).moved.table (by decide), fun j _ => still_releases p xs w j⟩

theorem leaves_admitEntry {w : Work} {l : Line} (own : K (w.s.portOf l)) (e : WaitEntry) : Leaves K w (admitEntry l e w) := by
  have one : Leaves K w (createRecord e.pos e.route (withdraw e.pos (w.s.portOf l) none w)) :=
    (leaves_withdraw e.pos own none).trans (leaves_of_lists rfl rfl)
  unfold admitEntry
  dsimp only
  split
  · exact one.trans (leaves_releases _ _)
  · exact one

theorem leaves_admitSame {l : Line} {r : Route} : ∀ (es : List WaitEntry) {w : Work}, K (w.s.portOf l) → Leaves K w (admitSame l r es w)
  | [], w, _ => .refl w
  | e :: es, w, own => by
    unfold admitSame
    split
    · have one := leaves_admitEntry own e
      exact one.trans (leaves_admitSame es (by rw [one.port]; exact own))
    · exact leaves_admitSame es own

theorem leaves_admitLine {w : Work} {l : Line} (own : K (w.s.portOf l)) : Leaves K w (admitLine l w) := by
  unfold admitLine
  split
  · exact .refl w
  · next e es _ =>
    have one := leaves_admitEntry own e
    split
    · dsimp only
      split
      · exact one.trans (leaves_admitSame es (by rw [one.port]; exact own))
      · exact one
    · split
      · split
        · exact leaves_admitSame _ own
        · exact .refl w
      · exact .refl w

theorem leaves_admitAll : ∀ (n : Nat) {w : Work}, w.s.Kinded → (∀ l ∈ w.freed, K (w.s.portOf l)) → Leaves K w (admitAll n w)
  | 0, w, _, _ => .refl w
  | n + 1, w, kinded, own => by
    unfold admitAll
    split
    · exact .refl w
    · next l ls freed =>
      rw [freed] at own
      have line : Leaves K w (admitLine l { w with freed := ls }) :=
        have one := leaves_admitLine (w := { w with freed := ls }) (own l List.mem_cons_self)
        ⟨one.table, one.lists⟩
      have yields : Yields K { w with freed := ls } (admitLine l { w with freed := ls }) :=
        yields_admitLine (w := { w with freed := ls }) kinded (own l List.mem_cons_self)
      refine line.trans (leaves_admitAll n yields.kinded fun j mem => ?_)
      rw [yields.port]
      exact yields.freed (fun j mem => own j (List.mem_cons_of_mem _ mem)) j mem

theorem leaves_admitFreed {w : Work} (kinded : w.s.Kinded) (own : ∀ l ∈ w.freed, K (w.s.portOf l)) : Leaves K w (admitFreed w) :=
  leaves_admitAll _ kinded own

/-! ## A claim and the other kind -/

/-- From one work to the next the other kinds' records and lists stand, but for move flags. -/
structure Beyond (k : PortKind) (w v : Work) : Prop where
  leaves : Leaves (fun j => j = k) w v
  records : v.s.those (fun _ j => decide (j ≠ k)) = w.s.those fun _ j => decide (j ≠ k)

variable {k : PortKind}

theorem Beyond.trans {u v w : Work} (h : Beyond k u v) (g : Beyond k v w) : Beyond k u w :=
  ⟨h.leaves.trans g.leaves, g.records.trans h.records⟩

theorem beyond_admitFreed {w : Work} (keyed : w.s.AllocationKeyed) (own : ∀ l ∈ w.freed, w.s.portOf l = k) : Beyond k w (admitFreed w) where
  leaves := leaves_admitFreed (kinded_of_keyed keyed) own
  records := (spares_admitFreed (U := fun _ j => decide (j ≠ k)) (K := fun j => j = k) (kinded_of_keyed keyed) own fun l port e mem =>
    ⟨by simp [port], keyed.placed l e mem⟩).records

theorem beyond_assign {w : Work} (keyed : w.s.AllocationKeyed) (p : Position) {r : Route} (port : w.s.portOf (w.s.routeOf r).line = k) :
    Beyond k w (assign p r w) := by
  have kinded := kinded_of_keyed keyed
  have released : Spares (fun _ j => decide (j ≠ k)) w (w.vacated p r) :=
    (spares_withdraw p (w.s.portOf (w.s.routeOf r).line) none w).trans (spares_releaseOthers (w := withdraw p (w.s.portOf (w.s.routeOf r).line) none w)
      (U := fun _ j => decide (j ≠ k)) (k := w.s.portOf (w.s.routeOf r).line) (fun x mem => kinded x mem) (by simp [port]) _)
  have left : Leaves (fun j => j = k) w (w.vacated p r) := (leaves_withdraw (K := fun j => j = k) p port none).trans (leaves_releases _ _)
  refine ⟨left.trans (leaves_of_lists rfl rfl), ?_⟩
  rw [assign_eq, createRecord_s, those_withRecord, released.records]
  rw [routeOf_of_table left.table, portOf_of_table left.table, port]
  simp

theorem beyond_reclaimed {w : Work} (keyed : w.s.AllocationKeyed) (p : Position) {l : Line} (port : w.s.portOf l = k) {g : Holder → Holder}
    (placed : Placed g) : Beyond k w (reclaimed w p l g) := by
  have withdrawn : Leaves (fun j => j = k) w (withdraw p (w.s.portOf l) none w) := leaves_withdraw (K := fun j => j = k) p port none
  have kinded : (w.s.withdrawn p (w.s.portOf l) none).Kinded := fun x mem => kinded_of_keyed keyed x mem
  have out : (w.s.withdrawn p (w.s.portOf l) none).portOf l = k := port
  exact ⟨withdrawn.trans (leaves_of_lists rfl rfl), those_mapRecord kinded (by simp [out]) placed⟩

theorem beyond_enqueueWait {w : Work} (p : Position) {r : Route} (port : w.s.portOf (w.s.routeOf r).line = k) :
    Beyond k w (enqueueWait p r w) := by
  refine ⟨⟨rfl, fun j out => ?_⟩, rfl⟩
  have other : j ≠ (w.s.routeOf r).line := fun same => out (by rw [same]; exact port)
  rw [enqueueWait_s, listOf_enqueued, if_neg other, if_neg fun same => out (same.trans port)]

/-- A claim NOW of a qualifying candidate leaves the other kind. -/
theorem beyond_claimNow {w : Work} (keyed : w.s.AllocationKeyed) (freed : w.freed = []) {p : Position} {r : Route}
    (candidate : w.s.candidateEntry p k r = true) (qualifies : w.s.qualifies p r = true) : Beyond k w (claimRoute p r .now w).1 := by
  obtain ⟨port, -, -, stands⟩ := candidate_spec candidate
  cases at' : w.s.recordAt p (w.s.routeOf r).line with
  | none =>
    have had : w.s.canBeHad (w.s.routeOf r).line r = true := by simpa [State.qualifies, at'] using qualifies
    have yields : Yields (fun j => j = k) w (assign p r w) := yields_assign (kinded_of_keyed keyed) p port
    rw [claimRoute_of_free at' had .now]
    refine (beyond_assign keyed p port).trans (beyond_admitFreed (keyed_assign keyed at' had) fun l mem => ?_)
    rw [yields.port]
    exact yields.freed (by simp [freed]) l mem
  | some h =>
    obtain ⟨standing, apart⟩ := stands h at'
    obtain ⟨g, claims⟩ := claimRoute_of_held keyed (fun _ => freed) at' standing apart .now
    have changed := beyond_reclaimed keyed p port claims.placed
    obtain claim | ⟨-, -, claim⟩ := claims.claim
    · rw [claim]
      exact changed
    · rw [claim]
      have freely : Beyond k w ((reclaimed w p (w.s.routeOf r).line g).free (w.s.routeOf r).line) := ⟨⟨rfl, changed.leaves.lists⟩, changed.records⟩
      refine freely.trans (beyond_admitFreed (allocationKeyed_moves claims.moves keyed) fun l mem => ?_)
      have only : (reclaimed w p (w.s.routeOf r).line g).freed = [] := freed
      rw [Work.free, only] at mem
      rw [List.mem_singleton.1 mem]
      exact port

end Sys2Proof.Machine
end

section
/-! Notices that a request hands on, and a ring claim by its outcome (R63, R79 to R81). -/

namespace Sys2Proof.Machine

/-! ## Notices (R181) -/

theorem mem_of_notifyEach {ps : List Part} {q : Position} {n : Notice} : ∀ (ns : List (Position × Notice)) {s t : State}, (q, n) ∈ ns →
    Moved ps (notifyEach ns s) t → s.present q = true → (t.link q).queue.length < 6 → n.frame ∈ (t.link q).queue
  | [], _, _, mem, _, _, _ => nomatch mem
  | x :: ns, s, t, mem, after, present, room => by
    have step : notifyEach (x :: ns) s = notifyEach ns (notify x.1 x.2 s) := rfl
    rw [step] at after
    obtain rfl | mem := List.mem_cons.1 mem
    · have later : Moved (ps ++ [.links, .inbox]) (notify q n s) t :=
        ((moved_notifyEach ns _).mono (by intro y hy; exact List.mem_append_right _ hy)).trans (after.mono (by intro y hy; exact List.mem_append_left _ hy))
      exact mem_of_notify later present room
    · have still : (notify x.1 x.2 s).present q = true := (((moved_notify x.1 x.2 s).links q).present).trans present
      exact mem_of_notifyEach ns mem after still room

/-- A notice of a request's work, other than GRANTED, is queued by the end of the step, where the queue then still takes notices. -/
theorem told_of_note {s : State} {w : Work} (worked : Worked (Work.start s) w) (kinded : w.s.Kinded) {p q : Position} {f : Frame} {c : Code}
    {d : List Byte} {n : Notice} (note : (q, n) ∈ w.notes) (loss : n.isGranted = false) (present : s.present q = true)
    (room : ((closeStep s (freeSlot p (closeRequest s (reply p f.kind c d) w))).link q).queue.length < 6) :
    n.frame ∈ ((closeStep s (freeSlot p (closeRequest s (reply p f.kind c d) w))).link q).queue := by
  obtain ⟨es, -, notes, -⟩ := closeWork_eq s w
  rw [(yields_admitFreed (K := fun _ => True) kinded fun _ _ => trivial).notes] at notes
  have first : Moved allocParts s (closeWork s w).s := (worked.moved.mono (by decide)).trans ((moved_closeWork s w).mono (by decide))
  have answered : Moved allocParts s (reply p f.kind c d (closeWork s w).s) := first.trans ((moved_reply ..).mono (by decide))
  have handed : Moved allocParts s (handOn ((closeWork s w).map (reply p f.kind c d))) :=
    answered.trans ((moved_handOn ((closeWork s w).map (reply p f.kind c d))).mono (by decide))
  have closed : Moved allocParts (handOn ((closeWork s w).map (reply p f.kind c d))) (closeRequest s (reply p f.kind c d) w) :=
    moved_allocEvent id (fun w => .refl w) _
  have ready : (freeSlot p (closeRequest s (reply p f.kind c d) w)).store.ready = s.store.ready :=
    congrArg Store.ready ((handed.trans closed).store (by decide))
  have last := (moved_closeStep s _ ready).links q
  have queue : ((freeSlot p (closeRequest s (reply p f.kind c d) w)).link q).queue = ((closeRequest s (reply p f.kind c d) w).link q).queue := by
    rw [link_freeSlot]
    split
    · next same => rw [same]
    · rfl
  have subset := last.queue.subset
  rw [queue] at subset
  refine subset (mem_of_notifyEach _ (List.mem_filter.2 ⟨?_, by rw [loss]; rfl⟩) closed ?_ ?_)
  · rw [show ((closeWork s w).map (reply p f.kind c d)).notes = (closeWork s w).notes from rfl, notes]
    exact note
  · have before : Moved allocParts (reply p f.kind c d (closeWork s w).s) (takeTxiEvents ((closeWork s w).map (reply p f.kind c d)).events
        (notifyEach ((closeWork s w).map (reply p f.kind c d)).grants (reply p f.kind c d (closeWork s w).s))) :=
      ((moved_notifyEach _ _).mono (by decide)).trans ((moved_takeTxiEvents _ _).mono (by decide))
    exact (((answered.trans before).links q).present).trans present
  · have grown := last.queue.length_le
    rw [queue] at grown
    exact lt_of_le_of_lt grown room

/-! ## A ring claim by its outcome (R81) -/

section

variable {w : Work} {p : Position} {k : PortKind} {b : Band} {r : Route} {before after : List Route}

/-- The candidates of a ring claim, in the ring's order (R80). -/
abbrev State.candidates (s : State) (p : Position) (k : PortKind) (b : Band) : List Route :=
  (s.ringOf p b k).filter fun r => s.candidateEntry p k r && s.covers r b

theorem ringCandidate_iff (s : State) : s.RingCandidate p k b r ↔ (s.candidateEntry p k r && s.covers r b) = true := by
  rw [State.RingCandidate, Bool.and_eq_true]

theorem candidates_of_split {s : State} (ring : s.ringOf p b k = before ++ r :: after) (candidate : s.RingCandidate p k b r) :
    s.candidates p k b = before.filter (fun r => s.candidateEntry p k r && s.covers r b) ++ r ::
      after.filter fun r => s.candidateEntry p k r && s.covers r b := by
  rw [State.candidates, ring, List.filter_append, List.filter_cons_of_pos (p := fun r => s.candidateEntry p k r && s.covers r b) ((ringCandidate_iff s).1 candidate)]

theorem ringClaim_of_qualifying (told : Bool) (ring : w.s.ringOf p b k = before ++ r :: after) (candidate : w.s.RingCandidate p k b r)
    (qualifies : w.s.qualifies p r = true) (first : ∀ x ∈ before, ¬(w.s.RingCandidate p k b x ∧ w.s.qualifies p x = true)) :
    ringClaim p k b told w = (settleRing p k (if told then
      loseFollowed p k (w.s.routeOf r).line (w.s.heldLines p k) (claimRoute p r .now w).1 else (claimRoute p r .now w).1), .assigned r) := by
  have found : (w.s.candidates p k b).find? (fun r => w.s.qualifies p r) = some r := by
    rw [candidates_of_split ring candidate, List.find?_append, List.find?_eq_none.2, List.find?_cons_of_pos qualifies]
    · rfl
    · intro x mem
      obtain ⟨mem, test⟩ := List.mem_filter.1 mem
      exact fun fits => first x mem ⟨(ringCandidate_iff w.s).2 test, fits⟩
  simp only [ringClaim, found]

theorem find_of_none {s : State} (none : ∀ x ∈ s.ringOf p b k, s.RingCandidate p k b x → s.qualifies p x = false) :
    (s.candidates p k b).find? (fun r => s.qualifies p r) = .none :=
  List.find?_eq_none.2 fun x mem => by
    obtain ⟨mem, test⟩ := List.mem_filter.1 mem
    simp [none x mem ((ringCandidate_iff s).2 test)]

/-- A candidate that does not qualify is an occupied line without a record of the position. -/
theorem occupied_of_not_qualifies {s : State} (unfit : s.qualifies p r = false) :
    s.recordAt p (s.routeOf r).line = none ∧ s.canBeHad (s.routeOf r).line r = false := by
  simp only [State.qualifies, Bool.or_eq_false_iff, Option.isSome_eq_false_iff, Option.isNone_iff_eq_none] at unfit
  exact ⟨unfit.2, unfit.1⟩

theorem ringClaim_of_waiting (told : Bool) (ring : w.s.ringOf p b k = before ++ r :: after) (candidate : w.s.RingCandidate p k b r)
    (first : ∀ x ∈ before, ¬w.s.RingCandidate p k b x)
    (none : ∀ x ∈ w.s.ringOf p b k, w.s.RingCandidate p k b x → w.s.qualifies p x = false) :
    ringClaim p k b told w = (settleRing p k (enqueueWait p r w),
      .queued (w.s.routeOf r).line ((enqueueWait p r w).s.placeIn p (w.s.routeOf r).line)) := by
  have head : w.s.candidates p k b = r :: after.filter fun r => w.s.candidateEntry p k r && w.s.covers r b := by
    rw [candidates_of_split ring candidate, List.filter_eq_nil_iff.2 fun x mem test => first x mem ((ringCandidate_iff w.s).2 test)]
    rfl
  obtain ⟨free, busy⟩ := occupied_of_not_qualifies (none r (by rw [ring]; simp) candidate)
  have claim := claimRoute_of_occupied (w := w) free busy .wait
  have nobody := find_of_none none
  rw [head] at nobody
  simp only [ringClaim, head, nobody, claim]

theorem ringClaim_of_none (told : Bool) (none : ∀ x ∈ w.s.ringOf p b k, ¬w.s.RingCandidate p k b x) :
    ringClaim p k b told w = (noteNoRoute p k b w, .noRoute) := by
  have empty : w.s.candidates p k b = [] := List.filter_eq_nil_iff.2 fun x mem test => none x mem ((ringCandidate_iff w.s).2 test)
  have nobody := find_of_none (s := w.s) fun x mem candidate => absurd candidate (none x mem)
  rw [empty] at nobody
  simp only [ringClaim, empty, nobody]

end

end Sys2Proof.Machine
end

section
/-! What a ring claim finds on a port kind depends on that kind's records and lists alone (R79, R80). -/

namespace Sys2Proof.Machine

/-- Two states in which a ring claim on kind `k` finds the same: tables, frequency records and ports, the kind's records, and its lists but
for move flags. -/
structure State.Alike (s t : State) (k : PortKind) : Prop where
  table : t.table = s.table
  freq : t.freq = s.freq
  present : ∀ q, t.present q = s.present q
  records : t.those (fun _ j => decide (j = k)) = s.those fun _ j => decide (j = k)
  lists : ∀ j, s.portOf j = k → (t.listOf j).map WaitEntry.still = (s.listOf j).map WaitEntry.still

variable {k : PortKind}

theorem State.Alike.trans {s t u : State} (h : s.Alike t k) (g : t.Alike u k) : s.Alike u k where
  table := g.table.trans h.table
  freq := g.freq.trans h.freq
  present q := (g.present q).trans (h.present q)
  records := g.records.trans h.records
  lists j port := (g.lists j (by rw [portOf_of_table h.table]; exact port)).trans (h.lists j port)

/-- A claim on the other kind leaves a kind alike. -/
theorem alike_of_beyond {w v : Work} {j : PortKind} (beyond : Beyond j w v) (worked : Worked w v) (other : k ≠ j) : w.s.Alike v.s k where
  table := beyond.leaves.table
  freq := worked.moved.freq (by decide)
  present q := (worked.moved.links q).present
  records := by
    have same : (fun (_ : Position) i => decide (i ≠ j)) = fun _ i => decide (i = k) := by
      funext _ i
      cases i <;> cases j <;> cases k <;> simp at other ⊢
    rw [← same]
    exact beyond.records
  lists i port := beyond.leaves.lists i (by rw [port]; exact other)

section

variable {s t : State} (alike : s.Alike t k) (kinded : s.Kinded) (kinded' : t.Kinded) {p : Position} {b : Band} {r : Route}

include alike

theorem State.Alike.ring : t.ringOf p b k = s.ringOf p b k := by rw [State.ringOf, alike.table]; rfl

theorem State.Alike.covers : t.covers r b = s.covers r b := by rw [State.covers, routeOf_of_table alike.table]; rfl

theorem State.Alike.hasTake {l : Line} (port : s.portOf l = k) : hasTake (t.listOf l) = hasTake (s.listOf l) := by
  have of (xs : List WaitEntry) : Machine.hasTake xs = (xs.map WaitEntry.still).any fun e => e.manner = .take := by
    rw [Machine.hasTake, List.any_map]
    rfl
  rw [of, alike.lists l port, ← of]

theorem State.Alike.placeIn {l : Line} (port : s.portOf l = k) : t.placeIn p l = s.placeIn p l := by
  have of (xs : List WaitEntry) : xs.findIdx (fun e => e.pos = p) = (xs.map WaitEntry.still).findIdx fun e => e.pos = p := by
    rw [List.findIdx_map]
    rfl
  rw [State.placeIn, of, alike.lists l port, ← of, State.placeIn]

theorem State.Alike.routesOf {l : Line} (port : s.portOf l = k) : ((t.listOf l).filter fun e => e.pos = p).map (·.route) =
    ((s.listOf l).filter fun e => e.pos = p).map (·.route) := by
  have of (xs : List WaitEntry) : (xs.filter fun e => e.pos = p).map (·.route) = ((xs.map WaitEntry.still).filter fun e => e.pos = p).map (·.route) := by
    rw [List.filter_map, List.map_map]
    rfl
  rw [of, alike.lists l port, ← of]

theorem State.Alike.recordsOf : t.recordsOf p k = s.recordsOf p k := by
  have of (u : State) : u.recordsOf p k = (u.those fun _ j => decide (j = k)).filter fun r => r.pos = p := by
    rw [State.recordsOf, State.those, List.filter_filter]
  rw [of, alike.records, ← of]

theorem State.Alike.standingRoutes : t.standingRoutes p k = s.standingRoutes p k := by
  rw [State.standingRoutes, State.standingRoutes, alike.recordsOf]
  congr 1
  refine List.flatMap_congr fun l _ => ?_
  rw [portOf_of_table alike.table]
  split
  · next port => exact alike.routesOf port
  · rfl

theorem State.Alike.claimNeeded : t.claimNeeded p k b = s.claimNeeded p k b := by
  simp only [State.claimNeeded, alike.present, alike.standingRoutes, alike.covers]

include kinded kinded'

theorem State.Alike.recordsOn {l : Line} (port : s.portOf l = k) : t.recordsOn l = s.recordsOn l := by
  have of (u : State) (kinded : u.Kinded) (port : u.portOf l = k) :
      u.recordsOn l = (u.those fun _ j => decide (j = k)).filter fun r => r.line = l := by
    rw [State.recordsOn, State.those, List.filter_filter]
    refine List.filter_congr fun x mem => ?_
    by_cases line : x.line = l
    · simp [line, kinded x mem, port]
    · simp [line]
  rw [of t kinded' ((portOf_of_table alike.table l).trans port), alike.records, ← of s kinded port]

theorem State.Alike.recordAt {l : Line} (port : s.portOf l = k) : t.recordAt p l = s.recordAt p l :=
  State.Beside.recordAt (s := { s with alloc := { s.alloc with lists := t.alloc.lists }, table := t.table }) (t := t) (l := l)
    ⟨rfl, alike.recordsOn kinded kinded' port, fun _ => rfl⟩ p

theorem State.Alike.canBeHad {l : Line} (port : s.portOf l = k) : t.canBeHad l r = s.canBeHad l r := by
  have line : t.lineOf l = s.lineOf l := by rw [State.lineOf, alike.table]; rfl
  simp only [State.canBeHad, State.namedRoute, alike.recordsOn kinded kinded' port, alike.hasTake port, portOf_of_table alike.table, line] <;> rfl

theorem State.Alike.qualifies (port : s.portOf (s.routeOf r).line = k) : t.qualifies p r = s.qualifies p r := by
  simp only [State.qualifies, routeOf_of_table alike.table, alike.canBeHad kinded kinded' port, alike.recordAt kinded kinded' port]

theorem State.Alike.candidateEntry : t.candidateEntry p k r = s.candidateEntry p k r := by
  have usable : t.usable r k = s.usable r k := by
    simp only [State.usable, State.routeEnabled, State.routeOf, State.portOf, State.lineOf, alike.table] <;> rfl
  have reserved (l : Line) : t.reservedFrom l p = s.reservedFrom l p := by
    simp only [State.reservedFrom, State.lineOf, alike.table]
  by_cases port : s.portOf (s.routeOf r).line = k
  · simp only [State.candidateEntry, usable, reserved, State.breakingOn, State.sharedOther, routeOf_of_table alike.table,
      portOf_of_table alike.table, alike.recordAt kinded kinded' port, alike.recordsOn kinded kinded' port]
  · have out : s.usable r k = false := by simp [State.usable, port]
    simp only [State.candidateEntry, usable, out, Bool.false_and]

theorem State.Alike.ringCandidate : t.RingCandidate p k b r ↔ s.RingCandidate p k b r := by
  rw [State.RingCandidate, State.RingCandidate, alike.candidateEntry kinded kinded', alike.covers]

end

end Sys2Proof.Machine
end

section
/-! A ring claim as one stage of a larger work: what it leaves of the other kind, of the standings and of what is handed on (R79 to R83). -/

namespace Sys2Proof.Machine

section

variable {w v : Work} {p : Position} {k : PortKind} {r : Route} {b : Band}

/-! ## A claim NOW and the other kind's records -/

theorem passes_of_beyond {j : PortKind} (other : j ≠ k) (beyond : Beyond k w v) (moves : Moves (fun _ _ => True) False w.s v.s)
    (standings : v.s.alloc.standings = w.s.alloc.standings) : Passes (only p j) w.s v.s := fun settled => by
  have keyed := allocationKeyed_moves moves settled.keyed
  refine ⟨settled_only keyed (reclaimsHeld_of_moves settled.held moves standings) fun i port e mem => ?_, beyond.leaves.table, standings,
    fun q i own => ?_⟩
  · rw [beyond.leaves.port] at port
    have was : e.still ∈ (w.s.listOf i).map WaitEntry.still := beyond.leaves.lists i (by rw [port]; exact other) ▸ List.mem_map_of_mem mem
    obtain ⟨x, mem', same⟩ := List.mem_map.1 was
    rw [← (pos_of_still same).1]
    exact settled.apart i port x mem'
  · rw [recordAt_of_those beyond.records settled.keyed keyed beyond.leaves.table (by simp [own.2, other])]
    exact optionRel_refl (fun _ => .refl) _

theorem passes_claimNow {j : PortKind} (other : j ≠ k) (keyed : w.s.AllocationKeyed) (freed : k = .main → w.freed = [])
    (candidate : w.s.candidateEntry p k r = true) (qualifies : w.s.qualifies p r = true) :
    Passes (only p j) w.s (claimRoute p r .now w).1.s := by
  obtain ⟨port, -, -, stands⟩ := candidate_spec candidate
  cases at' : w.s.recordAt p (w.s.routeOf r).line with
  | none =>
    have had : w.s.canBeHad (w.s.routeOf r).line r = true := by simpa [State.qualifies, at'] using qualifies
    have yields : Yields (fun _ => True) w (assign p r w) := yields_assign (kinded_of_keyed keyed) p trivial
    rw [claimRoute_of_free at' had .now]
    exact (passes_of_beyond other (beyond_assign keyed p port) (moves_assign keyed trivial at' (roomy_of_canBeHad had)) yields.standings).trans
      (passes_admitFreed _)
  | some h =>
    obtain ⟨standing, apart⟩ := stands h at'
    obtain ⟨g, claims⟩ := claimRoute_of_held keyed (fun main => freed (port.symm.trans main)) at' standing apart .now
    have changed : Passes (only p j) w.s (reclaimed w p (w.s.routeOf r).line g).s :=
      passes_of_beyond other (beyond_reclaimed keyed p port claims.placed) claims.moves rfl
    obtain claim | ⟨-, -, claim⟩ := claims.claim
    · rw [claim]
      exact changed
    · rw [claim]
      exact changed.trans (goesOn_free _ _)

/-! ## Follow due and re-claim line (R81) -/

/-- A standing whose follow due and re-claim line are cleared. -/
abbrev Standing.settled (x : Standing) : Standing := { x with due := false, reclaim := none }

theorem standing_settleRing (w : Work) (q : Position) (j : PortKind) :
    (settleRing p k w).s.standing q j = if q = p ∧ j = k then (w.s.standing q j).settled else w.s.standing q j :=
  (standing_mapStanding w.s p k Standing.settled q j).trans (by
    split
    · next here => rw [here.1, here.2]
    · rfl)

/-! ## LOST with reason RELEASED-BY-FOLLOW (R82) -/

theorem foldl_lose (why : LostReason) (present : w.s.present p = true) : ∀ (xs : List Line) (v : Work), v.s.present p = true →
    xs.foldl (fun w i => lose p k i why w) v = { v with notes := v.notes ++ xs.map fun i => (p, .lost k i why) }
  | [], v, _ => by simp
  | x :: xs, v, here => by
    have one : lose p k x why v = v.note p (.lost k x why) := by rw [lose, if_pos here]
    rw [List.foldl_cons, one, foldl_lose why present xs (v.note p (.lost k x why)) here]
    simp [Work.note]

/-- The notices that a ring claim called for unasked adds (R82). -/
def lostNotes (p : Position) (k : PortKind) (l : Line) (before : List Line) (w : Work) : List (Position × Notice) :=
  (before.filter fun i => i ≠ l && !(w.s.heldLines p k).contains i).map fun i => (p, .lost k i .releasedByFollow)

theorem loseFollowed_eq (present : w.s.present p = true) (l : Line) (before : List Line) :
    loseFollowed p k l before w = { w with notes := w.notes ++ lostNotes p k l before w } :=
  foldl_lose (w := w) .releasedByFollow present _ w present

/-! ## The stage -/

/-- What a ring claim of (p, kind), or nothing in its place, makes of a work. -/
structure RingStage (p : Position) (k : PortKind) (w v : Work) : Prop where
  worked : Worked w v
  settled : v.s.Settled nobody
  beyond : w.freed = [] → Beyond k w v
  passes : ∀ j, j ≠ k → w.s.Settled (only p j) →
    v.s.Settled (only p j) ∧ ∀ i, w.s.portOf i = j → Option.Rel Holder.Later (w.s.recordAt p i) (v.s.recordAt p i)
  standing : ∀ q j, v.s.standing q j = w.s.standing q j ∨ (q = p ∧ j = k ∧ v.s.standing q j = (w.s.standing q j).settled)
  notes : ∃ ns, v.notes = w.notes ++ ns ∧ ∀ n ∈ ns, n.2.isGranted = false
  quiet : (v.events = w.events ∧ v.freed = w.freed ∧ v.s.alloc.records = w.s.alloc.records) ∨ v.s.Settled (only p k)

theorem ringStage_refl (keyed : w.s.AllocationKeyed) (held : w.s.ReclaimsHeld) : RingStage p k w w where
  worked := .refl w
  settled := settled_nobody keyed held
  beyond _ := ⟨.refl w, rfl⟩
  passes _ _ settled := ⟨settled, fun _ _ => optionRel_refl (fun _ => .refl) _⟩
  standing _ _ := .inl rfl
  notes := ⟨[], by simp, nofun⟩
  quiet := .inl ⟨rfl, rfl, rfl⟩

theorem ringStage_noRoute (keyed : w.s.AllocationKeyed) (held : w.s.ReclaimsHeld) (b : Band) : RingStage p k w (noteNoRoute p k b w) := by
  have same := ringStage_refl (p := p) (k := k) keyed held
  unfold noteNoRoute
  split
  · exact { same with worked := ⟨same.worked.moved⟩, beyond := fun _ => ⟨⟨rfl, fun _ _ => rfl⟩, rfl⟩, notes := ⟨_, rfl, by simp [Notice.isGranted]⟩ }
  · exact same

theorem ringStage_queued (keyed : w.s.AllocationKeyed) (held : w.s.ReclaimsHeld) (port : w.s.portOf (w.s.routeOf r).line = k)
    (none : w.s.recordAt p (w.s.routeOf r).line = none) : RingStage p k w (settleRing p k (enqueueWait p r w)) := by
  have moves : Moves (fun _ _ => True) False w.s (enqueueWait p r w).s := .single (.enqueue trivial none)
  have beyond := beyond_enqueueWait p port
  have other (j : PortKind) (apart : j ≠ k) : Passes (only p j) w.s (enqueueWait p r w).s := passes_of_beyond apart beyond moves rfl
  refine ⟨(worked_enqueueWait p r w).trans (worked_settleRing p k _), ?_, fun _ => ⟨⟨rfl, beyond.leaves.lists⟩, rfl⟩, fun j apart settled => ?_,
    fun q j => ?_, ⟨[], (List.append_nil _).symm, nofun⟩, .inl ⟨rfl, rfl, rfl⟩⟩
  · exact settled_mapStanding (settled_nobody (allocationKeyed_moves moves keyed) (reclaimsHeld_of_moves held moves rfl)) p k (f := Standing.settled) fun _ => .inl rfl
  · obtain ⟨settled', -, -, records⟩ := other j apart settled
    exact ⟨settled_mapStanding settled' p k (f := Standing.settled) fun _ => .inl rfl, fun i port => records p i ⟨rfl, port⟩⟩
  · rw [standing_settleRing]
    split
    · next here => exact .inr ⟨here.1, here.2, rfl⟩
    · exact .inl rfl

theorem ringStage_assigned (told : Bool) (before : List Line) (present : w.s.present p = true) (keyed : w.s.AllocationKeyed) (held : w.s.ReclaimsHeld)
    (freed : k = .main → w.freed = []) (candidate : w.s.candidateEntry p k r = true) (qualifies : w.s.qualifies p r = true) :
    RingStage p k w (settleRing p k (if told then loseFollowed p k (w.s.routeOf r).line before (claimRoute p r .now w).1
      else (claimRoute p r .now w).1)) := by
  have yields : Yields (fun _ => True) w (claimRoute p r .now w).1 := yields_claimRoute (kinded_of_keyed keyed) p nofun trivial fun _ _ => trivial
  have claimed := claimedNow keyed held freed candidate qualifies
  have still : (claimRoute p r .now w).1.s.present p = true := ((worked_claimRoute p r .now w).moved.links p).present.trans present
  have lost : ∃ ns, (if told then loseFollowed p k (w.s.routeOf r).line before (claimRoute p r .now w).1 else (claimRoute p r .now w).1) =
      { (claimRoute p r .now w).1 with notes := (claimRoute p r .now w).1.notes ++ ns } ∧ ∀ n ∈ ns, n.2.isGranted = false := by
    cases told with
    | false => exact ⟨[], by simp, nofun⟩
    | true =>
      refine ⟨_, loseFollowed_eq still _ before, fun n mem => ?_⟩
      obtain ⟨i, -, rfl⟩ := List.mem_map.1 mem
      rfl
  obtain ⟨ns, eq, losses⟩ := lost
  rw [eq]
  refine ⟨⟨((worked_claimRoute p r .now w).trans (worked_settleRing p k _)).moved⟩, ?_, fun none => ?_, fun j apart settled => ?_, fun q j => ?_,
    ⟨ns, by rw [← yields.notes]; rfl, losses⟩, .inr ?_⟩
  · exact settled_mapStanding (settled_nobody claimed.settled.keyed claimed.settled.held) p k (f := Standing.settled) fun _ => .inl rfl
  · have beyond := beyond_claimNow keyed none candidate qualifies
    exact ⟨⟨beyond.leaves.table, beyond.leaves.lists⟩, beyond.records⟩
  · obtain ⟨settled', -, -, records⟩ := passes_claimNow apart keyed freed candidate qualifies settled
    exact ⟨settled_mapStanding settled' p k (f := Standing.settled) fun _ => .inl rfl, fun i port => records p i ⟨rfl, port⟩⟩
  · rw [standing_settleRing]
    have kept : (claimRoute p r .now w).1.s.standing q j = w.s.standing q j := by rw [State.standing, claimed.standings]; rfl
    split
    · next here => exact .inr ⟨here.1, here.2, by rw [← kept]⟩
    · exact .inl kept
  · exact settled_mapStanding claimed.settled p k (f := Standing.settled) fun _ => .inl rfl

end

end Sys2Proof.Machine
end

section
/-! A kind's part of a FOLLOW set on: its ring claim where one is needed, and what the reply names (R78 to R81). -/

namespace Sys2Proof.Machine

section

variable {s : State} {w v : Work} {p : Position} {k : PortKind} {r : Route} {b : Band} {before after : List Route}

/-! ## A ring claim as a stage (R81) -/

theorem ringStage_ringClaim (told : Bool) (present : w.s.present p = true) (keyed : w.s.AllocationKeyed) (held : w.s.ReclaimsHeld)
    (freed : k = .main → w.freed = []) : RingStage p k w (ringClaim p k b told w).1 := by
  have candidate {r : Route} (mem : r ∈ w.s.candidates p k b) : w.s.candidateEntry p k r = true :=
    (Bool.and_eq_true_iff.1 (List.mem_filter.1 mem).2).1
  cases found : (w.s.candidates p k b).find? fun r => w.s.qualifies p r with
  | some r =>
    have stage := ringStage_assigned told (w.s.heldLines p k) present keyed held freed (candidate (List.mem_of_find?_eq_some found))
      (List.find?_some found)
    simp only [ringClaim, found]
    exact stage
  | none =>
    cases head : w.s.candidates p k b with
    | nil =>
      have empty := head ▸ found
      simp only [ringClaim, head, empty]
      exact ringStage_noRoute keyed held b
    | cons r rs =>
      have mem : r ∈ w.s.candidates p k b := by simp [head]
      have unfit : w.s.qualifies p r = false := by simpa using List.find?_eq_none.1 found r mem
      obtain ⟨free, busy⟩ := occupied_of_not_qualifies unfit
      have claim := claimRoute_of_occupied (w := w) free busy .wait
      have none := head ▸ found
      simp only [ringClaim, head, none, claim]
      exact ringStage_queued keyed held (candidate_spec (candidate mem)).1 free

/-! ## A kind's part -/

theorem followKind_of_unneeded (unneeded : ∀ b, (w.s.freqOf p).band = some b → w.s.claimNeeded p k b = false) :
    followKind p k w = (w, followNone) := by
  unfold followKind
  split
  · rfl
  · next b band => rw [unneeded b band, if_neg nofun]

theorem followKind_of_needed (band : (w.s.freqOf p).band = some b) (needed : w.s.claimNeeded p k b = true) :
    followKind p k w = ((ringClaim p k b false w).1, (ringClaim p k b false w).2.bytes) := by
  simp only [followKind, band, needed, if_true]

theorem ringStage_followKind (keyed : w.s.AllocationKeyed) (held : w.s.ReclaimsHeld) (freed : k = .main → w.freed = []) :
    RingStage p k w (followKind p k w).1 := by
  by_cases needed : ∃ b, (w.s.freqOf p).band = some b ∧ w.s.claimNeeded p k b = true
  · obtain ⟨b, band, needed⟩ := needed
    rw [followKind_of_needed band needed]
    exact ringStage_ringClaim false (Bool.and_eq_true_iff.1 needed).1 keyed held freed
  · rw [followKind_of_unneeded fun b band => Bool.eq_false_iff.2 fun on => needed ⟨b, band, on⟩]
    exact ringStage_refl keyed held

theorem length_followKind (p : Position) (k : PortKind) (w : Work) : (followKind p k w).2.length = 3 := by
  have three (o : RingOutcome) : o.bytes.length = 3 := by cases o <;> rfl
  unfold followKind
  split
  · rfl
  · split
    · exact three _
    · rfl

/-- A stage that frees no line, hands no event on and leaves the records. -/
structure Work.Unmoved (w v : Work) : Prop where
  events : v.events = w.events
  freed : v.freed = w.freed
  records : v.s.alloc.records = w.s.alloc.records

/-- What a kind's part of a FOLLOW comes to, by what the ring claim finds in `s` (R81). -/
structure FollowOutcome (p : Position) (k : PortKind) (s : State) (w v : Work) (d : List Byte) : Prop where
  unneeded : (∀ b, (s.freqOf p).band = some b → s.claimNeeded p k b = false) → d = [0, 0xFF, 0xFF] ∧ w.Unmoved v
  assigned : ∀ b, (s.freqOf p).band = some b → s.claimNeeded p k b = true →
    ∀ r before after, s.ringOf p b k = before ++ r :: after → s.RingCandidate p k b r → s.qualifies p r = true →
    (∀ x ∈ before, ¬(s.RingCandidate p k b x ∧ s.qualifies p x = true)) →
    d = [1, byte r.val, 0xFF] ∧ v.s.Settled (only p k) ∧
      ∃ h, v.s.recordAt p (s.routeOf r).line = some h ∧ h.state ≠ .breaking ∧ h.reroute.getD h.route = r
  queued : ∀ b, (s.freqOf p).band = some b → s.claimNeeded p k b = true →
    ∀ r before after, s.ringOf p b k = before ++ r :: after → s.RingCandidate p k b r →
    (∀ x ∈ before, ¬s.RingCandidate p k b x) → (∀ x ∈ s.ringOf p b k, s.RingCandidate p k b x → s.qualifies p x = false) →
    d = [2, byte (s.routeOf r).line.val, byte (v.s.placeIn p (s.routeOf r).line)] ∧ w.Unmoved v ∧
      v.s.listOf (s.routeOf r).line = w.s.queueFor p r (w.s.listOf (s.routeOf r).line)
  noRoute : ∀ b, (s.freqOf p).band = some b → s.claimNeeded p k b = true → (∀ x ∈ s.ringOf p b k, ¬s.RingCandidate p k b x) →
    d = [3, 0xFF, 0xFF] ∧ w.Unmoved v ∧ (p, .noRoute k b) ∈ v.notes

theorem followOutcome (keyed : w.s.AllocationKeyed) (held : w.s.ReclaimsHeld) (freed : k = .main → w.freed = []) :
    FollowOutcome p k w.s w (followKind p k w).1 (followKind p k w).2 where
  unneeded unneeded := by
    rw [followKind_of_unneeded unneeded]
    exact ⟨rfl, rfl, rfl, rfl⟩
  assigned b band needed r before after ring candidate qualifies first := by
    obtain ⟨settled, -, -, record⟩ := claimedNow keyed held freed candidate.1 qualifies
    rw [followKind_of_needed band needed, ringClaim_of_qualifying false ring candidate qualifies first]
    exact ⟨rfl, settled_mapStanding settled p k (f := Standing.settled) fun _ => .inl rfl, record⟩
  queued b band needed r before after ring candidate first none := by
    rw [followKind_of_needed band needed, ringClaim_of_waiting false ring candidate first none]
    refine ⟨rfl, ⟨rfl, rfl, rfl⟩, ?_⟩
    show (w.s.enqueued p r).listOf _ = _
    rw [listOf_enqueued, if_pos rfl]
  noRoute b band needed none := by
    rw [followKind_of_needed band needed, ringClaim_of_none false none, noteNoRoute, if_pos (Bool.and_eq_true_iff.1 needed).1]
    exact ⟨rfl, ⟨rfl, rfl, rfl⟩, by simp [Work.note]⟩

/-- The outcome by what a state alike would find. -/
theorem FollowOutcome.of_alike {d : List Byte} (outcome : FollowOutcome p k w.s w v d) (alike : s.Alike w.s k) (kinded : s.Kinded)
    (kinded' : w.s.Kinded) : FollowOutcome p k s w v d := by
  have band : w.s.freqOf p = s.freqOf p := by rw [State.freqOf, alike.freq]; rfl
  have ring (b : Band) : w.s.ringOf p b k = s.ringOf p b k := alike.ring
  have needed (b : Band) : w.s.claimNeeded p k b = s.claimNeeded p k b := alike.claimNeeded
  have candidate (b : Band) (r : Route) : w.s.RingCandidate p k b r ↔ s.RingCandidate p k b r := alike.ringCandidate kinded kinded'
  have fits {b : Band} {r : Route} (of : s.RingCandidate p k b r) : w.s.qualifies p r = s.qualifies p r :=
    alike.qualifies kinded kinded' (candidate_spec of.1).1
  have line (r : Route) : w.s.routeOf r = s.routeOf r := routeOf_of_table alike.table r
  obtain ⟨unneeded, assigned, queued, noRoute⟩ := outcome
  simp only [band, ring, needed, candidate, line] at unneeded assigned queued noRoute
  refine ⟨unneeded, fun b band needed r before after ring candidate qualifies first => ?_,
    fun b band needed r before after ring candidate first none => ?_, noRoute⟩
  · refine assigned b band needed r before after ring candidate ((fits candidate).trans qualifies) fun x mem both => first x mem ⟨both.1, ?_⟩
    rw [← fits both.1]
    exact both.2
  · exact queued b band needed r before after ring candidate first fun x mem of => (fits of).trans (none x mem of)

/-! ## The place in a list (R50) -/

theorem findIdx_of_map (xs : List WaitEntry) {g : WaitEntry → WaitEntry} (placed : ∀ e, (g e).pos = e.pos) (p : Position) :
    (xs.map g).findIdx (fun e => e.pos = p) = xs.findIdx fun e => e.pos = p := by
  rw [List.findIdx_map]
  congr 1
  funext e
  rw [Function.comp, placed]

/-- A new entry of a position stands behind the TAKE entry and those of equal or higher priority. -/
theorem findIdx_insertWait {e : WaitEntry} : ∀ {xs : List WaitEntry}, (∀ x ∈ xs, x.pos ≠ e.pos) →
    (insertWait e xs).findIdx (fun x => x.pos = e.pos) = (xs.takeWhile fun x => x.manner = .take ∨ e.priority ≤ x.priority).length
  | [], _ => by simp [insertWait, List.findIdx_cons]
  | x :: xs, apart => by
    have other : x.pos ≠ e.pos := apart x List.mem_cons_self
    unfold insertWait
    split
    · next low =>
      have out : decide (x.manner = .take ∨ e.priority ≤ x.priority) = false := by simpa using low
      rw [List.findIdx_cons, List.takeWhile_cons, out]
      simp
    · next high =>
      have stay : decide (x.manner = .take ∨ e.priority ≤ x.priority) = true := by
        simp only [Bool.and_eq_true, decide_eq_true_eq, not_and, not_lt] at high
        simpa [or_iff_not_imp_left] using high
      rw [List.findIdx_cons, List.takeWhile_cons, stay, if_pos rfl, List.length_cons, findIdx_insertWait fun y mem => apart y (List.mem_cons_of_mem _ mem)]
      simp [other]

theorem place_queueFor_listed {xs : List WaitEntry} (listed : ∃ e ∈ xs, e.pos = p) :
    (s.queueFor p r xs).findIdx (fun e => e.pos = p) = xs.findIdx fun e => e.pos = p := by
  rw [State.queueFor, if_pos (by simpa using listed)]
  exact findIdx_of_map _ (fun e => by split <;> rfl) p

theorem place_queueFor_new {xs : List WaitEntry} (apart : ∀ e ∈ xs, e.pos ≠ p) : (s.queueFor p r xs).findIdx (fun e => e.pos = p) =
    (xs.takeWhile fun e => e.manner = .take ∨ (s.settingsOf p).priority ≤ e.priority).length := by
  rw [State.queueFor, if_neg (by simpa using apart)]
  exact findIdx_insertWait (e := newEntry p r .wait s) apart

theorem takeWhile_still (xs : List WaitEntry) (n : Nat) :
    (xs.takeWhile fun e => e.manner = .take ∨ n ≤ e.priority).length =
      ((xs.map WaitEntry.still).takeWhile fun e => e.manner = .take ∨ n ≤ e.priority).length := by
  rw [List.takeWhile_map, List.length_map]
  rfl

/-- The place that the reply names, by the lists of a state alike. -/
theorem place_of_alike (alike : s.Alike w.s k) (port : s.portOf (s.routeOf r).line = k)
    (list : v.s.listOf (s.routeOf r).line = w.s.queueFor p r (w.s.listOf (s.routeOf r).line)) :
    ((∃ e ∈ s.listOf (s.routeOf r).line, e.pos = p) → v.s.placeIn p (s.routeOf r).line = s.placeIn p (s.routeOf r).line) ∧
      ((∀ e ∈ s.listOf (s.routeOf r).line, e.pos ≠ p) → v.s.placeIn p (s.routeOf r).line =
        ((s.listOf (s.routeOf r).line).takeWhile fun e => e.manner = .take ∨ (s.settingsOf p).priority ≤ e.priority).length + 1) := by
  have same := alike.lists _ port
  have settings : w.s.settingsOf p = s.settingsOf p := by rw [State.settingsOf, alike.table]; rfl
  have listed : (∃ e ∈ w.s.listOf (s.routeOf r).line, e.pos = p) ↔ ∃ e ∈ s.listOf (s.routeOf r).line, e.pos = p := by
    have of (xs : List WaitEntry) : (∃ e ∈ xs, e.pos = p) ↔ ∃ e ∈ xs.map WaitEntry.still, e.pos = p := by simp [WaitEntry.still]
    rw [of, same, ← of]
  refine ⟨fun on => ?_, fun apart => ?_⟩
  · rw [State.placeIn, list, place_queueFor_listed (listed.2 on)]
    exact alike.placeIn port
  · have apart' : ∀ e ∈ w.s.listOf (s.routeOf r).line, e.pos ≠ p := fun e mem pos => by
      obtain ⟨x, mem', pos'⟩ := listed.1 ⟨e, mem, pos⟩
      exact apart x mem' pos'
    rw [State.placeIn, list, place_queueFor_new apart', takeWhile_still, same, settings, ← takeWhile_still]

end

end Sys2Proof.Machine
end

section
/-! FOLLOW with setting on (sections 4.2 and 4.3, R78 to R81). -/

namespace Sys2Proof.Machine

section

variable {s : State} {v : Work} {p : Position} {k : PortKind} {ks : List PortKind} {f : Frame} {d : List Byte}

theorem exec_followOn_of_offers (offered : Offers s p f 1) (kind : f.kind = 0x06)
    (on : (followOf f.payload).map (·.2) = some true ∨ followOf f.payload = none) :
    exec (.followOn p) s = .next (closeStep s (freeSlot p (serveFollowOn p f s))) :=
  wholeStep_takeRequest_of_offers (need := fun _ => 1) offered (by simpa [followFits, kind, kindFollow] using on) _

theorem exec_followOn_of_answer (offered : Offers s p f 1) (kind : f.kind = 0x06)
    (on : (followOf f.payload).map (·.2) = some true ∨ followOf f.payload = none) {c : Code} (refused : serveFollowOn p f s = answer p f c s) :
    exec (.followOn p) s = .next (startRule (s.answered p [f.reply c []])) := by
  rw [exec_followOn_of_offers offered kind on, refused, freeSlot_answer, closeStep_answered]

theorem exec_followOn_of_set (offered : Offers s p f 1) (kind : f.kind = 0x06) (payload : followOf f.payload = some (ks, true))
    (ready : s.isReady = true) (safe : s.safe = false) :
    exec (.followOn p) s = .next (closeStep s (freeSlot p (serveFollowSet p f ks s))) := by
  rw [exec_followOn_of_offers offered kind (.inl (by rw [payload]; rfl))]
  simp only [serveFollowOn, payload, ready, safe, Bool.not_true, Bool.false_eq_true, if_false]

/-! ## The work that a FOLLOW starts from -/

/-- The work of a FOLLOW set on, with the flags set. -/
abbrev followStart (p : Position) (ks : List PortKind) (s : State) : Work := (Work.start s).map (setFollow p ks true)

theorem worked_followStart (p : Position) (ks : List PortKind) (s : State) : Worked (Work.start s) (followStart p ks s) := by
  obtain ⟨x, eq⟩ := standings_only_setFollow p true ks s
  rw [followStart, Work.map, show (Work.start s).s = s from rfl, eq]
  exact worked_of_alloc _ rfl

theorem lists_setFollow (p : Position) (ks : List PortKind) (on : Bool) (s : State) : (setFollow p ks on s).alloc.lists = s.alloc.lists := by
  obtain ⟨x, eq⟩ := standings_only_setFollow p on ks s
  rw [eq]

theorem keyed_setFollow (keyed : s.AllocationKeyed) (on : Bool) : (setFollow p ks on s).AllocationKeyed :=
  allocationKeyed_moves (moves_setFollow p ks on s (B := False)) keyed

theorem held_setFollow (held : s.ReclaimsHeld) (on : Bool) : (setFollow p ks on s).ReclaimsHeld := fun q j l named => by
  rw [standing_setFollow] at named
  split at named
  · cases named
  · rw [State.breakingOn, State.recordAt, records_setFollow]
    exact held q j l named

theorem alike_followStart (p : Position) (ks : List PortKind) (s : State) (k : PortKind) : s.Alike (followStart p ks s).s k where
  table := (worked_followStart p ks s).moved.table (by decide)
  freq := (worked_followStart p ks s).moved.freq (by decide)
  present q := ((worked_followStart p ks s).moved.links q).present
  records := congrArg _ (records_setFollow p ks true s)
  lists j _ := congrArg _ (listOf_of_alloc (lists_setFollow p ks true s) j)

/-- The follow state of a kind that the FOLLOW names, behind the kind's own part. -/
theorem standing_followed {q : Position} {j : PortKind} {x y : Standing} (start : x.follow = true ∧ x.due = false ∧ x.reclaim = none)
    (stage : y = x ∨ (q = p ∧ j = k ∧ y = x.settled)) : y.follow = true ∧ y.due = false ∧ y.reclaim = none := by
  obtain rfl | ⟨-, -, rfl⟩ := stage
  · exact start
  · exact ⟨start.1, rfl, rfl⟩

theorem standing_followStart (named : k ∈ ks) : ((followStart p ks s).s.standing p k).follow = true ∧
    ((followStart p ks s).s.standing p k).due = false ∧ ((followStart p ks s).s.standing p k).reclaim = none := by
  rw [show (followStart p ks s).s.standing p k = (setFollow p ks true s).standing p k from rfl, standing_setFollow, if_pos ⟨rfl, named⟩]
  exact ⟨rfl, rfl, rfl⟩

theorem silent_of_unmoved (stage : RingStage p k (followStart p ks s) v) (unmoved : (followStart p ks s).Unmoved v) : v.Silent s where
  worked := (worked_followStart p ks s).trans stage.worked
  events := unmoved.events
  losses n mem := by
    obtain ⟨ns, notes, losses⟩ := stage.notes
    rw [notes, show (followStart p ks s).notes = [] from rfl, List.nil_append] at mem
    exact losses n mem
  freed := unmoved.freed
  held := stage.settled.held
  switching q on := by
    rw [← on, State.switching, State.switching, unmoved.records.trans (records_setFollow p ks true s)]

theorem recordsKept_of_unmoved (stage : RingStage p k (followStart p ks s) v) (unmoved : (followStart p ks s).Unmoved v) {t : State}
    (alloc : t.alloc = v.s.made.made.alloc) (q : Position) : s.RecordsKept t q := by
  have first : s.RecordsKept v.s q := recordsKept_of_records (unmoved.records.trans (records_setFollow p ks true s)) q
  exact ((first.trans (recordsKept_made _ q)).trans (recordsKept_made _ q)).trans (recordsKept_of_records (by rw [alloc]) q)

/-! ## One kind -/

/-- The work and the six bytes of a FOLLOW set on for one kind. -/
theorem serveFollowSet_one (p : Position) (f : Frame) (k : PortKind) (s : State) : serveFollowSet p f [k] s =
    closeRequest s (reply p f.kind .ok (if k = .main then (followKind p k (followStart p [k] s)).2 ++ [0xFF, 0xFF, 0xFF]
      else [0xFF, 0xFF, 0xFF] ++ (followKind p k (followStart p [k] s)).2)) (followKind p k (followStart p [k] s)).1 := by
  cases k <;> rfl

/-- What the reply names of a kind stands at the end of the step, where the kind's record of the claim has gone on and its notice is told. -/
theorem followReported_of_outcome {w : Work} {t : State} (outcome : FollowOutcome p k s w v d) (alike : s.Alike w.s k)
    (record : v.s.Settled (only p k) → ∀ l, s.portOf l = k → Option.Rel Holder.Later (v.s.recordAt p l) (t.recordAt p l))
    (told : ∀ n : Notice, (p, n) ∈ v.notes → n.isGranted = false → s.present p = true → (t.link p).queue.length < 6 → n.frame ∈ (t.link p).queue) :
    FollowReported p k s t d where
  unneeded unneeded := (outcome.unneeded unneeded).1
  assigned b band needed r before after ring candidate qualifies first := by
    obtain ⟨bytes, settled, h, at', stands, wants⟩ := outcome.assigned b band needed r before after ring candidate qualifies first
    have rel := record settled (s.routeOf r).line (candidate_spec candidate.1).1
    rw [at'] at rel
    obtain ⟨y, at'', later⟩ := some_of_rel rel
    exact ⟨bytes, y, at'', fun breaking => stands (later.breaking.1 breaking), later.wanted.trans wants⟩
  queued b band needed r before after ring candidate first none := by
    obtain ⟨bytes, -, list⟩ := outcome.queued b band needed r before after ring candidate first none
    obtain ⟨listed, unlisted⟩ := place_of_alike alike (candidate_spec candidate.1).1 list
    exact ⟨fun on => by rw [bytes, listed on], fun apart => by rw [bytes, unlisted apart]⟩
  noRoute b band needed none := by
    obtain ⟨bytes, -, note⟩ := outcome.noRoute b band needed none
    exact ⟨bytes, told (.noRoute k b) note rfl (Bool.and_eq_true_iff.1 needed).1⟩

theorem mem_queueFor_self (r : Route) (xs : List WaitEntry) : ∃ e ∈ s.queueFor p r xs, e.pos = p ∧ e.route = r := by
  unfold State.queueFor
  split
  · next listed =>
    obtain ⟨e, mem, pos⟩ := List.any_eq_true.1 listed
    have same : e.pos = p := of_decide_eq_true pos
    exact ⟨{ e with route := r }, List.mem_map.2 ⟨e, mem, if_pos same⟩, same, rfl⟩
  · obtain ⟨front, back, -, inserted, -⟩ := insertWait_split (newEntry p r .wait s) xs
    exact ⟨newEntry p r .wait s, by rw [inserted]; simp, rfl, rfl⟩

/-- A FOLLOW set on for one kind: the reply first, the follow state, what the reply names, and where no claim is made the records kept. -/
structure FollowedOne (p : Position) (f : Frame) (k : PortKind) (s t : State) (v : Work) (d : List Byte) : Prop where
  served : Served allocParts p (f.reply .ok (if k = .main then d ++ [0xFF, 0xFF, 0xFF] else [0xFF, 0xFF, 0xFF] ++ d)) s t
  standing : (t.standing p k).follow = true ∧ (t.standing p k).due = false ∧ (t.standing p k).reclaim = none
  outcome : FollowOutcome p k s (followStart p [k] s) v d
  reported : FollowReported p k s t d
  kept : (followStart p [k] s).Unmoved v → (∀ q, s.RecordsKept t q) ∧ t.alloc.lists = v.s.alloc.lists

theorem followedOne (keyed : s.AllocationKeyed) (held : s.ReclaimsHeld) : FollowedOne p f k s (closeStep s (freeSlot p (serveFollowSet p f [k] s)))
    (followKind p k (followStart p [k] s)).1 (followKind p k (followStart p [k] s)).2 := by
  have keyed' := keyed_setFollow (p := p) (ks := [k]) keyed true
  have held' := held_setFollow (p := p) (ks := [k]) held true
  have stage : RingStage p k (followStart p [k] s) (followKind p k (followStart p [k] s)).1 := ringStage_followKind keyed' held' fun _ => rfl
  have alike := alike_followStart p [k] s k
  have outcome : FollowOutcome p k s _ _ _ := (followOutcome (w := followStart p [k] s) (p := p) (k := k) keyed' held' fun _ => rfl).of_alike alike
    (kinded_of_keyed keyed) (kinded_of_keyed keyed')
  have worked := (worked_followStart p [k] s).trans stage.worked
  have port (j : Line) : (followKind p k (followStart p [k] s)).1.s.portOf j = s.portOf j := portOf_of_table (worked.moved.table (by decide)) j
  rw [serveFollowSet_one]
  obtain ⟨served, -, passes⟩ := served_of_work worked (p := p) (f := f) (c := .ok) (d := if k = .main then
    (followKind p k (followStart p [k] s)).2 ++ [0xFF, 0xFF, 0xFF] else [0xFF, 0xFF, 0xFF] ++ (followKind p k (followStart p [k] s)).2)
  refine ⟨served, ?_, outcome, ?_, fun unmoved => ?_⟩
  · rw [State.standing, (passes nobody stage.settled).standings, ← State.standing]
    exact standing_followed (standing_followStart (List.mem_singleton.2 rfl)) (stage.standing p k)
  · refine followReported_of_outcome outcome alike (fun settled l at' => (passes _ settled).own l ((port l).trans at')) fun n note loss present room => ?_
    exact told_of_note worked (kinded_of_keyed stage.settled.keyed) note loss present room
  · obtain ⟨t, closes, -, -, alloc⟩ := served_of_silent (silent_of_unmoved stage unmoved) (p := p) (f := f) (c := .ok) (d := if k = .main then
      (followKind p k (followStart p [k] s)).2 ++ [0xFF, 0xFF, 0xFF] else [0xFF, 0xFF, 0xFF] ++ (followKind p k (followStart p [k] s)).2)
    rw [closes]
    exact ⟨recordsKept_of_unmoved stage unmoved alloc, by rw [alloc]; rfl⟩

/-! ## Both kinds -/

theorem followedBoth (keyed : s.AllocationKeyed) (held : s.ReclaimsHeld) {m a : List Byte} {v : Work}
    (main : followKind p .main (followStart p [.main, .aux] s) = (v, m)) (aux : (followKind p .aux v).2 = a) :
    let t := closeStep s (freeSlot p (serveFollowSet p f [.main, .aux] s))
    Served allocParts p (f.reply .ok (m ++ a)) s t ∧ FollowReported p .main s t m ∧ FollowReported p .aux s t a ∧
      ∀ k, (t.standing p k).follow = true ∧ (t.standing p k).due = false ∧ (t.standing p k).reclaim = none := by
  have keyed' := keyed_setFollow (p := p) (ks := [.main, .aux]) keyed true
  have held' := held_setFollow (p := p) (ks := [.main, .aux]) held true
  have first : RingStage p .main (followStart p [.main, .aux] s) v := by
    rw [← show (followKind p .main (followStart p [.main, .aux] s)).1 = v from congrArg _ main]
    exact ringStage_followKind keyed' held' fun _ => rfl
  have second : RingStage p .aux v (followKind p .aux v).1 := ringStage_followKind first.settled.keyed first.settled.held nofun
  have alike := alike_followStart p [.main, .aux] s
  have alike' : s.Alike v.s .aux := (alike .aux).trans (alike_of_beyond (first.beyond rfl) first.worked nofun)
  have one : FollowOutcome p .main s (followStart p [.main, .aux] s) v m := by
    have outcome := (followOutcome (w := followStart p [.main, .aux] s) (p := p) (k := .main) keyed' held' fun _ => rfl).of_alike (alike .main)
      (kinded_of_keyed keyed) (kinded_of_keyed keyed')
    rw [main] at outcome
    exact outcome
  have two : FollowOutcome p .aux s v (followKind p .aux v).1 (followKind p .aux v).2 :=
    (followOutcome (k := .aux) first.settled.keyed first.settled.held nofun).of_alike alike' (kinded_of_keyed keyed) (kinded_of_keyed first.settled.keyed)
  have worked := ((worked_followStart p [.main, .aux] s).trans first.worked)
  have worked' := worked.trans second.worked
  have port (j : Line) : v.s.portOf j = s.portOf j := portOf_of_table (worked.moved.table (by decide)) j
  have port' (j : Line) : (followKind p .aux v).1.s.portOf j = s.portOf j := portOf_of_table (worked'.moved.table (by decide)) j
  have bytes : (followKind p .main (followStart p [.main, .aux] s)).2 = m := by rw [main]
  have work : (followKind p .main (followStart p [.main, .aux] s)).1 = v := by rw [main]
  intro t
  have eq : t = closeStep s (freeSlot p (closeRequest s (reply p f.kind .ok (m ++ a)) (followKind p .aux v).1)) := by
    rw [← aux, ← work, ← bytes]
    rfl
  obtain ⟨served, -, passes⟩ := served_of_work worked' (p := p) (f := f) (c := .ok) (d := m ++ a)
  rw [eq]
  have told (n : Notice) (note : (p, n) ∈ (followKind p .aux v).1.notes) (loss : n.isGranted = false) :=
    told_of_note (f := f) (p := p) (q := p) (c := .ok) (d := m ++ a) worked' (kinded_of_keyed second.settled.keyed) note loss
  refine ⟨served, ?_, ?_, fun k => ?_⟩
  · refine followReported_of_outcome one (alike .main) (fun settled l at' => ?_) fun n note loss => told n ?_ loss
    · obtain ⟨settled', records⟩ := second.passes .main nofun settled
      exact optionRel_trans (fun _ _ _ => .trans) (records l ((port l).trans at')) ((passes _ settled').own l ((port' l).trans at'))
    · obtain ⟨ns, notes, -⟩ := second.notes
      rw [notes]
      exact List.mem_append_left _ note
  · rw [← aux]
    refine followReported_of_outcome two alike' (fun settled l at' => ?_) fun n note loss => ?_
    · rw [aux]
      exact (passes _ settled).own l ((port' l).trans at')
    · rw [aux]
      exact told n note loss
  · rw [State.standing, (passes nobody second.settled).standings, ← State.standing]
    exact standing_followed (standing_followed (standing_followStart (by cases k <;> simp)) (first.standing p k)) (second.standing p k)

/-! ## The need test (R79) -/

theorem claimNeeded_iff (s : State) (p : Position) (k : PortKind) (b : Band) : s.claimNeeded p k b = true ↔ s.present p = true ∧
    (∀ x ∈ s.alloc.records, x.pos = p → x.kind = k → x.state ≠ .breaking →
      BandSet.has (s.routeOf (x.reroute.getD x.route)).bands b = false) ∧
    ∀ l, s.portOf l = k → ∀ e ∈ s.listOf l, e.pos = p → BandSet.has (s.routeOf e.route).bands b = false := by
  rw [State.claimNeeded, Bool.and_eq_true, Bool.not_eq_true', List.any_eq_false]
  refine and_congr_right fun _ => ?_
  rw [State.standingRoutes, List.forall_mem_append, List.forall_mem_map]
  refine and_congr ⟨fun all x mem pos kind stands => ?_, fun all x of => ?_⟩ ⟨fun all l port e mem pos => ?_, fun all r of => ?_⟩
  · exact Bool.not_eq_true _ ▸ all x (List.mem_filter.2 ⟨(mem_recordsOf _ _ _ _).2 ⟨mem, pos, kind⟩, by simpa using stands⟩)
  · obtain ⟨mem, stands⟩ := List.mem_filter.1 of
    obtain ⟨mem, pos, kind⟩ := (mem_recordsOf _ _ _ _).1 mem
    exact Bool.not_eq_true _ ▸ all x mem pos kind (by simpa using stands)
  · refine Bool.not_eq_true _ ▸ all e.route (List.mem_flatMap.2 ⟨l, List.mem_finRange l, ?_⟩)
    rw [if_pos port]
    exact List.mem_map.2 ⟨e, List.mem_filter.2 ⟨mem, by simpa using pos⟩, rfl⟩
  · obtain ⟨l, -, mem⟩ := List.mem_flatMap.1 of
    split at mem
    · next port =>
      obtain ⟨e, waits, rfl⟩ := List.mem_map.1 mem
      obtain ⟨mem, pos⟩ := List.mem_filter.1 waits
      exact Bool.not_eq_true _ ▸ all l port e mem (by simpa using pos)
    · cases mem

end

/-- Settles O45: the flags are set, and each named kind's ring claim, where one is needed, comes to what the reply says. -/
theorem followOnClaims : Obligations.FollowOnClaims := by
  refine ⟨fun s p f k offered kind payload => ?_, fun s p f offered kind payload => ?_, claimNeeded_iff, fun s p f offered kind bad => ?_⟩
  · have named : followOf f.payload = some ([k], true) := by rw [payload]; cases k <;> rfl
    have refuse {c : Code} (refused : serveFollowOn p f s = answer p f c s) :=
      exec_followOn_of_answer offered kind (.inl (by rw [named]; rfl)) refused
    refine ⟨fun starting => refuse ?_, fun ready safe => refuse ?_, fun ready safe keyed held => ?_⟩
    · simp [serveFollowOn, named, starting]
    · simp [serveFollowOn, named, ready, safe]
    · have followed := followedOne (p := p) (f := f) (k := k) keyed held
      have kept := fun unmoved q => (followed.kept unmoved).1 q
      refine ⟨_, _, exec_followOn_of_set offered kind named ready safe, followed.served, followed.standing.1, followed.standing.2.1,
        followed.standing.2.2, fun none => ?_, fun b band => ⟨fun unneeded => ?_, fun needed => ⟨followed.reported.assigned b band needed,
        fun r before after ring candidate first unfit => ?_, fun none => ?_⟩⟩⟩
      · obtain ⟨bytes, unmoved⟩ := followed.outcome.unneeded fun b band => by rw [none] at band; cases band
        exact ⟨bytes, kept unmoved⟩
      · obtain ⟨bytes, unmoved⟩ := followed.outcome.unneeded fun c same => by rw [band] at same; cases same; exact unneeded
        exact ⟨bytes, kept unmoved⟩
      · obtain ⟨bytes, unmoved, list⟩ := followed.outcome.queued b band needed r before after ring candidate first unfit
        have lists := listOf_of_alloc (followed.kept unmoved).2 (s.routeOf r).line
        refine ⟨?_, ?_, kept unmoved⟩
        · rw [bytes, State.placeIn, ← lists, ← State.placeIn]
        · rw [lists, list]
          exact mem_queueFor_self r _
      · obtain ⟨bytes, unmoved, -⟩ := followed.outcome.noRoute b band needed none
        exact ⟨bytes, kept unmoved, (followed.reported.noRoute b band needed none).2⟩
  · have named : followOf f.payload = some ([.main, .aux], true) := by rw [payload]; rfl
    have refuse {c : Code} (refused : serveFollowOn p f s = answer p f c s) :=
      exec_followOn_of_answer offered kind (.inl (by rw [named]; rfl)) refused
    refine ⟨fun starting => refuse ?_, fun ready safe => refuse ?_, fun ready safe keyed held => ?_⟩
    · simp [serveFollowOn, named, starting]
    · simp [serveFollowOn, named, ready, safe]
    · obtain ⟨served, main, aux, standings⟩ := followedBoth (p := p) (f := f) keyed held rfl rfl
      exact ⟨_, _, _, exec_followOn_of_set offered kind named ready safe, served, length_followKind .., length_followKind .., main, aux, standings⟩
  · refine exec_followOn_of_answer offered kind (.inr (followOf_eq_none bad)) ?_
    rw [serveFollowOn, followOf_eq_none bad]

end Sys2Proof.Machine
end

section
/-! A GRANTED position that nothing revokes: it stays on the air, and its BREAKING records wait for their path (R44, R108). -/

namespace Sys2Proof.Machine

section

variable {p : Position} {L : Line → Prop} {s t u : State}

/-- The position is GRANTED, and so not in the waiting set. -/
structure State.Granted (s : State) (p : Position) : Prop where
  state : (s.txOf p).state = .granted
  out : p ∉ s.waiting

theorem State.Granted.notQuiet (granted : s.Granted p) : s.pathQuiet p = false := by
  simp [State.pathQuiet, granted.state, TxState.onAir]

/-- A GRANTED position and the lines `L` that it has left, under the laws of the allocator. -/
structure State.Holding (s : State) (p : Position) (L : Line → Prop) : Prop where
  granted : s.Granted p
  keyed : s.AllocationKeyed
  held : s.ReclaimsHeld
  spent : ∀ j, L j → s.Spent p j

/-- A GRANTED position stays GRANTED, with skip hang where it was set, and its records on lines that it has left are as they were. -/
structure Stood (p : Position) (L : Line → Prop) (s t : State) : Prop where
  holding : t.Holding p L
  skip : (s.txOf p).skipHang = true → (t.txOf p).skipHang = true
  records : ∀ j, L j → t.recordAt p j = s.recordAt p j

/-- From a state with `p` GRANTED on, it stays so. -/
def Stays (p : Position) (L : Line → Prop) (s t : State) : Prop := s.Holding p L → Stood p L s t

theorem Stays.trans (one : Stays p L s t) (two : Stays p L t u) : Stays p L s u := fun holding => by
  obtain ⟨holding', skip, records⟩ := one holding
  obtain ⟨holding'', skip', records'⟩ := two holding'
  exact ⟨holding'', fun on => skip' (skip on), fun j own => (records' j own).trans (records j own)⟩

/-- Changes that leave the transmit record of `p` on the air and its BREAKING records. -/
theorem stays_of_passes (passes : Passes (spentOn p L) s t) (granted : s.Granted p → t.Granted p)
    (skip : s.Granted p → (s.txOf p).skipHang = true → (t.txOf p).skipHang = true)
    (records : s.Holding p L → ∀ j, L j → t.recordAt p j = s.recordAt p j) : Stays p L s t := fun holding => by
  have goes := passes (settled_spent holding.keyed holding.held holding.spent)
  refine ⟨⟨granted holding.granted, goes.settled.keyed, goes.settled.held, fun j own => ⟨fun e mem pos => ?_, fun h at' => ?_⟩⟩,
    skip holding.granted, records holding⟩
  · exact goes.settled.out j e mem ⟨pos, own⟩
  · exact (holding.spent j own).broken h (records holding j own ▸ at')

theorem stays_of_same (granted : s.Granted p → t.Granted p) (skip : s.Granted p → (s.txOf p).skipHang = true → (t.txOf p).skipHang = true)
    (table : t.table = s.table) (alloc : t.alloc = s.alloc) : Stays p L s t :=
  stays_of_passes (passes_of_same table alloc) granted skip fun _ j _ => recordAt_of_alloc (congrArg _ alloc) p j

theorem granted_of_aloof (aloof : Aloof p s t) (granted : s.Granted p) : t.Granted p := by
  obtain ⟨tx, out⟩ := aloof granted.out
  exact ⟨by rw [tx]; exact granted.state, out⟩

theorem skip_of_aloof (aloof : Aloof p s t) (granted : s.Granted p) (on : (s.txOf p).skipHang = true) : (t.txOf p).skipHang = true := by
  rw [(aloof granted.out).1]
  exact on

theorem stays_of_aloof (aloof : Aloof p s t) (table : t.table = s.table) (alloc : t.alloc = s.alloc) : Stays p L s t :=
  stays_of_same (granted_of_aloof aloof) (skip_of_aloof aloof) table alloc

theorem stays_of_moved {ps : List Part} (moved : Moved ps s t) (table : Part.table ∉ ps) (alloc : Part.alloc ∉ ps) (tx : Part.tx ∉ ps)
    (waiting : Part.waiting ∉ ps) : Stays p L s t :=
  stays_of_aloof (aloof_of_moved moved tx waiting) (moved.table table) (moved.alloc alloc)

/-! ## Events for the interlock -/

theorem takeMainRelease_of_granted (granted : (s.txOf p).state = .granted) :
    takeMainRelease p s = s.mapTx p fun x => { x with skipHang := true } := by
  unfold takeMainRelease
  rw [granted]

/-- A GRANTED position stays GRANTED, with skip hang where it was set. -/
def Airs (p : Position) (s t : State) : Prop := s.Granted p → t.Granted p ∧ ((s.txOf p).skipHang = true → (t.txOf p).skipHang = true)

theorem Airs.trans (one : Airs p s t) (two : Airs p t u) : Airs p s u := fun granted => by
  obtain ⟨still, skip⟩ := one granted
  exact ⟨(two still).1, fun on => (two still).2 (skip on)⟩

theorem Aloof.airs (aloof : Aloof p s t) : Airs p s t := fun granted => ⟨granted_of_aloof aloof granted, skip_of_aloof aloof granted⟩

theorem airs_takeTxiEvent {e : TxiEvent} (other : e ≠ .revoke p) (s : State) : Airs p s (takeTxiEvent e s) := by
  by_cases release : e = .mainRelease p
  · subst release
    intro granted
    have eq : takeTxiEvent (.mainRelease p) s = s.mapTx p fun x => { x with skipHang := true } := takeMainRelease_of_granted granted.state
    rw [eq]
    exact ⟨⟨by rw [txOf_mapTx_self]; exact granted.state, granted.out⟩, fun _ => by rw [txOf_mapTx_self]⟩
  · refine (aloof_takeTxiEvent (fun ends => ?_) s).airs
    cases e with
    | connected _ => exact ends
    | switchingEnded _ => exact ends
    | mainRelease q => exact release (congrArg _ ends)
    | revoke q => exact other (congrArg _ ends)

theorem airs_takeTxiEvents : ∀ (es : List TxiEvent) (s : State), (∀ e ∈ es, e ≠ .revoke p) → Airs p s (takeTxiEvents es s)
  | [], _, _ => (Aloof.refl p _).airs
  | e :: es, s, others => (airs_takeTxiEvent (others e List.mem_cons_self) s).trans
      (airs_takeTxiEvents es _ fun e mem => others e (List.mem_cons_of_mem _ mem))

theorem stays_takeTxiEvents (es : List TxiEvent) (s : State) (others : ∀ e ∈ es, e ≠ .revoke p) : Stays p L s (takeTxiEvents es s) :=
  have moved := moved_takeTxiEvents es s
  stays_of_same (fun granted => (airs_takeTxiEvents es s others granted).1) (fun granted => (airs_takeTxiEvents es s others granted).2)
    (moved.table (by decide)) (moved.alloc (by decide))

/-- Where a MAIN release event of `p` is taken, skip hang is set. -/
theorem skip_takeTxiEvents : ∀ (es : List TxiEvent) (s : State), (∀ e ∈ es, e ≠ .revoke p) → TxiEvent.mainRelease p ∈ es → s.Granted p →
    ((takeTxiEvents es s).txOf p).skipHang = true
  | [], _, _, mem, _ => nomatch mem
  | e :: es, s, others, mem, granted => by
    have rest := fun e mem => others e (List.mem_cons_of_mem _ mem)
    obtain ⟨still, -⟩ := airs_takeTxiEvent (others e List.mem_cons_self) s granted
    obtain rfl | mem := List.mem_cons.1 mem
    · refine (airs_takeTxiEvents es _ rest still).2 ?_
      have taken : takeTxiEvent (.mainRelease p) s = _ := takeMainRelease_of_granted granted.state
      rw [taken, txOf_mapTx_self]
    · exact skip_takeTxiEvents es _ rest mem still

/-! ## The end of HANG (R108) -/

/-- The position is in HANG, and so not in the waiting set. -/
structure State.Hanging (s : State) (p : Position) : Prop where
  state : (s.txOf p).state = .hang
  out : p ∉ s.waiting

/-- The transmission of `p` has ended without a revocation. -/
structure Released (p : Position) (s t : State) : Prop where
  idle : (t.txOf p).state = .idle
  out : p ∉ t.waiting
  cause : (t.txOf p).lastRevocation = (s.txOf p).lastRevocation

theorem txOf_leaveAir_self (p : Position) (next : TxState) (s : State) : (leaveAir p next s).txOf p = (s.txOf p).leave next s.policy := by
  rw [State.txOf, leaveAir, (moved_evaluateAdvisories _).tx (by decide), tx_leaveSlot, get_put, if_pos rfl]

theorem released_takeMainRelease (hanging : s.Hanging p) : Released p s (takeMainRelease p s) := by
  have eq : takeMainRelease p s = arbiter (leaveAir p .idle s) := by
    unfold takeMainRelease
    rw [hanging.state]
  have waiting : (leaveAir p .idle s).waiting = s.waiting :=
    ((moved_evaluateAdvisories _).waiting (by decide)).trans ((moved_leaveSlot ..).waiting (by decide))
  obtain ⟨same, out⟩ := aloof_arbiter p (leaveAir p .idle s) (by rw [waiting]; exact hanging.out)
  rw [eq]
  exact ⟨by rw [same, txOf_leaveAir_self]; rfl, out, by rw [same, txOf_leaveAir_self]; rfl⟩

theorem Released.grounded (released : Released p s t) (grounds : Grounds p t u) : Released p s u := by
  obtain ⟨same, out⟩ := grounds (by simp [State.onAir, released.idle, TxState.onAir]) released.out
  exact ⟨by rw [same]; exact released.idle, out, by rw [same]; exact released.cause⟩

theorem released_takeTxiEvents : ∀ (es : List TxiEvent) (s : State), (∀ e ∈ es, e ≠ .revoke p) → TxiEvent.mainRelease p ∈ es → s.Hanging p →
    Released p s (takeTxiEvents es s)
  | [], _, _, mem, _ => nomatch mem
  | e :: es, s, others, mem, hanging => by
    by_cases release : e = .mainRelease p
    · subst release
      exact (released_takeMainRelease hanging).grounded (grounds_takeTxiEvents p es _)
    · have aloof : Aloof p s (takeTxiEvent e s) := by
        refine aloof_takeTxiEvent (fun ends => ?_) s
        cases e with
        | connected _ => exact ends
        | switchingEnded _ => exact ends
        | mainRelease q => exact release (congrArg _ ends)
        | revoke q => exact others _ List.mem_cons_self (congrArg _ ends)
      obtain ⟨same, out⟩ := aloof hanging.out
      have mem' := (List.mem_cons.1 mem).resolve_left (Ne.symm release)
      obtain ⟨idle, gone, cause⟩ := released_takeTxiEvents es _ (fun e mem => others e (List.mem_cons_of_mem _ mem)) mem'
        ⟨by rw [same]; exact hanging.state, out⟩
      exact ⟨idle, gone, by rw [← same]; exact cause⟩

theorem released_handOn {w : Work} (others : ∀ e ∈ w.events, e ≠ .revoke p) (mem : TxiEvent.mainRelease p ∈ w.events) (hanging : w.s.Hanging p) :
    Released p w.s (handOn w) := by
  obtain ⟨same, out⟩ := aloof_notifyEach p w.grants w.s hanging.out
  obtain ⟨idle, gone, cause⟩ := released_takeTxiEvents _ (notifyEach w.grants w.s) others mem ⟨by rw [same]; exact hanging.state, out⟩
  exact Released.grounded ⟨idle, gone, by rw [← same]; exact cause⟩ (aloof_notifyEach p _ _).grounds

theorem stays_notifyEach (ns : List (Position × Notice)) (s : State) : Stays p L s (notifyEach ns s) :=
  stays_of_moved (moved_notifyEach ns s) (by decide) (by decide) (by decide) (by decide)

theorem stays_handOn {w : Work} (others : ∀ e ∈ w.events, e ≠ .revoke p) : Stays p L w.s (handOn w) :=
  ((stays_notifyEach _ _).trans (stays_takeTxiEvents _ _ others)).trans (stays_notifyEach _ _)

/-! ## The allocator's changes -/

theorem stays_made (s : State) : Stays p L s s.made :=
  stays_of_passes (passes_made s) (fun g => ⟨g.state, g.out⟩) (fun _ on => on) fun holding j own => by
    rw [recordAt_made]
    cases at' : s.recordAt p j with
    | none => rfl
    | some h =>
      rw [Option.map_some, if_neg]
      simp [(holding.spent j own).broken h at']

theorem stays_admitFreed (w : Work) : Stays p L w.s (admitFreed w).s :=
  have aloof : Aloof p w.s (admitFreed w).s := aloof_of_moved (worked_admitFreed w).moved (by decide) (by decide)
  stays_of_passes (passes_admitFreed w) (granted_of_aloof aloof) (skip_of_aloof aloof)
    fun holding j own => (spent_admitFreed holding.keyed.placed (holding.spent j own)).1

theorem stays_closeWork (b : State) (w : Work) : Stays p L w.s (closeWork b w).s := by
  rw [closeWork_s]
  exact ((stays_admitFreed w).trans (stays_made _)).trans (stays_of_moved (moved_recompose _) (by decide) (by decide) (by decide) (by decide))

/-- The close of a work hands on no revocation that the work does not. -/
theorem unrevoked_closeWork (b : State) {w : Work} (kinded : w.s.Kinded) (others : ∀ e ∈ w.events, e ≠ .revoke p) :
    ∀ e ∈ (closeWork b w).events, e ≠ .revoke p := fun e mem => by
  obtain ⟨es, events, -, ended⟩ := closeWork_eq b w
  obtain ⟨fs, events', releases⟩ := (yields_admitFreed (K := fun _ => True) kinded fun _ _ => trivial).events
  rw [events, events', List.mem_append, List.mem_append] at mem
  obtain (mem | mem) | mem := mem
  · exact others e mem
  · obtain ⟨-, q, rfl⟩ := releases e mem
    nofun
  · obtain ⟨q, rfl, -⟩ := ended e mem
    nofun

theorem stays_quietWork {q : Position} (quiet : s.pathQuiet q = true) : Stays p L s (quietWork q s).s :=
  have aloof : Aloof p s (quietWork q s).s := aloof_of_moved (worked_pathQuiet q (Work.start s)).moved (by decide) (by decide)
  stays_of_passes (passes_quietWork quiet) (granted_of_aloof aloof) (skip_of_aloof aloof) fun holding j own => by
    have other : p ≠ q := fun same => by rw [← same, holding.granted.notQuiet] at quiet; cases quiet
    rw [recordAt_of_map (records_quietWork holding.keyed quiet) fun r => ⟨(quieted_placed s q r).1, (quieted_placed s q r).2.1⟩]
    cases at' : s.recordAt p j with
    | none => rfl
    | some h => rw [Option.map_some, quieted_of_ne (by rw [(mem_of_recordAt at').2.1]; exact other)]

theorem stays_allocPathQuiet {q : Position} (quiet : s.pathQuiet q = true) : Stays p L s (allocPathQuiet q s) := fun holding => by
  have one : Stays p L s (admitFreed (quietWork q s)).s := (stays_quietWork quiet).trans (stays_admitFreed _)
  have first := one holding
  have quieted := (yields_quietWork holding.keyed q).mono (K' := fun _ => True) (fun _ _ => trivial) nofun
  have yields := quieted.trans (yields_admitFreed quieted.kinded fun _ _ => trivial)
  have others : ∀ e ∈ (admitFreed (quietWork q s)).events, e ≠ .revoke p := fun e mem => by
    obtain ⟨es, events, releases⟩ := yields.events
    rw [events] at mem
    obtain ⟨-, q, rfl⟩ := releases e ((List.mem_append.1 mem).resolve_left nofun)
    nofun
  have rest : Stays p L (admitFreed (quietWork q s)).s (allocPathQuiet q s) := by
    rw [allocPathQuiet, allocEvent, reclaims_of_held first.holding.held]
    exact (stays_closeWork s _).trans (stays_handOn (unrevoked_closeWork s yields.kinded others))
  exact (one.trans rest) holding

theorem stays_pathQuietEvent {q : Position} (quiet : s.pathQuiet q = true) : Stays p L s (pathQuietEvent q s) :=
  (stays_allocPathQuiet quiet).trans (stays_of_moved (moved_filterMove q _) (by decide) (by decide) (by decide) (by decide))

theorem stays_quietEvents (b : State) : ∀ (n : Nat) (d : List Position) (s : State), Stays p L s (quietEvents b n d s)
  | 0, _, s => stays_of_aloof (.refl p s) rfl rfl
  | n + 1, d, s => by
    unfold quietEvents
    split
    · next q found =>
      have spec := List.find?_some found
      simp only [Bool.and_eq_true] at spec
      exact (stays_pathQuietEvent spec.2).trans (stays_quietEvents b n _ _)
    · exact stays_of_aloof (.refl p s) rfl rfl

theorem aloof_freeSlot (p q : Position) (s : State) : Aloof p s (freeSlot q s) := aloof_of_same rfl rfl

theorem stays_freeSlot (q : Position) (s : State) : Stays p L s (freeSlot q s) := stays_of_aloof (aloof_freeSlot p q s) rfl rfl

theorem stays_closeStep {b : State} (ready : s.store.ready = b.store.ready) : Stays p L s (closeStep b s) := by
  rw [closeStep, watchPin_same b s ready]
  exact (stays_quietEvents b _ _ _).trans (stays_of_moved (moved_startRule _) (by decide) (by decide) (by decide) (by decide))

/-- The close of a request that revokes nobody: a GRANTED position stays, and takes a MAIN release event that it has. -/
theorem stays_closeRequest (b : State) {a : State → State} (links : ∀ u, Moved [.links] u (a u)) {w : Work} (others : ∀ e ∈ w.events, e ≠ .revoke p) :
    Stays p L w.s (closeRequest b a w) ∧
      (TxiEvent.mainRelease p ∈ w.events → w.s.Holding p L → ((closeRequest b a w).txOf p).skipHang = true) := by
  have worked : Stays p L w.s (a (closeWork b w).s) :=
    (stays_closeWork b w).trans (stays_of_moved (links _) (by decide) (by decide) (by decide) (by decide))
  have rest (holding : w.s.Holding p L) (handed : Stood p L w.s (handOn ((closeWork b w).map a))) :
      Stood p L (handOn ((closeWork b w).map a)) (closeRequest b a w) := by
    rw [closeRequest_of_held handed.holding.held]
    exact (stays_made _).trans (stays_of_moved (moved_recompose _) (by decide) (by decide) (by decide) (by decide)) handed.holding
  have unrevoked (holding : w.s.Holding p L) : ∀ e ∈ ((closeWork b w).map a).events, e ≠ .revoke p :=
    unrevoked_closeWork b (kinded_of_keyed holding.keyed) others
  have handed (holding : w.s.Holding p L) : Stood p L w.s (handOn ((closeWork b w).map a)) :=
    (worked.trans (stays_handOn (w := (closeWork b w).map a) (unrevoked holding))) holding
  refine ⟨fun holding => ?_, fun released holding => (rest holding (handed holding)).skip ?_⟩
  · obtain ⟨-, skip, records⟩ := handed holding
    obtain ⟨holding', skip', records'⟩ := rest holding (handed holding)
    exact ⟨holding', fun on => skip' (skip on), fun j own => (records' j own).trans (records j own)⟩
  · have start := ((worked.trans (stays_notifyEach ((closeWork b w).map a).grants _)) holding).holding
    refine (stays_notifyEach _ _ (stays_takeTxiEvents _ _ (unrevoked holding) start).holding).skip ?_
    refine skip_takeTxiEvents _ _ (unrevoked holding) ?_ start.granted
    obtain ⟨es, events, -⟩ := closeWork_eq b w
    obtain ⟨fs, events', -⟩ := (yields_admitFreed (K := fun _ => True) (kinded_of_keyed holding.keyed) fun _ _ => trivial).events
    rw [show ((closeWork b w).map a).events = (closeWork b w).events from rfl, events, events']
    simp [released]

end

end Sys2Proof.Machine
end

section
/-! The turn of a freed line among the admissions, and the waiter at the head of its list (R45, R65). -/

namespace Sys2Proof.Machine

variable {b : State} {w v : Work} {l i : Line} {e : WaitEntry}

/-! ## A line until its turn comes -/

/-- An entry on another line `i` whose admission leaves the records on `l` and the list of `l`. -/
structure AsideOf (b : State) (l i : Line) (e : WaitEntry) : Prop where
  placed : (b.routeOf e.route).line = i
  lists : b.portOf i = b.portOf l → ∀ y ∈ b.listOf l, y.pos ≠ e.pos
  records : b.portOf i = b.portOf l → ∀ x ∈ b.recordsOn l, x.pos = e.pos → x.state = .breaking

/-- A work that has the records and the list of `l` as `b` had them, and in whose lists nobody has joined. -/
structure Untouched (b : State) (l : Line) (w : Work) : Prop where
  table : w.s.table = b.table
  records : w.s.recordsOn l = b.recordsOn l
  list : (w.s.listOf l).map WaitEntry.still = (b.listOf l).map WaitEntry.still
  entries : ∀ i, i ≠ l → ∀ e ∈ w.s.listOf i, AsideOf b l i e
  fewer : ∀ i, ∀ e ∈ w.s.listOf i, ∃ x ∈ b.listOf i, x.pos = e.pos

theorem mem_still {xs ys : List WaitEntry} (same : ys.map WaitEntry.still = xs.map WaitEntry.still) {y : WaitEntry} (mem : y ∈ ys) :
    ∃ x ∈ xs, x.still = y.still := by
  have was : y.still ∈ xs.map WaitEntry.still := same ▸ List.mem_map_of_mem mem
  exact List.mem_map.1 was

theorem AsideOf.of_still {x : WaitEntry} (aside : AsideOf b l i x) (same : x.still = e.still) : AsideOf b l i e := by
  obtain ⟨pos, route, -⟩ := pos_of_still same
  exact ⟨route ▸ aside.placed, pos ▸ aside.lists, pos ▸ aside.records⟩

/-- A position without a record on `l`, or with a BREAKING one, has nothing to send BREAKING there (R44). -/
theorem goBreaking_of_spent {q : Position} (spent : ∀ h, w.s.recordAt q l = some h → h.state = .breaking) : goBreaking q l w = w := by
  unfold goBreaking
  split
  · rfl
  · next h held =>
    rw [spent h held]

theorem admissionsKeep_untouched (kinds : ∀ x ∈ b.recordsOn l, x.kind = b.portOf l) : AdmissionsKeep (fun i => i ≠ l) (Untouched b l) (AsideOf b l) where
  entries _ at' i other := at'.entries i other
  takes v at' i e other aside := by
    have port (j : Line) : v.s.portOf j = b.portOf j := portOf_of_table at'.table j
    have line : ((withdraw e.pos (v.s.portOf i) none v).s.routeOf e.route).line = i := by
      rw [routeOf_of_table (show (withdraw e.pos (v.s.portOf i) none v).s.table = b.table from at'.table)]
      exact aside.placed
    have fewer (j : Line) (x : WaitEntry)
        (mem : x ∈ (createRecord e.pos e.route (withdraw e.pos (v.s.portOf i) none v)).s.listOf j) : x ∈ v.s.listOf j := by
      rw [createRecord_s, listOf_withRecord, withdraw_s, listOf_withdrawn] at mem
      split at mem
      · exact (List.mem_filter.1 mem).1
      · exact mem
    refine ⟨at'.table, ?_, ?_, fun j apart x mem => at'.entries j apart x (fewer j x mem), fun j x mem => at'.fewer j x (fewer j x mem)⟩
    · rw [createRecord_s, recordsOn_withRecord, line, if_neg other, List.append_nil]
      exact at'.records
    · rw [createRecord_s, listOf_withRecord, withdraw_s, listOf_withdrawn]
      split
      · next same =>
        rw [List.filter_eq_self.2, at'.list]
        intro y mem
        obtain ⟨x, was, still⟩ := mem_still at'.list mem
        have apart := aside.lists (by rw [← port i, ← port l]; exact same.1.symm) x was
        rw [(pos_of_still still).1] at apart
        simpa using apart
      · exact at'.list
  leave w at' v from' i e other aside x mem pos kind _ := by
    by_cases here : l = x.line
    · have on : x ∈ b.recordsOn l := from'.records ▸ (mem_recordsOn _ _ _).2 ⟨mem, here.symm⟩
      have port : b.portOf i = b.portOf l := by rw [← portOf_of_table from'.table i, ← kind, kinds x on]
      rw [← here, goBreaking_of_spent fun h held => ?_]
      · exact at'
      · obtain ⟨mem, pos, line⟩ := mem_of_recordAt held
        exact aside.records port h (at'.records ▸ (mem_recordsOn _ _ _).2 ⟨mem, line⟩) pos
    have apart : l ≠ x.line := here
    have beside := beside_goBreaking e.pos apart w
    refine ⟨beside.table.trans at'.table, beside.records.trans at'.records, (beside.lists l).trans at'.list, fun j apart y mem => ?_, fun j y mem => ?_⟩
    · obtain ⟨z, was, still⟩ := mem_still (beside.lists j) mem
      exact (at'.entries j apart z was).of_still still
    · obtain ⟨z, was, still⟩ := mem_still (beside.lists j) mem
      exact (pos_of_still still).1 ▸ at'.fewer j z was

/-- A line is untouched until its turn where the records on it are BREAKING ones, or of positions that wait for no other line of its kind. -/
theorem untouched_refl (keyed : w.s.AllocationKeyed)
    (apart : ∀ x ∈ w.s.recordsOn l, x.state ≠ .breaking → ∀ m, w.s.portOf m = w.s.portOf l → ∀ e ∈ w.s.listOf m, e.pos ≠ x.pos) :
    Untouched w.s l w where
  table := rfl
  records := rfl
  list := rfl
  entries i other e mem := by
    exact ⟨keyed.placed i e mem, fun port y on pos => other (keyed.oneList i l e mem y on pos.symm port), fun port x on pos =>
      by_contra fun stands => apart x on stands i port e mem pos.symm⟩
  fewer i e mem := ⟨e, mem, rfl⟩

theorem kinds_recordsOn {s : State} (keyed : s.AllocationKeyed) (l : Line) : ∀ x ∈ s.recordsOn l, x.kind = s.portOf l := fun x on => by
  obtain ⟨mem, line⟩ := (mem_recordsOn _ _ _).1 on
  rw [(keyed.routed x mem).2.1, line]

/-! ## The freed lines in their order -/

theorem freed_goBreaking (p : Position) (j : Line) (w : Work) : ∃ ls, (goBreaking p j w).freed = w.freed ++ ls := by
  have dropped (h : Holder) (v : Work) : ∃ ls, (dropNeverClosed h (noteRelease p h.kind (toBreaking p j v))).freed = v.freed ++ ls := by
    have noted : (noteRelease p h.kind (toBreaking p j v)).freed = v.freed := by cases h.kind <;> rfl
    unfold dropNeverClosed
    split
    · exact ⟨[h.line], congrArg (· ++ [h.line]) noted⟩
    · exact ⟨[], by rw [noted, List.append_nil]⟩
  unfold goBreaking
  split
  · exact ⟨[], (List.append_nil _).symm⟩
  · split
    · exact ⟨[j], rfl⟩
    · exact ⟨[], (List.append_nil _).symm⟩
    · exact dropped _ w
    · exact dropped _ w

/-- Admissions free further lines behind those freed already. -/
theorem admissionsKeep_freed (fs : List Line) : AdmissionsKeep (fun _ => True) (fun w => ∃ ls, w.freed = fs ++ ls) (fun _ _ => True) where
  entries _ _ _ _ _ _ := trivial
  takes _ at' _ _ _ _ := at'
  leave w at' _ _ _ e _ _ x _ _ _ _ := by
    obtain ⟨ls, freed⟩ := at'
    obtain ⟨ms, more⟩ := freed_goBreaking e.pos x.line w
    exact ⟨ls ++ ms, by rw [more, freed, List.append_assoc]⟩

theorem freed_admitLine (l : Line) (w : Work) : ∃ ls, (admitLine l w).freed = w.freed ++ ls :=
  (admissionsKeep_freed w.freed).admitLine ⟨[], (List.append_nil _).symm⟩ trivial

/-- A freed line has its turn, with its records and its list as they were. -/
theorem turn_admitAll (kinds : ∀ x ∈ b.recordsOn l, x.kind = b.portOf l) : ∀ (pre post : List Line) (n : Nat) (w : Work), w.freed = pre ++ l :: post → l ∉ pre → pre.length < n →
    w.s.AllocationKeyed → Untouched b l w →
    ∃ m u ls, admitAll n w = admitAll m (admitLine l { u with freed := ls }) ∧ Untouched b l u ∧ u.s.AllocationKeyed
  | _, _, 0, _, _, _, short, _, _ => absurd short (Nat.not_lt_zero _)
  | [], post, n + 1, w, freed, _, _, keyed, untouched => ⟨n, w, post, by rw [admitAll, freed]; rfl, untouched, keyed⟩
  | i :: pre, post, n + 1, w, freed, out, short, keyed, untouched => by
    have other : l ≠ i := List.ne_of_not_mem_cons out
    have out := List.not_mem_of_not_mem_cons out
    have popped : Untouched b l { w with freed := pre ++ l :: post } := ⟨untouched.table, untouched.records, untouched.list, untouched.entries, untouched.fewer⟩
    have next := (admissionsKeep_untouched kinds).admitLine popped (Ne.symm other)
    have moves : Moves (fun _ _ => True) False w.s (admitLine i { w with freed := pre ++ l :: post }).s :=
      moves_admitLine i (w := { w with freed := pre ++ l :: post }) keyed (cover_true _)
    obtain ⟨ls, more⟩ := freed_admitLine i { w with freed := pre ++ l :: post }
    have freed' : (admitLine i { w with freed := pre ++ l :: post }).freed = pre ++ l :: (post ++ ls) := by rw [more]; simp
    obtain ⟨m, u, ms, eq, rest⟩ := turn_admitAll kinds pre (post ++ ls) n _ freed' out (Nat.lt_of_succ_lt_succ short)
      (allocationKeyed_moves moves keyed) next
    refine ⟨m, u, ms, ?_, rest⟩
    rw [admitAll, freed]
    exact eq

theorem turn_admitFreed (kinds : ∀ x ∈ b.recordsOn l, x.kind = b.portOf l) (freed : l ∈ w.freed) (keyed : w.s.AllocationKeyed) (untouched : Untouched b l w) :
    ∃ m u ls, admitFreed w = admitAll m (admitLine l { u with freed := ls }) ∧ Untouched b l u ∧ u.s.AllocationKeyed := by
  obtain ⟨pre, post, split, out⟩ := List.eq_append_cons_of_mem freed
  exact turn_admitAll kinds pre post _ w split out (by rw [split]; simp; omega) keyed untouched

/-! ## An admitted entry (R65) -/

/-- A position has been admitted to `l`: its record is new there, and it waits for no line of the kind. -/
structure AdmittedTo (b : State) (p : Position) (r : Route) (l : Line) (s : State) : Prop where
  record : s.recordAt p l = some (b.newRecord p r)
  out : ∀ j, s.portOf j = s.portOf l → ∀ e ∈ s.listOf j, e.pos ≠ p

theorem AdmittedTo.of_spares {p : Position} {r : Route} (admitted : AdmittedTo b p r l w.s)
    (spares : Spares (fun q k => decide (q = p ∧ k = w.s.portOf l)) w v) (keyed : w.s.AllocationKeyed) (keyed' : v.s.AllocationKeyed)
    (table : v.s.table = w.s.table) : AdmittedTo b p r l v.s where
  record := by
    rw [recordAt_of_those spares.records keyed keyed' table (by simp)]
    exact admitted.record
  out j port e mem := by
    rw [portOf_of_table table, portOf_of_table table] at port
    obtain ⟨x, was, same⟩ := spares.lists j e mem
    rw [← (pos_of_still same).1]
    exact admitted.out j port x was

theorem admittedTo_admitEntry (placed : (w.s.routeOf e.route).line = l) (none : w.s.recordAt e.pos l = none) :
    AdmittedTo w.s e.pos e.route l (admitEntry l e w).s := by
  have created : AdmittedTo w.s e.pos e.route l (createRecord e.pos e.route (withdraw e.pos (w.s.portOf l) .none w)).s := by
    refine ⟨?_, fun j port x mem => withdrawn_apart w.s e.pos port x mem⟩
    rw [createRecord_s, recordAt_withRecord, show ((withdraw e.pos (w.s.portOf l) .none w).s.routeOf e.route).line = l from placed, if_pos ⟨rfl, rfl⟩,
      show (withdraw e.pos (w.s.portOf l) .none w).s.recordAt e.pos l = .none from none]
    rfl
  unfold admitEntry
  dsimp only
  split
  · have beside := beside_releaseOthers e.pos (w.s.portOf l) l (createRecord e.pos e.route (withdraw e.pos (w.s.portOf l) .none w))
    refine ⟨(beside.recordAt e.pos).trans created.record, fun j port x mem => ?_⟩
    rw [portOf_of_table beside.table, portOf_of_table beside.table] at port
    obtain ⟨y, was, same⟩ := mem_still (beside.lists j) mem
    rw [← (pos_of_still same).1]
    exact created.out j port y was
  · exact created

/-- Who has been admitted stays so through the admissions that follow. -/
theorem AdmittedTo.admitAll {p : Position} {r : Route} (admitted : AdmittedTo b p r l w.s) (keyed : w.s.AllocationKeyed) (n : Nat) :
    AdmittedTo b p r l (admitAll n w).s := by
  have kinded := kinded_of_keyed keyed
  have foreign : w.s.Foreigners (fun q k => decide (q = p ∧ k = w.s.portOf l)) fun _ => True := fun j _ e mem =>
    ⟨decide_eq_false fun own => admitted.out j own.2 e mem own.1, keyed.placed j e mem⟩
  have moves : Moves (fun _ _ => True) False w.s (Machine.admitAll n w).s := moves_admitAll n keyed (cover_true _)
  exact admitted.of_spares (spares_admitAll n kinded (fun _ _ => trivial) foreign) keyed (allocationKeyed_moves moves keyed)
    (yields_admitAll (K := fun _ => True) n kinded fun _ _ => trivial).table

theorem AdmittedTo.admitSame {p : Position} {r x : Route} (admitted : AdmittedTo b p r l w.s) (keyed : w.s.AllocationKeyed) (aux : w.s.portOf l = .aux)
    (names : w.s.Names l x) {es : List WaitEntry} (waiters : ∀ e ∈ es, w.s.Waiter (fun _ _ => True) l e) (once : (es.map fun e => e.pos).Nodup)
    (fresh : ∀ e ∈ es, e.pos ≠ p) : AdmittedTo b p r l (admitSame l x es w).s := by
  have kinded := kinded_of_keyed keyed
  have moves : Moves (fun _ _ => True) False w.s (Machine.admitSame l x es w).s := moves_admitSame es keyed aux names waiters once
  refine admitted.of_spares (spares_admitSame es kinded fun e mem => ⟨by simp [fresh e mem], (waiters e mem).line⟩) keyed
    (allocationKeyed_moves moves keyed) (yields_admitSame (K := fun _ => True) es kinded trivial).table

/-- The head of the list of a line without records, at the line's turn. -/
theorem head_admitLine (keyed : w.s.AllocationKeyed) (empty : w.s.recordsOn l = []) {es : List WaitEntry} (list : w.s.listOf l = e :: es) :
    AdmittedTo w.s e.pos e.route l (admitLine l w).s := by
  have waiters : ∀ x ∈ e :: es, w.s.Waiter (fun _ _ => True) l x := fun x mem =>
    ⟨trivial, keyed.placed l x (list ▸ mem), keyed.apart l x (list ▸ mem)⟩
  have once := keyed.lists l
  rw [list] at once
  obtain ⟨fresh, once⟩ := List.nodup_cons.1 once
  have head := waiters e List.mem_cons_self
  have admitted := admittedTo_admitEntry (e := e) head.line head.apart
  have aside : ∀ x ∈ es, x.pos ≠ e.pos := fun x mem same => fresh (List.mem_map.2 ⟨x, mem, same⟩)
  unfold Machine.admitLine
  simp only [list, empty, List.isEmpty_nil, if_true]
  split
  · next aux =>
    have landed := admitted_admitEntry (w := w) head.line
    have moves : Moves (fun _ _ => True) False w.s (admitEntry l e w).s :=
      moves_admitEntry keyed trivial head.line head.apart (.inl (by rw [head.line]; exact empty))
    refine admitted.admitSame (allocationKeyed_moves moves keyed) aux (fun x mem => ?_)
      (fun x mem => landed.waiter (waiters x (List.mem_cons_of_mem _ mem)) (aside x mem)) once aside
    rw [landed.records, empty, List.nil_append, List.mem_singleton] at mem
    rw [mem]
    rfl
  · exact admitted

/-- A freed line without records admits the head of its list. -/
theorem head_admitFreed (keyed : w.s.AllocationKeyed) (freed : l ∈ w.freed) (empty : w.s.recordsOn l = []) {es : List WaitEntry}
    (list : w.s.listOf l = e :: es) : AdmittedTo w.s e.pos e.route l (admitFreed w).s := by
  obtain ⟨m, u, ls, eq, untouched, keyed'⟩ := turn_admitFreed (kinds_recordsOn keyed l) freed keyed (untouched_refl keyed (by simp [empty]))
  have lists := untouched.list
  rw [list, List.map_cons] at lists
  obtain ⟨x, xs, list', same, -⟩ := List.map_eq_cons_iff.1 lists
  obtain ⟨pos, route, -⟩ := pos_of_still same
  have admitted := head_admitLine (w := { u with freed := ls }) keyed' (untouched.records.trans empty) list'
  have moves : Moves (fun _ _ => True) False u.s (admitLine l { u with freed := ls }).s :=
    moves_admitLine l (w := { u with freed := ls }) keyed' (cover_true _)
  have later := admitted.admitAll (allocationKeyed_moves moves keyed') m
  rw [eq]
  refine ⟨?_, pos ▸ later.out⟩
  have fresh : u.s.newRecord x.pos x.route = w.s.newRecord e.pos e.route := by
    rw [State.newRecord, routeOf_of_table untouched.table, portOf_of_table untouched.table, pos, route]
    rfl
  rw [← fresh, ← pos]
  exact later.record

end Sys2Proof.Machine
end

section
/-! RELEASE (section 3.6, R67 and R68). -/

namespace Sys2Proof.Machine

section

variable {s : State} {w : Work} {p : Position} {ks : List PortKind} {f : Frame} {xs : List Holder}

/-! ## The events of several releases -/

theorem mem_events_goBreaking {e : TxiEvent} (q : Position) (l : Line) (mem : e ∈ w.events) : e ∈ (goBreaking q l w).events := by
  have dropped (h : Holder) : e ∈ (dropNeverClosed h (noteRelease q h.kind (toBreaking q l w))).events := by
    have noted : e ∈ (noteRelease q h.kind (toBreaking q l w)).events := by
      cases h.kind with
      | main => exact List.mem_append_left _ mem
      | aux => exact mem
    unfold dropNeverClosed
    split
    · exact noted
    · exact noted
  unfold goBreaking
  split
  · exact mem
  · split
    · exact mem
    · exact mem
    · exact dropped _
    · exact dropped _

/-- A MAIN record that stands leaves with a MAIN release event (R44). -/
theorem released_goBreaking {h : Holder} {l : Line} (held : w.s.recordAt p l = some h) (main : h.kind = .main)
    (stands : h.state = .making ∨ h.state = .connected) : TxiEvent.mainRelease p ∈ (goBreaking p l w).events := by
  have dropped : TxiEvent.mainRelease p ∈ (dropNeverClosed h (noteRelease p h.kind (toBreaking p l w))).events := by
    have noted : TxiEvent.mainRelease p ∈ (noteRelease p h.kind (toBreaking p l w)).events := by
      rw [main]
      exact List.mem_append_right _ (List.mem_singleton.2 rfl)
    unfold dropNeverClosed
    split
    · exact noted
    · exact noted
  unfold goBreaking
  obtain state | state := stands
  · simp only [held, state]
    exact dropped
  · simp only [held, state]
    exact dropped

theorem released_releases {h : Holder} {l : Line} (main : h.kind = .main) (stands : h.state = .making ∨ h.state = .connected) :
    ∀ (xs : List Holder) (w : Work), w.s.recordAt p l = some h → (∃ x ∈ xs, x.line = l) → TxiEvent.mainRelease p ∈ (w.releases p xs).events
  | [], _, _, listed => nomatch listed
  | x :: xs, w, held, listed => by
    by_cases here : x.line = l
    · subst here
      have first := released_goBreaking held main stands
      have keeps (ys : List Holder) (v : Work) (mem : TxiEvent.mainRelease p ∈ v.events) : TxiEvent.mainRelease p ∈ (v.releases p ys).events := by
        induction ys generalizing v with
        | nil => exact mem
        | cons y ys ih => exact ih _ (mem_events_goBreaking p y.line mem)
      exact keeps xs _ first
    · obtain ⟨y, mem, line⟩ := listed
      have mem := (List.mem_cons.1 mem).resolve_left fun same => here (same ▸ line)
      refine released_releases main stands xs _ ?_ ⟨y, mem, line⟩
      rw [goBreaking_s, recordAt_left_of_ne fun both => here both.2.symm]
      exact held

/-- Records that never closed free their lines. -/
theorem freed_releases (p : Position) : ∀ (xs : List Holder) (w : Work), ∃ ls, (w.releases p xs).freed = w.freed ++ ls
  | [], _ => ⟨[], (List.append_nil _).symm⟩
  | x :: xs, w => by
    obtain ⟨ls, first⟩ := freed_goBreaking p x.line w
    obtain ⟨ms, rest⟩ := freed_releases p xs (goBreaking p x.line w)
    exact ⟨ls ++ ms, by rw [Work.releases, List.foldl_cons, ← Work.releases, rest, first, List.append_assoc]⟩

theorem free_goBreaking {h : Holder} {l : Line} (held : w.s.recordAt p l = some h) (gone : Holder.leaving w.s h = none) :
    l ∈ (goBreaking p l w).freed := by
  have line := (mem_of_recordAt held).2.2
  unfold Holder.leaving at gone
  split at gone
  · cases gone
  · next stands =>
    split at gone
    · next never =>
      have dropped : l ∈ (dropNeverClosed h (noteRelease p h.kind (toBreaking p l w))).freed ∨ h.state = .pending := by
        obtain pending | never := never
        · exact .inr pending
        · have same : (noteRelease p h.kind (toBreaking p l w)).s.chain = w.s.chain := by cases h.kind <;> rfl
          left
          unfold dropNeverClosed
          rw [if_pos ((neverClosed_of_chain same h).trans never), ← line]
          exact List.mem_append_right _ (List.mem_singleton.2 rfl)
      unfold goBreaking
      cases state : h.state with
      | pending =>
        simp only [held, state]
        exact List.mem_append_right _ (List.mem_singleton.2 rfl)
      | breaking => exact absurd state stands
      | making =>
        simp only [held, state]
        exact dropped.resolve_right (by simp [state])
      | connected =>
        simp only [held, state]
        exact dropped.resolve_right (by simp [state])
    · cases gone

theorem free_releases {h : Holder} {l : Line} : ∀ (xs : List Holder) (w : Work), w.s.recordAt p l = some h → Holder.leaving w.s h = none →
    (∃ x ∈ xs, x.line = l) → l ∈ (w.releases p xs).freed
  | [], _, _, _, listed => nomatch listed
  | x :: xs, w, held, gone, listed => by
    by_cases here : x.line = l
    · subst here
      obtain ⟨ls, eq⟩ := freed_releases p xs (goBreaking p x.line w)
      rw [Work.releases, List.foldl_cons, ← Work.releases, eq]
      exact List.mem_append_left _ (free_goBreaking held gone)
    · obtain ⟨y, mem, line⟩ := listed
      have mem := (List.mem_cons.1 mem).resolve_left fun same => here (same ▸ line)
      have moved := (worked_goBreaking p x.line w).moved
      refine free_releases (h := h) xs _ ?_ ?_ ⟨y, mem, line⟩
      · rw [goBreaking_s, recordAt_left_of_ne fun both => here both.2.symm]
        exact held
      · rw [leaving_congr (moved.chain (by decide)) (moved.tx (by decide))]
        exact gone

/-! ## RELEASE as it is served -/

/-- The records that a RELEASE names, in their order. -/
abbrev State.named (s : State) (p : Position) (ks : List PortKind) : List Holder :=
  s.alloc.records.filter fun r => r.pos = p && ks.contains r.kind

theorem mem_named {x : Holder} : x ∈ s.named p ks ↔ x ∈ s.alloc.records ∧ x.pos = p ∧ x.kind ∈ ks := by
  simp [State.named]

/-- The lines of the records that a RELEASE names. -/
abbrev State.namedLine (s : State) (p : Position) (ks : List PortKind) (l : Line) : Prop := ∃ x ∈ s.named p ks, x.line = l

/-- The work of a RELEASE. -/
abbrev releaseWork (p : Position) (ks : List PortKind) (s : State) : Work := (Work.start s).releases p (s.named p ks)

theorem exec_release_of_offers (offered : Offers s p f 1) (kind : f.kind = 0x04) :
    exec (.release p) s = .next (closeStep s (freeSlot p (serveRelease p f s))) :=
  wholeStep_takeRequest_of_offers (need := fun _ => 1) offered (by simp [isKind, kind, kindRelease]) _

theorem recordAt_releaseWork (q : Position) (j : Line) : (releaseWork p ks s).s.recordAt q j =
    if q = p ∧ s.namedLine p ks j then (s.recordAt q j).bind (Holder.leaving s) else s.recordAt q j :=
  recordAt_releases p (s.named p ks) (Work.start s) q j

theorem recordAt_released (keyed : s.AllocationKeyed) {x : Holder} (named : x ∈ s.named p ks) :
    (releaseWork p ks s).s.recordAt p x.line = Holder.leaving s x := by
  obtain ⟨mem, rfl, -⟩ := mem_named.1 named
  rw [recordAt_releaseWork, if_pos ⟨rfl, x, named, rfl⟩, recordAt_of_mem keyed.records mem]
  rfl

section

variable (keyed : s.AllocationKeyed)

include keyed

theorem moves_releaseWork (p : Position) (ks : List PortKind) : Moves (fun _ _ => True) False s (releaseWork p ks s).s := by
  have eq : releaseWork p ks s = (s.named p ks).foldl (fun w r => goBreaking r.pos r.line w) (Work.start s) := by
    refine List.foldl_ext _ _ _ fun w x mem => ?_
    rw [(mem_named.1 mem).2.1]
  rw [eq]
  exact moves_goBreakings (w := Work.start s) _ fun _ _ => trivial

theorem yields_releaseWork (p : Position) (ks : List PortKind) : Yields (fun _ => True) (Work.start s) (releaseWork p ks s) :=
  yields_goBreakings (w := Work.start s) (kinded_of_keyed keyed) p _ fun _ _ => trivial

theorem keyed_releaseWork (p : Position) (ks : List PortKind) : (releaseWork p ks s).s.AllocationKeyed :=
  allocationKeyed_moves (moves_releaseWork keyed p ks) keyed

theorem held_releaseWork (held : s.ReclaimsHeld) : (releaseWork p ks s).s.ReclaimsHeld :=
  reclaimsHeld_of_moves held (moves_releaseWork keyed p ks) (yields_releaseWork keyed p ks).standings

theorem spent_releaseWork (j : Line) (named : s.namedLine p ks j) : (releaseWork p ks s).s.Spent p j := by
  obtain ⟨x, named, rfl⟩ := named
  have mem := mem_named.1 named
  refine ⟨out_releases fun e waits pos => ?_, fun h at' => ?_⟩
  · have none := keyed.apart x.line e waits
    rw [pos, ← mem.2.1, recordAt_of_mem keyed.records mem.1] at none
    cases none
  · rw [recordAt_released keyed named] at at'
    exact (leaving_breaking at').1

theorem unrevoked_releaseWork (p q : Position) (ks : List PortKind) : ∀ e ∈ (releaseWork p ks s).events, e ≠ .revoke q := fun e mem => by
  obtain ⟨es, events, releases⟩ := (yields_releaseWork keyed p ks).events
  rw [events] at mem
  obtain ⟨-, r, rfl⟩ := releases e ((List.mem_append.1 mem).resolve_left nofun)
  nofun

/-- What a RELEASE leaves of a record that it names. -/
theorem left_releaseWork {t : State} (passes : Passes (spentOn p (s.namedLine p ks)) (releaseWork p ks s).s t) (held : s.ReclaimsHeld)
    {x : Holder} (named : x ∈ s.named p ks) : Option.Rel Holder.Later (Holder.leaving s x) (t.recordAt p x.line) := by
  have goes := passes (settled_spent (keyed_releaseWork keyed p ks) (held_releaseWork keyed held) (spent_releaseWork keyed))
  rw [← recordAt_released keyed named]
  exact goes.records p x.line ⟨rfl, x, named, rfl⟩

end

/-- A record that leaves is BREAKING and stores no reroute; its break is requested where the path is quiet, if it was not BREAKING before. -/
theorem leaving_spec {s : State} {x y : Holder} (stored : x.reroute ≠ none → x.state = .connected) (left : Holder.leaving s x = some y) :
    y.state = .breaking ∧ y.reroute = none ∧ (x.state ≠ .breaking → y.breakRequested = s.pathQuiet x.pos) := by
  unfold Holder.leaving at left
  split at left
  · next breaking =>
    cases left
    refine ⟨breaking, by_contra fun on => ?_, fun stands => absurd breaking stands⟩
    have := stored on
    rw [breaking] at this
    cases this
  · split at left
    · cases left
    · cases left
      exact ⟨rfl, rfl, fun _ => rfl⟩

theorem leaving_none {s : State} {x : Holder} (gone : x.state = .pending ∨ (x.state = .making ∧ x.latched = false ∧
    ∀ o, s.chain.op = some o → o.image.getLsbD (crosspointBit x.pos x.line) = false)) : Holder.leaving s x = none := by
  have stands : x.state ≠ .breaking := by obtain pending | ⟨making, -⟩ := gone <;> simp [*]
  have never : x.state = .pending ∨ neverClosed x s = true := by
    refine gone.imp_right fun ⟨_, unlatched, apart⟩ => ?_
    unfold neverClosed
    split
    · next o op => simp [unlatched, apart o op]
    · simp [unlatched]
  rw [Holder.leaving, if_neg stands, if_pos never]

/-- The line of a record so removed has no records, and its list is as it was. -/
theorem vacated_releaseWork (keyed : s.AllocationKeyed) {x : Holder} (named : x ∈ s.named p ks) (gone : Holder.leaving s x = none)
    (alone : s.recordsOn x.line = [x]) : (releaseWork p ks s).s.recordsOn x.line = [] := by
  refine List.eq_nil_iff_forall_not_mem.2 fun y on => ?_
  obtain ⟨mem, line⟩ := (mem_recordsOn _ _ _).1 on
  have at' := (recordAt_eq_some_iff (keyed_releaseWork keyed p ks).records).2 ⟨mem, rfl, line⟩
  rw [recordAt_releaseWork] at at'
  have here : s.recordAt p x.line = some x := by
    rw [← (mem_named.1 named).2.1]
    exact recordAt_of_mem keyed.records (mem_named.1 named).1
  split at at'
  · next own =>
    rw [own.1, here, Option.bind_some, gone] at at'
    cases at'
  · next other =>
    obtain ⟨was, -, line⟩ := mem_of_recordAt at'
    have : y ∈ s.recordsOn x.line := (mem_recordsOn _ _ _).2 ⟨was, line⟩
    rw [alone, List.mem_singleton] at this
    subst this
    exact other ⟨(mem_named.1 named).2.1, y, named, rfl⟩

/-! ## The step of a RELEASE -/

/-- The state at the end of the step. -/
abbrev releasedBy (p : Position) (f : Frame) (ks : List PortKind) (s : State) : State :=
  closeStep s (freeSlot p (closeRequest s (reply p f.kind .ok []) (releaseWork p ks s)))

theorem worked_releaseWork (p : Position) (ks : List PortKind) (s : State) : Worked (Work.start s) (releaseWork p ks s) := worked_releases p _ _

theorem holding_releaseWork (keyed : s.AllocationKeyed) (held : s.ReclaimsHeld) (coherent : s.TransmitCoherent)
    (granted : (s.txOf p).state = .granted) : (releaseWork p ks s).s.Holding p (s.namedLine p ks) where
  granted := by
    have moved := (worked_releaseWork p ks s).moved
    have tx : (releaseWork p ks s).s.txOf p = s.txOf p := by rw [State.txOf, moved.tx (by decide)]; rfl
    refine ⟨tx ▸ granted, ?_⟩
    rw [moved.waiting (by decide)]
    show p ∉ s.waiting
    exact out_of_onAir coherent (by rw [State.onAir, granted]; rfl)
  keyed := keyed_releaseWork keyed p ks
  held := held_releaseWork keyed held
  spent := spent_releaseWork keyed

/-- A GRANTED position stays GRANTED through its RELEASE, and takes its MAIN release event (R108). -/
theorem granted_released (keyed : s.AllocationKeyed) (held : s.ReclaimsHeld) (coherent : s.TransmitCoherent)
    (granted : (s.txOf p).state = .granted) : Stood p (s.namedLine p ks) (releaseWork p ks s).s (releasedBy p f ks s) ∧
      (TxiEvent.mainRelease p ∈ (releaseWork p ks s).events → ((releasedBy p f ks s).txOf p).skipHang = true) := by
  have holding := holding_releaseWork (ks := ks) keyed held coherent granted
  have links (u : State) : Moved [.links] u (reply p f.kind .ok [] u) := moved_reply ..
  obtain ⟨stays, skip⟩ := stays_closeRequest (L := s.namedLine p ks) s links (unrevoked_releaseWork keyed p p ks)
  have rest : Stays p (s.namedLine p ks) (closeRequest s (reply p f.kind .ok []) (releaseWork p ks s)) (releasedBy p f ks s) :=
    (stays_freeSlot p _).trans (stays_closeStep (ready_closeRequest (worked_releaseWork p ks s)))
  exact ⟨(stays.trans rest) holding, fun mem => (rest (stays holding).holding).skip (skip mem holding)⟩

/-- HANG ends with a MAIN release event (R108). -/
theorem hang_released (keyed : s.AllocationKeyed) (coherent : s.TransmitCoherent) (hang : (s.txOf p).state = .hang)
    (released : TxiEvent.mainRelease p ∈ (releaseWork p ks s).events) : Released p s (releasedBy p f ks s) := by
  have links : Moved [.links] (closeWork s (releaseWork p ks s)).s (reply p f.kind .ok [] (closeWork s (releaseWork p ks s)).s) := moved_reply ..
  have before : Aloof p s (reply p f.kind .ok [] (closeWork s (releaseWork p ks s)).s) :=
    ((aloof_of_moved (worked_releaseWork p ks s).moved (by decide) (by decide)).trans (aloof_closeWork p s _)).trans
      (aloof_of_moved links (by decide) (by decide))
  obtain ⟨same, out⟩ := before (out_of_onAir coherent (by rw [State.onAir, hang]; rfl))
  have handed : Released p (reply p f.kind .ok [] (closeWork s (releaseWork p ks s)).s)
      (handOn ((closeWork s (releaseWork p ks s)).map (reply p f.kind .ok []))) := by
    refine released_handOn (w := (closeWork s (releaseWork p ks s)).map (reply p f.kind .ok []))
      (unrevoked_closeWork s (kinded_of_keyed (keyed_releaseWork keyed p ks)) (unrevoked_releaseWork keyed p p ks)) ?_
      ⟨by rw [← hang]; exact congrArg TxRecord.state same, out⟩
    obtain ⟨es, events, -⟩ := closeWork_eq s (releaseWork p ks s)
    obtain ⟨fs, events', -⟩ := (yields_admitFreed (K := fun _ => True) (kinded_of_keyed (keyed_releaseWork keyed p ks)) fun _ _ => trivial).events
    rw [show ((closeWork s (releaseWork p ks s)).map (reply p f.kind .ok [])).events = (closeWork s (releaseWork p ks s)).events from rfl, events, events']
    simp [released]
  have rest : Grounds p (handOn ((closeWork s (releaseWork p ks s)).map (reply p f.kind .ok []))) (releasedBy p f ks s) :=
    ((grounds_allocEvent (fun w => .refl w) p _).trans (aloof_freeSlot p p _).grounds).trans
      (grounds_closeStep p (ready_closeRequest (worked_releaseWork p ks s)))
  obtain ⟨idle, gone, cause⟩ := handed.grounded rest
  exact ⟨idle, gone, by rw [cause]; exact congrArg TxRecord.lastRevocation same⟩

/-- A record removed at once leaves its line to the head of the list (R45, R65). -/
theorem head_releasedBy (keyed : s.AllocationKeyed) (held : s.ReclaimsHeld) {x : Holder} (named : x ∈ s.named p ks)
    (gone : Holder.leaving s x = none) (alone : s.recordsOn x.line = [x]) {e : WaitEntry} {es : List WaitEntry} (list : s.listOf x.line = e :: es) :
    ∃ h, (releasedBy p f ks s).recordAt e.pos x.line = some h ∧ h.route = e.route ∧ (h.state = .pending ∨ h.state = .making) ∧
      ∀ y ∈ (releasedBy p f ks s).listOf x.line, y.pos ≠ e.pos := by
  obtain ⟨-, admitted, -⟩ := served_of_work (worked_releaseWork p ks s) (p := p) (f := f) (c := .ok) (d := [])
  obtain ⟨mem, pos, -⟩ := mem_named.1 named
  have keyed' := keyed_releaseWork keyed p ks
  have still := still_releases p (s.named p ks) (Work.start s) x.line
  rw [show (Work.start s).s.listOf x.line = e :: es from list, List.map_cons] at still
  obtain ⟨y, ys, list', same, -⟩ := List.map_eq_cons_iff.1 still
  obtain ⟨samePos, sameRoute, -⟩ := pos_of_still same
  have freed : x.line ∈ (releaseWork p ks s).freed :=
    free_releases (h := x) _ _ (pos ▸ recordAt_of_mem keyed.records mem) gone ⟨x, named, rfl⟩
  obtain ⟨record, out⟩ := head_admitFreed keyed' freed (vacated_releaseWork keyed named gone alone) list'
  rw [samePos] at record out
  have table : (admitFreed (releaseWork p ks s)).s.table = s.table :=
    ((worked_releaseWork p ks s).trans (worked_admitFreed _)).moved.table (by decide)
  have moves : Moves (fun _ _ => True) False (releaseWork p ks s).s (admitFreed (releaseWork p ks s)).s := moves_admitFreed keyed' (cover_true _)
  have yields := yields_admitFreed (K := fun _ => True) (kinded_of_keyed keyed') fun _ _ => trivial
  have held' := reclaimsHeld_of_moves (held_releaseWork (p := p) (ks := ks) keyed held) moves yields.standings
  have goes := admitted _ (settled_only (p := e.pos) (k := (admitFreed (releaseWork p ks s)).s.portOf x.line)
    (allocationKeyed_moves moves keyed') held' out)
  have rel := goes.records e.pos x.line ⟨rfl, rfl⟩
  rw [record] at rel
  obtain ⟨h, at', later⟩ := some_of_rel rel
  refine ⟨h, at', ?_, ?_, goes.settled.apart x.line (portOf_of_table goes.table x.line)⟩
  · obtain rfl | ⟨-, rfl⟩ := later.eq_of_bare nofun rfl
    · exact sameRoute
    · exact sameRoute
  · obtain rfl | ⟨-, rfl⟩ := later.eq_of_bare nofun rfl
    · exact .inl rfl
    · exact .inr rfl

end

/-- Settles O46: the named records leave, what leaves at once frees its line, and a MAIN release event is taken. -/
theorem releaseSendsBreaking : Obligations.ReleaseSendsBreaking := by
  refine ⟨fun s p f b ks offered kind payload named keyed held coherent => ?_, fun s p f offered kind bad => ?_⟩
  · have kinds : kindsOf f.payload = some ks := by
      obtain ⟨rfl, rfl⟩ | ⟨rfl, rfl⟩ | ⟨rfl, rfl⟩ := named <;> rw [payload] <;> rfl
    have served : serveRelease p f s = closeRequest s (reply p f.kind .ok []) (releaseWork p ks s) := by
      simp only [serveRelease, kinds]
      rfl
    obtain ⟨serves, admitted, passes⟩ := served_of_work (worked_releaseWork p ks s) (p := p) (f := f) (c := .ok) (d := [])
    have of {x : Holder} (mem : x ∈ s.alloc.records) (pos : x.pos = p) (named : x.kind ∈ ks) : x ∈ s.named p ks := mem_named.2 ⟨mem, pos, named⟩
    have left {x : Holder} (named : x ∈ s.named p ks) := left_releaseWork keyed (passes _) held named
    refine ⟨releasedBy p f ks s, ?_, serves, fun x mem pos listed h at' => ?_, fun x mem pos listed gone => ?_, fun granted => ?_,
      fun ⟨x, mem, pos, main, listed, stands⟩ => ?_⟩
    · rw [exec_release_of_offers offered kind, served]
    · have rel := left (of mem pos listed)
      rw [at'] at rel
      cases was : Holder.leaving s x with
      | none => rw [was] at rel; cases rel
      | some y =>
        rw [was] at rel
        obtain ⟨z, eq, later⟩ := some_of_rel rel
        cases eq
        obtain ⟨breaking, bare, asked⟩ := leaving_spec (keyed.stored x mem) was
        rw [pos] at asked
        refine ⟨later.breaking.2 breaking, ?_, fun quiet stands => ?_, fun granted stands => ?_⟩
        · obtain rfl | rfl := later.of_breaking breaking
          · exact bare
          · exact bare
        · obtain rfl | rfl := later.of_breaking breaking
          · rw [asked stands, quiet]
          · rfl
        · have stood := (granted_released (f := f) (ks := ks) keyed held coherent granted).1
          have same := stood.records x.line ⟨x, of mem pos listed, rfl⟩
          rw [at', recordAt_released keyed (of mem pos listed), was] at same
          obtain rfl := Option.some.inj same
          rw [asked stands]
          simp [State.pathQuiet, granted, TxState.onAir]
    · have none : Holder.leaving s x = none := leaving_none (by rw [pos]; exact gone)
      have rel := left (of mem pos listed)
      rw [none] at rel
      refine ⟨?_, fun e es alone list => ?_⟩
      · cases at' : (releasedBy p f ks s).recordAt p x.line with
        | none => rfl
        | some _ => rw [at'] at rel; cases rel
      · exact head_releasedBy keyed held (of mem pos listed) none alone list
    · exact (granted_released (f := f) (ks := ks) keyed held coherent granted).1.holding.granted.state
    · have released : TxiEvent.mainRelease p ∈ (releaseWork p ks s).events :=
        released_releases (h := x) (l := x.line) main stands _ _ (pos ▸ recordAt_of_mem keyed.records mem) ⟨x, of mem pos (main ▸ listed), rfl⟩
      refine ⟨fun granted => (granted_released keyed held coherent granted).2 released, fun hang => ?_⟩
      obtain ⟨idle, -, cause⟩ := hang_released (f := f) keyed coherent hang released
      exact ⟨idle, cause⟩
  · rw [exec_release_of_offers offered kind, serveRelease, kindsOf_eq_none bad]
    exact congrArg _ (by rw [freeSlot_answer, closeStep_answered])

end Sys2Proof.Machine
end

section
/-! Facts about the allocator that every ring claim keeps, and that every event keeps (R46, R81 to R86). -/

namespace Sys2Proof.Machine

/-! ## Ring claims (R81) -/

section

variable {q : Position} {j : PortKind} {I : State → Prop}

/-- What a ring claim of (q, j) does keeps `I`: an assignment, a place in a list, a change of a record that `q` has on its line, a change of
its standing, and the admissions that follow. -/
structure ClaimsKeep (q : Position) (j : PortKind) (I : State → Prop) : Prop where
  keyed : ∀ s, I s → s.AllocationKeyed
  admits : ∀ w, I w.s → I (admitFreed w).s
  assigns : ∀ w r, I w.s → w.s.portOf (w.s.routeOf r).line = j → w.s.recordAt q (w.s.routeOf r).line = none →
    w.s.canBeHad (w.s.routeOf r).line r = true → I (assign q r w).s
  queues : ∀ w r, I w.s → w.s.portOf (w.s.routeOf r).line = j → w.s.recordAt q (w.s.routeOf r).line = none → I (enqueueWait q r w).s
  changes : ∀ w r h g, I w.s → w.s.portOf (w.s.routeOf r).line = j → w.s.recordAt q (w.s.routeOf r).line = some h → h.state ≠ .breaking →
    Placed g → Moves (fun _ _ => True) False w.s (reclaimed w q (w.s.routeOf r).line g).s → I (reclaimed w q (w.s.routeOf r).line g).s
  standing : ∀ (w : Work) f, I w.s → I (w.mapStanding q j f).s

variable (keep : ClaimsKeep q j I) {w : Work}

include keep

theorem ClaimsKeep.claimRoute (at' : I w.s) {r : Route} (candidate : w.s.candidateEntry q j r = true) {m : Manner} (manner : m ≠ .take) :
    I (claimRoute q r m w).1.s := by
  have keyed := keep.keyed _ at'
  obtain ⟨port, -, -, stands⟩ := candidate_spec candidate
  cases held : w.s.recordAt q (w.s.routeOf r).line with
  | some h =>
    obtain ⟨standing, apart⟩ := stands h held
    obtain ⟨g, placed, -, moves, claim⟩ := claimRoute_held keyed held standing apart m
    have changed := keep.changes w r h g at' port held standing placed moves
    obtain claim | ⟨-, claim⟩ := claim
    · rw [claim]
      exact changed
    · rw [claim]
      refine keep.admits _ ?_
      rw [s_freeIfAux]
      exact changed
  | none =>
    by_cases had : w.s.canBeHad (w.s.routeOf r).line r = true
    · rw [claimRoute_of_free held had m]
      exact keep.admits _ (keep.assigns w r at' port held had)
    · have claim := claimRoute_of_occupied held (Bool.eq_false_iff.2 had) m
      rw [claim]
      cases m with
      | wait => exact keep.queues w r at' port held
      | now => exact at'
      | take => exact absurd rfl manner

theorem ClaimsKeep.lose (l : Line) (why : LostReason) (at' : I w.s) : I (lose q j l why w).s := by
  unfold Machine.lose
  split
  · exact at'
  · exact keep.standing _ _ at'

theorem ClaimsKeep.loseFollowed (l : Line) (before : List Line) (at' : I w.s) : I (loseFollowed q j l before w).s := by
  unfold Machine.loseFollowed
  generalize before.filter _ = xs
  induction xs generalizing w with
  | nil => exact at'
  | cons x xs ih => exact ih (keep.lose x _ at')

theorem ClaimsKeep.ringClaim (b : Band) (told : Bool) (at' : I w.s) : I (ringClaim q j b told w).1.s := by
  have candidate {r : Route} (mem : r ∈ w.s.candidates q j b) : w.s.candidateEntry q j r = true :=
    (Bool.and_eq_true_iff.1 (List.mem_filter.1 mem).2).1
  cases found : (w.s.candidates q j b).find? fun r => w.s.qualifies q r with
  | some r =>
    have claimed := keep.claimRoute at' (candidate (List.mem_of_find?_eq_some found)) (m := .now) nofun
    simp only [Machine.ringClaim, found]
    refine keep.standing _ _ ?_
    split
    · exact keep.loseFollowed _ _ claimed
    · exact claimed
  | none =>
    cases head : w.s.candidates q j b with
    | nil =>
      have empty := head ▸ found
      simp only [Machine.ringClaim, head, empty, noteNoRoute]
      split
      · exact at'
      · exact at'
    | cons r rs =>
      have queued := keep.claimRoute at' (candidate (head ▸ List.mem_cons_self)) (m := .wait) nofun
      have none := head ▸ found
      simp only [Machine.ringClaim, head, none]
      exact keep.standing _ _ queued

theorem ClaimsKeep.calledClaim (b : Band) (at' : I w.s) : I (calledClaim q j b w).s := by
  unfold Machine.calledClaim
  split
  · exact keep.standing _ _ at'
  · split
    · exact at'
    · exact keep.ringClaim b true at'

theorem ClaimsKeep.claimIfNeeded (at' : I w.s) : I (claimIfNeeded q j w).s := by
  unfold Machine.claimIfNeeded
  split
  · split
    · exact keep.calledClaim _ at'
    · exact at'
  · exact at'

theorem ClaimsKeep.reclaimOne (at' : I w.s) : I (reclaimOne q j w).s := by
  unfold Machine.reclaimOne
  split
  · split
    · dsimp only
      split
      · exact keep.standing _ _ (keep.standing _ _ at')
      · exact keep.claimIfNeeded (w := w.mapStanding q j _) (keep.standing _ _ at')
    · exact at'
  · exact at'

theorem ClaimsKeep.followBand (at' : I w.s) : I (followBand q j w).s := by
  unfold Machine.followBand
  split
  · split
    · split
      · exact keep.calledClaim _ at'
      · exact keep.standing _ _ at'
    · exact keep.standing _ _ at'
  · exact at'

theorem ClaimsKeep.takeDue (at' : I w.s) : I (takeDue q j w).s := by
  unfold Machine.takeDue
  split
  · exact keep.claimIfNeeded (w := setDue q j false w) (keep.standing _ _ at')
  · exact at'

end

/-- In safe state a removal that calls for a re-claim changes the standing alone (R86). -/
theorem reclaimOne_of_safe {w : Work} {l : Line} (safe : w.s.safe = true) (named : (w.s.standing q j).reclaim = some l) (none : w.s.recordAt q l = none) :
    reclaimOne q j w = (w.mapStanding q j fun x => { x with reclaim := Option.none }).mapStanding q j fun x => { x with due := true } := by
  have safe' : (w.mapStanding q j fun x => { x with reclaim := Option.none }).s.safe = true := safe
  simp only [Machine.reclaimOne, named, none, Option.isNone_none, if_true, safe']
  rfl

/-! ## Events (R46) -/

section

variable {I : State → Prop}

/-- Two states alike in the table, the allocator, safe state, the frequency records and the presence of positions. -/
structure State.Resembles (s t : State) : Prop where
  table : t.table = s.table
  alloc : t.alloc = s.alloc
  safe : t.safe = s.safe
  freq : t.freq = s.freq
  present : ∀ q, t.present q = s.present q

theorem resembles_of_moved {ps : List Part} {s t : State} (moved : Moved ps s t) (out : ∀ x ∈ [Part.table, .alloc, .log, .freq], x ∉ ps) : s.Resembles t :=
  ⟨moved.table (out _ (by decide)), moved.alloc (out _ (by decide)), congrArg FaultLog.safe (moved.log (out _ (by decide))),
    moved.freq (out _ (by decide)), fun q => (moved.links q).present⟩

theorem resembles_freeSlot (p : Position) (s : State) : s.Resembles (freeSlot p s) := by
  refine ⟨rfl, rfl, rfl, rfl, fun q => ?_⟩
  rw [State.present, freeSlot, link_mapLink]
  split
  · next same => subst same; rfl
  · rfl

/-- Whatever the allocator's events and the end of a step do keeps `I`: admissions, make tests, what a path-quiet event does, and the ring claims
that removals call for. -/
structure EventsKeep (I : State → Prop) : Prop where
  same : ∀ s t, s.Resembles t → I s → I t
  admits : ∀ w, I w.s → I (admitFreed w).s
  made : ∀ s, I s → I s.made
  quiet : ∀ s q, s.pathQuiet q = true → I s → I (quietWork q s).s
  reclaims : ∀ w q j l, I w.s → (w.s.standing q j).reclaim = some l → w.s.recordAt q l = none → I (reclaimOne q j w).s

variable (keep : EventsKeep I) {w : Work} {s : State}

include keep

theorem EventsKeep.moved {ps : List Part} {t : State} (moved : Moved ps s t) (out : ∀ x ∈ [Part.table, .alloc, .log, .freq], x ∉ ps)
    (at' : I s) : I t := keep.same s t (resembles_of_moved moved out) at'

theorem EventsKeep.reclaimOne (q : Position) (j : PortKind) (at' : I w.s) : I (reclaimOne q j w).s := by
  cases named : (w.s.standing q j).reclaim with
  | none => simpa only [Machine.reclaimOne, named] using at'
  | some l =>
    cases held : w.s.recordAt q l with
    | none => exact keep.reclaims w q j l at' named held
    | some h => simpa only [Machine.reclaimOne, named, held, Option.isNone_some, Bool.false_eq_true, if_false] using at'

omit keep in
theorem eachPort_keeps {f : Position → PortKind → Work → Work} (each : ∀ q j w, I w.s → I (f q j w).s) (at' : I w.s) : I (eachPort f w).s := by
  unfold eachPort
  generalize allPositions = qs
  induction qs generalizing w with
  | nil => exact at'
  | cons q qs ih => exact ih (each q .aux _ (each q .main w at'))

theorem EventsKeep.reclaimed (at' : I w.s) : I (Machine.reclaims w).s := eachPort_keeps (fun q j _ => keep.reclaimOne q j) at'

theorem EventsKeep.handOn (at' : I w.s) : I (handOn w) := keep.moved (moved_handOn w) (by decide) at'

theorem EventsKeep.closed (b : State) (at' : I (admitFreed w).s) : I (closeWork b w).s := by
  rw [closeWork_s]
  exact keep.same (admitFreed w).s.made _ ⟨rfl, rfl, rfl, rfl, fun _ => rfl⟩ (keep.made _ at')

theorem EventsKeep.closeWork (b : State) (at' : I w.s) : I (closeWork b w).s := keep.closed b (keep.admits w at')

theorem EventsKeep.allocEvent {f : Work → Work} (at' : I (f (Work.start s)).s) : I (allocEvent f s) :=
  keep.handOn (keep.closeWork s (keep.reclaimed (keep.admits _ at')))

theorem EventsKeep.pathQuietEvent {q : Position} (quiet : s.pathQuiet q = true) (at' : I s) : I (pathQuietEvent q s) :=
  keep.moved (moved_filterMove q _) (by decide)
    (keep.allocEvent (f := fun w => applyReroutes q (requestBreaks q w)) (keep.quiet s q quiet at'))

theorem EventsKeep.quietEvents (b : State) : ∀ (n : Nat) (d : List Position) {s : State}, I s → I (quietEvents b n d s)
  | 0, _, _, at' => at'
  | n + 1, d, s, at' => by
    unfold Machine.quietEvents
    split
    · next q found =>
      have spec := List.find?_some found
      simp only [Bool.and_eq_true] at spec
      exact EventsKeep.quietEvents b n _ (keep.pathQuietEvent spec.2 at')
    · exact at'

theorem EventsKeep.closeStep {b : State} (ready : s.store.ready = b.store.ready) (at' : I s) : I (closeStep b s) := by
  rw [Machine.closeStep, watchPin_same b s ready]
  exact keep.moved (moved_startRule _) (by decide) (keep.quietEvents b _ _ at')

theorem EventsKeep.closedRequest (b : State) {a : State → State} (links : ∀ u, Moved [.links] u (a u)) (at' : I (admitFreed w).s) :
    I (closeRequest b a w) := by
  have answered : I ((Machine.closeWork b w).map a).s := keep.moved (links _) (by decide) (keep.closed b at')
  exact keep.allocEvent (f := id) (keep.handOn answered)

theorem EventsKeep.closeRequest (b : State) {a : State → State} (links : ∀ u, Moved [.links] u (a u)) (at' : I w.s) : I (closeRequest b a w) :=
  keep.closedRequest b links (keep.admits w at')

/-- A request served keeps `I` from its work to the end of the step. -/
theorem EventsKeep.served (worked : Worked (Work.start s) w) {p : Position} {f : Frame} {c : Code} {d : List Byte} (at' : I (admitFreed w).s) :
    I (Machine.closeStep s (freeSlot p (Machine.closeRequest s (reply p f.kind c d) w))) := by
  have closed := keep.closedRequest s (a := reply p f.kind c d) (fun _ => moved_reply ..) at'
  exact keep.closeStep (ready_closeRequest worked) (keep.same (Machine.closeRequest s (reply p f.kind c d) w) _ (resembles_freeSlot p _) closed)

end

end Sys2Proof.Machine
end

section
/-! Bystanders: records that only go on, whoever else has a ring claim made (R42, R57, R81, R106). -/

namespace Sys2Proof.Machine

variable {P : Position → PortKind → Line → Prop} {b s t : State}

/-! ## Bystanders -/

/-- The laws under which the records of the positions, kinds and lines `P` only go on: nobody waits for such a line, the position has left the
line, or waits for no line of the kind, and has no ring claim to come that a removal called for. -/
structure State.Calm (s : State) (P : Position → PortKind → Line → Prop) : Prop where
  keyed : s.AllocationKeyed
  out : ∀ j, ∀ e ∈ s.listOf j, ¬P e.pos (s.portOf j) j
  calm : ∀ q j, P q (s.portOf j) j → (∀ h, s.recordAt q j = some h → h.state = .breaking) ∨ ∀ i, s.portOf i = s.portOf j → P q (s.portOf i) i
  held : s.safe = false → ∀ q j l, P q (s.portOf j) j → (s.standing q (s.portOf j)).reclaim = some l → s.breakingOn q l = true

/-- The re-claim line of a standing is as it was, or has been cleared. -/
def Standing.Kept (x y : Standing) : Prop := ∀ l, y.reclaim = some l → x.reclaim = some l

theorem Standing.Kept.of_eq {x y : Standing} (same : y = x) : x.Kept y := fun _ named => same ▸ named

theorem Standing.Kept.of_none {x y : Standing} (none : y.reclaim = Option.none) : x.Kept y := fun _ named => by
  rw [none] at named
  cases named

theorem safe_of_moves {A : Position → PortKind → Prop} {B : Prop} {s t : State} (moves : Moves A B s t) : t.safe = s.safe := by
  rw [moves.eq]
  rfl

/-- From `b` on the laws have stood, and the records of `P` have gone on. -/
structure GoesCalm (P : Position → PortKind → Line → Prop) (b t : State) : Prop where
  calm : t.Calm P
  table : t.table = b.table
  records : ∀ q j, P q (b.portOf j) j → Option.Rel Holder.Later (b.recordAt q j) (t.recordAt q j)

theorem State.Calm.refl (calm : s.Calm P) : GoesCalm P s s := ⟨calm, rfl, fun _ _ _ => optionRel_refl (fun _ => .refl) _⟩

/-- One more change by moves that removes no BREAKING record. -/
theorem GoesCalm.step (goes : GoesCalm P b s) (moves : Moves (fun _ _ => True) False s t) (table : t.table = s.table)
    (standings : ∀ q j, P q (s.portOf j) j → (s.standing q (s.portOf j)).Kept (t.standing q (s.portOf j)))
    (lists : ∀ j, ∀ e ∈ t.listOf j, (∃ x ∈ s.listOf j, x.pos = e.pos) ∨ ¬P e.pos (s.portOf j) j)
    (records : ∀ q j, P q (s.portOf j) j → Option.Rel Holder.Later (s.recordAt q j) (t.recordAt q j)) : GoesCalm P b t := by
  have port := portOf_of_table table
  have port' := portOf_of_table goes.table
  refine ⟨⟨allocationKeyed_moves moves goes.calm.keyed, fun j e mem => ?_, fun q j own => ?_, fun out q j l own named => ?_⟩,
    table.trans goes.table, fun q j own => ?_⟩
  · rw [port]
    obtain ⟨x, was, pos⟩ | out := lists j e mem
    · exact pos ▸ goes.calm.out j x was
    · exact out
  · rw [port] at own
    refine (goes.calm.calm q j own).imp (fun breaking h held => ?_) fun whole i same => ?_
    · have rel := records q j own
      rw [held] at rel
      cases was : s.recordAt q j with
      | none => rw [was] at rel; cases rel
      | some x =>
        rw [was] at rel
        obtain ⟨y, eq, later⟩ := some_of_rel rel
        cases eq
        exact later.breaking.2 (breaking x was)
    · rw [port, port] at same
      rw [port]
      exact whole i same
  · rw [port] at own
    rw [port] at named
    exact breakingOn_moves moves (goes.calm.held ((safe_of_moves moves).symm.trans out) q j l own (standings q j own l named))
  · exact optionRel_trans (fun _ _ _ => .trans) (goes.records q j own) (records q j (by rw [port']; exact own))

/-- A position and kind of which `P` holds for no line. -/
def Excludes (P : Position → PortKind → Line → Prop) (s : State) (q : Position) (k : PortKind) : Prop := ∀ i, s.portOf i = k → ¬P q (s.portOf i) i

theorem goesCalm_admitFreed {w : Work} (goes : GoesCalm P b w.s) : GoesCalm P b (admitFreed w).s := by
  have yields := yields_admitFreed (K := fun _ => True) (kinded_of_keyed goes.calm.keyed) fun _ _ => trivial
  obtain ⟨lists, records⟩ := admitFreed_leaves w goes.calm.keyed goes.calm.out goes.calm.calm
  refine goes.step (moves_admitFreed goes.calm.keyed (cover_true _)) yields.table (fun q j _ => .of_eq ?_) (fun j e mem => .inl (lists j e mem))
    fun q j own => ?_
  · rw [State.standing, yields.standings]
    rfl
  · rw [records q j own]
    exact optionRel_refl (fun _ => .refl) _

/-- A change of the records in place, each of which goes on. -/
theorem goesCalm_of_map {f : Holder → Holder} (goes : GoesCalm P b s) (moves : Moves (fun _ _ => True) False s t) (table : t.table = s.table)
    (standings : t.alloc.standings = s.alloc.standings) (lists : t.alloc.lists = s.alloc.lists) (records : t.alloc.records = s.alloc.records.map f)
    (placed : ∀ r, (f r).pos = r.pos ∧ (f r).line = r.line) (later : ∀ r : Holder, r.Later (f r)) : GoesCalm P b t := by
  refine goes.step moves table (fun q j _ => .of_eq ?_) (fun j e mem => .inl ⟨e, ?_, rfl⟩) fun q j _ => ?_
  · rw [State.standing, standings]
    rfl
  · rwa [listOf_of_alloc lists] at mem
  · rw [recordAt_of_map records placed]
    cases s.recordAt q j with
    | none => exact .none
    | some x => exact .some (later x)

theorem claimsKeep_calm {q : Position} {k : PortKind} (out : Excludes P b q k) : ClaimsKeep q k (GoesCalm P b) := by
  have apart {s : State} (goes : GoesCalm P b s) {q' : Position} {i : Line} (own : P q' (s.portOf i) i) (same : q' = q) : s.portOf i ≠ k := by
    rintro rfl
    rw [portOf_of_table goes.table] at own
    exact out i (portOf_of_table goes.table i).symm (same ▸ own)
  refine ⟨fun s goes => goes.calm.keyed, fun w => goesCalm_admitFreed, fun w r goes port none had => ?_, fun w r goes port none => ?_,
    fun w r h g goes port held stands placed moves => ?_, fun w f goes => ?_⟩
  · have keyed := goes.calm.keyed
    have yields : Yields (fun _ => True) w (assign q r w) := yields_assign (kinded_of_keyed keyed) q trivial
    refine goes.step (moves_assign keyed trivial none (roomy_of_canBeHad had)) yields.table (fun _ _ _ => .of_eq ?_) (fun i e mem => .inl ?_)
      fun q' i own => ?_
    · rw [State.standing, yields.standings]
      rfl
    · rw [assign_eq] at mem
      obtain ⟨x, was, still⟩ := mem_still (still_releases q (w.others q r) _ i) mem
      rw [withdraw_s, listOf_withdrawn] at was
      refine ⟨x, ?_, (pos_of_still still).1⟩
      split at was
      · exact (List.mem_filter.1 was).1
      · exact was
    · have same : (assign q r w).s.recordAt q' i = w.s.recordAt q' i := by
        rw [recordAt_assign none, if_neg, recordAt_vacated, if_neg]
        · rintro ⟨same, x, mem, line⟩
          obtain ⟨mem, -, kind⟩ := (mem_recordsOf _ _ _ _).1 (List.mem_filter.1 mem).1
          refine apart goes own same ?_
          rw [← port, ← kind, (keyed.routed x mem).2.1, line]
        · rintro ⟨same, line⟩
          exact apart goes own same (line ▸ port)
      rw [same]
      exact optionRel_refl (fun _ => .refl) _
  · refine goes.step (.single (.enqueue trivial none)) rfl (fun _ _ _ => .of_eq rfl) (fun i e mem => ?_) fun q' i _ => optionRel_refl (fun _ => .refl) _
    rw [enqueueWait_s, listOf_enqueued] at mem
    split at mem
    · next line =>
      obtain ⟨was, -⟩ | ⟨pos, -⟩ := mem_queueFor mem
      · exact .inl ⟨e, line ▸ was, rfl⟩
      · exact .inr fun own => apart goes own pos (line ▸ port)
    · split at mem
      · exact .inl ⟨e, (List.mem_filter.1 mem).1, rfl⟩
      · exact .inl ⟨e, mem, rfl⟩
  · refine goes.step moves rfl (fun _ _ _ => .of_eq rfl) (fun i e mem => .inl ⟨e, ?_, rfl⟩) fun q' i own => ?_
    · rw [listOf_reclaimed] at mem
      split at mem
      · exact (List.mem_filter.1 mem).1
      · exact mem
    · rw [recordAt_reclaimed placed, if_neg fun here : q' = q ∧ i = (w.s.routeOf r).line => apart goes own here.1 (here.2 ▸ port)]
      exact optionRel_refl (fun _ => .refl) _
  · refine goes.step (t := (w.mapStanding q k f).s) (.single (.standing f trivial)) rfl (fun q' i own => .of_eq ?_) (fun i e mem => .inl ⟨e, mem, rfl⟩)
      fun _ _ _ => optionRel_refl (fun _ => .refl) _
    exact (standing_mapStanding w.s q k f q' (w.s.portOf i)).trans (if_neg fun here => apart goes own here.1 here.2)

/-- A position with a ring claim to come that a removal called for is no bystander on that kind. -/
theorem GoesCalm.excludes (goes : GoesCalm P b s) (out : s.safe = false) {q : Position} {j : PortKind} {l : Line} (named : (s.standing q j).reclaim = some l)
    (none : s.recordAt q l = none) : Excludes P b q j := fun i port own => by
  have same := portOf_of_table goes.table i
  subst port
  have on := goes.calm.held out q i l (by rw [same]; exact own) (by rw [same]; exact named)
  rw [State.breakingOn, none] at on
  cases on

/-- A change of a standing that names no new re-claim line. -/
theorem GoesCalm.restood {w : Work} (goes : GoesCalm P b w.s) (q : Position) (j : PortKind) {f : Standing → Standing} (kept : ∀ x : Standing, x.Kept (f x)) :
    GoesCalm P b (w.mapStanding q j f).s := by
  refine goes.step (t := (w.mapStanding q j f).s) (.single (.standing f trivial)) rfl (fun q' i _ => ?_) (fun i e mem => .inl ⟨e, mem, rfl⟩)
    fun _ _ _ => optionRel_refl (fun _ => .refl) _
  have now : (w.mapStanding q j f).s.standing q' (w.s.portOf i) = _ := standing_mapStanding w.s q j f q' (w.s.portOf i)
  rw [now]
  split
  · next here =>
    rw [here.1, here.2]
    exact kept _
  · exact .of_eq rfl

theorem goesCalm_of_same (table : t.table = s.table) (alloc : t.alloc = s.alloc) (safe : t.safe = s.safe) (goes : GoesCalm P b s) : GoesCalm P b t := by
  have eq : t.alloc.records = s.alloc.records.map id := by rw [alloc, List.map_id]
  have lists (j : Line) : t.listOf j = s.listOf j := listOf_of_alloc (congrArg _ alloc) j
  have record (q : Position) (j : Line) : t.recordAt q j = s.recordAt q j := recordAt_of_alloc (congrArg _ alloc) q j
  have standing (q : Position) (k : PortKind) : t.standing q k = s.standing q k := by rw [State.standing, alloc]; rfl
  have port := portOf_of_table table
  refine ⟨⟨allocationKeyed_of_same goes.calm.keyed table alloc, fun j e mem => ?_, fun q j own => ?_, fun out q j l own named => ?_⟩,
    table.trans goes.table, fun q j own => ?_⟩
  · rw [port]
    exact goes.calm.out j e (lists j ▸ mem)
  · simp only [port, record] at own ⊢
    exact goes.calm.calm q j own
  · rw [port] at own
    rw [port, standing] at named
    rw [State.breakingOn, record]
    exact goes.calm.held (safe.symm.trans out) q j l own named
  · rw [record]
    exact goes.records q j own

/-- The records of bystanders go on through every event, whatever ring claims others have made. -/
theorem eventsKeep_calm (P : Position → PortKind → Line → Prop) (b : State) : EventsKeep (GoesCalm P b) where
  same s t alike := goesCalm_of_same alike.table alike.alloc alike.safe
  admits _ := goesCalm_admitFreed
  made s goes := by
    refine goesCalm_of_map goes (.single (.make s)) rfl rfl rfl rfl (fun r => by split <;> exact ⟨rfl, rfl⟩) fun r => ?_
    split
    · next may =>
      simp only [Bool.and_eq_true, decide_eq_true_eq] at may
      exact .single (.make may.1)
    · exact .refl
  quiet s q quiet goes := by
    have keyed := goes.calm.keyed
    have yields := yields_quietWork keyed q
    exact goesCalm_of_map goes (moves_quietWork keyed quiet) yields.table yields.standings (lists_quietWork q s) (records_quietWork keyed quiet)
      (fun r => ⟨(quieted_placed s q r).1, (quieted_placed s q r).2.1⟩) (later_quieted s q)
  reclaims w q j l goes named none := by
    cases safe : w.s.safe with
    | false => exact (claimsKeep_calm (goes.excludes safe named none)).reclaimOne goes
    | true =>
      rw [reclaimOne_of_safe safe named none]
      exact (goes.restood q j fun _ => .of_none rfl).restood q j fun _ _ named => named

end Sys2Proof.Machine
end

section
/-! A line that nobody is let on: its records are bystanders', and its waiters keep their order, whoever else has a ring claim made (R50, R61, R62,
R85). -/

namespace Sys2Proof.Machine

/-! ## Waiters in their order (R50) -/

/-- What stands in the way on a line: the line, the waiters whose order counts, and who stands at the head of its list with a TAKE entry. -/
structure Barrier where
  line : Line
  waiters : List Position
  taker : Option (Position × Route)

variable {g : Barrier}

/-- A list has the waiters in their order, and the taker's entry at its head. -/
structure Barrier.Orders (g : Barrier) (xs : List WaitEntry) : Prop where
  waiters : g.waiters.Sublist (xs.map fun e => e.pos)
  taker : ∀ p r, g.taker = some (p, r) → ∃ e es, xs = e :: es ∧ e.pos = p ∧ e.route = r ∧ e.manner = .take

/-- A barrier on a line with records that nobody new can have: a MAIN line, or an RX line for which a TAKE waits (R52, R62). -/
structure Barrier.Stands (g : Barrier) (P : Position → PortKind → Line → Prop) (b : State) : Prop where
  occupied : ∃ q h, P q (b.portOf g.line) g.line ∧ b.recordAt q g.line = some h
  closed : b.portOf g.line = .main ∨ ∃ p r, g.taker = some (p, r)
  listed : ∀ p r, g.taker = some (p, r) → p ∈ g.waiters

theorem Barrier.Orders.of_still {xs ys : List WaitEntry} (orders : g.Orders xs) (same : ys.map WaitEntry.still = xs.map WaitEntry.still) :
    g.Orders ys where
  waiters := by
    have pos (zs : List WaitEntry) : zs.map (fun e => e.pos) = (zs.map WaitEntry.still).map fun e => e.pos := by
      rw [List.map_map]
      rfl
    rw [pos, same, ← pos]
    exact orders.waiters
  taker p r taker := by
    obtain ⟨e, es, rfl, pos, route, manner⟩ := orders.taker p r taker
    rw [List.map_cons] at same
    obtain ⟨x, xs, rfl, still, -⟩ := List.map_eq_cons_iff.1 same
    obtain ⟨pos', route', manner', -⟩ := pos_of_still still
    exact ⟨x, xs, rfl, pos'.trans pos, route'.trans route, manner'.trans manner⟩

theorem Barrier.Orders.withdrawn {xs : List WaitEntry} {q : Position} (orders : g.Orders xs) (listed : ∀ p r, g.taker = some (p, r) → p ∈ g.waiters)
    (other : q ∉ g.waiters) : g.Orders (xs.filter fun e => e.pos ≠ q) where
  waiters := by
    have kept : g.waiters.filter (fun p => p ≠ q) = g.waiters := List.filter_eq_self.2 fun p mem => by
      simpa using fun same : p = q => other (same ▸ mem)
    have fewer := orders.waiters.filter fun p => p ≠ q
    rw [kept, List.filter_map] at fewer
    exact fewer
  taker p r taker := by
    obtain ⟨e, es, rfl, pos, route, manner⟩ := orders.taker p r taker
    have apart : e.pos ≠ q := fun same => other (same ▸ pos ▸ listed p r taker)
    exact ⟨e, es.filter fun e => e.pos ≠ q, List.filter_cons_of_pos (by simpa using apart), pos, route, manner⟩

theorem Barrier.Orders.queueFor {xs : List WaitEntry} {q : Position} (orders : g.Orders xs) (listed : ∀ p r, g.taker = some (p, r) → p ∈ g.waiters)
    (other : q ∉ g.waiters) (s : State) (r : Route) : g.Orders (s.queueFor q r xs) := by
  unfold State.queueFor
  split
  · have pos : (xs.map fun e => if e.pos = q then { e with route := r } else e).map (fun e => e.pos) = xs.map fun e => e.pos := by
      rw [List.map_map]
      refine List.map_congr_left fun e _ => ?_
      rw [Function.comp]
      split <;> rfl
    refine ⟨by rw [pos]; exact orders.waiters, fun p x taker => ?_⟩
    obtain ⟨e, es, rfl, own, rest⟩ := orders.taker p x taker
    have apart : e.pos ≠ q := fun same => other (same ▸ own ▸ listed p x taker)
    exact ⟨e, _, by rw [List.map_cons, if_neg apart], own, rest⟩
  · obtain ⟨front, back, split, inserted, -, last⟩ := insertWait_split (newEntry q r .wait s) xs
    rw [inserted]
    refine ⟨?_, fun p x taker => ?_⟩
    · refine orders.waiters.trans ?_
      rw [split, List.map_append, List.map_append]
      exact (List.Sublist.refl _).append ((List.sublist_cons_self _ _).map _)
    · obtain ⟨e, es, list, own, route, manner⟩ := orders.taker p x taker
      rw [list] at split
      cases front with
      | nil => exact absurd manner (last e (by rw [← List.nil_append back, ← split]; rfl)).1
      | cons y ys =>
        obtain ⟨rfl, -⟩ := List.cons.inj split
        exact ⟨e, _, rfl, own, route, manner⟩

/-! ## The line behind a barrier -/

variable {P : Position → PortKind → Line → Prop} {b s t : State}

/-- From `b` on the bystanders have gone on, nobody else has come onto the line, and its waiters have kept their order. -/
structure Barrier.Holds (g : Barrier) (P : Position → PortKind → Line → Prop) (b s : State) : Prop where
  calm : GoesCalm P b s
  own : ∀ y ∈ s.recordsOn g.line, P y.pos (b.portOf g.line) g.line
  list : g.Orders (s.listOf g.line)
  owed : ∀ q ∈ g.waiters, ∀ i, (s.standing q (b.portOf g.line)).reclaim = some i → s.breakingOn q i = true

theorem Barrier.Holds.step (holds : g.Holds P b s) (calm : GoesCalm P b t) (moves : Moves (fun _ _ => True) False s t)
    (records : ∀ y ∈ t.recordsOn g.line, ∃ x ∈ s.recordsOn g.line, x.pos = y.pos) (list : g.Orders (t.listOf g.line))
    (standings : ∀ q ∈ g.waiters, (s.standing q (b.portOf g.line)).Kept (t.standing q (b.portOf g.line))) : g.Holds P b t where
  calm := calm
  own y mem := by
    obtain ⟨x, was, same⟩ := records y mem
    exact same ▸ holds.own x was
  list := list
  owed q mem i named := breakingOn_moves moves (holds.owed q mem i (standings q mem i named))

theorem Barrier.Holds.occupied (holds : g.Holds P b s) (stands : g.Stands P b) : s.recordsOn g.line ≠ [] := fun empty => by
  obtain ⟨q, h, own, held⟩ := stands.occupied
  have rel := holds.calm.records q g.line own
  rw [held] at rel
  obtain ⟨x, held', -⟩ := some_of_rel rel
  obtain ⟨mem, -, line⟩ := mem_of_recordAt held'
  have on := (mem_recordsOn s g.line x).2 ⟨mem, line⟩
  rw [empty] at on
  cases on

/-- Nobody can have the line. -/
theorem Barrier.Holds.taken (holds : g.Holds P b s) (stands : g.Stands P b) (r : Route) : s.canBeHad g.line r = false := by
  have port := portOf_of_table holds.calm.table g.line
  have occupied : (s.recordsOn g.line).isEmpty = false := by
    simpa using holds.occupied stands
  obtain main | ⟨p, x, taker⟩ := stands.closed
  · simp [State.canBeHad, occupied, port, main]
  · obtain ⟨e, es, list, -, -, manner⟩ := holds.list.taker p x taker
    simp [State.canBeHad, occupied, list, hasTake, manner]

/-- The line has nobody let on at its turn. -/
theorem admitLine_of_barrier {w : Work} {l : Line} (occupied : w.s.recordsOn l ≠ [])
    (closed : w.s.portOf l = .main ∨ ∃ e es, w.s.listOf l = e :: es ∧ e.manner = .take) : admitLine l w = w := by
  have some : (w.s.recordsOn l).isEmpty = false := by simpa using occupied
  unfold admitLine
  split
  · rfl
  · next e es list =>
    rw [some]
    obtain main | ⟨x, xs, list', manner⟩ := closed
    · simp [main]
    · rw [list] at list'
      obtain ⟨rfl, -⟩ := List.cons.inj list'
      simp [manner]

/-- Admissions of other lines keep what no admission of `l` changes. -/
theorem admitAll_but {I : Work → Prop} {N : Line → WaitEntry → Prop} {l : Line} (keep : AdmissionsKeep (fun i => i ≠ l) I N)
    (freed : ∀ w ls, I w → I { w with freed := ls }) (shut : ∀ w, I w → admitLine l w = w) : ∀ (n : Nat) {w : Work}, I w → I (admitAll n w)
  | 0, _, at' => at'
  | n + 1, w, at' => by
    unfold Machine.admitAll
    split
    · exact at'
    · next i ls _ =>
      have popped := freed w ls at'
      by_cases here : i = l
      · subst here
        rw [shut _ popped]
        exact admitAll_but keep freed shut n popped
      · exact admitAll_but keep freed shut n (keep.admitLine popped here)

theorem Barrier.Holds.admitFreed {w : Work} (holds : g.Holds P b w.s) (stands : g.Stands P b) : g.Holds P b (admitFreed w).s := by
  have keyed := holds.calm.calm.keyed
  have port := portOf_of_table holds.calm.table
  have start : Untouched w.s g.line w := by
    refine untouched_refl keyed fun x on stands m same e mem pos => ?_
    obtain ⟨mem', line⟩ := (mem_recordsOn _ _ _).1 on
    have own := holds.own x on
    rw [← port] at own
    obtain breaking | whole := holds.calm.calm.calm x.pos g.line own
    · exact stands (breaking x ((recordAt_eq_some_iff keyed.records).2 ⟨mem', rfl, line⟩))
    · exact holds.calm.calm.out m e mem (pos ▸ whole m same)
  have shut (v : Work) (at' : Untouched w.s g.line v) : admitLine g.line v = v := by
    refine admitLine_of_barrier (by rw [at'.records]; exact holds.occupied stands) ?_
    refine stands.closed.imp (fun main => ?_) fun ⟨p, r, taker⟩ => ?_
    · rw [portOf_of_table at'.table, port, main]
    · obtain ⟨e, es, list, -, -, manner⟩ := (holds.list.of_still at'.list).taker p r taker
      exact ⟨e, es, list, manner⟩
  have left : Untouched w.s g.line (Machine.admitFreed w) :=
    admitAll_but (admissionsKeep_untouched (kinds_recordsOn keyed g.line)) (fun v ls at' => ⟨at'.table, at'.records, at'.list, at'.entries, at'.fewer⟩) shut _ start
  have yields := yields_admitFreed (K := fun _ => True) (kinded_of_keyed keyed) fun _ _ => trivial
  refine holds.step (goesCalm_admitFreed holds.calm) (moves_admitFreed keyed (cover_true _)) (fun y mem => ⟨y, left.records ▸ mem, rfl⟩)
    (holds.list.of_still left.list) fun q _ => .of_eq ?_
  rw [State.standing, yields.standings]
  rfl

/-- A change of the records in place. -/
theorem Barrier.Holds.of_map {f : Holder → Holder} (holds : g.Holds P b s) (calm : GoesCalm P b t) (moves : Moves (fun _ _ => True) False s t)
    (standings : t.alloc.standings = s.alloc.standings) (lists : t.alloc.lists = s.alloc.lists) (records : t.alloc.records = s.alloc.records.map f)
    (placed : ∀ r, (f r).pos = r.pos ∧ (f r).line = r.line) : g.Holds P b t := by
  refine holds.step calm moves (fun y mem => ?_) (by rw [listOf_of_alloc lists]; exact holds.list) fun q _ => .of_eq ?_
  · obtain ⟨mem, line⟩ := (mem_recordsOn _ _ _).1 mem
    rw [records] at mem
    obtain ⟨x, was, rfl⟩ := List.mem_map.1 mem
    exact ⟨x, (mem_recordsOn _ _ _).2 ⟨was, (placed x).2.symm.trans line⟩, (placed x).1.symm⟩
  · rw [State.standing, standings]
    rfl

theorem claimsKeep_barrier (stands : g.Stands P b) {q : Position} {k : PortKind} (out : Excludes P b q k)
    (free : k = b.portOf g.line → q ∉ g.waiters) : ClaimsKeep q k (g.Holds P b) := by
  have calm := claimsKeep_calm out
  have apart {s : State} (holds : g.Holds P b s) (port : b.portOf g.line = k) {y : Holder} (mem : y ∈ s.recordsOn g.line) : y.pos ≠ q := fun same =>
    out g.line port (same ▸ holds.own y mem)
  have withdrawn {s : State} (holds : g.Holds P b s) (port : b.portOf g.line = k) : g.Orders ((s.listOf g.line).filter fun e => e.pos ≠ q) :=
    holds.list.withdrawn stands.listed (free port.symm)
  refine ⟨fun s holds => holds.calm.calm.keyed, fun w holds => holds.admitFreed stands, fun w r holds port none had => ?_,
    fun w r holds port none => ?_, fun w r h f holds port held standing placed moves => ?_, fun w f holds => ?_⟩
  · have keyed := holds.calm.calm.keyed
    have here := portOf_of_table holds.calm.table
    have other : g.line ≠ (w.s.routeOf r).line := fun same => by
      rw [← same, holds.taken stands] at had
      cases had
    have moves := moves_assign keyed (A := fun _ _ => True) (B := False) trivial none (roomy_of_canBeHad had)
    have yields : Yields (fun _ => True) w (assign q r w) := yields_assign (kinded_of_keyed keyed) q trivial
    refine holds.step (calm.assigns w r holds.calm port none had) moves (fun y mem => ?_) ?_ fun p _ => .of_eq ?_
    · obtain ⟨mem, line⟩ := (mem_recordsOn _ _ _).1 mem
      have at' := (recordAt_eq_some_iff (allocationKeyed_moves moves keyed).records).2 ⟨mem, rfl, line⟩
      rw [recordAt_assign none, if_neg (fun both => other both.2), recordAt_vacated] at at'
      cases held : w.s.recordAt y.pos g.line with
      | none => simp [held] at at'
      | some x =>
        obtain ⟨was, pos, line⟩ := mem_of_recordAt held
        exact ⟨x, (mem_recordsOn _ _ _).2 ⟨was, line⟩, pos⟩
    · rw [assign_eq, createRecord_s, listOf_withRecord]
      refine Barrier.Orders.of_still ?_ (still_releases q (w.others q r) _ g.line)
      rw [withdraw_s, listOf_withdrawn]
      split
      · next own => exact withdrawn holds (by rw [← here, own.1, port])
      · exact holds.list
    · rw [State.standing, yields.standings]
      rfl
  · have here := portOf_of_table holds.calm.table
    refine holds.step (calm.queues w r holds.calm port none) (.single (.enqueue trivial none)) (fun y mem => ⟨y, mem, rfl⟩) ?_ fun _ _ => .of_eq rfl
    rw [enqueueWait_s, listOf_enqueued]
    split
    · next same => exact holds.list.queueFor stands.listed (free (by rw [← here, same, port])) _ _
    · split
      · next own => exact withdrawn holds (by rw [← here, own, port])
      · exact holds.list
  · have here := portOf_of_table holds.calm.table
    refine holds.step (calm.changes w r h f holds.calm port held standing placed moves) moves (fun y mem => ?_) ?_ fun _ _ => .of_eq rfl
    · obtain ⟨mem, line⟩ := (mem_recordsOn _ _ _).1 mem
      rw [records_mapRecord] at mem
      obtain ⟨x, was, rfl⟩ := List.mem_map.1 mem
      obtain ⟨pos, place⟩ : (if x.pos = q ∧ x.line = (w.s.routeOf r).line then f x else x).pos = x.pos ∧
          (if x.pos = q ∧ x.line = (w.s.routeOf r).line then f x else x).line = x.line := by
        split
        · exact ⟨(placed x).1, (placed x).2.1⟩
        · exact ⟨rfl, rfl⟩
      exact ⟨x, (mem_recordsOn _ _ _).2 ⟨was, place.symm.trans line⟩, pos.symm⟩
    · rw [listOf_reclaimed]
      split
      · next own => exact withdrawn holds (by rw [← here, own, port])
      · exact holds.list
  · refine holds.step (t := (w.mapStanding q k f).s) (calm.standing w f holds.calm) (.single (.standing f trivial)) (fun y mem => ⟨y, mem, rfl⟩)
      holds.list fun p mem => .of_eq ?_
    exact (standing_mapStanding w.s q k f p (b.portOf g.line)).trans (if_neg fun both : p = q ∧ b.portOf g.line = k => free both.2.symm (both.1 ▸ mem))

/-- A change of a standing that names no new re-claim line. -/
theorem Barrier.Holds.restood {w : Work} (holds : g.Holds P b w.s) (q : Position) (j : PortKind) {f : Standing → Standing}
    (kept : ∀ x : Standing, x.Kept (f x)) : g.Holds P b (w.mapStanding q j f).s := by
  refine holds.step (holds.calm.restood q j kept) (.single (.standing (s := w.s) (p := q) (k := j) f trivial)) (fun y mem => ⟨y, mem, rfl⟩)
    holds.list fun p _ => ?_
  have now : (w.mapStanding q j f).s.standing p (b.portOf g.line) = _ := standing_mapStanding w.s q j f p (b.portOf g.line)
  rw [now]
  split
  · next here =>
    rw [here.1, here.2]
    exact kept _
  · exact .of_eq rfl

/-- A line behind a barrier stays so through every event. -/
theorem eventsKeep_barrier (stands : g.Stands P b) : EventsKeep (g.Holds P b) where
  same s t alike holds := by
    have alloc := alike.alloc
    have calm := (eventsKeep_calm P b).same s t alike holds.calm
    refine ⟨calm, fun y mem => holds.own y ?_, ?_, fun q mem i named => ?_⟩
    · rwa [recordsOn_of_alloc (congrArg _ alloc)] at mem
    · rw [listOf_of_alloc (congrArg _ alloc)]
      exact holds.list
    · rw [State.standing, alloc] at named
      rw [State.breakingOn, recordAt_of_alloc (congrArg _ alloc)]
      exact holds.owed q mem i named
  admits _ holds := holds.admitFreed stands
  made s holds := holds.of_map ((eventsKeep_calm P b).made s holds.calm) (.single (.make s)) rfl rfl rfl fun r => by split <;> exact ⟨rfl, rfl⟩
  quiet s q quiet holds := by
    have keyed := holds.calm.calm.keyed
    have yields := yields_quietWork keyed q
    exact holds.of_map ((eventsKeep_calm P b).quiet s q quiet holds.calm) (moves_quietWork keyed quiet) yields.standings (lists_quietWork q s)
      (records_quietWork keyed quiet) fun r => ⟨(quieted_placed s q r).1, (quieted_placed s q r).2.1⟩
  reclaims w q j l holds named none := by
    cases safe : w.s.safe with
    | false =>
      refine (claimsKeep_barrier stands (holds.calm.excludes safe named none) fun port mem => ?_).reclaimOne holds
      have on := holds.owed q mem l (port ▸ named)
      rw [State.breakingOn, none] at on
      cases on
    | true =>
      rw [reclaimOne_of_safe safe named none]
      exact (holds.restood q j fun _ => .of_none rfl).restood q j fun _ _ named => named

/-! ## A re-claim line cleared (R63) -/

theorem GoesCalm.cleared {w : Work} (goes : GoesCalm P b w.s) (p : Position) (k : PortKind) : GoesCalm P b (w.cleared p k).s :=
  goes.restood p k fun _ => .of_none rfl

theorem Barrier.Holds.cleared {w : Work} (holds : g.Holds P b w.s) (p : Position) (k : PortKind) : g.Holds P b (w.cleared p k).s :=
  holds.restood p k fun _ => .of_none rfl

end Sys2Proof.Machine
end

section
/-! What a TAKE does to the positions that it takes a line from (R61, R62, R85, R107). -/

namespace Sys2Proof.Machine

variable {l : Line} {w : Work}

/-! ## A victim's release -/

theorem standing_left (s : State) (p : Position) (l : Line) (q : Position) (k : PortKind) : (s.left p l).standing q k = s.standing q k := by
  unfold State.left
  split
  · rfl
  · split
    · rfl
    · split
      · rfl
      · rfl

/-- A record that leaves hands on a MAIN release event of its position alone, and no notice (R44). -/
theorem goBreaking_hands (q : Position) (l : Line) (w : Work) : (goBreaking q l w).notes = w.notes ∧
    ∃ es, (goBreaking q l w).events = w.events ++ es ∧ ∀ e ∈ es, e = .mainRelease q := by
  have dropped (h : Holder) : (dropNeverClosed h (noteRelease q h.kind (toBreaking q l w))).notes = w.notes ∧
      ∃ es, (dropNeverClosed h (noteRelease q h.kind (toBreaking q l w))).events = w.events ++ es ∧ ∀ e ∈ es, e = .mainRelease q := by
    have noted : (noteRelease q h.kind (toBreaking q l w)).notes = w.notes ∧
        ∃ es, (noteRelease q h.kind (toBreaking q l w)).events = w.events ++ es ∧ ∀ e ∈ es, e = .mainRelease q := by
      cases h.kind with
      | main => exact ⟨rfl, [.mainRelease q], rfl, by simp⟩
      | aux => exact ⟨rfl, [], (List.append_nil _).symm, by simp⟩
    unfold dropNeverClosed
    split
    · exact noted
    · exact noted
  unfold goBreaking
  split
  · exact ⟨rfl, [], (List.append_nil _).symm, by simp⟩
  · split
    · exact ⟨rfl, [], (List.append_nil _).symm, by simp⟩
    · exact ⟨rfl, [], (List.append_nil _).symm, by simp⟩
    · exact dropped _
    · exact dropped _

theorem lose_hands (q : Position) (k : PortKind) (why : LostReason) (w : Work) : (lose q k l why w).events = w.events ∧
    (lose q k l why w).freed = w.freed ∧ (∃ ns, (lose q k l why w).notes = w.notes ++ ns) ∧
    (w.s.present q = true → (lose q k l why w).notes = w.notes ++ [(q, .lost k l why)]) := by
  unfold lose
  split
  · exact ⟨rfl, rfl, ⟨[_], rfl⟩, fun _ => rfl⟩
  · next absent => exact ⟨rfl, rfl, ⟨[], (List.append_nil _).symm⟩, fun present => absurd present absent⟩

theorem table_takeFrom (q : Position) : (takeFrom l q w).s.table = w.s.table := (worked_takeFrom l q w).moved.table (by decide)

theorem events_takeFrom (q : Position) (w : Work) : ∃ es, (takeFrom l q w).events = w.events ++ .revoke q :: es ∧ ∀ e ∈ es, e = .mainRelease q := by
  obtain ⟨-, es, events, own⟩ := goBreaking_hands q l ((setReclaim q l w).event (.revoke q))
  refine ⟨es, ?_, own⟩
  rw [takeFrom, (lose_hands ..).1, events]
  show (w.events ++ [.revoke q]) ++ es = _
  simp

theorem notes_takeFrom (q : Position) (w : Work) : (∃ ns, (takeFrom l q w).notes = w.notes ++ ns) ∧
    (w.s.present q = true → (q, Notice.lost (w.s.portOf l) l .taken) ∈ (takeFrom l q w).notes) := by
  obtain ⟨notes, -⟩ := goBreaking_hands q l ((setReclaim q l w).event (.revoke q))
  obtain ⟨-, -, more, told⟩ := lose_hands (l := l) q (w.s.portOf l) .taken (goBreaking q l ((setReclaim q l w).event (.revoke q)))
  rw [notes] at more told
  refine ⟨more, fun present => ?_⟩
  have links : (goBreaking q l ((setReclaim q l w).event (.revoke q))).s.links = w.s.links :=
    (worked_goBreaking q l _).moved.same .links (by decide)
  have still : (goBreaking q l ((setReclaim q l w).event (.revoke q))).s.present q = true := by
    rw [State.present, State.link, links]
    exact present
  rw [takeFrom, told still]
  exact List.mem_append_right _ (List.mem_singleton.2 rfl)

/-- A victim that follows on the line's kind has the line as its re-claim line; nothing else of follow flags and re-claim lines changes (R85). -/
theorem standing_takeFrom (q : Position) (w : Work) (p : Position) (j : PortKind) :
    ((takeFrom l q w).s.standing p j).follow = (w.s.standing p j).follow ∧
      (((takeFrom l q w).s.standing p j).reclaim = (w.s.standing p j).reclaim ∨
        (p = q ∧ j = w.s.portOf l ∧ (w.s.standing p j).follow = true ∧ ((takeFrom l q w).s.standing p j).reclaim = some l)) := by
  have marked : (setReclaim q l w).s.standing p j = if p = q ∧ j = w.s.portOf l then
      (if (w.s.standing q (w.s.portOf l)).follow then { w.s.standing q (w.s.portOf l) with reclaim := some l } else w.s.standing q (w.s.portOf l))
      else w.s.standing p j := standing_mapStanding ..
  have left : (goBreaking q l ((setReclaim q l w).event (.revoke q))).s.standing p j = (setReclaim q l w).s.standing p j := by
    rw [goBreaking_s, standing_left]
    rfl
  have lost : ((takeFrom l q w).s.standing p j).follow = ((setReclaim q l w).s.standing p j).follow ∧
      ((takeFrom l q w).s.standing p j).reclaim = ((setReclaim q l w).s.standing p j).reclaim := by
    rw [← left]
    obtain same | same := s_lose q (w.s.portOf l) l .taken (goBreaking q l ((setReclaim q l w).event (.revoke q)))
    · rw [takeFrom, same]
      exact ⟨rfl, rfl⟩
    · rw [takeFrom, same, standing_mapStanding]
      split
      · next here =>
        rw [here.1, here.2]
        exact ⟨rfl, rfl⟩
      · exact ⟨rfl, rfl⟩
  rw [lost.1, lost.2, marked]
  split
  · next here =>
    obtain ⟨rfl, rfl⟩ := here
    split
    · next follows => exact ⟨rfl, .inr ⟨rfl, rfl, follows, rfl⟩⟩
    · exact ⟨rfl, .inl rfl⟩
  · exact ⟨rfl, .inl rfl⟩

/-! ## All victims in their order -/

/-- The line is taken from the positions of some records, one after another. -/
abbrev takeFroms (l : Line) (xs : List Holder) (w : Work) : Work := xs.foldl (fun w r => takeFrom l r.pos w) w

/-- A victim is revoked before anything else ends its transmission. -/
theorem revokes_takeFroms {x : Holder} : ∀ (xs : List Holder) (w : Work), x ∈ xs →
    ∃ pre post, (takeFroms l xs w).events = w.events ++ (pre ++ .revoke x.pos :: post) ∧ ∀ e ∈ pre, ¬e.Ends x.pos
  | [], _, mem => nomatch mem
  | y :: ys, w, mem => by
    obtain ⟨es, first, own⟩ := events_takeFrom (l := l) y.pos w
    have grows (xs : List Holder) (v : Work) : ∃ fs, (takeFroms l xs v).events = v.events ++ fs := by
      induction xs generalizing v with
      | nil => exact ⟨[], (List.append_nil _).symm⟩
      | cons z zs ih =>
        obtain ⟨gs, one, -⟩ := events_takeFrom (l := l) z.pos v
        obtain ⟨fs, rest⟩ := ih (takeFrom l z.pos v)
        exact ⟨_, by rw [takeFroms, List.foldl_cons, ← takeFroms, rest, one, List.append_assoc]⟩
    by_cases here : y.pos = x.pos
    · obtain ⟨fs, rest⟩ := grows ys (takeFrom l y.pos w)
      refine ⟨[], es ++ fs, ?_, by simp⟩
      rw [takeFroms, List.foldl_cons, ← takeFroms, rest, first, here]
      simp
    · have mem := (List.mem_cons.1 mem).resolve_left fun same => here (congrArg _ same.symm)
      obtain ⟨pre, post, rest, others⟩ := revokes_takeFroms ys (takeFrom l y.pos w) mem
      refine ⟨.revoke y.pos :: es ++ pre, post, ?_, fun e mem => ?_⟩
      · rw [takeFroms, List.foldl_cons, ← takeFroms, rest, first]
        simp
      · obtain mem | mem := List.mem_append.1 mem
        · obtain rfl | mem := List.mem_cons.1 mem
          · exact here
          · rw [own e mem]
            exact here
        · exact others e mem

theorem notes_takeFroms {x : Holder} : ∀ (xs : List Holder) (w : Work), x ∈ xs → w.s.present x.pos = true →
    (x.pos, Notice.lost (w.s.portOf l) l .taken) ∈ (takeFroms l xs w).notes
  | [], _, mem, _ => nomatch mem
  | y :: ys, w, mem, present => by
    have grows (xs : List Holder) (v : Work) : ∃ ns, (takeFroms l xs v).notes = v.notes ++ ns := by
      induction xs generalizing v with
      | nil => exact ⟨[], (List.append_nil _).symm⟩
      | cons z zs ih =>
        obtain ⟨⟨ns, one⟩, -⟩ := notes_takeFrom (l := l) z.pos v
        obtain ⟨ms, rest⟩ := ih (takeFrom l z.pos v)
        exact ⟨_, by rw [takeFroms, List.foldl_cons, ← takeFroms, rest, one, List.append_assoc]⟩
    obtain rfl | mem := List.mem_cons.1 mem
    · obtain ⟨ns, rest⟩ := grows ys (takeFrom l x.pos w)
      rw [takeFroms, List.foldl_cons, ← takeFroms, rest]
      exact List.mem_append_left _ ((notes_takeFrom x.pos w).2 present)
    · have links : (takeFrom l y.pos w).s.links = w.s.links := (worked_takeFrom l y.pos w).moved.same .links (by decide)
      have told := notes_takeFroms ys (takeFrom l y.pos w) mem (by rw [State.present, State.link, links]; exact present)
      rwa [portOf_of_table (table_takeFrom y.pos)] at told

theorem standing_takeFroms (p : Position) (j : PortKind) : ∀ (xs : List Holder) (w : Work),
    ((takeFroms l xs w).s.standing p j).follow = (w.s.standing p j).follow ∧
      (((takeFroms l xs w).s.standing p j).reclaim = (w.s.standing p j).reclaim ∨
        ((∃ x ∈ xs, x.pos = p) ∧ j = w.s.portOf l ∧ (w.s.standing p j).follow = true ∧ ((takeFroms l xs w).s.standing p j).reclaim = some l))
  | [], _ => ⟨rfl, .inl rfl⟩
  | y :: ys, w => by
    obtain ⟨follow, first⟩ := standing_takeFrom (l := l) y.pos w p j
    obtain ⟨follow', rest⟩ := standing_takeFroms p j ys (takeFrom l y.pos w)
    rw [portOf_of_table (table_takeFrom y.pos), follow] at rest
    refine ⟨follow'.trans follow, ?_⟩
    obtain same | ⟨⟨x, mem, pos⟩, more⟩ := rest
    · obtain same' | ⟨pos, port, follows, named⟩ := first
      · exact .inl (same.trans same')
      · exact .inr ⟨⟨y, List.mem_cons_self, pos.symm⟩, port, follows, same.trans named⟩
    · exact .inr ⟨⟨x, List.mem_cons_of_mem _ mem, pos⟩, more⟩

theorem freed_takeFrom (q : Position) (w : Work) : (∃ ls, (takeFrom l q w).freed = w.freed ++ ls) ∧
    ((∃ h, w.s.recordAt q l = some h) → (takeFrom l q w).s.recordAt q l = none → l ∈ (takeFrom l q w).freed) := by
  have freed : (takeFrom l q w).freed = (goBreaking q l ((setReclaim q l w).event (.revoke q))).freed := by rw [takeFrom, (lose_hands ..).2.1]
  have record : (takeFrom l q w).s.recordAt q l = (goBreaking q l ((setReclaim q l w).event (.revoke q))).s.recordAt q l := by
    obtain same | same := s_lose q (w.s.portOf l) l .taken (goBreaking q l ((setReclaim q l w).event (.revoke q)))
    · rw [takeFrom, same]
    · rw [takeFrom, same]
      rfl
  rw [freed, record]
  refine ⟨freed_goBreaking q l ((setReclaim q l w).event (.revoke q)), fun ⟨h, held⟩ gone => ?_⟩
  have held' : ((setReclaim q l w).event (.revoke q)).s.recordAt q l = some h := held
  refine free_goBreaking held' ?_
  rw [goBreaking_s, recordAt_left, held'] at gone
  exact gone

/-- A line that has lost a record is freed (R45). -/
theorem freed_takeFroms {q : Position} : ∀ (xs : List Holder) (w : Work), (∃ h, w.s.recordAt q l = some h) →
    (takeFroms l xs w).s.recordAt q l = none → l ∈ (takeFroms l xs w).freed
  | [], w, ⟨h, held⟩, gone => by
    rw [show (takeFroms l [] w).s = w.s from rfl, held] at gone
    cases gone
  | y :: ys, w, held, gone => by
    have grows (xs : List Holder) (v : Work) (mem : l ∈ v.freed) : l ∈ (takeFroms l xs v).freed := by
      induction xs generalizing v with
      | nil => exact mem
      | cons z zs ih =>
        obtain ⟨⟨ls, one⟩, -⟩ := freed_takeFrom (l := l) z.pos v
        exact ih _ (by rw [one]; exact List.mem_append_left _ mem)
    cases now : (takeFrom l y.pos w).s.recordAt q l with
    | some h => exact freed_takeFroms ys _ ⟨h, now⟩ gone
    | none =>
      have own : q = y.pos := by_contra fun other => by
        obtain ⟨h, held⟩ := held
        rw [(vacated_takeFrom l y.pos w).others q other, held] at now
        cases now
      subst own
      exact grows ys _ ((freed_takeFrom y.pos w).2 held now)

/-! ## The victim's transmission (R107, R108) -/

variable {p : Position} {next : TxState} {s t u : State}

/-- The transmission of `p` has been taken from it. -/
structure Taken (p : Position) (next : TxState) (t : State) : Prop where
  state : (t.txOf p).state = next
  out : p ∉ t.waiting
  cause : (t.txOf p).lastRevocation = some .taken

/-- Where a revocation takes a position that is on the air (R107). -/
def TxState.withdrawn : TxState → TxState
  | .granted => .revoked
  | .hang => .idle
  | x => x

/-- A revocation of a position that is on the air. -/
theorem revoke_of_onAir (on : s.onAir p = true) (cause : RevocationCause) :
    revoke p cause s = leaveAir p (s.txOf p).state.withdrawn (s.mapTx p fun x => { x with lastRevocation := some cause }) := by
  rw [revoke, if_pos on, leaveAir, withdrawGrant]
  cases state : (s.txOf p).state <;> simp_all [State.onAir, TxState.onAir, TxState.withdrawn]

theorem taken_revokeAndRun (on : s.onAir p = true) (out : p ∉ s.waiting) : Taken p (s.txOf p).state.withdrawn (revokeAndRun p .taken s) := by
  have left := revoke_of_onAir on .taken
  have waiting : (revoke p .taken s).waiting = s.waiting := by
    rw [left]
    exact ((moved_evaluateAdvisories _).waiting (by decide)).trans ((moved_leaveSlot ..).waiting (by decide))
  obtain ⟨same, out'⟩ := aloof_arbiter p (revoke p .taken s) (by rw [waiting]; exact out)
  have record : (revoke p .taken s).txOf p = { s.txOf p with lastRevocation := some .taken }.leave (s.txOf p).state.withdrawn s.policy := by
    rw [left, txOf_leaveAir_self, txOf_mapTx_self]
    rfl
  rw [revokeAndRun, if_pos on]
  exact ⟨by rw [same, record]; rfl, out', by rw [same, record]; rfl⟩

theorem Taken.grounded (taken : Taken p next t) (off : next.onAir = false) (grounds : Grounds p t u) : Taken p next u := by
  obtain ⟨same, out⟩ := grounds (by rw [State.onAir, taken.state, off]) taken.out
  exact ⟨by rw [same]; exact taken.state, out, by rw [same]; exact taken.cause⟩

theorem TxState.off_withdrawn (x : TxState) : x.withdrawn.onAir = false := by cases x <;> rfl

theorem taken_handOn {w : Work} {pre post : List TxiEvent} (events : w.events = pre ++ .revoke p :: post) (first : ∀ e ∈ pre, ¬e.Ends p)
    (on : w.s.onAir p = true) (out : p ∉ w.s.waiting) : Taken p (w.s.txOf p).state.withdrawn (handOn w) := by
  have before : Aloof p w.s (takeTxiEvents pre (notifyEach w.grants w.s)) :=
    (aloof_notifyEach p _ _).trans (aloof_takeTxiEvents pre _ first)
  obtain ⟨same, out'⟩ := before out
  have taken : Taken p (w.s.txOf p).state.withdrawn (revokeAndRun p .taken (takeTxiEvents pre (notifyEach w.grants w.s))) := by
    rw [← same]
    exact taken_revokeAndRun (by rw [State.onAir, same]; exact on) out'
  have split : takeTxiEvents w.events (notifyEach w.grants w.s) =
      takeTxiEvents post (revokeAndRun p .taken (takeTxiEvents pre (notifyEach w.grants w.s))) := by
    rw [events, takeTxiEvents, List.foldl_append, List.foldl_cons]
    rfl
  have off := (w.s.txOf p).state.off_withdrawn
  rw [handOn, split]
  exact (taken.grounded off (grounds_takeTxiEvents p post _)).grounded off (aloof_notifyEach p _ _).grounds

/-- A request whose work revokes `p` before anything else ends its transmission. -/
theorem taken_served {w : Work} (worked : Worked (Work.start s) w) (kinded : w.s.Kinded) {pre post : List TxiEvent}
    (events : w.events = pre ++ .revoke p :: post) (first : ∀ e ∈ pre, ¬e.Ends p) (on : s.onAir p = true) (out : p ∉ s.waiting) {q : Position}
    {f : Frame} {c : Code} {d : List Byte} :
    Taken p (s.txOf p).state.withdrawn (closeStep s (freeSlot q (closeRequest s (reply q f.kind c d) w))) := by
  have links : Moved [.links] (closeWork s w).s (reply q f.kind c d (closeWork s w).s) := moved_reply ..
  have before : Aloof p s (reply q f.kind c d (closeWork s w).s) :=
    ((aloof_of_moved worked.moved (by decide) (by decide)).trans (aloof_closeWork p s w)).trans (aloof_of_moved links (by decide) (by decide))
  obtain ⟨same, out'⟩ := before out
  obtain ⟨es, closed, -⟩ := closeWork_eq s w
  obtain ⟨fs, taken, -⟩ := (yields_admitFreed (K := fun _ => True) kinded fun _ _ => trivial).events
  have handed : Taken p (s.txOf p).state.withdrawn (handOn ((closeWork s w).map (reply q f.kind c d))) := by
    rw [← same]
    refine taken_handOn (w := (closeWork s w).map (reply q f.kind c d)) (pre := pre) (post := post ++ fs ++ es) ?_ first ?_ out'
    · rw [show ((closeWork s w).map (reply q f.kind c d)).events = (closeWork s w).events from rfl, closed, taken, events]
      simp
    · show (reply q f.kind c d (closeWork s w).s).onAir p = true
      rw [State.onAir, same]
      exact on
  have rest : Grounds p (handOn ((closeWork s w).map (reply q f.kind c d))) (closeStep s (freeSlot q (closeRequest s (reply q f.kind c d) w))) :=
    ((grounds_allocEvent (f := id) (fun w => .refl w) p _).trans (aloof_freeSlot p q _).grounds).trans (grounds_closeStep p (ready_closeRequest worked))
  exact handed.grounded (s.txOf p).state.off_withdrawn rest

end Sys2Proof.Machine
end

section
/-! CLAIM with manner TAKE (section 3.4, R61 and R62). -/

namespace Sys2Proof.Machine

section

variable {s : State} {p : Position} {l : Line} {m : Work} {r : Route}

/-! ## The line taken -/

/-- The work of a TAKE once the line has been taken from its victims and the claim is entered: as a record, or as an entry in the line's list. -/
structure TakenWork (s : State) (p : Position) (l : Line) (m : Work) : Prop where
  worked : Worked (Work.start s) m
  yields : Yields (fun _ => True) (takeLine l (Work.start s)) m
  moves : Moves (fun _ _ => True) False s m.s
  records : ∀ q, q ≠ p → ∀ h, m.s.recordAt q l = some h → h.state = .breaking
  entries : ∀ j, ∀ e ∈ m.s.listOf j, e.pos ≠ p → ∃ x ∈ s.listOf j, x.pos = e.pos
  own : ∀ j, s.portOf j = s.portOf l → ∀ e ∈ m.s.listOf j, e.pos = p → j = l ∧ s.portOf l = .aux

/-- The step from there on. -/
abbrev takenBy (p : Position) (l : Line) (f : Frame) (c : Code) (d : List Byte) (m : Work) (s : State) : State :=
  closeStep s (freeSlot p (closeRequest s (reply p f.kind c d) ((admitFreed m).cleared p (s.portOf l))))

variable {f : Frame} {c : Code} {d : List Byte}

section

variable (taken : TakenWork s p l m)

include taken

theorem TakenWork.table : m.s.table = s.table := table_of_moves taken.moves

theorem TakenWork.port (j : Line) : m.s.portOf j = s.portOf j := portOf_of_table taken.table j

theorem TakenWork.workedOn : Worked (Work.start s) ((admitFreed m).cleared p (s.portOf l)) :=
  (taken.worked.trans (worked_admitFreed m)).trans (worked_mapStanding _ _ _ _)

/-- A re-claim line names a line still being broken, but for a victim's that follows and whose record is gone (R85). -/
theorem TakenWork.owed (held : s.ReclaimsHeld) {q : Position} (other : q = p → s.recordAt p l = none) {j : PortKind} {i : Line}
    (named : (m.s.standing q j).reclaim = some i) :
    m.s.breakingOn q i = true ∨ (i = l ∧ m.s.recordAt q l = none ∧ (s.standing q j).follow = true ∧ j = s.portOf l ∧
      ∃ x ∈ s.recordsOn l, x.state ≠ .breaking ∧ x.pos = q) := by
  rw [State.standing, taken.yields.standings] at named
  obtain ⟨-, same | ⟨⟨x, victim, pos⟩, port, follows, marked⟩⟩ :=
    standing_takeFroms (l := l) q j (((Work.start s).s.recordsOn l).filter fun r => r.state ≠ .breaking) (Work.start s)
  · exact .inl (breakingOn_moves taken.moves (held q j i (same ▸ named)))
  · obtain rfl : l = i := Option.some.inj (marked.symm.trans named)
    obtain ⟨on, stands⟩ := List.mem_filter.1 victim
    cases record : m.s.recordAt q l with
    | none => exact .inr ⟨rfl, rfl, follows, port, x, on, by simpa using stands, pos⟩
    | some h =>
      have apart : q ≠ p := fun same => by
        obtain ⟨mem, line⟩ := (mem_recordsOn _ _ _).1 on
        exact (recordAt_eq_none_iff s p l).1 (other same) x mem (pos.trans same) line
      have breaking := taken.records q apart h record
      left
      simp [State.breakingOn, record, breaking]

theorem TakenWork.keyedOn (keyed : s.AllocationKeyed) : m.s.AllocationKeyed := allocationKeyed_moves taken.moves keyed

/-- What stands behind the line's barrier, or aside, goes on to the end of the step. -/
theorem TakenWork.calm_served {P : Position → PortKind → Line → Prop} (calm : m.s.Calm P) : GoesCalm P m.s (takenBy p l f c d m s) :=
  (eventsKeep_calm P m.s).served taken.workedOn
    ((eventsKeep_calm P m.s).admits _ (GoesCalm.cleared (goesCalm_admitFreed calm.refl) p (s.portOf l)))

theorem TakenWork.barrier_served {P : Position → PortKind → Line → Prop} {g : Barrier} (stands : g.Stands P m.s) (holds : g.Holds P m.s m.s) :
    g.Holds P m.s (takenBy p l f c d m s) :=
  (eventsKeep_barrier stands).served taken.workedOn (((holds.admitFreed stands).cleared p (s.portOf l)).admitFreed stands)

variable (keyed : s.AllocationKeyed) (held : s.ReclaimsHeld) (free : s.recordAt p l = none)

include keyed held free in
/-- A victim that does not follow on the line's kind has no more than a BREAKING record on the line (R61). -/
theorem TakenWork.victim_left {x : Holder} (on : x ∈ s.recordsOn l) (stands : x.state ≠ .breaking)
    (stays : (s.standing x.pos (s.portOf l)).follow = false) : ∀ y ∈ (takenBy p l f c d m s).recordsOn l, y.pos = x.pos → y.state = .breaking := by
  obtain ⟨mem, line⟩ := (mem_recordsOn _ _ _).1 on
  have was : s.recordAt x.pos l = some x := (recordAt_eq_some_iff keyed.records).2 ⟨mem, rfl, line⟩
  have other : x.pos ≠ p := fun same => by rw [same, free] at was; cases was
  have calm : m.s.Calm (spentOn x.pos fun j => j = l) := by
    refine ⟨taken.keyedOn keyed, fun j e mem own => ?_, fun q j own => .inl ?_, fun _ q j i own named => ?_⟩
    · obtain ⟨pos, rfl⟩ := own
      obtain ⟨y, listed, same⟩ := taken.entries j e mem (by rw [pos]; exact other)
      have apart := keyed.apart j y listed
      rw [same, pos, was] at apart
      cases apart
    · obtain ⟨rfl, rfl⟩ := own
      exact taken.records x.pos other
    · obtain ⟨rfl, rfl⟩ := own
      obtain breaking | ⟨-, -, follows, -⟩ := taken.owed held (fun same => absurd same other) named
      · exact breaking
      · rw [taken.port, stays] at follows
        cases follows
  intro y mem pos
  obtain ⟨mem, line⟩ := (mem_recordsOn _ _ _).1 mem
  have goes := taken.calm_served (f := f) (c := c) (d := d) calm
  have rel := goes.records x.pos l ⟨rfl, rfl⟩
  rw [(recordAt_eq_some_iff goes.calm.keyed.records).2 ⟨mem, pos, line⟩] at rel
  cases record : m.s.recordAt x.pos l with
  | none => rw [record] at rel; cases rel
  | some h =>
    rw [record] at rel
    cases rel with
    | some later => exact later.breaking.2 (taken.records x.pos other h record)

/-- A victim's transmission is taken from it, and it is told LOST (R61, R107). -/
theorem TakenWork.victim_ended (coherent : s.TransmitCoherent) {x : Holder} (on : x ∈ s.recordsOn l) (stands : x.state ≠ .breaking) :
    (s.onAir x.pos = true → Taken x.pos (s.txOf x.pos).state.withdrawn (takenBy p l f c d m s)) ∧
      (s.present x.pos = true → ((takenBy p l f c d m s).link x.pos).queue.length < 6 →
        (Notice.lost (s.portOf l) l .taken).frame ∈ ((takenBy p l f c d m s).link x.pos).queue) := by
  have victim : x ∈ ((Work.start s).s.recordsOn l).filter fun r => r.state ≠ .breaking := List.mem_filter.2 ⟨on, by simpa using stands⟩
  have admitted := yields_admitFreed (K := fun _ => True) taken.yields.kinded fun _ _ => trivial
  refine ⟨fun air => ?_, fun present room => ?_⟩
  · obtain ⟨pre, post, first, others⟩ := revokes_takeFroms (l := l) _ (Work.start s) victim
    obtain ⟨es, second, -⟩ := taken.yields.events
    obtain ⟨fs, third, -⟩ := admitted.events
    refine taken_served (w := (admitFreed m).cleared p (s.portOf l)) (pre := pre) (post := post ++ es ++ fs) taken.workedOn admitted.kinded ?_ others air
      (out_of_onAir coherent air)
    show (admitFreed m).events = _
    rw [third, second, show (takeLine l (Work.start s)).events = _ from first]
    simp [Work.start]
  · refine told_of_note (w := (admitFreed m).cleared p (s.portOf l)) taken.workedOn admitted.kinded ?_ rfl present room
    show (x.pos, Notice.lost (s.portOf l) l .taken) ∈ (admitFreed m).notes
    rw [admitted.notes, taken.yields.notes]
    exact notes_takeFroms _ (Work.start s) victim present

end

/-! ## A MAIN line (R61) -/

theorem moves_takeLine (keyed : s.AllocationKeyed) (l : Line) : Moves (fun _ _ => True) False s (takeLine l (Work.start s)).s :=
  deals_takeLine (A := fun _ _ => True) (w := Work.start s) (fun _ _ _ => trivial) ⟨keyed, cover_true _⟩

theorem entries_takeLine (l j : Line) : ∀ e ∈ (takeLine l (Work.start s)).s.listOf j, ∃ x ∈ s.listOf j, x.pos = e.pos := fun e mem => by
  obtain ⟨x, was, same⟩ := mem_still (lists_takeLine l (Work.start s) j) mem
  exact ⟨x, was, (pos_of_still same).1⟩

section

variable (keyed : s.AllocationKeyed) (free : s.recordAt p (s.routeOf r).line = none)

include keyed free

theorem takenWork_assign (main : s.portOf (s.routeOf r).line = .main) :
    TakenWork s p (s.routeOf r).line (assign p r (takeLine (s.routeOf r).line (Work.start s))) ∧
      (assign p r (takeLine (s.routeOf r).line (Work.start s))).s.recordAt p (s.routeOf r).line = some (s.newRecord p r) ∧
      ((assign p r (takeLine (s.routeOf r).line (Work.start s))).s.listOf (s.routeOf r).line).map WaitEntry.still =
        ((s.listOf (s.routeOf r).line).filter fun e => e.pos ≠ p).map WaitEntry.still := by
  have taking := moves_takeLine keyed (s.routeOf r).line
  generalize took : takeLine (s.routeOf r).line (Work.start s) = w at taking ⊢
  have table : w.s.table = s.table := table_of_moves taking
  have line : (w.s.routeOf r).line = (s.routeOf r).line := by rw [routeOf_of_table table]
  have port (j : Line) : w.s.portOf j = s.portOf j := portOf_of_table table j
  have keyed' := allocationKeyed_moves taking keyed
  have none : w.s.recordAt p (w.s.routeOf r).line = none := by
    rw [line, ← took]
    exact recordAt_takeLine_of_none free
  have broken {q : Position} {h : Holder} (at' : w.s.recordAt q (s.routeOf r).line = some h) : h.state = .breaking :=
    breaking_takeLine (w := Work.start s) (took ▸ at')
  have room : w.s.Roomy r := by
    refine .inr (.inl ⟨by rw [line, port, main], fun x mem => ?_⟩)
    obtain ⟨stands, here⟩ := (mem_recordsOn _ _ _).1 mem
    exact broken ((recordAt_eq_some_iff keyed'.records).2 ⟨stands, rfl, here.trans line⟩)
  have lists (j : Line) : ((assign p r w).s.listOf j).map WaitEntry.still = ((w.s.withdrawn p (w.s.portOf (w.s.routeOf r).line) .none).listOf j).map WaitEntry.still :=
    still_releases p (w.others p r) _ j
  have entries (j : Line) (e : WaitEntry) (mem : e ∈ (assign p r w).s.listOf j) :
      ∃ x ∈ (w.s.withdrawn p (w.s.portOf (w.s.routeOf r).line) .none).listOf j, x.pos = e.pos := by
    obtain ⟨x, was, same⟩ := mem_still (lists j) mem
    exact ⟨x, was, (pos_of_still same).1⟩
  refine ⟨⟨?_, ?_, taking.trans (moves_assign keyed' trivial none room), fun q other h at' => ?_, fun j e mem other => ?_, fun j same e mem pos => ?_⟩, ?_, ?_⟩
  · rw [← took]
    exact (worked_takeLine _ _).trans (worked_assign _ _ _)
  · rw [took]
    exact yields_assign (kinded_of_keyed keyed') p trivial
  · rw [recordAt_assign none, if_neg (fun both => other both.1), recordAt_vacated, if_neg fun both => other both.1] at at'
    exact broken at'
  · obtain ⟨x, was, pos⟩ := entries j e mem
    rw [listOf_withdrawn] at was
    have before : x ∈ w.s.listOf j := by
      split at was
      · exact List.mem_of_mem_filter was
      · exact was
    obtain ⟨y, first, pos'⟩ := entries_takeLine (s := s) (s.routeOf r).line j x (took ▸ before)
    exact ⟨y, first, pos'.trans pos⟩
  · obtain ⟨x, was, own⟩ := entries j e mem
    exact absurd (own.trans pos) (withdrawn_apart w.s p (by rw [port, line, port, same]) x was)
  · rw [recordAt_assign none, line, if_pos ⟨rfl, rfl⟩, State.newRecord, line, port]
    rfl
  · have still : (w.s.listOf (s.routeOf r).line).map WaitEntry.still = (s.listOf (s.routeOf r).line).map WaitEntry.still := by
      rw [← took]
      exact lists_takeLine _ (Work.start s) _
    have filtered (xs : List WaitEntry) : (xs.filter fun e => e.pos ≠ p).map WaitEntry.still = (xs.map WaitEntry.still).filter fun e => e.pos ≠ p := by
      rw [List.filter_map]
      rfl
    rw [lists, listOf_withdrawn, if_pos ⟨by rw [line], nofun⟩, filtered, still, ← filtered]

/-- The taker of a MAIN line has its record, the others have BREAKING ones, and the waiters keep their order. -/
theorem served_takeMain (held : s.ReclaimsHeld) (main : s.portOf (s.routeOf r).line = .main) (t : State)
    (closes : takenBy p (s.routeOf r).line f c d (assign p r (takeLine (s.routeOf r).line (Work.start s))) s = t) :
    (∃ h, t.recordAt p (s.routeOf r).line = some h ∧ (s.newRecord p r).Later h) ∧
      (∀ x ∈ t.recordsOn (s.routeOf r).line, x.pos ≠ p → x.state = .breaking) ∧
      List.Sublist (((s.listOf (s.routeOf r).line).map fun e => e.pos).filter fun q => q ≠ p) ((t.listOf (s.routeOf r).line).map fun e => e.pos) := by
  obtain ⟨taken, fresh, still⟩ := takenWork_assign keyed free main
  generalize assign p r (takeLine (s.routeOf r).line (Work.start s)) = m at taken fresh still closes
  generalize s.routeOf r = entry at *
  let P : Position → PortKind → Line → Prop := fun q k j => (q = p ∧ k = .main) ∨ (j = entry.line ∧ q ≠ p ∧ ∃ h, m.s.recordAt q entry.line = some h)
  let g : Barrier := ⟨entry.line, ((s.listOf entry.line).filter fun e => e.pos ≠ p).map fun e => e.pos, none⟩
  have keyed' := taken.keyedOn keyed
  have port := taken.port
  have calm : m.s.Calm P := by
    refine ⟨keyed', fun j e mem own => ?_, fun q j own => ?_, fun _ q j i own named => ?_⟩
    · obtain ⟨pos, kind⟩ | ⟨rfl, other, h, at'⟩ := own
      · obtain ⟨-, aux⟩ := taken.own j (by rw [← port, kind, main]) e mem pos
        rw [main] at aux
        cases aux
      · rw [keyed'.apart _ e mem] at at'
        cases at'
    · obtain ⟨rfl, kind⟩ | ⟨rfl, other, -⟩ := own
      · exact .inr fun i same => .inl ⟨rfl, same.trans kind⟩
      · exact .inl (taken.records q other)
    · obtain breaking | ⟨-, gone, -, -, x, on, -, pos⟩ := taken.owed held (fun _ => free) named
      · exact breaking
      · obtain ⟨rfl, -⟩ | ⟨-, -, h, at'⟩ := own
        · obtain ⟨mem, line⟩ := (mem_recordsOn _ _ _).1 on
          exact absurd line ((recordAt_eq_none_iff _ _ _).1 free x mem pos)
        · rw [gone] at at'
          cases at'
  have stands : g.Stands P m.s := ⟨⟨p, _, .inl ⟨rfl, by rw [port, main]⟩, fresh⟩, .inl (by rw [port, main]), nofun⟩
  have holds : g.Holds P m.s m.s := by
    refine ⟨calm.refl, fun y mem => ?_, Barrier.Orders.of_still ⟨?_, nofun⟩ still, fun q mem i named => ?_⟩
    · obtain ⟨was, line⟩ := (mem_recordsOn _ _ _).1 mem
      by_cases own : y.pos = p
      · exact .inl ⟨own, by rw [port, main]⟩
      · exact .inr ⟨rfl, own, y, (recordAt_eq_some_iff keyed'.records).2 ⟨was, rfl, line⟩⟩
    · exact .refl _
    · obtain ⟨e, listed, rfl⟩ := List.mem_map.1 mem
      obtain breaking | ⟨-, -, -, -, x, on, -, pos⟩ := taken.owed held (fun _ => free) named
      · exact breaking
      · obtain ⟨was, line⟩ := (mem_recordsOn _ _ _).1 on
        exact absurd line ((recordAt_eq_none_iff _ _ _).1 (keyed.apart _ e (List.mem_of_mem_filter listed)) x was pos)
  have last := taken.barrier_served (f := f) (c := c) (d := d) stands holds
  rw [closes] at last
  refine ⟨?_, fun x mem other => ?_, ?_⟩
  · have rel := last.calm.records p entry.line (.inl ⟨rfl, by rw [port, main]⟩)
    rw [fresh] at rel
    exact some_of_rel rel
  · obtain ⟨was, line⟩ := (mem_recordsOn _ _ _).1 mem
    have own := last.own x mem
    have rel := last.calm.records x.pos entry.line own
    rw [(recordAt_eq_some_iff last.calm.calm.keyed.records).2 ⟨was, rfl, line⟩] at rel
    obtain ⟨same, -⟩ | ⟨-, -, h, at'⟩ := own
    · exact absurd same other
    · rw [at'] at rel
      cases rel with
      | some later => exact later.breaking.2 (taken.records x.pos other h at')
  · have order := last.list.waiters
    have pos : g.waiters = ((s.listOf entry.line).map fun e => e.pos).filter fun q => q ≠ p := by
      rw [List.filter_map]
      rfl
    rwa [pos] at order

/-! ## An RX line (R62) -/

/-- The work of a TAKE of an RX line, with the TAKE entry at the head of the line's list. -/
abbrev takeQueue (p : Position) (r : Route) (s : State) : Work := putTake p r (withdraw p .aux none (takeLine (s.routeOf r).line (Work.start s)))

theorem takenWork_putTake (aux : s.portOf (s.routeOf r).line = .aux) (lone : ∀ e ∈ s.listOf (s.routeOf r).line, e.manner ≠ .take) :
    TakenWork s p (s.routeOf r).line (takeQueue p r s) ∧ (takeQueue p r s).s.recordAt p (s.routeOf r).line = none ∧
      (takeQueue p r s).s.recordsOn (s.routeOf r).line = (takeLine (s.routeOf r).line (Work.start s)).s.recordsOn (s.routeOf r).line ∧
      (takeQueue p r s).freed = (takeLine (s.routeOf r).line (Work.start s)).freed ∧
      ∃ e es, (takeQueue p r s).s.listOf (s.routeOf r).line = e :: es ∧ e.pos = p ∧ e.route = r ∧ e.manner = .take := by
  have taking := moves_takeLine keyed (s.routeOf r).line
  have noTake : hasTake ((takeLine (s.routeOf r).line (Work.start s)).s.listOf (s.routeOf r).line) = false := by
    rw [hasTake_of_still (lists_takeLine _ _ _)]
    show hasTake (s.listOf (s.routeOf r).line) = false
    simpa [hasTake] using lone
  have none := recordAt_takeLine_of_none (w := Work.start s) free
  have broken {q : Position} {h : Holder} (at' : (takeLine (s.routeOf r).line (Work.start s)).s.recordAt q (s.routeOf r).line = some h) :
      h.state = .breaking := breaking_takeLine (w := Work.start s) at'
  have worked : Worked (Work.start s) (takeQueue p r s) :=
    ((worked_takeLine _ _).trans (worked_withdraw _ _ _ _)).trans (worked_putTake _ _ _)
  have listed := entries_takeLine (s := s) (s.routeOf r).line
  have queue : takeQueue p r s = putTake p r (withdraw p .aux .none (takeLine (s.routeOf r).line (Work.start s))) := rfl
  generalize took : takeLine (s.routeOf r).line (Work.start s) = w at taking noTake none broken listed queue ⊢
  have table : w.s.table = s.table := table_of_moves taking
  have route : (w.s.withdrawn p .aux .none).routeOf r = s.routeOf r := routeOf_of_table table r
  have port (j : Line) : (w.s.withdrawn p .aux .none).portOf j = s.portOf j := portOf_of_table table j
  have keyed' := allocationKeyed_moves taking keyed
  have lists (j : Line) : (takeQueue p r s).s.listOf j = if j = (s.routeOf r).line then newEntry p r .take (w.s.withdrawn p .aux .none) ::
      (w.s.withdrawn p .aux .none).listOf j else (w.s.withdrawn p .aux .none).listOf j := by
    rw [queue, putTake_s, withdraw_s, listOf_takeQueued, route]
  have before (j : Line) (e : WaitEntry) (mem : e ∈ (w.s.withdrawn p .aux .none).listOf j) : e ∈ w.s.listOf j := by
    rw [listOf_withdrawn] at mem
    split at mem
    · exact List.mem_of_mem_filter mem
    · exact mem
  have queued : Move (fun _ _ => True) False (w.s.withdrawn p .aux .none) (takeQueue p r s).s := by
    rw [queue]
    refine .take trivial (by rw [route]; exact none) (fun j kind => ?_) ?_
    · rw [route, port, port, aux] at kind
      exact withdrawn_apart _ p ((portOf_of_table table j).trans kind)
    · rw [route, listOf_withdrawn]
      split
      · exact hasTake_filter noTake _
      · exact noTake
  refine ⟨⟨worked, ?_, (taking.tail (.withdraw .none trivial)).tail queued, fun q _ h at' => ?_, fun j e mem other => ?_, fun j same e mem pos => ?_⟩, ?_, ?_, ?_,
    ?_⟩
  · rw [took, queue]
    exact yields_of_s (kinded_of_subset (kinded_of_keyed keyed') rfl fun _ => id) rfl rfl rfl
  · rw [queue] at at'
    exact broken at'
  · rw [lists] at mem
    have mem : e ∈ (w.s.withdrawn p .aux .none).listOf j := by
      split at mem
      · exact (List.mem_cons.1 mem).resolve_left fun same => other (by rw [same]; rfl)
      · exact mem
    exact listed j e (before j e mem)
  · rw [lists] at mem
    split at mem
    · next here => exact ⟨here, aux⟩
    · exact absurd pos (withdrawn_apart w.s p (by rw [portOf_of_table table, same, aux]) e mem)
  · rw [queue]
    exact none
  · rw [queue]
    rfl
  · rw [queue]
    rfl
  · exact ⟨_, _, by rw [lists, if_pos rfl], rfl, rfl, rfl⟩

/-- While records remain on an RX line, its taker stays at the head of its list. -/
theorem served_takeRx_queued (held : s.ReclaimsHeld) (aux : s.portOf (s.routeOf r).line = .aux) (lone : ∀ e ∈ s.listOf (s.routeOf r).line, e.manner ≠ .take)
    (remain : (takeQueue p r s).s.recordsOn (s.routeOf r).line ≠ []) :
    (admitFreed (takeQueue p r s)).s.recordAt p (s.routeOf r).line = none ∧
    ∀ t, takenBy p (s.routeOf r).line f c d (takeQueue p r s) s = t → t.recordAt p (s.routeOf r).line = none ∧
      ∃ e, (t.listOf (s.routeOf r).line).head? = some e ∧ e.pos = p ∧ e.route = r ∧ e.manner = .take := by
  obtain ⟨taken, none, -, -, head⟩ := takenWork_putTake keyed free aux lone
  generalize takeQueue p r s = m at taken none head remain ⊢
  generalize s.routeOf r = entry at *
  let P : Position → PortKind → Line → Prop := fun q _ j => j = entry.line ∧ ∃ h, m.s.recordAt q entry.line = some h
  let g : Barrier := ⟨entry.line, [p], some (p, r)⟩
  have keyed' := taken.keyedOn keyed
  have port := taken.port
  have calm : m.s.Calm P := by
    refine ⟨keyed', fun j e mem own => ?_, fun q j own => .inl fun h at' => ?_, fun _ q j i own named => ?_⟩
    · obtain ⟨rfl, h, at'⟩ := own
      rw [keyed'.apart _ e mem] at at'
      cases at'
    · obtain ⟨rfl, -⟩ := own
      refine taken.records q (fun same => ?_) h at'
      rw [same, none] at at'
      cases at'
    · obtain ⟨rfl, h, at'⟩ := own
      obtain breaking | ⟨-, gone, -⟩ := taken.owed held (fun _ => free) named
      · exact breaking
      · rw [gone] at at'
        cases at'
  have on {y : Holder} (mem : y ∈ m.s.recordsOn entry.line) : m.s.recordAt y.pos entry.line = some y := by
    obtain ⟨was, line⟩ := (mem_recordsOn _ _ _).1 mem
    exact (recordAt_eq_some_iff keyed'.records).2 ⟨was, rfl, line⟩
  have stands : g.Stands P m.s := by
    obtain ⟨y, mem⟩ := List.exists_mem_of_ne_nil _ remain
    exact ⟨⟨y.pos, y, ⟨rfl, y, on mem⟩, on mem⟩, .inr ⟨p, r, rfl⟩, fun q x same => by cases same; exact List.mem_singleton.2 rfl⟩
  have holds : g.Holds P m.s m.s := by
    obtain ⟨e, es, list, pos, rest⟩ := head
    refine ⟨calm.refl, fun y mem => ⟨rfl, y, on mem⟩, ⟨?_, fun q x same => ?_⟩, fun q mem i named => ?_⟩
    · rw [show m.s.listOf g.line = e :: es from list, List.map_cons, pos]
      exact (List.nil_sublist _).cons_cons p
    · cases same
      exact ⟨e, es, list, pos, rest⟩
    · obtain rfl := List.mem_singleton.1 mem
      obtain breaking | ⟨-, -, -, -, x, on, -, pos⟩ := taken.owed held (fun _ => free) named
      · exact breaking
      · obtain ⟨was, line⟩ := (mem_recordsOn _ _ _).1 on
        exact absurd line ((recordAt_eq_none_iff _ _ _).1 free x was pos)
  have absent {t : State} (now : g.Holds P m.s t) : t.recordAt p entry.line = .none := by
    cases at' : t.recordAt p entry.line with
    | none => rfl
    | some h =>
      obtain ⟨mem, pos, line⟩ := mem_of_recordAt at'
      obtain ⟨-, x, was⟩ := now.own h ((mem_recordsOn _ _ _).2 ⟨mem, line⟩)
      rw [pos, none] at was
      cases was
  refine ⟨absent (holds.admitFreed stands), ?_⟩
  rintro t rfl
  have last := taken.barrier_served (f := f) (c := c) (d := d) stands holds
  obtain ⟨e, es, list, rest⟩ := last.list.taker p r rfl
  exact ⟨absent last, e, by rw [show (takenBy p entry.line f c d m s).listOf entry.line = e :: es from list]; rfl, rest⟩

/-- Once no record remains on an RX line, its taker has the next. -/
theorem served_takeRx_had (held : s.ReclaimsHeld) (aux : s.portOf (s.routeOf r).line = .aux) (lone : ∀ e ∈ s.listOf (s.routeOf r).line, e.manner ≠ .take)
    (occupied : s.recordsOn (s.routeOf r).line ≠ []) (gone : (takeQueue p r s).s.recordsOn (s.routeOf r).line = []) :
    ((admitFreed (takeQueue p r s)).s.recordAt p (s.routeOf r).line).isSome = true ∧
    ∀ t, takenBy p (s.routeOf r).line f c d (takeQueue p r s) s = t → ∃ h, t.recordAt p (s.routeOf r).line = some h ∧ (s.newRecord p r).Later h := by
  obtain ⟨taken, -, records, freed, e, es, list, pos, route, -⟩ := takenWork_putTake keyed free aux lone
  have keyed' := taken.keyedOn keyed
  have free' : (s.routeOf r).line ∈ (takeQueue p r s).freed := by
    rw [freed]
    obtain ⟨y, mem⟩ := List.exists_mem_of_ne_nil _ occupied
    obtain ⟨was, line⟩ := (mem_recordsOn _ _ _).1 mem
    refine freed_takeFroms (q := y.pos) _ (Work.start s) ⟨y, (recordAt_eq_some_iff keyed.records).2 ⟨was, rfl, line⟩⟩ ?_
    rw [gone] at records
    refine (recordAt_eq_none_iff _ _ _).2 fun z stands _ here => ?_
    have on := (mem_recordsOn _ _ _).2 ⟨stands, here⟩
    rw [show takeFroms (s.routeOf r).line (((Work.start s).s.recordsOn (s.routeOf r).line).filter fun r => r.state ≠ .breaking) (Work.start s) =
      takeLine (s.routeOf r).line (Work.start s) from rfl, ← records] at on
    cases on
  have admitted := head_admitFreed keyed' free' gone list
  rw [pos, route] at admitted
  have new : (takeQueue p r s).s.newRecord p r = s.newRecord p r := by
    rw [State.newRecord, routeOf_of_table taken.table, taken.port]
    rfl
  have moves := moves_admitFreed (A := fun _ _ => True) (B := False) keyed' (cover_true (takeQueue p r s).s)
  have yields := yields_admitFreed (K := fun _ => True) taken.yields.kinded fun _ _ => trivial
  have port (j : Line) : (admitFreed (takeQueue p r s)).s.portOf j = s.portOf j := (yields.port j).trans (taken.port j)
  have record := admitted.record
  rw [new] at record
  have calm : (admitFreed (takeQueue p r s)).s.Calm (only p .aux) := by
    refine ⟨allocationKeyed_moves moves keyed', fun j e mem own => ?_, fun q j own => .inr fun i same => ⟨own.1, same.trans own.2⟩, fun _ q j i own named => ?_⟩
    · exact admitted.out j (own.2.trans (by rw [port, aux])) e mem own.1
    · obtain ⟨rfl, -⟩ := own
      rw [State.standing, yields.standings] at named
      obtain breaking | ⟨-, -, -, -, x, on, -, pos⟩ := taken.owed held (fun _ => free) named
      · exact breakingOn_moves moves breaking
      · obtain ⟨was, line⟩ := (mem_recordsOn _ _ _).1 on
        exact absurd line ((recordAt_eq_none_iff _ _ _).1 free x was pos)
  refine ⟨by rw [record]; rfl, ?_⟩
  rintro t rfl
  have keep := eventsKeep_calm (only p .aux) (admitFreed (takeQueue p r s)).s
  have goes := keep.served (p := p) (f := f) (c := c) (d := d) taken.workedOn (keep.admits _ (calm.refl.cleared p (s.portOf (s.routeOf r).line)))
  have rel := goes.records p (s.routeOf r).line ⟨rfl, by rw [port, aux]⟩
  rw [record] at rel
  exact some_of_rel rel

end

end

/-- Settles O43: the step of a TAKE from the point where the line has been taken, for its taker and for its victims. -/
theorem claimTakesLine : Obligations.ClaimTakesLine := by
  intro s p f r offered kind payload ready safe enabled keyed held coherent l free none had lower lone
  have claimed := claimRoute_of_occupied (w := Work.start s) none had .take
  have outranks : s.outranks p l = true := by simpa [State.outranks] using lower
  have executed {m : Work} {out : ClaimOutcome} {c : Code} {d : List Byte} (claimed : claimRoute p r .take (Work.start s) = (admitFreed m, out))
      (answers : answerClaim p f out = reply p f.kind c d) (taken : ∀ c, out ≠ .refused c) :
      exec (.claimTake p) s = .next (takenBy p l f c d m s) := by
    have done := exec_claim_of_done offered kind (m := .take) payload ready safe enabled free (breakingOn_of_none none) claimed taken
    rwa [answers] at done
  have victims {c : Code} {d : List Byte} {m : Work} (taken : TakenWork s p l m) : ∀ x ∈ s.recordsOn l, x.state ≠ .breaking →
      ((s.standing x.pos (s.portOf l)).follow = false → ∀ y ∈ (takenBy p l f c d m s).recordsOn l, y.pos = x.pos → y.state = .breaking) ∧
      ((s.txOf x.pos).state = .granted → ((takenBy p l f c d m s).txOf x.pos).state = .revoked ∧
        ((takenBy p l f c d m s).txOf x.pos).lastRevocation = some .taken) ∧
      ((s.txOf x.pos).state = .hang → ((takenBy p l f c d m s).txOf x.pos).state = .idle ∧
        ((takenBy p l f c d m s).txOf x.pos).lastRevocation = some .taken) ∧
      (s.present x.pos = true → ((takenBy p l f c d m s).link x.pos).queue.length < 6 →
        { kind := 0x42, payload := [byte (s.portOf l).code, byte l.val, 0] } ∈ ((takenBy p l f c d m s).link x.pos).queue) := fun x on stands => by
    obtain ⟨ended, told⟩ := taken.victim_ended coherent (f := f) (c := c) (d := d) on stands
    refine ⟨taken.victim_left keyed held none on stands, fun granted => ?_, fun hang => ?_, told⟩
    · have now := ended (by rw [State.onAir, granted]; rfl)
      rw [granted] at now
      exact ⟨now.state, now.cause⟩
    · have now := ended (by rw [State.onAir, hang]; rfl)
      rw [hang] at now
      exact ⟨now.state, now.cause⟩
  have own {h : Holder} (later : (s.newRecord p r).Later h) : h.route = r ∧ (h.state = .pending ∨ h.state = .making) := by
    obtain rfl | ⟨-, rfl⟩ := later.eq_of_bare nofun rfl
    · exact ⟨rfl, .inl rfl⟩
    · exact ⟨rfl, .inr rfl⟩
  cases port : s.portOf l with
  | main =>
    have claimed : claimRoute p r .take (Work.start s) = (admitFreed (assign p r (takeLine l (Work.start s))), .ok) := by
      rw [claimed]
      simp only [show (Work.start s).s.portOf ((Work.start s).s.routeOf r).line = .main from port, if_true, takeMain,
        show (Work.start s).s.outranks p ((Work.start s).s.routeOf r).line = true from outranks]
      rfl
    obtain ⟨taken, -⟩ := takenWork_assign keyed none port
    obtain ⟨⟨h, stands, later⟩, others, order⟩ := served_takeMain (f := f) (c := .ok) (d := []) keyed none held port _ rfl
    refine ⟨takenBy p l f .ok [] _ s, executed claimed rfl nofun, ?_, fun x at' => ?_, fun _ => ⟨?_, others, order⟩, nofun, port ▸ victims taken⟩
    · rw [show (takenBy p l f .ok [] _ s).recordAt p l = some h from stands]
      exact (served_of_work taken.workedOn).1
    · obtain rfl := Option.some.inj (stands.symm.trans at')
      exact own later
    · exact Option.isSome_of_mem stands
  | aux =>
    have lone : ∀ e ∈ s.listOf l, e.manner ≠ .take := lone.resolve_left (by rw [port]; nofun)
    have claimed : claimRoute p r .take (Work.start s) = (admitFreed (takeQueue p r s),
        if ((admitFreed (takeQueue p r s)).s.recordAt p l).isSome then .ok else .queued 1) := by
      have noTake : hasTake ((Work.start s).s.listOf ((Work.start s).s.routeOf r).line) = false := by
        show hasTake (s.listOf l) = false
        simpa [hasTake] using lone
      have other : (Work.start s).s.portOf ((Work.start s).s.routeOf r).line ≠ .main := by
        show s.portOf l ≠ .main
        rw [port]
        nofun
      rw [claimed]
      simp only [if_neg other, takeRx, noTake, Bool.false_eq_true, if_false,
        show (Work.start s).s.outranks p ((Work.start s).s.routeOf r).line = true from outranks, Bool.not_true]
      rfl
    obtain ⟨taken, -⟩ := takenWork_putTake keyed none port lone
    by_cases remain : (takeQueue p r s).s.recordsOn l = []
    · have occupied : s.recordsOn l ≠ [] := fun empty => by simp [State.canBeHad, empty] at had
      obtain ⟨had, last⟩ := served_takeRx_had (f := f) (c := .ok) (d := []) keyed none held port lone occupied remain
      obtain ⟨h, stands, later⟩ := last _ rfl
      rw [if_pos had] at claimed
      refine ⟨takenBy p l f .ok [] _ s, executed claimed rfl nofun, ?_, fun x at' => ?_, nofun, fun _ => .inl ?_, port ▸ victims taken⟩
      · rw [show (takenBy p l f .ok [] _ s).recordAt p l = some h from stands]
        exact (served_of_work taken.workedOn).1
      · obtain rfl := Option.some.inj (stands.symm.trans at')
        exact own later
      · exact Option.isSome_of_mem stands
    · obtain ⟨out, last⟩ := served_takeRx_queued (f := f) (c := .queued) (d := [byte 1]) keyed none held port lone remain
      obtain ⟨absent, head⟩ := last _ rfl
      rw [if_neg (by rw [out]; nofun)] at claimed
      refine ⟨takenBy p l f .queued [byte 1] _ s, executed claimed rfl nofun, ?_, fun x at' => ?_, nofun, fun _ => .inr head, port ▸ victims taken⟩
      · rw [show (takenBy p l f .queued [byte 1] _ s).recordAt p l = Option.none from absent]
        exact (served_of_work taken.workedOn).1
      · cases absent.symm.trans at'

end Sys2Proof.Machine
end

section
/-! Events that revoke nobody, and a GRANTED position through them (R46, R81, R108). -/

namespace Sys2Proof.Machine

/-! ## Works that hand on no revocation -/

/-- From one work to the next no revoke event has been added. -/
def Unrevoking (w v : Work) : Prop := ∃ es, v.events = w.events ++ es ∧ ∀ e ∈ es, ∀ q, e ≠ .revoke q

variable {w v : Work}

theorem unrevoking_of_events (same : v.events = w.events) : Unrevoking w v := ⟨[], by rw [same, List.append_nil], by simp⟩

theorem Unrevoking.refl (w : Work) : Unrevoking w w := unrevoking_of_events rfl

theorem Unrevoking.trans {u : Work} (one : Unrevoking w v) (two : Unrevoking v u) : Unrevoking w u := by
  obtain ⟨es, first, out⟩ := one
  obtain ⟨fs, second, out'⟩ := two
  refine ⟨es ++ fs, by rw [second, first, List.append_assoc], fun e mem => ?_⟩
  obtain mem | mem := List.mem_append.1 mem
  · exact out e mem
  · exact out' e mem

theorem unrevoking_foldl {α : Type} {f : Work → α → Work} (each : ∀ w a, Unrevoking w (f w a)) : ∀ (xs : List α) (w : Work), Unrevoking w (xs.foldl f w)
  | [], w => .refl w
  | x :: xs, w => (each w x).trans (unrevoking_foldl each xs _)

/-- A work that starts with no event revokes nobody. -/
theorem Unrevoking.others {s : State} {p : Position} (none : Unrevoking (Work.start s) w) : ∀ e ∈ w.events, e ≠ .revoke p := fun e mem => by
  obtain ⟨es, events, out⟩ := none
  rw [events] at mem
  exact out e ((List.mem_append.1 mem).resolve_left nofun) p

theorem unrevoking_goBreaking (p : Position) (l : Line) (w : Work) : Unrevoking w (goBreaking p l w) := by
  obtain ⟨-, es, events, own⟩ := goBreaking_hands p l w
  exact ⟨es, events, fun e mem q => by rw [own e mem]; nofun⟩

theorem unrevoking_lose (p : Position) (k : PortKind) (l : Line) (why : LostReason) (w : Work) : Unrevoking w (lose p k l why w) :=
  unrevoking_of_events (lose_hands p k why w).1

theorem admissionsKeep_unrevoking (w : Work) : AdmissionsKeep (fun _ => True) (Unrevoking w) (fun _ _ => True) where
  entries _ _ _ _ _ _ := trivial
  takes _ at' _ _ _ _ := at'.trans (unrevoking_of_events rfl)
  leave _ at' _ _ _ _ _ _ x _ _ _ _ := at'.trans (unrevoking_goBreaking _ x.line _)

theorem unrevoking_admitFreed (w : Work) : Unrevoking w (admitFreed w) :=
  (admissionsKeep_unrevoking w).admitAll (fun _ => trivial) (fun _ _ at' => at'.trans (unrevoking_of_events rfl)) _ (.refl w)

theorem unrevoking_assign (p : Position) (r : Route) (w : Work) : Unrevoking w (assign p r w) :=
  ((unrevoking_of_events rfl : Unrevoking w (withdraw p (w.s.portOf (w.s.routeOf r).line) none w)).trans
    (unrevoking_foldl (fun v (x : Holder) => unrevoking_goBreaking p x.line v) _ _)).trans (unrevoking_of_events rfl)

theorem unrevoking_freeIfAux (l : Line) (w : Work) : Unrevoking w (freeIfAux l w) := unrevoking_of_events (by unfold freeIfAux; split <;> rfl)

theorem unrevoking_replaceRoute (p : Position) (l : Line) (r : Route) (st : HolderState) (w : Work) : Unrevoking w (replaceRoute p l r st w) :=
  ((unrevoking_of_events rfl : Unrevoking w (w.mapRecord p l fun x => { x with route := r, reroute := none, state := st })).trans
    (unrevoking_freeIfAux l _)).trans (unrevoking_admitFreed _)

theorem unrevoking_rerouteBy (p : Position) (r : Route) (h : Holder) (w : Work) : Unrevoking w (rerouteBy p r h w).1 := by
  unfold rerouteBy
  split
  · exact unrevoking_replaceRoute ..
  · exact unrevoking_replaceRoute ..
  · split
    · exact unrevoking_replaceRoute ..
    · exact unrevoking_of_events rfl
  · exact .refl w

/-- A claim that is no TAKE revokes nobody. -/
theorem unrevoking_claimRoute (p : Position) (r : Route) {m : Manner} (manner : m ≠ .take) (w : Work) : Unrevoking w (claimRoute p r m w).1 := by
  unfold claimRoute
  dsimp only
  split
  · split
    · exact unrevoking_of_events rfl
    · unfold rerouteRecord
      split
      · exact .refl w
      · exact (unrevoking_of_events rfl : Unrevoking w (withdraw p _ none w)).trans (unrevoking_rerouteBy ..)
  · split
    · exact (unrevoking_assign p r w).trans (unrevoking_admitFreed _)
    · cases m with
      | wait => exact unrevoking_of_events rfl
      | now => exact .refl w
      | take => exact absurd rfl manner

theorem unrevoking_ringClaim (p : Position) (k : PortKind) (b : Band) (told : Bool) (w : Work) : Unrevoking w (ringClaim p k b told w).1 := by
  unfold ringClaim
  dsimp only
  split
  · next r _ =>
    have claimed := unrevoking_claimRoute p r (m := .now) nofun w
    split
    · exact (claimed.trans (unrevoking_foldl (fun v i => unrevoking_lose p k i _ v) _ _)).trans (unrevoking_of_events rfl)
    · exact claimed.trans (unrevoking_of_events rfl)
  · split
    · next r _ _ => exact (unrevoking_claimRoute p r (m := .wait) nofun w).trans (unrevoking_of_events rfl)
    · exact unrevoking_of_events (by unfold noteNoRoute; split <;> rfl)

theorem unrevoking_calledClaim (p : Position) (k : PortKind) (b : Band) (w : Work) : Unrevoking w (calledClaim p k b w) := by
  unfold calledClaim
  split
  · exact unrevoking_of_events rfl
  · split
    · exact .refl w
    · exact unrevoking_ringClaim ..

theorem unrevoking_claimIfNeeded (p : Position) (k : PortKind) (w : Work) : Unrevoking w (claimIfNeeded p k w) := by
  unfold claimIfNeeded
  split
  · split
    · exact unrevoking_calledClaim ..
    · exact .refl w
  · exact .refl w

theorem unrevoking_reclaimOne (p : Position) (k : PortKind) (w : Work) : Unrevoking w (reclaimOne p k w) := by
  unfold reclaimOne
  split
  · split
    · dsimp only
      split
      · exact unrevoking_of_events rfl
      · exact (unrevoking_of_events rfl : Unrevoking w (w.mapStanding p k _)).trans (unrevoking_claimIfNeeded ..)
    · exact .refl w
  · exact .refl w

theorem unrevoking_eachPort {f : Position → PortKind → Work → Work} (each : ∀ p k w, Unrevoking w (f p k w)) (w : Work) : Unrevoking w (eachPort f w) :=
  unrevoking_foldl (fun v p => (each p .main v).trans (each p .aux _)) _ w

theorem unrevoking_closeWork (b : State) (w : Work) : Unrevoking w (closeWork b w) := by
  obtain ⟨es, events, -, ended⟩ := closeWork_eq b w
  refine (unrevoking_admitFreed w).trans ⟨es, events, fun e mem q => ?_⟩
  obtain ⟨p, rfl, -⟩ := ended e mem
  nofun

/-! ## A GRANTED position, or one that is off the air, through such events -/

section

variable {p : Position} {s t : State}

theorem airs_handOn (others : ∀ e ∈ w.events, e ≠ .revoke p) : Airs p w.s (handOn w) :=
  ((aloof_notifyEach p _ _).airs.trans (airs_takeTxiEvents _ _ others)).trans (aloof_notifyEach p _ _).airs

/-- The work of an allocator event, up to what it hands on. -/
abbrev eventWork (f : Work → Work) (s : State) : Work := closeWork s (reclaims (admitFreed (f (Work.start s))))

theorem unrevoking_eventWork {f : Work → Work} (s : State) : Unrevoking (f (Work.start s)) (eventWork f s) :=
  ((unrevoking_admitFreed _).trans (unrevoking_eachPort unrevoking_reclaimOne _)).trans (unrevoking_closeWork s _)

theorem aloof_eventWork {f : Work → Work} (worked : ∀ w, Worked w (f w)) (p : Position) (s : State) : Aloof p s (eventWork f s).s :=
  (aloof_of_moved (((worked (Work.start s)).trans (worked_admitFreed _)).trans (worked_reclaims _)).moved (by decide) (by decide)).trans
    (aloof_closeWork p s _)

theorem airs_allocEvent {f : Work → Work} (worked : ∀ w, Worked w (f w)) (others : ∀ e ∈ (f (Work.start s)).events, e ≠ .revoke p) :
    Airs p s (allocEvent f s) := by
  refine (aloof_eventWork worked p s).airs.trans (airs_handOn fun e mem => ?_)
  obtain ⟨es, events, out⟩ := unrevoking_eventWork (f := f) s
  rw [events] at mem
  obtain mem | mem := List.mem_append.1 mem
  · exact others e mem
  · exact out e mem p

theorem unrevoking_quietWork (q : Position) (s : State) : Unrevoking (Work.start s) (quietWork q s) := by
  show Unrevoking _ (applyReroutes q (requestBreaks q (Work.start s)))
  refine (unrevoking_of_events rfl : Unrevoking _ (requestBreaks q (Work.start s))).trans ?_
  unfold applyReroutes
  split
  · exact .refl _
  · exact unrevoking_foldl (fun v (x : Holder) => (unrevoking_of_events rfl : Unrevoking v (v.mapRecord q x.line Holder.takeReroute)).trans (unrevoking_freeIfAux ..)) _ _

theorem airs_pathQuietEvent (q : Position) (s : State) : Airs p s (pathQuietEvent q s) :=
  (airs_allocEvent (f := fun w => applyReroutes q (requestBreaks q w)) (fun w => (worked_requestBreaks q w).trans (worked_applyReroutes q _))
    (unrevoking_quietWork q s).others).trans (aloof_filterMove p q _).airs

theorem airs_quietEvents (b : State) : ∀ (n : Nat) (d : List Position) (s : State), Airs p s (quietEvents b n d s)
  | 0, _, s => (Aloof.refl p s).airs
  | n + 1, d, s => by
    unfold quietEvents
    split
    · exact (airs_pathQuietEvent _ s).trans (airs_quietEvents b n _ _)
    · exact (Aloof.refl p s).airs

/-- A GRANTED position is GRANTED at the end of a step that revokes nobody else than its events do. -/
theorem airs_closeStep {b : State} (ready : s.store.ready = b.store.ready) : Airs p s (closeStep b s) := by
  rw [closeStep, watchPin_same b s ready]
  exact (airs_quietEvents b _ _ _).trans (aloof_startRule p _).airs

/-- The MAIN release event of a GRANTED position, in an allocator event (R108). -/
theorem skip_allocEvent {f : Work → Work} (worked : ∀ w, Worked w (f w)) (others : ∀ e ∈ (f (Work.start s)).events, e ≠ .revoke p)
    (mem : TxiEvent.mainRelease p ∈ (f (Work.start s)).events) (granted : s.Granted p) : ((allocEvent f s).txOf p).skipHang = true := by
  obtain ⟨es, events, out⟩ := unrevoking_eventWork (f := f) s
  have before : Aloof p s (notifyEach (eventWork f s).grants (eventWork f s).s) := (aloof_eventWork worked p s).trans (aloof_notifyEach p _ _)
  have unrevoked : ∀ e ∈ (eventWork f s).events, e ≠ .revoke p := fun e mem => by
    rw [events] at mem
    obtain mem | mem := List.mem_append.1 mem
    · exact others e mem
    · exact out e mem p
  have released : TxiEvent.mainRelease p ∈ (eventWork f s).events := by
    rw [events]
    exact List.mem_append_left _ mem
  have granted' := (before.airs granted).1
  exact ((aloof_notifyEach p _ _).airs ((airs_takeTxiEvents _ _ unrevoked) granted').1).2 (skip_takeTxiEvents _ _ unrevoked released granted')

/-- The MAIN release event of a position in HANG, in an allocator event (R108). -/
theorem released_allocEvent {f : Work → Work} (worked : ∀ w, Worked w (f w)) (others : ∀ e ∈ (f (Work.start s)).events, e ≠ .revoke p)
    (mem : TxiEvent.mainRelease p ∈ (f (Work.start s)).events) (hanging : s.Hanging p) : Released p s (allocEvent f s) := by
  obtain ⟨es, events, out⟩ := unrevoking_eventWork (f := f) s
  obtain ⟨same, free⟩ := aloof_eventWork worked p s hanging.out
  obtain ⟨idle, gone, cause⟩ := released_handOn (p := p) (w := eventWork f s) (fun e mem => by
    rw [events] at mem
    obtain mem | mem := List.mem_append.1 mem
    · exact others e mem
    · exact out e mem p) (by rw [events]; exact List.mem_append_left _ mem) ⟨by rw [same]; exact hanging.state, free⟩
  exact ⟨idle, gone, by rw [← same]; exact cause⟩

end

end Sys2Proof.Machine
end

section
/-! What a step that takes no stale expiry hands to the Fault Log (R34, R35). -/

namespace Sys2Proof.Machine

/-- From one state to the next no FREQ_STALE has been handed over. -/
def NoneStale (s t : State) : Prop := ∃ es, t.inbox = s.inbox ++ es ∧ ∀ o, LogEvent.occurred o ∈ es → o.kind ≠ .freqStale

variable {s t u : State}

theorem noneStale_of_same (same : t.inbox = s.inbox) : NoneStale s t := ⟨[], by rw [same, List.append_nil], by simp⟩

theorem NoneStale.refl (s : State) : NoneStale s s := noneStale_of_same rfl

theorem NoneStale.trans (one : NoneStale s t) (two : NoneStale t u) : NoneStale s u := by
  obtain ⟨es, first, out⟩ := one
  obtain ⟨fs, second, out'⟩ := two
  refine ⟨es ++ fs, by rw [second, first, List.append_assoc], fun o mem => ?_⟩
  obtain mem | mem := List.mem_append.1 mem
  · exact out o mem
  · exact out' o mem

theorem noneStale_of_moved {ps : List Part} (moved : Moved ps s t) (out : Part.inbox ∉ ps) : NoneStale s t :=
  noneStale_of_same (moved.same .inbox out)

theorem noneStale_foldl {α : Type} {f : State → α → State} (each : ∀ s a, NoneStale s (f s a)) : ∀ (xs : List α) (s : State), NoneStale s (xs.foldl f s)
  | [], s => .refl s
  | x :: xs, s => (each s x).trans (noneStale_foldl each xs _)

theorem noneStale_raise {o : Occurrence} (other : o.kind ≠ .freqStale) (s : State) : NoneStale s (raise o s) :=
  ⟨[.occurred o], rfl, fun x mem => by
    obtain rfl : x = o := by simpa using mem
    exact other⟩

theorem noneStale_raised {o : Occurrence} (same : t.inbox = s.inbox) (other : o.kind ≠ .freqStale) : NoneStale s (raise o t) :=
  (noneStale_of_same same).trans (noneStale_raise other t)

theorem noneStale_notify (p : Position) (n : Notice) (s : State) : NoneStale s (notify p n s) := by
  unfold notify
  split
  · split
    · exact noneStale_of_same rfl
    · split
      · exact noneStale_of_same rfl
      · exact noneStale_raised rfl (by nofun)
  · exact .refl s

theorem noneStale_notifyEach (ns : List (Position × Notice)) (s : State) : NoneStale s (notifyEach ns s) :=
  noneStale_foldl (fun s (x : Position × Notice) => noneStale_notify x.1 x.2 s) ns s

/-! ## The Harmonic Check Unit and the Transmit Interlock -/

theorem noneStale_beginEpisode (x : Position × Position) (s : State) : NoneStale s (beginEpisode x s) := by
  unfold beginEpisode
  split
  · exact ((noneStale_notify _ _ s).trans (noneStale_notify _ _ _)).trans (noneStale_raise (by nofun) _)
  · exact .refl s

theorem noneStale_evaluateAdvisories (s : State) : NoneStale s (evaluateAdvisories s) := by
  unfold evaluateAdvisories
  dsimp only
  exact (noneStale_of_same rfl : NoneStale s { s with advisory := pairs.filter s.advisoryHolds }).trans
    (noneStale_foldl (fun s x => noneStale_beginEpisode x s) _ _)

theorem noneStale_arbiterPass : ∀ (ps : List Position) (s : State), NoneStale s (arbiterPass ps s).1
  | [], s => .refl s
  | p :: ps, s => by
    unfold arbiterPass
    split
    · exact ((noneStale_of_same rfl : NoneStale s (putOnAir p s)).trans (noneStale_evaluateAdvisories _)).trans (noneStale_arbiterPass ps _)
    · next r _ => exact (noneStale_of_same rfl : NoneStale s (s.mapTx p fun x => { x with reason := some r })).trans (noneStale_arbiterPass ps _)

theorem noneStale_arbiterPasses : ∀ (n : Nat) (s : State), NoneStale s (arbiterPasses n s)
  | 0, s => .refl s
  | n + 1, s => by
    have one := noneStale_arbiterPass s.waiting s
    unfold arbiterPasses
    split
    · next t pass =>
      rw [pass] at one
      exact one.trans (noneStale_arbiterPasses n t)
    · next t pass =>
      rw [pass] at one
      exact one

theorem noneStale_arbiter (s : State) : NoneStale s (arbiter s) := noneStale_arbiterPasses _ s

theorem noneStale_leaveSlot (p : Position) (next : TxState) (s : State) : NoneStale s (leaveSlot p next s) := by
  unfold leaveSlot startTail endTail
  dsimp only
  split
  · split
    · exact noneStale_raised rfl (by nofun)
    · exact noneStale_of_same rfl
  · exact noneStale_of_same rfl

theorem noneStale_withdrawGrant (p : Position) (cause : RevocationCause) (s : State) : NoneStale s (withdrawGrant p cause s) := by
  unfold withdrawGrant
  dsimp only
  split
  · exact (noneStale_of_same rfl : NoneStale s (s.mapTx p fun x => { x with lastRevocation := some cause })).trans (noneStale_leaveSlot ..)
  · exact (noneStale_of_same rfl : NoneStale s (s.mapTx p fun x => { x with lastRevocation := some cause })).trans (noneStale_leaveSlot ..)
  · exact .refl s

theorem noneStale_takeTxiEvent (e : TxiEvent) (s : State) : NoneStale s (takeTxiEvent e s) := by
  cases e with
  | connected p => exact noneStale_arbiter s
  | switchingEnded p => exact noneStale_arbiter s
  | mainRelease p =>
    show NoneStale s (takeMainRelease p s)
    unfold takeMainRelease
    split
    · exact noneStale_of_same rfl
    · exact ((noneStale_leaveSlot p .idle s).trans (noneStale_evaluateAdvisories _)).trans (noneStale_arbiter _)
    · exact .refl s
  | revoke p =>
    show NoneStale s (revokeAndRun p .taken s)
    unfold revokeAndRun revoke
    split
    · exact ((noneStale_withdrawGrant ..).trans (noneStale_evaluateAdvisories _)).trans (noneStale_arbiter _)
    · exact .refl s

theorem noneStale_reportEvent (s : State) : NoneStale s (reportEvent s) := (noneStale_arbiter s).trans (noneStale_evaluateAdvisories _)

/-! ## The Line Allocator's events and the close of a step -/

theorem noneStale_handOn (w : Work) : NoneStale w.s (handOn w) :=
  ((noneStale_notifyEach _ _).trans (noneStale_foldl (fun s e => noneStale_takeTxiEvent e s) w.events _)).trans (noneStale_notifyEach _ _)

theorem noneStale_allocEvent {f : Work → Work} (worked : ∀ w, Worked w (f w)) (s : State) : NoneStale s (allocEvent f s) :=
  ((noneStale_of_moved (((worked (Work.start s)).trans (worked_admitFreed _)).trans (worked_reclaims _)).moved (by decide)).trans
    (noneStale_of_moved (moved_closeWork s _) (by decide))).trans (noneStale_handOn _)

theorem noneStale_quietEvents (b : State) : ∀ (n : Nat) (d : List Position) (s : State), NoneStale s (quietEvents b n d s)
  | 0, _, s => .refl s
  | n + 1, d, s => by
    unfold quietEvents
    split
    · next q _ =>
      have one : NoneStale s (allocPathQuiet q s) :=
        noneStale_allocEvent (fun w => (worked_requestBreaks q w).trans (worked_applyReroutes q _)) s
      exact (one.trans (noneStale_of_moved (moved_filterMove q _) (by decide))).trans (noneStale_quietEvents b n _ _)
    · exact .refl s

theorem noneStale_startRule (s : State) : NoneStale s (startRule s) := by
  have started (x : Image) (s : State) : NoneStale s (takeStart x s) :=
    noneStale_foldl (fun t p => by dsimp only; split; exacts [noneStale_raise (by nofun) t, .refl t]) _ s
  have change (why : Purpose) (s : State) : NoneStale s (startChange why s) := (noneStale_of_same rfl).trans (started _ _)
  unfold startRule
  dsimp only
  split_ifs
  · exact .refl s
  · exact noneStale_of_same rfl
  · exact .refl s
  · exact noneStale_of_same rfl
  · exact noneStale_of_same rfl
  · exact change _ s
  · exact change _ s
  · exact change _ s
  · exact noneStale_of_same rfl

theorem noneStale_closeStep {b : State} (ready : s.store.ready = b.store.ready) : NoneStale s (closeStep b s) := by
  rw [closeStep, watchPin_same b s ready]
  exact (noneStale_quietEvents b _ _ _).trans (noneStale_startRule _)

end Sys2Proof.Machine
end

section
/-! An absence and a return, at each block that takes them (R35, R72, R73, R110). -/

namespace Sys2Proof.Machine

section

variable {s t : State} {w : Work} {p : Position}

/-! ## The records of an absent position (R72) -/

/-- The loss of a record's line, stored at its position's absence. -/
abbrev Work.noteLoss (w : Work) (p : Position) (r : Holder) : Work := w.mapStanding p r.kind fun x => { x with loss := some r.line }

theorem goBreaking_noteLoss (p : Position) (r : Holder) (l : Line) (w : Work) : goBreaking p l (w.noteLoss p r) = (goBreaking p l w).noteLoss p r := by
  have dropped (h : Holder) : dropNeverClosed h (noteRelease p h.kind (toBreaking p l (w.noteLoss p r))) =
      (dropNeverClosed h (noteRelease p h.kind (toBreaking p l w))).noteLoss p r := by
    have noted : noteRelease p h.kind (toBreaking p l (w.noteLoss p r)) = (noteRelease p h.kind (toBreaking p l w)).noteLoss p r := by
      cases h.kind with
      | main => rfl
      | aux => rfl
    rw [noted]
    generalize noteRelease p h.kind (toBreaking p l w) = v
    have closed : neverClosed h (v.noteLoss p r).s = neverClosed h v.s := rfl
    unfold dropNeverClosed
    rw [closed]
    split
    · rfl
    · rfl
  have same : (w.noteLoss p r).s.recordAt p l = w.s.recordAt p l := rfl
  unfold goBreaking
  rw [same]
  split
  · rfl
  · split
    · rfl
    · rfl
    · exact dropped _
    · exact dropped _

theorem releases_noteLoss (p : Position) (r : Holder) : ∀ (xs : List Holder) (w : Work), (w.noteLoss p r).releases p xs = (w.releases p xs).noteLoss p r
  | [], _ => rfl
  | x :: xs, w => by
    rw [Work.releases, List.foldl_cons, goBreaking_noteLoss, ← Work.releases, releases_noteLoss p r xs]
    rfl

/-- The losses of several records, stored one after another. -/
abbrev Work.noteLosses (w : Work) (p : Position) (xs : List Holder) : Work := xs.foldl (fun w r => w.noteLoss p r) w

/-- An absence sends the position's records BREAKING, and stores their lines besides. -/
theorem breakAbsent_eq (p : Position) : ∀ (xs : List Holder) (w : Work),
    xs.foldl (fun w r => goBreaking p r.line (w.noteLoss p r)) w = (w.releases p xs).noteLosses p xs
  | [], _ => rfl
  | x :: xs, w => by
    rw [List.foldl_cons, goBreaking_noteLoss, breakAbsent_eq p xs, releases_noteLoss]
    rfl

theorem alloc_noteLosses (p : Position) : ∀ (xs : List Holder) (w : Work), (w.noteLosses p xs).s.alloc.records = w.s.alloc.records ∧
    (w.noteLosses p xs).s.alloc.lists = w.s.alloc.lists ∧ (w.noteLosses p xs).events = w.events
  | [], _ => ⟨rfl, rfl, rfl⟩
  | x :: xs, w => alloc_noteLosses p xs (w.noteLoss p x)

/-- Each kind's loss is the line of one of its records; nothing else of a standing changes. -/
theorem standing_noteLosses (p : Position) (k : PortKind) : ∀ (xs : List Holder) (w : Work),
    ((w.noteLosses p xs).s.standing p k).follow = (w.s.standing p k).follow ∧ ((w.noteLosses p xs).s.standing p k).due = (w.s.standing p k).due ∧
      ((w.noteLosses p xs).s.standing p k).reclaim = (w.s.standing p k).reclaim ∧
      (((∀ x ∈ xs, x.kind ≠ k) ∧ ((w.noteLosses p xs).s.standing p k).loss = (w.s.standing p k).loss) ∨
        ∃ y ∈ xs, y.kind = k ∧ ((w.noteLosses p xs).s.standing p k).loss = some y.line)
  | [], _ => ⟨rfl, rfl, rfl, .inl ⟨by simp, rfl⟩⟩
  | x :: xs, w => by
    have first : (w.noteLoss p x).s.standing p k = if p = p ∧ k = x.kind then { w.s.standing p x.kind with loss := some x.line } else w.s.standing p k :=
      standing_mapStanding ..
    obtain ⟨follow, due, reclaim, loss⟩ := standing_noteLosses p k xs (w.noteLoss p x)
    by_cases own : k = x.kind
    · subst own
      rw [if_pos ⟨rfl, rfl⟩] at first
      rw [first] at follow due reclaim loss
      refine ⟨follow, due, reclaim, .inr ?_⟩
      obtain ⟨-, loss⟩ | ⟨y, mem, kind, loss⟩ := loss
      · exact ⟨x, List.mem_cons_self, rfl, loss⟩
      · exact ⟨y, List.mem_cons_of_mem _ mem, kind, loss⟩
    · rw [if_neg fun both => own both.2] at first
      rw [first] at follow due reclaim loss
      refine ⟨follow, due, reclaim, ?_⟩
      obtain ⟨none, loss⟩ | ⟨y, mem, kind, loss⟩ := loss
      · refine .inl ⟨fun y mem => ?_, loss⟩
        obtain rfl | mem := List.mem_cons.1 mem
        · exact Ne.symm own
        · exact none y mem
      · exact .inr ⟨y, List.mem_cons_of_mem _ mem, kind, loss⟩

theorem standing_of_standings (same : t.alloc.standings = s.alloc.standings) (p : Position) (k : PortKind) : t.standing p k = s.standing p k := by
  rw [State.standing, same]
  rfl

/-- A standing that no event changes: it names no re-claim line, so that no ring claim of its kind comes. -/
structure Rests (p : Position) (k : PortKind) (x : Standing) (s : State) : Prop where
  keyed : s.AllocationKeyed
  standing : s.standing p k = x
  reclaim : x.reclaim = none

theorem Rests.step {k : PortKind} {x : Standing} (rests : Rests p k x s) (moves : Moves (fun _ _ => True) False s t)
    (same : t.alloc.standings = s.alloc.standings) : Rests p k x t :=
  ⟨allocationKeyed_moves moves rests.keyed, (standing_of_standings same p k).trans rests.standing, rests.reclaim⟩

theorem rests_admitFreed {k : PortKind} {x : Standing} (w : Work) (rests : Rests p k x w.s) : Rests p k x (admitFreed w).s :=
  rests.step (moves_admitFreed rests.keyed (cover_true _))
    (yields_admitFreed (K := fun _ => True) (kinded_of_keyed rests.keyed) fun _ _ => trivial).standings

theorem claimsKeep_rests {k : PortKind} {x : Standing} {q : Position} {j : PortKind} (other : ¬(p = q ∧ k = j)) : ClaimsKeep q j (Rests p k x) where
  keyed _ rests := rests.keyed
  admits := rests_admitFreed
  assigns w r rests _ none had := rests.step (moves_assign rests.keyed trivial none (roomy_of_canBeHad had))
    (yields_assign (K := fun _ => True) (kinded_of_keyed rests.keyed) q trivial).standings
  queues w r rests _ none := rests.step (.single (.enqueue trivial none)) rfl
  changes _ _ _ _ rests _ _ _ _ moves := rests.step moves rfl
  standing w f rests :=
    ⟨allocationKeyed_moves (.single (.standing (A := fun _ _ => True) (B := False) f trivial)) rests.keyed,
      ((standing_mapStanding w.s q j f p k).trans (if_neg other)).trans rests.standing, rests.reclaim⟩

theorem rests_of_same {k : PortKind} {x : Standing} (table : t.table = s.table) (alloc : t.alloc = s.alloc) (rests : Rests p k x s) : Rests p k x t :=
  ⟨allocationKeyed_of_same rests.keyed table alloc, (standing_of_standings (congrArg _ alloc) p k).trans rests.standing, rests.reclaim⟩

theorem eventsKeep_rests (p : Position) (k : PortKind) (x : Standing) : EventsKeep (Rests p k x) where
  same _ _ alike := rests_of_same alike.table alike.alloc
  admits := rests_admitFreed
  made s rests := rests.step (.single (.make s)) rfl
  quiet s q quiet rests := rests.step (moves_quietWork rests.keyed quiet) (yields_quietWork rests.keyed q).standings
  reclaims w q j l rests named _ := (claimsKeep_rests fun same => by
    obtain ⟨rfl, rfl⟩ := same
    rw [rests.standing, rests.reclaim] at named
    cases named).reclaimOne rests

/-- The records that an absence sends BREAKING. -/
abbrev State.absentees (s : State) (p : Position) : List Holder := s.alloc.records.filter fun r => r.pos = p && r.state ≠ .breaking

theorem mem_absentees {x : Holder} : x ∈ s.absentees p ↔ x ∈ s.alloc.records ∧ x.pos = p ∧ x.state ≠ .breaking := by
  simp [State.absentees]

/-- The allocator at an absence, with the position's claims dropped. -/
abbrev droppedWork (p : Position) (s : State) : Work := dropEntries p (settleRing p .aux (settleRing p .main (Work.start s)))

/-- The work of an absence at the allocator. -/
abbrev absentWork (p : Position) (s : State) : Work := breakAbsent p (droppedWork p s)

theorem absentWork_eq (p : Position) (s : State) :
    absentWork p s = ((droppedWork p s).releases p (s.absentees p)).noteLosses p (s.absentees p) := breakAbsent_eq p (s.absentees p) _

theorem worked_absent (w : Work) : Worked w (breakAbsent p (dropEntries p (settleRing p .aux (settleRing p .main w)))) :=
  (((worked_settleRing p .main w).trans (worked_settleRing _ _ _)).trans (worked_dropEntries _ _)).trans (worked_breakAbsent _ _)

theorem moves_absentWork (keyed : s.AllocationKeyed) (p : Position) : Moves (fun _ _ => True) False s (absentWork p s).s :=
  deals_absence (A := fun _ _ => True) (fun _ => trivial) (Work.start s) ⟨keyed, cover_true _⟩

theorem recordAt_absentWork (keyed : s.AllocationKeyed) (p : Position) (j : Line) :
    (absentWork p s).s.recordAt p j = (s.recordAt p j).bind (Holder.leaving s) := by
  rw [absentWork_eq, recordAt_of_alloc (alloc_noteLosses p _ _).1, recordAt_releases]
  split
  · rfl
  · next out =>
    show s.recordAt p j = _
    cases held : s.recordAt p j with
    | none => rfl
    | some h =>
      obtain ⟨mem, pos, line⟩ := mem_of_recordAt held
      have breaking : h.state = .breaking := by_contra fun stands => out ⟨rfl, h, mem_absentees.2 ⟨mem, pos, stands⟩, line⟩
      rw [Option.bind_some, Holder.leaving, if_pos breaking]

theorem out_absentWork (p : Position) (s : State) (j : Line) : ∀ e ∈ (absentWork p s).s.listOf j, e.pos ≠ p := by
  rw [absentWork_eq, listOf_of_alloc (alloc_noteLosses p _ _).2.1]
  refine out_releases fun e mem => ?_
  have port (i : Line) : (settleRing p .aux (settleRing p .main (Work.start s))).s.portOf i = s.portOf i := rfl
  change e ∈ ((((settleRing p .aux (settleRing p .main (Work.start s))).s.withdrawn p .main .none).withdrawn p .aux .none).listOf j) at mem
  cases kind : s.portOf j with
  | aux => exact withdrawn_apart _ p (show ((settleRing p .aux (settleRing p .main (Work.start s))).s.withdrawn p .main .none).portOf j = .aux from kind) e mem
  | main =>
    rw [listOf_withdrawn, if_neg (by rintro ⟨aux, -⟩; cases kind.symm.trans aux)] at mem
    exact withdrawn_apart _ p (show (settleRing p .aux (settleRing p .main (Work.start s))).s.portOf j = .main from kind) e mem

theorem standing_absentWork (p : Position) (s : State) (k : PortKind) :
    ((absentWork p s).s.standing p k).follow = (s.standing p k).follow ∧ ((absentWork p s).s.standing p k).due = false ∧
      ((absentWork p s).s.standing p k).reclaim = none ∧
      ∀ x ∈ s.alloc.records, x.pos = p → x.state ≠ .breaking → x.kind = k →
        ∃ y ∈ s.alloc.records, y.pos = p ∧ y.kind = k ∧ y.state ≠ .breaking ∧ ((absentWork p s).s.standing p k).loss = some y.line := by
  have released : ((droppedWork p s).releases p (s.absentees p)).s.standing p k = (s.standing p k).settled := by
    have left (xs : List Holder) (w : Work) : (w.releases p xs).s.standing p k = w.s.standing p k := by
      induction xs generalizing w with
      | nil => rfl
      | cons x xs ih =>
        rw [Work.releases, List.foldl_cons, ← Work.releases, ih, goBreaking_s, standing_left]
    rw [left]
    show (settleRing p .aux (settleRing p .main (Work.start s))).s.standing p k = _
    rw [standing_settleRing, standing_settleRing]
    cases k with
    | main => simp [Work.start]
    | aux => simp [Work.start]
  obtain ⟨follow, due, reclaim, loss⟩ := standing_noteLosses p k (s.absentees p) ((droppedWork p s).releases p (s.absentees p))
  rw [absentWork_eq, follow, due, reclaim, released]
  refine ⟨rfl, rfl, rfl, fun x mem pos stands kind => ?_⟩
  obtain ⟨none, -⟩ | ⟨y, mem, kind, loss⟩ := loss
  · exact absurd kind (none x (mem_absentees.2 ⟨mem, pos, stands⟩))
  · obtain ⟨mem, pos, stands⟩ := mem_absentees.1 mem
    exact ⟨y, mem, pos, kind, stands, loss⟩

theorem unrevoking_absentWork (p : Position) (s : State) : Unrevoking (Work.start s) (absentWork p s) := by
  rw [absentWork_eq]
  have left : Unrevoking (Work.start s) ((droppedWork p s).releases p (s.absentees p)) :=
    unrevoking_foldl (fun v (x : Holder) => unrevoking_goBreaking p x.line v) _ (droppedWork p s)
  exact left.trans (unrevoking_of_events (alloc_noteLosses p _ _).2.2)

theorem released_absentWork (keyed : s.AllocationKeyed) {x : Holder} (mem : x ∈ s.alloc.records) (main : x.kind = .main)
    (stands : x.state = .making ∨ x.state = .connected) : TxiEvent.mainRelease x.pos ∈ (absentWork x.pos s).events := by
  rw [absentWork_eq, (alloc_noteLosses _ _ _).2.2]
  refine released_releases (h := x) main stands _ _ (recordAt_of_mem keyed.records mem) ⟨x, mem_absentees.2 ⟨mem, rfl, ?_⟩, rfl⟩
  obtain making | connected := stands
  · simp [making]
  · simp [connected]

/-- The absent position's records only go on from there, whoever has a ring claim made. -/
theorem calm_absentWork (keyed : s.AllocationKeyed) (p : Position) : (absentWork p s).s.Calm fun q _ _ => q = p where
  keyed := allocationKeyed_moves (moves_absentWork keyed p) keyed
  out j e mem := out_absentWork p s j e mem
  calm q j own := .inr fun _ _ => own
  held _ q j l own named := by
    subst own
    rw [(standing_absentWork q s _).2.2.1] at named
    cases named

/-! ## The end of a step -/

theorem quietEvents_of_before {b c : State} (quiet : b.pathQuiet = c.pathQuiet) : ∀ (n : Nat) (d : List Position) (s : State),
    quietEvents b n d s = quietEvents c n d s
  | 0, _, _ => rfl
  | n + 1, d, s => by
    have same : newlyQuiet b d s = newlyQuiet c d s := by rw [newlyQuiet, quiet]; rfl
    unfold quietEvents
    rw [same]
    split
    · exact quietEvents_of_before quiet n _ _
    · rfl

/-- Of the state before it the end of a step looks at nothing but whether start-up has ended, and which paths are quiet. -/
theorem closeStep_of_before {b c : State} (ready : b.store.ready = c.store.ready) (quiet : b.pathQuiet = c.pathQuiet) (s : State) :
    closeStep b s = closeStep c s := by
  simp only [closeStep, watchPin, ready, deliverQuiet, quietEvents_of_before quiet]

/-! ## A return (R73) -/

/-- The return of a position, for one port kind. -/
abbrev returnOne (p : Position) (s : State) (k : PortKind) : State :=
  match (s.standing p k).loss with
  | some l => notify p (.lost k l .absent) (s.mapStanding p k fun x => { x with loss := none })
  | none => s

/-- The LOST frame of a standing absence loss. -/
abbrev State.lossFrame (s : State) (p : Position) (k : PortKind) : Option Frame :=
  (s.standing p k).loss.map fun l => { kind := 0x42, payload := [byte k.code, byte l.val, 1] }

/-- What a return does for one kind. -/
structure Returned (p : Position) (k : PortKind) (s t : State) : Prop where
  records : t.alloc.records = s.alloc.records
  lists : t.alloc.lists = s.alloc.lists
  standings : ∀ q j, t.standing q j = if q = p ∧ j = k then { s.standing q j with loss := none } else s.standing q j
  present : t.present p = s.present p
  told : s.present p = true → (s.link p).queue.length < 6 → t.inbox = s.inbox ∧
    (t.link p).queue = (s.link p).queue ++ (s.lossFrame p k).toList

theorem returned_returnOne (p : Position) (k : PortKind) (s : State) : Returned p k s (returnOne p s k) := by
  unfold returnOne
  cases loss : (s.standing p k).loss with
  | none =>
    refine ⟨rfl, rfl, fun q j => ?_, rfl, fun _ _ => ⟨rfl, by simp [State.lossFrame, loss]⟩⟩
    by_cases own : q = p ∧ j = k
    · rw [if_pos own, own.1, own.2]
      exact congrArg (fun x => { s.standing p k with loss := x }) loss
    · rw [if_neg own]
  | some l =>
    have moved := moved_notify p (.lost k l .absent) (s.mapStanding p k fun x => { x with loss := none })
    have alloc := moved.alloc (by decide)
    show Returned p k s (notify p (.lost k l .absent) (s.mapStanding p k fun x => { x with loss := none }))
    refine ⟨by rw [alloc]; rfl, by rw [alloc]; rfl, fun q j => ?_, (moved.links p).present, fun present room => ?_⟩
    · rw [State.standing, alloc]
      refine (standing_mapStanding s p k _ q j).trans ?_
      split
      · next own => rw [own.1, own.2]
      · rfl
    · have present' : (s.mapStanding p k fun x => { x with loss := none }).present p = true := present
      have room' : ((s.mapStanding p k fun x => { x with loss := none }).link p).queue.length < 6 := room
      rw [notify_of_room present' room']
      refine ⟨rfl, ?_⟩
      rw [sendFrame, link_mapLink, if_pos rfl, State.lossFrame, loss]
      rfl

theorem allocReturn_eq (p : Position) (s : State) : allocReturn p s = returnOne p (returnOne p s .main) .aux := rfl

theorem standing_allocReturn (p : Position) (s : State) (q : Position) (k : PortKind) :
    (allocReturn p s).standing q k = if q = p then { s.standing q k with loss := none } else s.standing q k := by
  have one := returned_returnOne p .main s
  have two := returned_returnOne p .aux (returnOne p s .main)
  rw [allocReturn_eq, two.standings, one.standings]
  cases k with
  | main => simp
  | aux => simp

theorem told_allocReturn {p : Position} {s : State} (present : s.present p = true) (room : (s.link p).queue.length < 5) :
    (allocReturn p s).inbox = s.inbox ∧ ((allocReturn p s).link p).queue = (s.link p).queue ++ [PortKind.main, .aux].filterMap (s.lossFrame p) := by
  have one := returned_returnOne p .main s
  have two := returned_returnOne p .aux (returnOne p s .main)
  obtain ⟨inbox, queue⟩ := one.told present (by omega)
  have short : ((returnOne p s .main).link p).queue.length < 6 := by
    rw [queue, List.length_append]
    cases s.lossFrame p .main with
    | none => exact Nat.lt_succ_of_lt room
    | some f => exact Nat.succ_lt_succ room
  obtain ⟨inbox', queue'⟩ := two.told (one.present.trans present) short
  have same : (returnOne p s .main).lossFrame p .aux = s.lossFrame p .aux := by
    rw [State.lossFrame, one.standings, if_neg (by simp)]
  rw [allocReturn_eq, inbox', inbox, queue', queue, same, List.append_assoc]
  refine ⟨rfl, congrArg _ ?_⟩
  rw [List.filterMap_cons, List.filterMap_cons, List.filterMap_nil]
  cases s.lossFrame p .main with
  | none => cases s.lossFrame p .aux <;> rfl
  | some f => cases s.lossFrame p .aux <;> rfl

end

/-! ## The obligation -/

theorem exec_absence {s : State} (powered : s.powered = true) {b : AbsenceTaker} {p : Position} (next : s.isNext (.absence b p) = true) :
    exec (.absence b p) s = .next (closeStep s (takeAbsence b p (dropHanded (.absence b p) s))) := by
  show wholeStep _ s = _
  rw [wholeStep_of_powered _ powered, if_pos next]

theorem exec_positionReturn {s : State} (powered : s.powered = true) {b : ReturnTaker} {p : Position} (next : s.isNext (.positionReturn b p) = true) :
    exec (.positionReturn b p) s = .next (takeReturn b p (dropHanded (.positionReturn b p) s)) := by
  show whilePowered _ s = _
  rw [whilePowered_of_powered _ powered, if_pos next]

theorem moved_dropHanded (h : Handed) (s : State) : Moved [.handed] s (dropHanded h s) :=
  .of_eq (fun x out => by
    cases x with
    | handed => simp at out
    | _ => rfl) rfl rfl

/-- The absence of a position at the Band Decoder (R35). -/
theorem bandDecoderAbsence (s : State) (p : Position) {t : State}
    (closes : closeStep s (takeAbsence .bandDecoder p (dropHanded (.absence .bandDecoder p) s)) = t) :
    Moved (.handed :: .freq :: allocParts) s t ∧ t.handed = s.handed.erase (.absence .bandDecoder p) ∧
      t.freqOf p = { s.freqOf p with stale := true, staleTimer := none } ∧ (∀ q, q ≠ p → t.freqOf q = s.freqOf q) ∧
      ∀ o, LogEvent.occurred o ∈ t.inbox.drop s.inbox.length → o.kind ≠ .freqStale := by
  have first : Moved [.handed] s (dropHanded (.absence .bandDecoder p) s) := moved_dropHanded _ s
  have marked := moved_mapFreq (dropHanded (.absence .bandDecoder p) s) p fun r => { r with stale := true, staleTimer := none }
  have freq (q : Position) : ((dropHanded (.absence .bandDecoder p) s).mapFreq p fun r => { r with stale := true, staleTimer := none }).freqOf q =
      if q = p then { s.freqOf p with stale := true, staleTimer := none } else s.freqOf q := by
    rw [freqOf_mapFreq]
    rfl
  change closeStep s (reportEvent ((dropHanded (.absence .bandDecoder p) s).mapFreq p fun r => { r with stale := true, staleTimer := none })) = t at closes
  generalize ((dropHanded (.absence .bandDecoder p) s).mapFreq p fun r => { r with stale := true, staleTimer := none }) = u at marked freq closes
  have taken := moved_reportEvent u
  have ready : (reportEvent u).store.ready = s.store.ready := by
    rw [taken.store (by decide), marked.store (by decide), first.store (by decide)]
  have rest : Moved allocParts u t := by
    rw [← closes]
    exact (taken.mono (by decide)).trans (moved_closeStep s _ ready)
  have stale : NoneStale s t := by
    rw [← closes]
    exact (((noneStale_of_moved first (by decide)).trans (noneStale_of_moved marked (by decide))).trans (noneStale_reportEvent u)).trans
      (noneStale_closeStep ready)
  refine ⟨((first.mono (by decide)).trans (marked.mono (by decide))).trans (rest.mono (by decide)), ?_, ?_, fun q other => ?_, fun o mem => ?_⟩
  · rw [rest.handed (by decide), marked.handed (by decide)]
    rfl
  · rw [State.freqOf, rest.freq (by decide), ← State.freqOf, freq, if_pos rfl]
  · rw [State.freqOf, rest.freq (by decide), ← State.freqOf, freq, if_neg other]
  · obtain ⟨es, inbox, out⟩ := stale
    rw [inbox, List.drop_left] at mem
    exact out o mem

section

variable {s t : State} {p : Position}

/-- The absence of a position at the Line Allocator, up to the close of the step. -/
abbrev allocAbsent (p : Position) (s : State) : State := allocAbsence p (dropHanded (.absence .lineAllocator p) s)

theorem moved_allocAbsent (closes : closeStep s (allocAbsent p s) = t) : Moved allocParts (dropHanded (.absence .lineAllocator p) s) t ∧
    (allocAbsent p s).store.ready = s.store.ready := by
  have taken := moved_allocAbsence p (dropHanded (.absence .lineAllocator p) s)
  have ready : (allocAbsent p s).store.ready = s.store.ready := by rw [taken.store (by decide)]; rfl
  rw [← closes]
  exact ⟨taken.trans (moved_closeStep s _ ready), ready⟩

/-- What every event keeps holds after the absence where it holds of its work. -/
theorem kept_allocAbsent {I : State → Prop} (keep : EventsKeep I) (closes : closeStep s (allocAbsent p s) = t)
    (at' : I (absentWork p (dropHanded (.absence .lineAllocator p) s)).s) : I t := by
  rw [← closes]
  exact keep.closeStep (moved_allocAbsent rfl).2
    (keep.allocEvent (s := dropHanded (.absence .lineAllocator p) s)
      (f := fun w => breakAbsent p (dropEntries p (settleRing p .aux (settleRing p .main w)))) at')

/-- What an absent position's records, entries and standings come to (R72). -/
theorem lineAllocatorAbsence (keyed : s.AllocationKeyed) (closes : closeStep s (allocAbsent p s) = t) :
    (∀ l, ∀ e ∈ t.listOf l, e.pos ≠ p) ∧ (∀ j, Option.Rel Holder.Later ((s.recordAt p j).bind (Holder.leaving s)) (t.recordAt p j)) ∧
      (∀ x ∈ t.alloc.records, x.pos = p → x.state = .breaking) ∧
      ∀ k, t.standing p k = (absentWork p (dropHanded (.absence .lineAllocator p) s)).s.standing p k := by
  have keyed' : (dropHanded (.absence .lineAllocator p) s).AllocationKeyed := allocationKeyed_of_same keyed rfl rfl
  have goes := kept_allocAbsent (eventsKeep_calm (fun q _ _ => q = p) _) closes (calm_absentWork keyed' p).refl
  have record (j : Line) : Option.Rel Holder.Later ((s.recordAt p j).bind (Holder.leaving s)) (t.recordAt p j) := by
    have rel := goes.records p j rfl
    rw [recordAt_absentWork keyed'] at rel
    exact rel
  refine ⟨goes.calm.out, record, fun x mem pos => ?_, fun k => ?_⟩
  · have rel := record x.line
    rw [← pos, recordAt_of_mem goes.calm.keyed.records mem] at rel
    generalize left : (s.recordAt x.pos x.line).bind (Holder.leaving s) = o at rel
    cases rel with
    | some later =>
      obtain ⟨h, -, left⟩ := Option.bind_eq_some_iff.1 left
      exact later.breaking.2 (leaving_breaking left).1
  · exact (kept_allocAbsent (eventsKeep_rests p k _) closes
      ⟨(calm_absentWork keyed' p).keyed, rfl, (standing_absentWork p _ k).2.2.1⟩).standing

/-- What an absent position's transmission comes to where it loses a MAIN record (R108). -/
theorem airAbsence (keyed : s.AllocationKeyed) (coherent : s.TransmitCoherent) (closes : closeStep s (allocAbsent p s) = t) {x : Holder}
    (mem : x ∈ s.alloc.records) (pos : x.pos = p) (main : x.kind = .main) (stands : x.state = .making ∨ x.state = .connected) :
    ((s.txOf p).state = .granted → (t.txOf p).state = .granted ∧ (t.txOf p).skipHang = true) ∧
      ((s.txOf p).state = .hang → (t.txOf p).state = .idle ∧ (t.txOf p).lastRevocation = (s.txOf p).lastRevocation) := by
  subst pos
  obtain ⟨-, ready⟩ := moved_allocAbsent closes
  have keyed' : (dropHanded (.absence .lineAllocator x.pos) s).AllocationKeyed := allocationKeyed_of_same keyed rfl rfl
  have release : TxiEvent.mainRelease x.pos ∈ (absentWork x.pos (dropHanded (.absence .lineAllocator x.pos) s)).events :=
    released_absentWork (s := dropHanded (.absence .lineAllocator x.pos) s) keyed' mem main stands
  have others := (unrevoking_absentWork x.pos (dropHanded (.absence .lineAllocator x.pos) s)).others (p := x.pos)
  have on_of {x' : TxState} (state : (s.txOf x.pos).state = x') (on : x'.onAir = true) : s.onAir x.pos = true := by rw [State.onAir, state, on]
  rw [← closes]
  refine ⟨fun granted => ?_, fun hang => ?_⟩
  · have start : (dropHanded (.absence .lineAllocator x.pos) s).Granted x.pos :=
      ⟨granted, out_of_onAir coherent (on_of granted rfl)⟩
    obtain ⟨still, skip⟩ := airs_closeStep ready (airs_allocEvent (fun w => worked_absent w) others start).1
    exact ⟨still.state, skip (skip_allocEvent (fun w => worked_absent w) others release start)⟩
  · have start : (dropHanded (.absence .lineAllocator x.pos) s).Hanging x.pos := ⟨hang, out_of_onAir coherent (on_of hang rfl)⟩
    have last := (released_allocEvent (fun w => worked_absent w) others release start).grounded (grounds_closeStep x.pos ready)
    exact ⟨last.idle, last.cause⟩

end

/-- The absence of a position at the Transmit Interlock that is off the air (R110). -/
theorem interlockAbsence_off {s : State} {p : Position} (off : s.onAir p = false) :
    closeStep s (takeAbsence .transmitInterlock p (dropHanded (.absence .transmitInterlock p) s)) = startRule { s with
      handed := s.handed.erase (.absence .transmitInterlock p)
      tx := if (s.txOf p).state = .waiting then put s.tx p { s.txOf p with reason := some .absent } else s.tx } := by
  have off' : (waitAbsent p (dropHanded (.absence .transmitInterlock p) s)).onAir p = false := by
    unfold waitAbsent
    split
    · next waiting =>
      rw [State.onAir, txOf_mapTx, if_pos rfl]
      exact off
    · exact off
  have none : NoneQuieted s (waitAbsent p (dropHanded (.absence .transmitInterlock p) s)) := fun q quiet => by
    unfold waitAbsent at quiet
    split at quiet
    · rw [State.pathQuiet, txOf_mapTx] at quiet
      split at quiet
      · next same => rwa [same]
      · exact quiet
    · exact quiet
  have ready : (waitAbsent p (dropHanded (.absence .transmitInterlock p) s)).store.ready = s.store.ready := by
    unfold waitAbsent
    split
    · rfl
    · rfl
  show closeStep s (revokeAndRun p .absent (waitAbsent p (dropHanded (.absence .transmitInterlock p) s))) = _
  rw [revokeAndRun, if_neg (by simp [off']), closeStep_of_noneQuieted none ready]
  unfold waitAbsent
  split
  · next waiting =>
    rw [if_pos (show (s.txOf p).state = .waiting from waiting)]
    rfl
  · next waiting =>
    rw [if_neg (show ¬(s.txOf p).state = .waiting from waiting)]
    rfl

/-- Which handings-over wait makes no difference to how a position has left the air. -/
theorem leftAir_dropHanded {h : Handed} {next : TxState} {s t : State} {p : Position} (left : LeftAir next (dropHanded h s) t p) :
    LeftAir next s t p :=
  ⟨left.state, left.inhibit, left.hang, left.rf, left.tail, left.ungranted, fun zero rf =>
    have ⟨breaks, taken⟩ := left.quiet zero rf
    ⟨breaks, taken.filter, taken.pending, taken.rerouted, taken.made⟩⟩

/-- The absence of a position at the Transmit Interlock that is on the air (R110). -/
theorem interlockAbsence_on {s : State} {p : Position} (coherent : s.TransmitCoherent) (keyed : s.AllocationKeyed) (on : s.onAir p = true) {t : State}
    (closes : closeStep s (takeAbsence .transmitInterlock p (dropHanded (.absence .transmitInterlock p) s)) = t) :
    Moved (.handed :: allocParts) s t ∧ t.handed = s.handed.erase (.absence .transmitInterlock p) ∧
      LeftAir (if (s.txOf p).state = .granted then .revoked else .idle) s t p ∧ (t.txOf p).lastRevocation = some .absent := by
  have still : waitAbsent p (dropHanded (.absence .transmitInterlock p) s) = dropHanded (.absence .transmitInterlock p) s := by
    refine if_neg fun waiting => ?_
    rw [State.onAir, show (s.txOf p).state = .waiting from waiting] at on
    cases on
  have next : (s.txOf p).state.withdrawn = if (s.txOf p).state = .granted then .revoked else .idle := by
    rw [State.onAir] at on
    cases state : (s.txOf p).state with
    | granted => rfl
    | hang => rfl
    | _ => rw [state] at on; cases on
  have gone : takeAbsence .transmitInterlock p (dropHanded (.absence .transmitInterlock p) s) =
      departed p (s.txOf p).state.withdrawn (fun x => { x with lastRevocation := some .absent })
        (dropHanded (.absence .transmitInterlock p) s) := by
    show revokeAndRun p .absent (waitAbsent p _) = _
    rw [still, revokeAndRun, if_pos (show (dropHanded (.absence .transmitInterlock p) s).onAir p = true from on),
      revoke_of_onAir (show (dropHanded (.absence .transmitInterlock p) s).onAir p = true from on)]
    rfl
  obtain ⟨left, record, moved⟩ := leftAir_departed (s := dropHanded (.absence .transmitInterlock p) s)
    (g := fun x => { x with lastRevocation := some .absent })
    (allocationKeyed_of_same keyed rfl rfl) coherent on (TxState.off_withdrawn _) fun _ => rfl
  rw [← gone] at left record moved
  rw [closeStep_of_before (b := s) (c := dropHanded (.absence .transmitInterlock p) s) rfl rfl] at closes
  rw [closes] at left record moved
  rw [next] at left
  refine ⟨((moved_dropHanded _ s).mono (by decide)).trans (moved.mono (by decide)), moved.handed (by decide), leftAir_dropHanded left, ?_⟩
  exact (congrArg TxRecord.lastRevocation record)

/-- Settles O50: at the allocator the work of the absence is spelled out, and what comes after it moves no BREAKING record back and no
standing without a re-claim line. -/
theorem absenceAndReturnTaken : Obligations.AbsenceAndReturnTaken := by
  refine ⟨fun s p powered => ⟨fun next => ?_, fun next keyed => ?_, fun next => ⟨fun off => ?_, fun coherent keyed on => ?_⟩⟩,
    fun s p powered => ⟨fun next => ?_, fun next => ?_⟩⟩
  · exact ⟨_, exec_absence powered next, bandDecoderAbsence s p rfl⟩
  · obtain ⟨t, closes⟩ : ∃ t, closeStep s (allocAbsent p s) = t := ⟨_, rfl⟩
    obtain ⟨rest, -⟩ := moved_allocAbsent closes
    obtain ⟨out, record, breaking, standing⟩ := lineAllocatorAbsence keyed closes
    refine ⟨t, (exec_absence powered next).trans (congrArg _ closes), ((moved_dropHanded _ s).mono (by decide)).trans (rest.mono (by decide)),
      rest.handed (by decide), out, breaking, fun x mem pos pending => ?_, fun k => ?_, fun x mem pos stands => ?_,
      fun coherent ⟨x, mem, pos, main, stands⟩ => airAbsence keyed coherent closes mem pos main stands⟩
    · have rel := record x.line
      rw [← pos, recordAt_of_mem keyed.records mem, Option.bind_some, leaving_none (.inl pending)] at rel
      rw [← pos]
      cases held : t.recordAt x.pos x.line with
      | none => rfl
      | some h => rw [held] at rel; cases rel
    · obtain ⟨follow, due, reclaim, -⟩ := standing_absentWork p (dropHanded (.absence .lineAllocator p) s) k
      rw [standing]
      exact ⟨follow, due, reclaim⟩
    · rw [standing]
      exact (standing_absentWork p (dropHanded (.absence .lineAllocator p) s) x.kind).2.2.2 x mem pos stands rfl
  · exact (exec_absence powered next).trans (congrArg _ (interlockAbsence_off off))
  · exact ⟨_, exec_absence powered next, interlockAbsence_on coherent keyed on rfl⟩
  · have moved := moved_allocReturn p (dropHanded (.positionReturn .lineAllocator p) s)
    have one := returned_returnOne p .main (dropHanded (.positionReturn .lineAllocator p) s)
    have two := returned_returnOne p .aux (returnOne p (dropHanded (.positionReturn .lineAllocator p) s) .main)
    exact ⟨_, exec_positionReturn powered next, ((moved_dropHanded _ s).mono (by decide)).trans (moved.mono (by decide)), moved.handed (by decide),
      two.records.trans one.records, two.lists.trans one.lists, standing_allocReturn p _, fun present room => told_allocReturn present room⟩
  · exact exec_positionReturn powered next

end Sys2Proof.Machine
end

section
/-! What ends start-up (R152), and a part on which nobody is on the air or waiting, as RESTART and safe-state entry leave it (R111, R119). -/

namespace Sys2Proof.Machine

/-! ## The end of start-up -/

theorem ready_act {c : Option Instr} (ends : endsStartUp c = false) {s t : State} (act : Act c s t) (starting : s.store.ready = .starting) :
    t.store.ready = .starting := by
  have same (store : t.store = s.store) : t.store.ready = .starting := store ▸ starting
  cases act with
  | quiet quiet => exact same (quiet.moved.store (by decide))
  | leave p _ => exact same ((moved_leaveSlot p .idle s).store (by decide))
  | keyDown p _ _ => exact same ((moved_keyDown p s).store (by decide))
  | keyUp p _ => exact same ((moved_keyUp p s).store (by decide))
  | report p r quiet =>
    have kept := quiet.moved.store (by decide)
    split
    · exact (congrArg Store.ready kept).trans starting
    · exact (congrArg Store.ready (((moved_withdrawGrant ..).store (by decide)).trans kept)).trans starting
  | restart v quiet _ => exact same (quiet.moved.store (by decide))
  | store x _ _ _ ready =>
    obtain ends' | same | started := ready
    · cases ends.symm.trans ends'
    · exact same.trans starting
    · exact absurd starting started
  | save p _ => exact starting
  | saveEnd r _ =>
    cases r with
    | ok => exact starting
    | failed => exact starting
  | enter _ quiet _ => exact same (((moved_stopForEntry _).store (by decide)).trans (quiet.moved.store (by decide)))
  | _ => exact same rfl

/-- No command but the five of R152, and power, ends start-up. -/
theorem ready_acts {c : Option Instr} (ends : endsStartUp c = false) {s t : State} (acts : Acts c s t) (starting : s.store.ready = .starting) :
    t.store.ready = .starting := by
  induction acts with
  | refl => exact starting
  | tail _ act ih => exact ready_act ends act ih

/-- The ready state is as it was, or READY, and the level at RESTART_N is the same. -/
def Readies (s t : State) : Prop := (t.store.ready = s.store.ready ∨ t.store.ready = .ready) ∧ t.store.restartRaw = s.store.restartRaw

section

variable {s t u : State}

theorem Readies.refl (s : State) : Readies s s := ⟨.inl rfl, rfl⟩

theorem Readies.trans (one : Readies s t) (two : Readies t u) : Readies s u := by
  obtain ⟨ready, raw⟩ := one
  obtain ⟨same | is, raw'⟩ := two
  · exact ⟨by rw [same]; exact ready, raw'.trans raw⟩
  · exact ⟨.inr is, raw'.trans raw⟩

theorem readies_of_moved {ps : List Part} (moved : Moved ps s t) (out : Part.store ∉ ps) : Readies s t := by
  rw [Readies, moved.store out]
  exact ⟨.inl rfl, rfl⟩

theorem Readies.started (readies : Readies s t) (started : s.store.ready ≠ .starting) : t.store.ready ≠ .starting := by
  obtain ⟨same | is, -⟩ := readies
  · rw [same]
    exact started
  · simp [is]

theorem readies_endStartUp (s : State) : Readies s (endStartUp s) := by
  unfold endStartUp Readies
  by_cases starting : s.store.ready = .starting
  · simp [State.mapStore, starting]
  · simp [State.mapStore, starting]

theorem started_endStartUp (s : State) : (endStartUp s).store.ready ≠ .starting := by
  unfold endStartUp
  by_cases starting : s.store.ready = .starting
  · simp [State.mapStore, starting]
  · simpa [State.mapStore, starting] using starting

theorem readies_restartChainEvent (s : State) : Readies s (restartChainEvent s) := by
  unfold restartChainEvent Readies
  by_cases restarting : s.store.ready = .restarting
  · simp [State.mapStore, restarting]
  · simp [State.mapStore, restarting]

theorem readies_chainEntry (s : State) : Readies s (chainEntry s) := by
  have marked : Readies s (s.mapChain fun c => { c with verifyTimer := none, attempt := none, heldForEntry := false }) := .refl s
  unfold chainEntry
  dsimp only
  split
  · split
    · exact marked
    · exact (marked.trans ((readies_of_moved (moved_endOperation none _) (by decide)).trans
        (readies_of_moved (moved_endWithoutLatch _) (by decide)))).trans (readies_endStartUp _)
  · exact marked

theorem readies_enterSafe (s : State) : Readies s (enterSafe s) := by
  exact (((readies_of_moved (moved_mapLog s fun l => { l with safe := true }) (by decide)).trans
    (readies_of_moved (moved_notifyAll _ _) (by decide))).trans ((readies_of_moved (moved_interlockEntry _) (by decide)).trans
    (readies_chainEntry _))).trans (readies_of_moved (moved_allocEntry _) (by decide))

theorem readies_takeOccurrence (o : Occurrence) (s : State) : Readies s (takeOccurrence o s) := by
  have recorded : Readies s (recordOccurrence o s) := readies_of_moved (moved_recordOccurrence o s) (by decide)
  have spoiled (s : State) : Readies s (spoilExit s) := readies_of_moved (moved_spoilExit s) (by decide)
  unfold takeOccurrence
  split
  · exact .refl s
  · split
    · unfold takeFatal
      split
      · exact recorded.trans (spoiled _)
      · exact (recorded.trans (spoiled _)).trans (readies_enterSafe _)
    · exact recorded

theorem readies_leaveSafe (s : State) : Readies s (leaveSafe s) :=
  (((readies_of_moved (moved_mapLog s _) (by decide)).trans (readies_of_moved (moved_notifyAll _ _) (by decide))).trans
    (readies_of_moved (moved_allocExit _) (by decide))).trans (readies_of_moved (moved_arbiter _) (by decide))

theorem readies_takeExitResult (passed : Bool) (s : State) : Readies s (takeExitResult passed s) := by
  have logged (f : FaultLog → FaultLog) (s : State) : Readies s (s.mapLog f) := readies_of_moved (moved_mapLog s f) (by decide)
  have ended := logged (fun l => { l with exitPending := false }) s
  unfold takeExitResult
  dsimp only
  split
  · split
    · exact ended.trans (logged _ _)
    · exact ended.trans (readies_leaveSafe _)
  · exact ended

theorem readies_drainResults : ∀ (n : Nat) (s : State), Readies s (drainResults n s)
  | 0, s => .refl s
  | n + 1, s => by
    unfold drainResults
    split
    · next rest _ => exact (readies_takeExitResult _ { s with inbox := rest }).trans (readies_drainResults n _)
    · exact .refl s

theorem readies_drainExit (s : State) : Readies s (drainExit s) := readies_drainResults _ s

theorem readies_endExit (passed : Bool) (s : State) : Readies s (endExit passed s) :=
  (readies_of_moved (moved_raiseExit passed (s.mapChain fun c => { c with exitRequest := false })) (by decide)).trans (readies_drainExit _)

theorem readies_afterChange (why : Option Purpose) (s : State) : Readies s (afterChange why s) := by
  unfold afterChange
  split
  · exact ((readies_restartChainEvent s).trans (readies_of_moved (moved_closeAttempt _) (by decide))).trans
      (readies_of_moved (moved_filterMoveAll _) (by decide))
  · have closed : Readies s (closeAttempt s) := readies_of_moved (moved_closeAttempt s) (by decide)
    unfold afterStartUp
    split
    · exact closed.trans (readies_endStartUp _)
    · exact closed.trans (readies_of_moved (moved_startVerify _ _) (by decide))
  · exact readies_of_moved (moved_closeAttempt s) (by decide)

theorem readies_afterResync (why : Option Purpose) (s : State) : Readies s (afterResync why s) := by
  unfold afterResync
  split
  · unfold afterRetry
    split
    · exact .refl s
    · exact (readies_of_moved (moved_closeAttempt s) (by decide)).trans (readies_endStartUp _)
  · exact readies_endExit _ _
  · exact readies_of_moved (moved_closeAttempt s) (by decide)

theorem readies_escalate (s : State) : Readies s (escalate s) := by
  refine Readies.trans ?_ (readies_endStartUp _)
  split
  · exact readies_of_moved (moved_closeAttempt s) (by decide)
  · exact .refl s

theorem readies_afterMismatch (o : Operation) (second : Bool) (s : State) : Readies s (afterMismatch o second s) := by
  unfold afterMismatch
  split
  · exact readies_endExit _ _
  split
  · exact readies_escalate s
  · have opened : Readies s (s.mapChain fun c => { c with attempt := some { kind := o.kind, repeatDue := false } }) := .refl s
    unfold firstMismatch
    dsimp only
    split
    · exact opened.trans (readies_escalate _)
    split
    · exact opened.trans (readies_of_moved (moved_closeAttempt _) (by decide))
    · exact opened.trans (readies_of_moved (moved_startResync _ _) (by decide))

theorem readies_endWithoutLatch (content : Option Image) (s : State) : Readies s (endWithoutLatch (endOperation content s)) :=
  (readies_of_moved (moved_endOperation content s) (by decide)).trans (readies_of_moved (moved_endWithoutLatch _) (by decide))

theorem readies_takeMismatch (o : Operation) (bit : Nat) (s : State) : Readies s (takeMismatch o bit s) :=
  (((readies_of_moved (moved_endOperation none s) (by decide)).trans (readies_of_moved (moved_raise _ _) (by decide))).trans
    (readies_of_moved (moved_endWithoutLatch _) (by decide))).trans (readies_afterMismatch _ _ _)

end

/-! ## Silence -/

/-- Nobody is on the air, and nobody waits, or those who wait do so in safe state and for its end. -/
structure State.Silent (s : State) : Prop where
  off : ∀ q, s.onAir q = false
  waiting : s.waiting = [] ∨ s.safe = true ∧ ∀ q ∈ s.waiting, (s.txOf q).reason = some .safe

section

variable {s t : State} {w : Work}

theorem State.Silent.of_same (silent : s.Silent) (tx : t.tx = s.tx) (waiting : t.waiting = s.waiting) (log : t.log = s.log) : t.Silent where
  off q := by
    rw [State.onAir, State.txOf, tx]
    exact silent.off q
  waiting := by
    simp only [State.safe, State.txOf, tx, waiting, log]
    exact silent.waiting

theorem State.Silent.of_moved {ps : List Part} (silent : s.Silent) (moved : Moved ps s t)
    (out : Part.tx ∉ ps ∧ Part.waiting ∉ ps ∧ Part.log ∉ ps) : t.Silent :=
  silent.of_same (moved.tx out.1) (moved.waiting out.2.1) (moved.log out.2.2)

theorem mapTx_reason_of_same {p : Position} {r : Option WaiterReason} (same : (s.txOf p).reason = r) :
    (s.mapTx p fun x => { x with reason := r }) = s := by
  subst same
  show { s with tx := put s.tx p (s.tx.get p) } = s
  rw [put_get]

theorem arbiterPass_of_safe (safe : s.safe = true) : ∀ ps : List Position, (∀ q ∈ ps, (s.txOf q).reason = some .safe) →
    arbiterPass ps s = (s, false)
  | [], _ => rfl
  | p :: ps, held => by
    rw [arbiterPass, judge_of_safe safe]
    dsimp only
    rw [mapTx_reason_of_same (held p List.mem_cons_self)]
    exact arbiterPass_of_safe safe ps fun q mem => held q (List.mem_cons_of_mem _ mem)

/-- In silence an arbiter run grants nobody. -/
theorem arbiter_of_silent (silent : s.Silent) : arbiter s = s := by
  show arbiterPasses (6 + 1) s = s
  rw [arbiterPasses]
  obtain empty | ⟨safe, held⟩ := silent.waiting
  · simp only [empty, arbiterPass]
  · simp only [arbiterPass_of_safe safe _ held]

/-- In silence the interlock has nothing to do at an event of the allocator. -/
theorem takeTxiEvent_of_silent (silent : s.Silent) (e : TxiEvent) : takeTxiEvent e s = s := by
  cases e with
  | connected p => exact arbiter_of_silent silent
  | switchingEnded p => exact arbiter_of_silent silent
  | revoke p => exact if_neg (by simp [silent.off p])
  | mainRelease p =>
    have off := silent.off p
    rw [State.onAir] at off
    show takeMainRelease p s = s
    unfold takeMainRelease
    split
    · next state => rw [state] at off; cases off
    · next state => rw [state] at off; cases off
    · rfl

theorem takeTxiEvents_of_silent (silent : s.Silent) : ∀ es, takeTxiEvents es s = s
  | [] => rfl
  | e :: es => by
    rw [takeTxiEvents, List.foldl_cons, takeTxiEvent_of_silent silent e]
    exact takeTxiEvents_of_silent silent es

theorem handOn_of_silent (silent : w.s.Silent) : handOn w = notifyEach w.losses (notifyEach w.grants w.s) := by
  rw [handOn, takeTxiEvents_of_silent (silent.of_moved (moved_notifyEach w.grants w.s) (by decide))]

/-- The parts that the allocator changes in silence. -/
abbrev silentParts : List Part := [.alloc, .chain, .links, .inbox]

theorem moved_handOn_of_silent (silent : w.s.Silent) : Moved [.links, .inbox] w.s (handOn w) := by
  rw [handOn_of_silent silent]
  exact (moved_notifyEach _ _).trans (moved_notifyEach _ _)

theorem moved_event {f : Work → Work} (worked : ∀ w, Worked w (f w)) (s : State) :
    Moved [.alloc, .chain] s (closeWork s (reclaims (admitFreed (f (Work.start s))))).s :=
  ((((worked (Work.start s)).trans (worked_admitFreed _)).trans (worked_reclaims _)).moved.mono (by decide)).trans (moved_closeWork s _)

theorem moved_allocEvent_of_silent {f : Work → Work} (worked : ∀ w, Worked w (f w)) (silent : s.Silent) : Moved silentParts s (allocEvent f s) := by
  have moved := moved_event worked s
  exact (moved.mono (by decide)).trans ((moved_handOn_of_silent (silent.of_moved moved (by decide))).mono (by decide))

/-! ## Silence with every position ABSENT -/

/-- Nobody is on the air or waiting, or PRESENT. -/
structure State.Deserted (s : State) : Prop where
  silent : s.Silent
  absent : ∀ q, s.present q = false

theorem State.Deserted.of_moved {ps : List Part} (deserted : s.Deserted) (moved : Moved ps s t)
    (out : Part.tx ∉ ps ∧ Part.waiting ∉ ps ∧ Part.log ∉ ps) : t.Deserted := ⟨deserted.silent.of_moved moved out, fun q => (moved.links q).present.trans (deserted.absent q)⟩

theorem notifyEach_of_absent (absent : ∀ q, s.present q = false) : ∀ ns, notifyEach ns s = s
  | [] => rfl
  | n :: ns => by
    rw [notifyEach, List.foldl_cons, notify, if_neg (by simp [absent n.1])]
    exact notifyEach_of_absent absent ns

theorem handOn_of_deserted (deserted : w.s.Deserted) : handOn w = w.s := by
  rw [handOn_of_silent deserted.silent, notifyEach_of_absent deserted.absent, notifyEach_of_absent deserted.absent]

theorem allocEvent_of_deserted {f : Work → Work} (worked : ∀ w, Worked w (f w)) (deserted : s.Deserted) :
    Moved [.alloc, .chain] s (allocEvent f s) := by
  have moved := moved_event worked s
  rw [allocEvent, handOn_of_deserted (deserted.of_moved moved (by decide))]
  exact moved

theorem pathQuietEvent_of_deserted (p : Position) (deserted : s.Deserted) : Moved [.alloc, .chain] s (pathQuietEvent p s) :=
  (allocEvent_of_deserted (fun w => (worked_requestBreaks p w).trans (worked_applyReroutes _ _)) deserted).trans
    ((moved_filterMove p _).mono (by decide))

theorem quietEvents_of_deserted (b : State) : ∀ (n : Nat) (d : List Position) {s : State}, s.Deserted → Moved [.alloc, .chain] s (quietEvents b n d s)
  | 0, _, s, _ => .refl _ _
  | n + 1, d, s, deserted => by
    unfold quietEvents
    split
    · next p _ =>
      have one := pathQuietEvent_of_deserted p deserted
      exact one.trans (quietEvents_of_deserted b n _ (deserted.of_moved one (by decide)))
    · exact .refl _ _

end

end Sys2Proof.Machine
end

section
/-! RESTART at the blocks, and all that follows it within its step (R76, R119, R153, R188, R196). -/

namespace Sys2Proof.Machine

/-! ## Revocations of all positions (R107, R111, R119) -/

/-- What a revocation makes of a transmit record (R107). -/
def TxRecord.revokedBy (x : TxRecord) (cause : RevocationCause) (q : Policy) : TxRecord :=
  if x.state.onAir then { x with lastRevocation := some cause }.leave x.state.withdrawn q else x

section

variable {s t : State} {cause : RevocationCause}

theorem txOf_withdrawGrant_self (p : Position) (cause : RevocationCause) (s : State) :
    (withdrawGrant p cause s).txOf p = (s.txOf p).revokedBy cause s.policy := by
  rw [State.txOf, tx_withdrawGrant, TxRecord.revokedBy]
  cases state : (s.txOf p).state with
  | granted => exact (get_put_self ..).trans rfl
  | hang => exact (get_put_self ..).trans rfl
  | _ => rfl

theorem TxRecord.revokedBy_revokedBy (x : TxRecord) (q : Policy) : (x.revokedBy cause q).revokedBy cause q = x.revokedBy cause q := by
  have off : (x.revokedBy cause q).state.onAir = false := by
    unfold TxRecord.revokedBy
    split
    · exact TxState.off_withdrawn _
    · next off => simpa using off
  rw [TxRecord.revokedBy, off]
  rfl

theorem txOf_withdrawGrants (q : Position) : ∀ (ps : List Position) (s : State),
    (ps.foldl (fun s p => withdrawGrant p cause s) s).txOf q = if q ∈ ps then (s.txOf q).revokedBy cause s.policy else s.txOf q
  | [], s => by simp
  | p :: ps, s => by
    have policy : (withdrawGrant p cause s).policy = s.policy := congrArg Table.policy ((moved_withdrawGrant p cause s).table (by decide))
    rw [List.foldl_cons, txOf_withdrawGrants q ps, policy]
    by_cases same : q = p
    · subst same
      rw [txOf_withdrawGrant_self, TxRecord.revokedBy_revokedBy, ite_self, if_pos List.mem_cons_self]
    · simp [txOf_withdrawGrant_of_ne same, same]

theorem txOf_revokeAll (cause : RevocationCause) (s : State) (q : Position) :
    (revokeAll cause s).txOf q = (s.txOf q).revokedBy cause s.policy := by
  rw [revokeAll, State.txOf, (moved_leaveEvents s _).tx (by decide), ← State.txOf, txOf_withdrawGrants, if_pos (mem_allPositions q)]

end

/-! ## Frames that a queue has been given -/

/-- A port as it was, or with frames queued behind those it had. -/
def Link.Queues (x y : Link) : Prop :=
  (y.queue = x.queue ∧ y.sending = x.sending) ∨ (x.queue.length < y.queue.length ∧ y.sending = true)

theorem Link.Queues.trans {x y z : Link} (one : x.Queues y) (two : y.Queues z) : x.Queues z := by
  obtain ⟨queue, sending⟩ | ⟨longer, sending⟩ := one
  · rw [Link.Queues, ← queue, ← sending]
    exact two
  · obtain ⟨queue', sending'⟩ | ⟨longer', sending'⟩ := two
    · exact .inr ⟨by rw [queue']; exact longer, sending'.trans sending⟩
    · exact .inr ⟨longer.trans longer', sending'⟩

section

variable {s t : State}

theorem queues_sendFrame (p : Position) (f : Frame) (s : State) (q : Position) : (s.link q).Queues ((sendFrame p f s).link q) := by
  rw [sendFrame, link_mapLink]
  split
  · next same =>
    subst same
    exact .inr ⟨by simp, rfl⟩
  · exact .inl ⟨rfl, rfl⟩

theorem queues_of_quieted (quieted : Quieted s t) (q : Position) : (s.link q).Queues (t.link q) := by
  induction quieted with
  | refl => exact .inl ⟨rfl, rfl⟩
  | tail _ quiet ih =>
    refine ih.trans ?_
    cases quiet with
    | send p f room => exact queues_sendFrame p f _ q
    | noticeLost p b =>
      rw [link_mapLink]
      split
      · next same => exact .inl (same ▸ ⟨rfl, rfl⟩)
      · exact .inl ⟨rfl, rfl⟩
    | withdraw p cause =>
      exact .inl ⟨congrArg (fun v : Vector Link 6 => (v.get q).queue) ((moved_withdrawGrant p cause _).same .links (by decide)),
        congrArg (fun v : Vector Link 6 => (v.get q).sending) ((moved_withdrawGrant p cause _).same .links (by decide))⟩
    | _ => exact .inl ⟨rfl, rfl⟩

/-- A notice to a PRESENT position stands in its queue where fewer than 6 frames stand there in the end. -/
theorem told_notifyEach {p : Position} {n : Notice} {ns : List (Position × Notice)} (present : s.present p = true) (mem : (p, n) ∈ ns)
    (short : ((notifyEach ns s).link p).queue.length < 6) : n.frame ∈ ((notifyEach ns s).link p).queue := by
  induction ns generalizing s with
  | nil => cases mem
  | cons m ns ih =>
    have eq : notifyEach (m :: ns) s = notifyEach ns (notify m.1 m.2 s) := rfl
    rw [eq] at short ⊢
    have rest := ((moved_notifyEach ns (notify m.1 m.2 s)).links p).queue
    obtain rfl | mem := List.mem_cons.1 mem
    · have own := ((moved_notify p n s).links p).queue
      have room : (s.link p).queue.length < 6 := (own.length_le.trans rest.length_le).trans_lt short
      have here : n.frame ∈ ((notify p n s).link p).queue := by
        rw [notify_of_room present room, sendFrame, link_mapLink, if_pos rfl]
        exact List.mem_append_right _ (List.mem_singleton.2 rfl)
      exact rest.subset here
    · exact ih (((moved_notify m.1 m.2 s).links p).present.trans present) mem short

end

/-! ## Records that leave their lines one after another -/

/-- Records leave their lines one after another, each with what `g` adds. -/
abbrev Work.breakEach (g : Holder → Work → Work) (xs : List Holder) (w : Work) : Work :=
  xs.foldl (fun w r => g r (goBreaking r.pos r.line w)) w

/-- What `g` adds is no change of a record, of the driver or of a transmit record. -/
def Besides (g : Holder → Work → Work) : Prop := ∀ r v, (g r v).s.alloc.records = v.s.alloc.records ∧ (g r v).s.chain = v.s.chain ∧ (g r v).s.tx = v.s.tx

theorem recordAt_breakEach {g : Holder → Work → Work} (besides : Besides g) : ∀ (xs : List Holder) (w : Work) (q : Position) (j : Line),
    (w.breakEach g xs).s.recordAt q j =
      if ∃ x ∈ xs, x.pos = q ∧ x.line = j then (w.s.recordAt q j).bind (Holder.leaving w.s) else w.s.recordAt q j
  | [], w, q, j => by simp
  | x :: xs, w, q, j => by
    have worked := (worked_goBreaking x.pos x.line w).moved
    obtain ⟨records, chain, tx⟩ := besides x (goBreaking x.pos x.line w)
    have same : Holder.leaving (g x (goBreaking x.pos x.line w)).s = Holder.leaving w.s :=
      leaving_congr (chain.trans (worked.chain (by decide))) (tx.trans (worked.tx (by decide)))
    have first : (g x (goBreaking x.pos x.line w)).s.recordAt q j =
        if x.pos = q ∧ x.line = j then (w.s.recordAt q j).bind (Holder.leaving w.s) else w.s.recordAt q j := by
      rw [recordAt_of_alloc records, goBreaking_s]
      split
      · next here =>
        obtain ⟨rfl, rfl⟩ := here
        exact recordAt_left _ _ _
      · next other => exact recordAt_left_of_ne fun here => other ⟨here.1.symm, here.2.symm⟩
    rw [Work.breakEach, List.foldl_cons, ← Work.breakEach, recordAt_breakEach besides xs, same, first]
    by_cases here : x.pos = q ∧ x.line = j
    · simp only [here, List.mem_cons, exists_eq_or_imp, true_or, if_true, Option.bind_assoc, leaving_leaving, ite_self, and_self]
    · simp only [here, List.mem_cons, exists_eq_or_imp, false_or, if_false]

end Sys2Proof.Machine
end

section
/-! The blocks after RESTART, and the end of its step (R76, R119, R153, R188, R196). -/

namespace Sys2Proof.Machine

section

variable {a b s t : State}

/-! ## The interlock (R119) -/

/-- The frequency records and advisory flags cleared, the interlock restarted. -/
abbrev hushed (a : State) : State := { interlockRestart { a with freq := mapFin (fun _ _ => clearFreq) a.freq } with advisory := [] }

theorem moved_hushed (a : State) : Moved [.freq, .tx, .waiting, .advisory, .links, .inbox] a (hushed a) := by
  have freqs : Moved [.freq] a { a with freq := mapFin (fun _ _ => clearFreq) a.freq } := .of_eq (fun x out => by
    cases x with
    | freq => simp at out
    | _ => rfl) rfl rfl
  have revoked := moved_revokeAll .restart { a with freq := mapFin (fun _ _ => clearFreq) a.freq }
  have flags (s : State) : Moved [.advisory] s { s with advisory := [] } := .of_eq (fun x out => by
    cases x with
    | advisory => simp at out
    | _ => rfl) rfl rfl
  exact (((freqs.mono (by decide)).trans (revoked.mono (by decide))).trans ((moved_clearWaiting _).mono (by decide))).trans
    ((flags _).mono (by decide))

/-- What RESTART makes of a transmit record (R119). -/
def TxRecord.restarted (x : TxRecord) (q : Policy) : TxRecord :=
  let y := x.revokedBy .restart q
  { y with state := if y.state = .waiting then .revoked else y.state, reason := none, skipHang := false, hangTimer := none }

theorem txOf_hushed (a : State) (q : Position) : (hushed a).txOf q = (a.txOf q).restarted a.policy := by
  show (mapFin _ _).get q = _
  rw [get_mapFin]
  have revoked := txOf_revokeAll .restart { a with freq := mapFin (fun _ _ => clearFreq) a.freq } q
  rw [State.txOf] at revoked
  simp only [revoked]
  rfl

theorem TxRecord.off_restarted (x : TxRecord) (q : Policy) : (x.restarted q).state.onAir = false := by
  rw [TxRecord.restarted, TxRecord.revokedBy]
  cases state : x.state <;> simp [TxState.onAir, TxRecord.leave, TxState.withdrawn, state]

theorem silent_hushed (a : State) : (hushed a).Silent where
  off q := by rw [State.onAir, txOf_hushed, TxRecord.off_restarted]
  waiting := .inl rfl

theorem queues_hushed (a : State) (q : Position) : (a.link q).Queues ((hushed a).link q) :=
  queues_of_quieted (quieted_revokeAll .restart { a with freq := mapFin (fun _ _ => clearFreq) a.freq }) q

/-! ## The allocator (R76, R92) -/

/-- The work of RESTART at the allocator. -/
abbrev restartWork (s : State) : Work := (clearClaims (Work.start s)).breakEach loseToRestart
  ((clearClaims (Work.start s)).s.alloc.records.filter fun r => r.state ≠ .breaking)

theorem besides_loseToRestart : Besides loseToRestart := fun r v => by
  rw [s_loseToRestart]
  exact ⟨rfl, rfl, rfl⟩

/-- The allocator holds nothing but records on their way out. -/
structure State.Emptied (s : State) : Prop where
  lists : ∀ l, s.listOf l = []
  standings : ∀ q k, s.standing q k = clearStanding
  records : ∀ r ∈ s.alloc.records, r.state = .breaking ∧ r.reroute = none

theorem listOf_breakEach {g : Holder → Work → Work} (adds : ∀ r v l, (g r v).s.listOf l = v.s.listOf l) (l : Line) :
    ∀ (xs : List Holder) (w : Work), w.s.listOf l = [] → (w.breakEach g xs).s.listOf l = []
  | [], _, empty => empty
  | x :: xs, w, empty => by
    rw [Work.breakEach, List.foldl_cons, ← Work.breakEach]
    refine listOf_breakEach adds l xs _ ?_
    have still := still_releases x.pos [x] w l
    rw [empty] at still
    rw [adds]
    exact List.map_eq_nil_iff.1 still

theorem standing_breakEach {g : Holder → Work → Work} (adds : ∀ r v q k, (g r v).s.standing q k = v.s.standing q k) (q : Position) (k : PortKind) :
    ∀ (xs : List Holder) (w : Work), (w.breakEach g xs).s.standing q k = w.s.standing q k
  | [], w => rfl
  | x :: xs, w => by
    rw [Work.breakEach, List.foldl_cons, ← Work.breakEach, standing_breakEach adds q k xs, adds, goBreaking_s, standing_left]

theorem moves_restartWork (keyed : s.AllocationKeyed) : Moves (fun _ _ => True) False s (restartWork s).s :=
  deals_restart (A := fun _ _ => True) (fun _ _ => trivial) (Work.start s) ⟨keyed, cover_true _⟩

theorem emptied_restartWork (keyed : s.AllocationKeyed) : (restartWork s).s.Emptied := by
  have keyed' := allocationKeyed_moves (moves_restartWork keyed) keyed
  have cleared {x : Holder} (mem : x ∈ (clearClaims (Work.start s)).s.alloc.records) : x.reroute = none := by
    obtain ⟨y, -, rfl⟩ := List.mem_map.1 mem
    rfl
  refine ⟨fun l => listOf_breakEach (fun r v l => by rw [s_loseToRestart]) l _ _ ?_, fun q k => ?_, fun r mem => ?_⟩
  · show (mapFin _ _).get l = []
    rw [get_mapFin]
  · rw [standing_breakEach (fun r v q k => by rw [s_loseToRestart])]
    cases k with
    | main => exact congrArg Standings.main (get_mapFin ..)
    | aux => exact congrArg Standings.aux (get_mapFin ..)
  · have held := recordAt_of_mem keyed'.records mem
    rw [recordAt_breakEach besides_loseToRestart] at held
    split at held
    · obtain ⟨x, was, left⟩ := Option.bind_eq_some_iff.1 held
      have bare := cleared (mem_of_recordAt was).1
      exact ⟨(leaving_breaking left).1, (leaving_spec (fun stored => absurd bare stored) left).2.1⟩
    · next none =>
      obtain ⟨mem, pos, line⟩ := mem_of_recordAt held
      refine ⟨by_contra fun stands => none ⟨r, List.mem_filter.2 ⟨mem, by simpa using stands⟩, pos, line⟩, cleared mem⟩

theorem Holder.Later.bare {x y : Holder} (later : x.Later y) (breaking : x.state = .breaking) : y.reroute = x.reroute := by
  induction later with
  | refl => rfl
  | tail before goes ih =>
    have state := (Holder.Later.breaking before).2 breaking
    cases goes with
    | make pending => cases state.symm.trans pending
    | ask _ => exact ih
    | reroute connected => cases state.symm.trans connected

/-- A fact about the allocator that neither frequency records nor the presence of positions bear on. -/
def Blind (I : State → Prop) : Prop := ∀ s t : State, t.table = s.table → t.alloc = s.alloc → t.safe = s.safe → I s → I t

/-- Whatever the events that follow RESTART do leaves its records on their way out, and nothing else. -/
theorem emptied_of_kept (emptied : s.Emptied) (keyed : s.AllocationKeyed) 
    (kept : ∀ I, EventsKeep I → Blind I → I s → I t) : t.Emptied := by
  have calm : s.Calm fun _ _ _ => True := ⟨keyed, fun j e mem _ => List.not_mem_nil (emptied.lists j ▸ mem),
    fun _ _ _ => .inr fun _ _ => trivial, fun _ q j l _ named => by rw [emptied.standings] at named; cases named⟩
  have goes := kept _ (eventsKeep_calm (fun _ _ _ => True) s) (fun _ _ => goesCalm_of_same) calm.refl
  refine ⟨fun l => List.eq_nil_iff_forall_not_mem.2 fun e mem => goes.calm.out l e mem trivial, fun q k => ?_, fun r mem => ?_⟩
  · exact (kept _ (eventsKeep_rests q k clearStanding) (fun _ _ table alloc _ => rests_of_same table alloc) ⟨keyed, emptied.standings q k, rfl⟩).standing
  · have rel := goes.records r.pos r.line trivial
    rw [recordAt_of_mem goes.calm.keyed.records mem] at rel
    cases was : s.recordAt r.pos r.line with
    | none => rw [was] at rel; cases rel
    | some x =>
      rw [was] at rel
      cases rel with
      | some later =>
        obtain ⟨breaking, bare⟩ := emptied.records x (mem_of_recordAt was).1
        exact ⟨later.breaking.2 breaking, (later.bare breaking).trans bare⟩

end

end Sys2Proof.Machine
end

section
/-! What RESTART leaves of the state before it, by the end of its step (R196). -/

namespace Sys2Proof.Machine

section

variable {a b s t : State}

/-! ## The ports (R188, R198) -/

theorem restart_kept (q : Position) (z : Link) : (z.restart q).slots = [] ∧ (z.restart q).receiver = .hunting ∧ (z.restart q).silenceTimer = none ∧
    (z.restart q).present = false ∧ (z.restart q).queue = z.queue ∧ (z.restart q).divisorWait = z.divisorWait := ⟨rfl, rfl, rfl, rfl, rfl, rfl⟩

/-- The divisor of a port after RESTART, by whether the receiver's return to HUNTING brings the first moment of R198. -/
theorem rate_restart (q : Position) (z : Link) :
    if z.waitingDivisor.isSome = true ∧ z.divisorWait = 0 ∧ z.sending = false ∧ Config.startBit q z.looks = false then
      z.waitingDivisor = some (z.restart q).divisor ∧ (z.restart q).waitingDivisor = none
    else (z.restart q).divisor = z.divisor ∧ (z.restart q).waitingDivisor = z.waitingDivisor := by
  let y : Link := { z with slots := [], receiver := .hunting, silenceTimer := none, present := false }
  have ready : (y.look (Config.startBit q)).divisorReady = true ↔
      z.waitingDivisor.isSome = true ∧ z.divisorWait = 0 ∧ z.sending = false ∧ Config.startBit q z.looks = false := by
    have same : (y.look (Config.startBit q)).divisorDue = y.divisorDue := rfl
    have due := divisorDue_iff y
    rw [Link.divisorReady, same, Link.look]
    by_cases is : y.divisorDue = true
    · obtain ⟨waits, gone, -, idle⟩ := due.1 is
      simp only [is, if_true, Bool.true_and, Bool.not_eq_true']
      exact ⟨fun bit => ⟨Option.isSome_iff_ne_none.2 waits, gone, idle, bit⟩, fun all => all.2.2.2⟩
    · simp only [is, Bool.false_eq_true, Bool.false_and, false_iff]
      exact fun all => is (due.2 ⟨Option.isSome_iff_ne_none.1 all.1, all.2.1, rfl, all.2.2.1⟩)
  show if _ then _ = some (y.revise q).divisor ∧ (y.revise q).waitingDivisor = none else (y.revise q).divisor = _ ∧ (y.revise q).waitingDivisor = _
  rw [Link.revise, Link.settleRate]
  split
  · next all =>
    simp only [ready.2 all, if_true, and_true]
    obtain ⟨d, waits⟩ := Option.isSome_iff_exists.1 all.1
    show z.waitingDivisor = some (z.waitingDivisor.getD z.divisor)
    rw [waits]
    rfl
  · next all =>
    simp only [show ¬(y.look (Config.startBit q)).divisorReady = true from fun is => all (ready.1 is), if_false]
    exact ⟨rfl, rfl⟩

/-! ## All blocks but the ports -/

/-- The blocks after RESTART, but for the ports. -/
abbrev beforePorts (a : State) : State := chainRestart (allocRestart (hushed a))

/-- The ports take RESTART, after the other blocks (R188). -/
def restartPorts (s : State) : State := { s with links := mapFin (fun p x => x.restart p) s.links }

theorem restartBlocks_eq (a : State) : restartBlocks a = restartPorts (beforePorts a) := rfl

theorem link_restartPorts (s : State) (q : Position) : (restartPorts s).link q = (s.link q).restart q := get_mapFin ..

theorem deserted_restartPorts (silent : s.Silent) : (restartPorts s).Deserted where
  silent := silent.of_same rfl rfl rfl
  absent q := by
    rw [State.present, link_restartPorts]
    rfl

/-- Position `p`'s port has no slot to free after RESTART. -/
theorem freeSlot_restartPorts (p : Position) (s : State) : freeSlot p (restartPorts s) = restartPorts s := by
  have link := link_restartPorts s p
  generalize restartPorts s = t at link ⊢
  have same : ({ t.link p with
      slots := (t.link p).slots.drop 1
      silenceTimer := if (t.link p).hold && (t.link p).present then some t.policy.linkMs else (t.link p).silenceTimer } : Link) = t.link p := by
    rw [link]
    rfl
  rw [freeSlot, State.mapLink, same, State.link, put_get]

theorem worked_restart (w : Work) : Worked w ((clearClaims w).breakEach loseToRestart ((clearClaims w).s.alloc.records.filter fun r => r.state ≠ .breaking)) :=
  (worked_clearClaims w).trans (Worked.foldl _ (fun v r => (worked_goBreaking _ _ _).trans (worked_loseToRestart r _)) _ _)

theorem moved_chainRestart (s : State) : Moved [.chain] s (chainRestart s) :=
  (moved_mapChain s _).trans (moved_filterMoveAll _)

theorem moved_allocRestart_of_hushed (a : State) : Moved silentParts (hushed a) (allocRestart (hushed a)) :=
  moved_allocEvent_of_silent worked_restart (silent_hushed a)

theorem moved_silent (a : State) : Moved silentParts (hushed a) (beforePorts a) :=
  (moved_allocRestart_of_hushed a).trans ((moved_chainRestart _).mono (by decide))

theorem moved_beforePorts (a : State) : Moved (.freq :: allocParts) a (beforePorts a) :=
  ((moved_hushed a).mono (by decide)).trans ((moved_silent a).mono (by decide))

theorem steered_filterMoveAll (s : State) : Steered s.chain (filterMoveAll s).chain := by
  have each (ps : List Position) : ∀ s : State, Steered s.chain (ps.foldl (fun t p => filterMove p t) s).chain := by
    induction ps with
    | nil => exact fun s => .refl _
    | cons p ps ih => exact fun s => (steered_filterMove p s).trans (ih _)
  exact each allPositions s

/-- The driver after RESTART (R153). -/
structure Rechained (a t : State) : Prop where
  targets : ∀ q, (t.filterOf q).target = none
  hold : t.chain.restartHold = (a.chain.restartHold || !a.safe)
  latched : t.chain.latched = a.chain.latched
  content : t.chain.content = a.chain.content

theorem rechained_chainRestart (s : State) : Rechained s (chainRestart s) := by
  unfold chainRestart
  have last := steered_filterMoveAll (s.mapChain fun c =>
    { c with filters := mapFin (fun _ f => { f with target := none }) c.filters, restartHold := c.restartHold || !s.safe })
  refine ⟨fun q => (last.filters q).1.trans ?_, last.restartHold, last.latched, last.content⟩
  exact congrArg FilterRecord.target (get_mapFin ..)

theorem rechained_beforePorts (a : State) : Rechained a (beforePorts a) := by
  have steered : Steered (hushed a).chain (allocRestart (hushed a)).chain := steered_allocEvent worked_restart (hushed a)
  have moved := moved_allocRestart_of_hushed a
  show Rechained a (chainRestart (allocRestart (hushed a)))
  generalize allocRestart (hushed a) = s at steered moved ⊢
  have first : Steered a.chain s.chain := (Steered.of_eq ((moved_hushed a).chain (by decide))).trans steered
  have safe : s.safe = a.safe := by rw [State.safe, moved.log (by decide), (moved_hushed a).log (by decide), State.safe]
  have last := rechained_chainRestart s
  exact ⟨last.targets, by rw [last.hold, first.restartHold, safe], last.latched.trans first.latched, last.content.trans first.content⟩

theorem Rechained.steered (chained : Rechained a s) (steered : Steered s.chain t.chain) : Rechained a t where
  targets q := (steered.filters q).1.trans (chained.targets q)
  hold := steered.restartHold.trans chained.hold
  latched := steered.latched.trans chained.latched
  content := steered.content.trans chained.content

theorem Rechained.started (chained : Rechained a s) : Rechained a (startRule s) := by
  have kept := startKept_startRule s
  refine ⟨fun q => ?_, kept.restartHold.trans chained.hold, kept.latched.trans chained.latched, kept.content.trans chained.content⟩
  rw [State.filterOf, kept.filters]
  exact chained.targets q

/-! ## The notices (R76) -/

theorem notes_loseToRestart (r : Holder) (w : Work) : (loseToRestart r w).notes =
    if w.s.present r.pos = true then w.notes ++ [(r.pos, .lost r.kind r.line .restart)] else w.notes := by
  unfold loseToRestart
  split
  · rfl
  · rfl

theorem notes_breakEach {n : Position × Notice} (xs : List Holder) : ∀ w : Work, n ∈ w.notes → n ∈ (w.breakEach loseToRestart xs).notes := by
  induction xs with
  | nil => exact fun _ mem => mem
  | cons x xs ih =>
    refine fun w mem => ih _ ?_
    rw [notes_loseToRestart, (goBreaking_hands ..).1]
    split
    · exact List.mem_append_left _ mem
    · exact mem

theorem noted_breakEach {x : Holder} {xs : List Holder} (mem : x ∈ xs) : ∀ w : Work, w.s.present x.pos = true →
    (x.pos, Notice.lost x.kind x.line .restart) ∈ (w.breakEach loseToRestart xs).notes := by
  induction xs with
  | nil => cases mem
  | cons y xs ih =>
    intro w present
    have present' : (goBreaking y.pos y.line w).s.present x.pos = true :=
      ((worked_goBreaking y.pos y.line w).moved.links x.pos).present.trans present
    obtain rfl | mem := List.mem_cons.1 mem
    · refine notes_breakEach xs (loseToRestart x (goBreaking x.pos x.line w)) ?_
      rw [notes_loseToRestart, if_pos present']
      exact List.mem_append_right _ (List.mem_singleton.2 rfl)
    · exact ih mem (loseToRestart y (goBreaking y.pos y.line w)) (by rw [s_loseToRestart]; exact present')

/-- Each PRESENT position is told of the records that RESTART takes from it, as far as its queue takes notices. -/
theorem told_beforePorts (keyed : a.AllocationKeyed) {x : Holder} (mem : x ∈ a.alloc.records) (stands : x.state ≠ .breaking)
    (present : a.present x.pos = true) (short : ((beforePorts a).link x.pos).queue.length < 6) :
    ({ kind := 0x42, payload := [byte x.kind.code, byte x.line.val, 3] } : Frame) ∈ ((beforePorts a).link x.pos).queue := by
  have alloc : (hushed a).alloc = a.alloc := (moved_hushed a).alloc (by decide)
  have keyed' : (hushed a).AllocationKeyed := allocationKeyed_of_same keyed ((moved_hushed a).table (by decide)) alloc
  have emptied := emptied_restartWork keyed'
  have yields := yields_admitFreed (w := restartWork (hushed a)) (K := fun _ => True)
    (kinded_of_keyed (allocationKeyed_moves (moves_restartWork keyed') keyed')) fun _ _ => trivial
  have held : (admitFreed (restartWork (hushed a))).s.ReclaimsHeld := fun q k l named => by
    rw [State.standing, yields.standings, ← State.standing, emptied.standings] at named
    cases named
  have notes : (closeWork (hushed a) (reclaims (admitFreed (restartWork (hushed a))))).notes = (restartWork (hushed a)).notes := by
    obtain ⟨-, -, closed, -⟩ := closeWork_eq (hushed a) (reclaims (admitFreed (restartWork (hushed a))))
    rw [closed, reclaims_of_held held, (yields_admitFreed (K := fun _ => True) yields.kinded fun _ _ => trivial).notes, yields.notes]
  have cleared : { x with reroute := none } ∈ (clearClaims (Work.start (hushed a))).s.alloc.records :=
    List.mem_map.2 ⟨x, alloc ▸ mem, rfl⟩
  have present' : (hushed a).present x.pos = true := ((moved_hushed a).links x.pos).present.trans present
  have noted : (x.pos, Notice.lost x.kind x.line .restart) ∈ (restartWork (hushed a)).notes :=
    noted_breakEach (List.mem_filter.2 ⟨cleared, by simpa using stands⟩) (clearClaims (Work.start (hushed a))) present'
  rw [← notes] at noted
  have event := moved_event worked_restart (hushed a)
  have told := handOn_of_silent ((silent_hushed a).of_moved event (by decide))
  have links : (beforePorts a).links = (allocRestart (hushed a)).links := (moved_chainRestart _).same .links (by decide)
  rw [State.link, links, ← State.link] at short ⊢
  change _ ∈ ((handOn _).link x.pos).queue
  change ((handOn _).link x.pos).queue.length < 6 at short
  rw [told] at short ⊢
  refine told_notifyEach (n := .lost x.kind x.line .restart) ?_ (List.mem_filter.2 ⟨noted, rfl⟩) short
  exact ((moved_notifyEach _ _).links x.pos).present.trans ((event.links x.pos).present.trans present')

/-! ## The end of the step -/

theorem silent_beforePorts (a : State) : (beforePorts a).Silent :=
  (silent_hushed a).of_moved (moved_silent a) (by decide)

theorem deserted_restartBlocks (a : State) : (restartBlocks a).Deserted := by
  rw [restartBlocks_eq]
  exact deserted_restartPorts (silent_beforePorts a)

/-- The state by the end of the step of a RESTART, the blocks having taken it. -/
abbrev restartSettled (b a : State) : State := startRule (deliverQuiet b (restartBlocks a))

theorem moved_restartSettled (b a : State) : Moved [.alloc, .chain, .inbox] (restartBlocks a) (restartSettled b a) :=
  ((quietEvents_of_deserted b _ _ (deserted_restartBlocks a)).mono (by decide)).trans ((moved_startRule _).mono (by decide))

theorem Rechained.ports (chained : Rechained a s) : Rechained a (restartPorts s) :=
  ⟨chained.targets, chained.hold, chained.latched, chained.content⟩

theorem rechained_restartSettled (b a : State) : Rechained a (restartSettled b a) := by
  have ports := (rechained_beforePorts a).ports
  rw [← restartBlocks_eq] at ports
  exact (ports.steered (steered_deliverQuiet b (restartBlocks a))).started

theorem EventsKeep.allocRestart {I : State → Prop} (keep : EventsKeep I) (at' : I (restartWork s).s) : I (allocRestart s) :=
  keep.allocEvent (f := fun w =>
    (clearClaims w).breakEach loseToRestart ((clearClaims w).s.alloc.records.filter fun r => r.state ≠ .breaking)) at'

theorem Blind.ports {I : State → Prop} (blind : Blind I) (at' : I s) : I (restartPorts s) := blind s _ rfl rfl rfl at'

theorem kept_restartSettled {I : State → Prop} (keep : EventsKeep I) (blind : Blind I) (b : State) (at' : I (restartWork (hushed a)).s) : I (restartSettled b a) := by
  have blocks : I (beforePorts a) := keep.moved (moved_chainRestart _) (by decide) (keep.allocRestart at')
  have ports : I (restartPorts (beforePorts a)) := blind.ports blocks
  rw [← restartBlocks_eq] at ports
  exact keep.moved (moved_startRule _) (by decide) (keep.quietEvents b _ _ ports)

theorem emptied_restartSettled (keyed : a.AllocationKeyed) (b : State) : (restartSettled b a).Emptied := by
  have keyed' : (hushed a).AllocationKeyed := allocationKeyed_of_same keyed ((moved_hushed a).table (by decide)) ((moved_hushed a).alloc (by decide))
  exact emptied_of_kept (emptied_restartWork keyed') (allocationKeyed_moves (moves_restartWork keyed') keyed') fun I keep blind at' =>
    kept_restartSettled keep blind b at'

end

end Sys2Proof.Machine
end

section
/-! RESTART, as a request, from the pin, and by a pin asserted as start-up ends (R152, R196). -/

namespace Sys2Proof.Machine

section

variable {a b s t : State}

/-- The state in which the blocks take RESTART: the ready state set, a request answered. -/
structure Precedes (s a : State) : Prop where
  moved : Moved [.store, .links] s a
  queues : ∀ q, (s.link q).Queues (a.link q)
  ready : a.store.ready = if s.safe then s.store.ready else .restarting
  nv : a.store.nv = s.store.nv ∧ a.store.saving = s.store.saving ∧ a.store.snapshot = s.store.snapshot ∧ a.store.requester = s.store.requester
  lock : a.store.lock = s.store.lock ∧ a.store.lockRaw = s.store.lockRaw ∧ a.store.lockTimer = s.store.lockTimer

/-- What RESTART keeps of a transmit record, and what it makes of its state. -/
theorem restarted_kept (x : TxRecord) (q : Policy) :
    (x.restarted q).state = (match x.state with | .granted => .revoked | .waiting => .revoked | .hang => .idle | y => y) ∧
      ((x.restarted q).ptt = x.ptt ∧ (x.restarted q).rf = x.rf ∧ (x.restarted q).pttRaw = x.pttRaw ∧ (x.restarted q).rfRaw = x.rfRaw ∧
        (x.restarted q).pttTimer = x.pttTimer ∧ (x.restarted q).rfTimer = x.rfTimer) ∧
      (x.state.onAir = true → (x.restarted q).lastRevocation = some .restart) := by
  rw [TxRecord.restarted, TxRecord.revokedBy]
  cases state : x.state with
  | granted => exact ⟨rfl, ⟨rfl, rfl, rfl, rfl, rfl, rfl⟩, fun _ => rfl⟩
  | hang => exact ⟨rfl, ⟨rfl, rfl, rfl, rfl, rfl, rfl⟩, fun _ => rfl⟩
  | waiting => exact ⟨by simp [state, TxState.onAir], ⟨rfl, rfl, rfl, rfl, rfl, rfl⟩, fun on => by cases on⟩
  | _ => exact ⟨by simp [state, TxState.onAir], ⟨rfl, rfl, rfl, rfl, rfl, rfl⟩, fun on => by cases on⟩

theorem same_trans {u : State} {x : Part} (one : s.same t x) (two : t.same u x) : s.same u x := by
  cases x with
  | _ => exact Eq.trans two one

theorem same_restartPorts (s : State) {x : Part} (out : x ≠ .links) : s.same (restartPorts s) x := by
  cases x with
  | links => exact absurd rfl out
  | _ => rfl

/-- What the allocator, the driver and the ports leave as the interlock has left it. -/
theorem same_restartSettled (b a : State) {x : Part} (out : x ∉ silentParts) : (hushed a).same (restartSettled b a) x := by
  have one := (moved_silent a).same x out
  have two := same_restartPorts (beforePorts a) (x := x) fun is => by simp [is] at out
  rw [← restartBlocks_eq] at two
  have three := (moved_restartSettled b a).same x fun mem => out ((by decide : [Part.alloc, .chain, .inbox] ⊆ silentParts) mem)
  exact same_trans (same_trans one two) three

theorem tx_restartSettled (b a : State) (q : Position) : (restartSettled b a).txOf q = (a.txOf q).restarted a.policy := by
  have same : (restartSettled b a).tx = (hushed a).tx := same_restartSettled b a (x := .tx) (by decide)
  rw [State.txOf, same]
  exact txOf_hushed a q

theorem freq_hushed (a : State) : (hushed a).freq = mapFin (fun _ _ => clearFreq) a.freq :=
  (moved_revokeAll .restart { a with freq := mapFin (fun _ _ => clearFreq) a.freq }).freq (by decide)

theorem link_restartSettled (b a : State) (q : Position) : (restartSettled b a).link q = ((beforePorts a).link q).restart q := by
  have same : (restartSettled b a).links = (restartBlocks a).links := (moved_restartSettled b a).same .links (by decide)
  rw [State.link, same, restartBlocks_eq]
  exact link_restartPorts _ q

theorem queues_handOn_of_silent {w : Work} (silent : w.s.Silent) (q : Position) : (w.s.link q).Queues ((handOn w).link q) := by
  rw [handOn_of_silent silent]
  exact queues_of_quieted ((quieted_notifyEach w.grants w.s).trans (quieted_notifyEach w.losses _)) q

theorem queues_beforePorts (a : State) (q : Position) : (a.link q).Queues ((beforePorts a).link q) := by
  have event := moved_event worked_restart (hushed a)
  have last := queues_handOn_of_silent ((silent_hushed a).of_moved event (by decide)) q
  have chain : (beforePorts a).links = (allocRestart (hushed a)).links := (moved_chainRestart _).same .links (by decide)
  rw [State.link, show _ = (hushed a).links from event.same .links (by decide)] at last
  rw [State.link, State.link, chain]
  exact (queues_hushed a q).trans last

theorem ports_restart {x z : Link} (kept : LinkKept x z) (q : Position) : (z.restart q).slots = [] ∧ (z.restart q).receiver = .hunting ∧
    (z.restart q).silenceTimer = none ∧ (z.restart q).present = false ∧ x.queue <+: (z.restart q).queue := ⟨rfl, rfl, rfl, rfl, kept.queue⟩

/-- The divisor of a port after RESTART, by what the port was before it (R198). -/
theorem rates_restart {x z : Link} (kept : LinkKept x z) (queues : x.Queues z) (q : Position) : (z.restart q).divisorWait = x.divisorWait ∧
    if x.waitingDivisor.isSome = true ∧ x.divisorWait = 0 ∧ x.sending = false ∧ (z.restart q).queue = x.queue ∧
        Config.startBit q x.looks = false then
      x.waitingDivisor = some (z.restart q).divisor ∧ (z.restart q).waitingDivisor = none
    else (z.restart q).divisor = x.divisor ∧ (z.restart q).waitingDivisor = x.waitingDivisor := by
  have rate := rate_restart q z
  have idle : z.sending = false ↔ x.sending = false ∧ (z.restart q).queue = x.queue := by
    show z.sending = false ↔ x.sending = false ∧ z.queue = x.queue
    obtain ⟨queue, sending⟩ | ⟨longer, sending⟩ := queues
    · simp [queue, sending]
    · rw [sending]
      simp only [Bool.true_eq_false, false_iff, not_and]
      exact fun _ same => absurd (congrArg List.length same) longer.ne'
  simp only [kept.waitingDivisor, kept.divisorWait, kept.looks, kept.divisor, idle, and_assoc] at rate
  exact ⟨kept.divisorWait, rate⟩

theorem restarted (keyed : s.AllocationKeyed) (precedes : Precedes s a) (b : State) : Restarted s (restartSettled b a) := by
  have keyed' : a.AllocationKeyed := allocationKeyed_of_same keyed (precedes.moved.table (by decide)) (precedes.moved.alloc (by decide))
  have tx (q : Position) : (restartSettled b a).txOf q = (s.txOf q).restarted s.policy := by
    rw [tx_restartSettled, State.txOf, precedes.moved.tx (by decide), State.policy, precedes.moved.table (by decide)]
    rfl
  have same {x : Part} (out : x ∉ Part.freq :: .store :: allocParts) : s.same (restartSettled b a) x :=
    same_trans (same_trans (precedes.moved.same x fun mem => out ((by decide : [Part.store, .links] ⊆ Part.freq :: .store :: allocParts) mem))
      ((moved_hushed a).same x fun mem => out ((by decide :
        [Part.freq, .tx, .waiting, .advisory, .links, .inbox] ⊆ Part.freq :: .store :: allocParts) mem)))
      (same_restartSettled b a fun mem => out ((by decide : silentParts ⊆ Part.freq :: .store :: allocParts) mem))
  have store : (restartSettled b a).store = a.store :=
    (same_restartSettled b a (x := .store) (by decide)).trans ((moved_hushed a).store (by decide))
  have emptied := emptied_restartSettled keyed' b
  have chained := rechained_restartSettled b a
  have chain := precedes.moved.chain (by decide)
  have safe : a.safe = s.safe := congrArg FaultLog.safe (precedes.moved.log (by decide))
  have queues (q : Position) : (s.link q).Queues ((beforePorts a).link q) := (precedes.queues q).trans (queues_beforePorts a q)
  have kept (q : Position) : LinkKept (s.link q) ((beforePorts a).link q) := (precedes.moved.links q).trans ((moved_beforePorts a).links q)
  refine
    { powered := same (x := .powered) (by decide)
      table := same (x := .table) (by decide)
      log := same (x := .log) (by decide)
      ready := by rw [store]; exact precedes.ready
      nv := by rw [store]; exact precedes.nv
      lock := by rw [store]; exact precedes.lock
      freq := fun q => ?_
      lists := emptied.lists
      standings := emptied.standings
      records := emptied.records
      waiting := same_restartSettled b a (x := .waiting) (by decide)
      advisory := same_restartSettled b a (x := .advisory) (by decide)
      states := fun q => by rw [tx]; exact (restarted_kept _ _).1
      levels := fun q => by rw [tx]; exact (restarted_kept _ _).2.1
      revoked := fun q on => by rw [tx]; exact (restarted_kept _ _).2.2 on
      held := fun q => by rw [tx]; exact ⟨rfl, rfl, rfl⟩
      targets := chained.targets
      hold := by rw [chained.hold, chain, safe]
      latched := chained.latched.trans (congrArg Chain.latched chain)
      content := chained.content.trans (congrArg Chain.content chain)
      ports := fun q => by rw [link_restartSettled]; exact ports_restart (kept q) q
      rates := fun q => by rw [link_restartSettled]; exact rates_restart (kept q) (queues q) q
      lost := fun x mem stands present short => ?_ }
  · have freq : (restartSettled b a).freq = (hushed a).freq := same_restartSettled b a (x := .freq) (by decide)
    rw [State.freqOf, freq, freq_hushed, get_mapFin]
  · have queue := (restart_kept x.pos ((beforePorts a).link x.pos)).2.2.2.2.1
    have alloc := precedes.moved.alloc (by decide)
    rw [link_restartSettled, queue] at short ⊢
    exact told_beforePorts keyed' (by rw [alloc]; exact mem) stands ((precedes.moved.links x.pos).present.trans present) short

/-! ## The three ways to a RESTART -/

theorem store_restartSettled (b a : State) : (restartSettled b a).store = a.store :=
  (same_restartSettled b a (x := .store) (by decide)).trans ((moved_hushed a).store (by decide))

theorem safe_restartSettled (b a : State) : (restartSettled b a).safe = a.safe := by
  have log : (restartSettled b a).log = (hushed a).log := same_restartSettled b a (x := .log) (by decide)
  rw [State.safe, log, (moved_hushed a).log (by decide), State.safe]

theorem Restarted.after (restarted : Restarted s t) : AfterRestart t where
  freq := restarted.freq
  lists := restarted.lists
  standings := restarted.standings
  records := restarted.records
  waiting := restarted.waiting
  states q := by
    rw [restarted.states]
    cases (s.txOf q).state with
    | idle => exact .inl rfl
    | hang => exact .inl rfl
    | _ => exact .inr rfl
  held := restarted.held
  advisory := restarted.advisory
  targets := restarted.targets
  ports q := by
    obtain ⟨slots, receiver, silence, absent, -⟩ := restarted.ports q
    exact ⟨slots, receiver, silence, absent⟩

/-- The state in which the blocks take a RESTART without a request. -/
theorem precedes_pin (s : State) (f : Store → Store) (kept : ∀ x, (f x).ready = x.ready ∧ (f x).nv = x.nv ∧ (f x).saving = x.saving ∧
    (f x).snapshot = x.snapshot ∧ (f x).requester = x.requester ∧ (f x).lock = x.lock ∧ (f x).lockRaw = x.lockRaw ∧ (f x).lockTimer = x.lockTimer) :
    Precedes s (readyRestart (s.mapStore f)) := by
  obtain ⟨ready, nv, saving, snapshot, requester, lock, lockRaw, lockTimer⟩ := kept s.store
  refine ⟨((moved_mapStore s f).trans (moved_mapStore _ _)).mono (by decide), fun q => .inl ⟨rfl, rfl⟩, ?_, ⟨nv, saving, snapshot, requester⟩,
    lock, lockRaw, lockTimer⟩
  show (if s.safe then (f s.store).ready else .restarting) = _
  rw [ready]

theorem Precedes.answered (precedes : Precedes s a) (p : Position) (f : Frame) (c : Code) : Precedes s (answer p f c a) where
  moved := precedes.moved.trans ((moved_reply p f.kind c [] a).mono (by decide))
  queues q := (precedes.queues q).trans (queues_sendFrame p _ a q)
  ready := precedes.ready
  nv := precedes.nv
  lock := precedes.lock

theorem watchPin_of_started (started : b.store.ready ≠ .starting) (s : State) : watchPin b s = s := if_neg (by simp [started])

theorem exec_restart_of_offers {p : Position} {f : Frame} (offered : Offers s p f 1) (kind : f.kind = 0x0E) :
    exec (.restartRequest p) s = .next (closeStep s (freeSlot p (serveRestart p f s))) :=
  wholeStep_takeRequest_of_offers (need := fun _ => 1) offered (by simp [isKind, kind, kindRestart]) _

/-- The blocks take RESTART, and the step ends. -/
theorem closeStep_restart (started : b.store.ready ≠ .starting) (a : State) : closeStep b (restartBlocks a) = restartSettled b a := by
  rw [closeStep, watchPin_of_started started]

/-- A step in which start-up ends with RESTART_N asserted is the end of a RESTART. -/
theorem closeStep_of_asserted (starting : b.store.ready = .starting) (started : s.store.ready ≠ .starting) (raw : s.store.restartRaw = true) :
    closeStep b s = restartSettled b (readyRestart (s.mapStore fun x => { x with restart := x.restartRaw, restartTimer := none })) := by
  have watched : watchPin b s = restart id (s.mapStore fun x => { x with restart := x.restartRaw, restartTimer := none }) := by
    unfold watchPin
    rw [if_pos (by simp [starting, started])]
    exact if_pos raw
  rw [closeStep, watched]
  rfl

theorem started_closeStep (b : State) (started : s.store.ready ≠ .starting) : (closeStep b s).store.ready ≠ .starting := by
  have last : (closeStep b s).store = (watchPin b s).store := by
    rw [closeStep, (moved_startRule _).store (by decide), (moved_deliverQuiet b _).store (by decide)]
  by_cases asserted : b.store.ready = .starting ∧ s.store.restartRaw = true
  · rw [closeStep_of_asserted asserted.1 started asserted.2, store_restartSettled]
    show (if s.safe then s.store.ready else .restarting) ≠ _
    split
    · exact started
    · nofun
  · rw [last]
    obtain same | watched := watchPin_of_released (b := b) (s := s) fun starting => by simpa [starting] using asserted
    · rw [same]
      exact started
    · rw [watched]
      exact started

end

/-! ## The end of start-up -/

/-- What a command that may end start-up has done when its step is closed. -/
structure Body (c : Instr) (s u : State) : Prop where
  runs : exec c s = .next (closeStep s u)
  acts : Acts (some c) s u
  readies : Readies s u

theorem exec_changeCompletion {s : State} (powered : s.powered = true) : exec .changeCompletion s = .next (closeStep s
    (if s.inPhase .change .settling && s.chain.settleTimer.isSome then afterChange s.purpose (arbiter (allocCompletion (latchChange s)))
      else s)) := by
  show execChangeCompletion s = _
  unfold execChangeCompletion
  rw [wholeStep_of_powered _ powered]

theorem exec_verifyEnd {s : State} (powered : s.powered = true) : exec .verifyEnd s = .next (closeStep s
    (if s.inPhase .verify .shifting then
      if s.purpose = some .startUp then endStartUp (closeAttempt (endWithoutLatch (endOperation (some s.chain.latched) s)))
      else closeAttempt (endWithoutLatch (endOperation (some s.chain.latched) s))
    else s)) := by
  show execVerifyEnd s = _
  unfold execVerifyEnd
  rw [wholeStep_of_powered _ powered]

theorem exec_resyncPass {s : State} (powered : s.powered = true) : exec .resyncPass s = .next (closeStep s
    (if s.inPhase .resync .checking then afterResync s.purpose (endWithoutLatch (endOperation (some s.chain.latched) s)) else s)) := by
  show execResyncPass s = _
  unfold execResyncPass
  rw [wholeStep_of_powered _ powered]

theorem exec_mismatch {s : State} (powered : s.powered = true) {o : Operation} (op : s.chain.op = some o) (bit : Nat) :
    exec (.mismatch bit) s = .next (closeStep s
      (if o.compares && s.chain.content.isSome && bit < 8 * o.length then takeMismatch o bit s else s)) := by
  show execMismatch bit s = _
  unfold execMismatch
  rw [wholeStep_of_powered _ powered, op]

theorem exec_mismatch_of_none {s : State} (powered : s.powered = true) (op : s.chain.op = none) (bit : Nat) :
    exec (.mismatch bit) s = .next (closeStep s s) := by
  show execMismatch bit s = _
  unfold execMismatch
  rw [wholeStep_of_powered _ powered, op]

theorem exec_occurrence {s : State} (powered : s.powered = true) {o : Occurrence} {rest : List LogEvent} (inbox : s.inbox = .occurred o :: rest) :
    exec .occurrence s = .next (closeStep s (drainExit (takeOccurrence o { s with inbox := rest }))) := by
  show execOccurrence s = _
  unfold execOccurrence
  rw [wholeStep_of_powered _ powered, inbox]

theorem exec_occurrence_of_none {s : State} (powered : s.powered = true) (inbox : ∀ o rest, s.inbox ≠ .occurred o :: rest) :
    exec .occurrence s = .next (closeStep s s) := by
  show execOccurrence s = _
  unfold execOccurrence
  rw [wholeStep_of_powered _ powered]
  split
  · next o rest is => exact absurd is (inbox o rest)
  · rfl

theorem Body.idle {c : Instr} {s : State} (runs : exec c s = .next (closeStep s s)) : Body c s s := ⟨runs, .refl, .refl s⟩

theorem body_changeCompletion {s : State} (powered : s.powered = true) : ∃ u, Body .changeCompletion s u := by
  refine ⟨_, exec_changeCompletion powered, ?_, ?_⟩
  · split
    · next ends => exact acts_completion (Bool.and_eq_true_iff.1 ends).1 _
    · exact .refl
  · split
    · exact ((readies_of_moved (moved_latchChange s) (by decide)).trans (readies_of_moved ((moved_allocCompletion _).trans
        ((moved_arbiter _).mono (by decide))) (by decide))).trans (readies_afterChange _ _)
    · exact .refl s

theorem body_verifyEnd {s : State} (powered : s.powered = true) : ∃ u, Body .verifyEnd s u := by
  have ended : Acts (some .verifyEnd) s (closeAttempt (endWithoutLatch (endOperation (some s.chain.latched) s))) :=
    ((acts_endOperation _ s).trans (acts_endWithoutLatch _)).trans (acts_closeAttempt _)
  have kept : Readies s (closeAttempt (endWithoutLatch (endOperation (some s.chain.latched) s))) :=
    (readies_endWithoutLatch _ s).trans (readies_of_moved (moved_closeAttempt _) (by decide))
  refine ⟨_, exec_verifyEnd powered, ?_, ?_⟩
  · split
    · split
      · exact ended.trans (acts_endStartUp rfl _)
      · exact ended
    · exact .refl
  · split
    · split
      · exact kept.trans (readies_endStartUp _)
      · exact kept
    · exact .refl s

theorem body_resyncPass {s : State} (powered : s.powered = true) : ∃ u, Body .resyncPass s u := by
  refine ⟨_, exec_resyncPass powered, ?_, ?_⟩
  · split
    · exact ((acts_endOperation _ s).trans (acts_endWithoutLatch _)).trans (acts_afterResync _ _)
    · exact .refl
  · split
    · exact (readies_endWithoutLatch _ s).trans (readies_afterResync _ _)
    · exact .refl s

theorem body_mismatch {s : State} (powered : s.powered = true) (bit : Nat) : ∃ u, Body (.mismatch bit) s u := by
  cases op : s.chain.op with
  | none => exact ⟨s, .idle (exec_mismatch_of_none powered op bit)⟩
  | some o =>
    refine ⟨_, exec_mismatch powered op bit, ?_, ?_⟩
    · split
      · exact acts_takeMismatch bit o bit s
      · exact .refl
    · split
      · exact readies_takeMismatch o bit s
      · exact .refl s

theorem body_occurrence {s : State} (powered : s.powered = true) : ∃ u, Body .occurrence s u := by
  by_cases head : ∃ o rest, s.inbox = .occurred o :: rest
  · obtain ⟨o, rest, inbox⟩ := head
    refine ⟨_, exec_occurrence powered inbox, ?_, ?_⟩
    · exact ((Act.one (.take _ rfl rfl _)).trans (acts_takeOccurrence _ _)).trans (acts_drainResults rfl _ _)
    · exact Readies.trans (s := s) (t := takeOccurrence o { s with inbox := rest }) (readies_takeOccurrence o { s with inbox := rest })
        (readies_drainExit _)
  · exact ⟨s, .idle (exec_occurrence_of_none powered fun o rest is => head ⟨o, rest, is⟩)⟩

theorem body_of_endsStartUp {c : Instr} (ends : endsStartUp (some c) = true) {s : State} (powered : s.powered = true) : ∃ u, Body c s u := by
  cases c with
  | changeCompletion => exact body_changeCompletion powered
  | verifyEnd => exact body_verifyEnd powered
  | resyncPass => exact body_resyncPass powered
  | mismatch bit => exact body_mismatch powered bit
  | occurrence => exact body_occurrence powered
  | _ => cases ends

/-- A step that ends start-up is one of the five commands of R152, and READY is the ready state when it is closed. -/
theorem body_of_ended {c : Instr} {s t : State} (taken : exec c s = .next t) (starting : s.store.ready = .starting)
    (ended : t.store.ready ≠ .starting) : ∃ u, Body c s u ∧ t = closeStep s u ∧ u.store.ready = .ready := by
  have ends : endsStartUp (some c) = true := by
    by_contra out
    refine ended ?_
    by_cases on : c = .powerOn
    · subst on
      cases powered : s.powered with
      | true => exact exec_powerOn_of_powered powered taken ▸ starting
      | false => exact ready_acts (c := none) rfl (acts_powerOn powered taken) rfl
    · by_cases off : c = .powerLoss
      · subst off
        cases taken
        split
        · rfl
        · exact starting
      · exact ready_acts (Bool.eq_false_iff.2 out) (acts_exec on off taken) starting
  have powered : s.powered = true := by
    by_contra out
    have same := exec_of_unpowered (by simpa using out) c (by rintro rfl; cases ends) (by rintro _ _ rfl; cases ends)
      (by rintro _ _ rfl; cases ends) (by rintro _ rfl; cases ends) (by rintro _ rfl; cases ends)
    cases taken.symm.trans same
    exact ended starting
  obtain ⟨u, body⟩ := body_of_endsStartUp ends powered
  have closed : t = closeStep s u := by
    have both := taken.symm.trans body.runs
    cases both
    rfl
  refine ⟨u, body, closed, body.readies.1.resolve_left fun same => ?_⟩
  rw [closed, closeStep, watchPin_same s u same, (moved_startRule _).store (by decide), (moved_deliverQuiet s u).store (by decide), same] at ended
  exact ended starting

/-! ## The commands that end start-up (R152) -/

section

variable {s : State} {o : Operation}

theorem ends_of_body {c : Instr} {s u : State} (runs : exec c s = .next (closeStep s u)) (started : u.store.ready ≠ .starting) :
    ∃ t, exec c s = .next t ∧ t.store.ready ≠ .starting := ⟨_, runs, started_closeStep s started⟩

theorem purpose_of_op (op : s.chain.op = some o) : s.purpose = some o.purpose := by rw [State.purpose, op]; rfl

theorem started_changeCompletion (op : s.chain.op = some o) (kind : o.kind = .change) (phase : o.phase = .settling) (why : o.purpose = .startUp)
    (timer : s.chain.settleTimer.isSome = true) (safe : s.safe = true) (powered : s.powered = true) :
    ∃ t, exec .changeCompletion s = .next t ∧ t.store.ready ≠ .starting := by
  have completes : (s.inPhase .change .settling && s.chain.settleTimer.isSome) = true := by
    rw [(inPhase_iff s _ _).2 ⟨o, op, kind, phase⟩, timer]
    rfl
  have moved := ((moved_latchChange s).mono (by decide)).trans ((moved_allocCompletion (latchChange s)).trans ((moved_arbiter _).mono (by decide)))
  refine ends_of_body (exec_changeCompletion powered) ?_
  rw [if_pos completes, purpose_of_op op, why]
  generalize arbiter (allocCompletion (latchChange s)) = u at moved
  have safe' : (closeAttempt u).safe = true := (congrArg FaultLog.safe (moved.log (by decide))).trans safe
  show (afterStartUp (closeAttempt u)).store.ready ≠ _
  rw [afterStartUp, if_pos safe']
  exact started_endStartUp _

theorem started_verifyEnd (op : s.chain.op = some o) (kind : o.kind = .verify) (phase : o.phase = .shifting) (why : o.purpose = .startUp)
    (powered : s.powered = true) : ∃ t, exec .verifyEnd s = .next t ∧ t.store.ready ≠ .starting := by
  refine ends_of_body (exec_verifyEnd powered) ?_
  rw [if_pos ((inPhase_iff s _ _).2 ⟨o, op, kind, phase⟩), if_pos (by rw [purpose_of_op op, why])]
  exact started_endStartUp _

theorem attempt_endWithoutLatch (content : Option Image) (s : State) :
    (endWithoutLatch (endOperation content s)).chain.attempt = s.chain.attempt := by
  rw [(steered_endWithoutLatch _).attempt, endOperation, markLength]
  show (if _ then _ else _ : Chain).attempt = _
  split
  · rfl
  · rfl

theorem started_resyncPass (op : s.chain.op = some o) (kind : o.kind = .resync) (phase : o.phase = .checking) (why : o.purpose = .retry)
    (other : ∀ a, s.chain.attempt = some a → a.kind ≠ .change) (powered : s.powered = true) :
    ∃ t, exec .resyncPass s = .next t ∧ t.store.ready ≠ .starting := by
  refine ends_of_body (exec_resyncPass powered) ?_
  have attempt := attempt_endWithoutLatch (some s.chain.latched) s
  rw [if_pos ((inPhase_iff s _ _).2 ⟨o, op, kind, phase⟩), purpose_of_op op, why]
  generalize endWithoutLatch (endOperation (some s.chain.latched) s) = u at attempt ⊢
  show (afterRetry u).store.ready ≠ _
  have out : ¬u.chain.attempt.map (·.kind) = some .change := by
    rw [attempt, Option.map_eq_some_iff]
    rintro ⟨a, is, change⟩
    exact other a is change
  rw [afterRetry, if_neg out]
  exact started_endStartUp _

theorem started_mismatch {bit : Nat} (op : s.chain.op = some o) (kind : o.kind = .verify ∨ (o.kind = .resync ∧ o.phase = .checking))
    (content : s.chain.content.isSome = true) (small : bit < 8 * o.length) (why : o.purpose ≠ .exit)
    (fails : s.chain.attempt ≠ none ∨ (s.faultConfig .chainMismatch).severity = .fatal) (powered : s.powered = true) :
    ∃ t, exec (.mismatch bit) s = .next t ∧ t.store.ready ≠ .starting := by
  have compares : o.compares = true := by
    unfold Operation.compares
    obtain kind | ⟨kind, phase⟩ := kind
    · simp [kind]
    · simp [kind, phase]
  refine ends_of_body (exec_mismatch powered op bit) ?_
  rw [if_pos (by simp [compares, content, small]), takeMismatch]
  generalize second : (decide (o.purpose ≠ .exit) && s.chain.attempt.isSome) = b
  have table := ((((moved_endOperation none s).mono (by decide)).trans ((moved_raise (chainMismatch bit o.kind b) _).mono (by decide))).trans
    (moved_endWithoutLatch _)).table (by decide)
  generalize endWithoutLatch (raise (chainMismatch bit o.kind b) (endOperation none s)) = u at table ⊢
  rw [afterMismatch, if_neg why]
  split
  · exact started_endStartUp _
  · next first =>
    have none : s.chain.attempt = none := by
      rw [← second] at first
      simpa [why] using first
    have fatal : (u.faultConfig .chainMismatch).severity = .fatal := by
      rw [State.faultConfig, table]
      exact fails.resolve_left (absurd none)
    rw [firstMismatch, if_pos fatal]
    exact started_endStartUp _

theorem started_chainEntry (op : s.chain.op = some o) (phase : o.phase ≠ .settling) : (chainEntry s).store.ready ≠ .starting := by
  unfold chainEntry
  dsimp only
  split
  · next o' op' =>
    cases op.symm.trans op'
    rw [if_neg phase]
    exact started_endStartUp _
  · next none => cases op.symm.trans none

theorem started_enterSafe (op : s.chain.op = some o) (phase : o.phase ≠ .settling) : (enterSafe s).store.ready ≠ .starting := by
  have told := moved_notifyAll (.safe true) (s.mapLog fun l => { l with safe := true })
  have kept : (notifyAll (.safe true) (s.mapLog fun l => { l with safe := true })).chain = s.chain := told.chain (by decide)
  unfold enterSafe
  generalize notifyAll (.safe true) (s.mapLog fun l => { l with safe := true }) = u at kept
  have same : (interlockEntry u).chain.op = some o := by rw [(moved_interlockEntry u).chain (by decide), kept, op]
  exact (readies_of_moved (moved_allocEntry _) (by decide)).started (started_chainEntry same phase)

theorem started_occurrence {x : Occurrence} {rest : List LogEvent} (inbox : s.inbox = .occurred x :: rest)
    (fatal : effectiveSeverity x s = .fatal) (taken : dropped x s = false) (out : s.safe = false) (op : s.chain.op = some o)
    (phase : o.phase ≠ .settling) (powered : s.powered = true) : ∃ t, exec .occurrence s = .next t ∧ t.store.ready ≠ .starting := by
  refine ends_of_body (exec_occurrence powered inbox) ((readies_drainExit _).started ?_)
  have recorded := moved_recordOccurrence x { s with inbox := rest }
  have safe : (recordOccurrence x { s with inbox := rest }).safe = false := (log_recordOccurrence x { s with inbox := rest }).1.trans out
  rw [takeOccurrence, if_neg (by rw [show dropped x { s with inbox := rest } = false from taken]; simp),
    if_pos (show effectiveSeverity x { s with inbox := rest } = .fatal from fatal), takeFatal, if_neg (by rw [safe]; simp)]
  have spoiled := recorded.trans ((moved_spoilExit _).mono (by decide))
  exact started_enterSafe ((congrArg Chain.op (spoiled.chain (by decide))).trans op) phase

end

/-- Settles O57: the blocks leave what RESTART is to leave, and what ends the step moves none of it; a step that ends start-up with the
pin asserted is closed by a RESTART. -/
theorem restartTaken : Obligations.RestartTaken := by
  refine ⟨fun s p f offered kind => ?_, fun s powered started timer raw released keyed _ => ?_,
    fun c s t taken starting ended raw keyed _ => ?_, fun s o powered starting raw op _ => ?_⟩
  · have refused {c : Code} (served : serveRestart p f s = answer p f c s) :
        exec (.restartRequest p) s = .next (startRule (s.answered p [f.reply c []])) := by
      rw [exec_restart_of_offers offered kind, served, freeSlot_answer, closeStep_answered]
    refine ⟨fun payload => refused ?_, fun payload notReady => refused ?_, fun payload ready locked => refused ?_,
      fun payload ready locked keyed _ => ?_⟩
    · simp [serveRestart, payload]
    · simp [serveRestart, payload, notReady]
    · simp [serveRestart, payload, ready, locked]
    · have served : serveRestart p f s = restartBlocks (answer p f .ok (readyRestart s)) := by
        simp [serveRestart, payload, ready, locked, restart]
      have started : s.store.ready ≠ .starting := by
        simp only [State.isReady, decide_eq_true_eq] at ready
        simp [ready]
      have precedes : Precedes s (answer p f .ok (readyRestart s)) :=
        (precedes_pin s id fun _ => ⟨rfl, rfl, rfl, rfl, rfl, rfl, rfl, rfl⟩).answered p f .ok
      have store := store_restartSettled s (answer p f .ok (readyRestart s))
      refine ⟨restartSettled s (answer p f .ok (readyRestart s)), ?_, restarted keyed precedes s, ?_, ?_, ?_⟩
      · rw [exec_restart_of_offers offered kind, served, restartBlocks_eq, freeSlot_restartPorts, ← restartBlocks_eq, closeStep_restart started]
      · have queued : ((answer p f .ok (readyRestart s)).link p).queue = (s.link p).queue ++ [f.reply .ok []] := by
          rw [answer, reply, sendFrame, link_mapLink, if_pos rfl]
          rfl
        rw [← queued, link_restartSettled]
        exact (ports_restart ((moved_beforePorts (answer p f .ok (readyRestart s))).links p) p).2.2.2.2
      · rw [store]
        rfl
      · rw [store]
        rfl
  · have precedes := precedes_pin s (fun x => { x with restart := true, restartTimer := none }) fun _ => ⟨rfl, rfl, rfl, rfl, rfl, rfl, rfl, rfl⟩
    have store := store_restartSettled s (readyRestart (s.mapStore fun x => { x with restart := true, restartTimer := none }))
    refine ⟨restartSettled s (readyRestart (s.mapStore fun x => { x with restart := true, restartTimer := none })), ?_,
      restarted keyed precedes s, by rw [store]; rfl, by rw [store]; rfl⟩
    have watches : (s.watchesPin && s.store.restartTimer.isSome && s.store.restartRaw && !s.store.restart) = true := by
      simp [(watchesPin_iff s).2 ⟨powered, started⟩, timer, raw, released]
    show execRestartPin s = _
    unfold execRestartPin
    rw [wholeStep_of_powered _ powered, if_pos watches, restart, id, closeStep_restart started]
  · obtain ⟨u, body, closed, ready⟩ := body_of_ended taken starting ended
    have raw' : u.store.restartRaw = true := body.readies.2.trans raw
    have keyed' : u.AllocationKeyed := kept_of_acts (fun _ _ move kept => allocationKeyed_act move kept) body.acts keyed
    rw [closeStep_of_asserted starting (by simp [ready]) raw'] at closed
    have whole := restarted keyed' (precedes_pin u (fun x => { x with restart := x.restartRaw, restartTimer := none }) fun _ =>
      ⟨rfl, rfl, rfl, rfl, rfl, rfl, rfl, rfl⟩) s
    have store := store_restartSettled s (readyRestart (u.mapStore fun x => { x with restart := x.restartRaw, restartTimer := none }))
    have safe : t.safe = u.safe := by
      rw [closed, safe_restartSettled]
      rfl
    rw [← closed] at whole store
    refine ⟨whole.after, ?_, ?_, ?_, fun _ out => ?_⟩
    · rw [whole.ready, safe, ready]
    · rw [store]
      exact raw'
    · rw [store]
      rfl
    · rw [whole.hold, ← safe, out]
      simp
  · exact ⟨fun kind phase why timer safe => started_changeCompletion op kind phase why timer safe powered,
      fun kind phase why => started_verifyEnd op kind phase why powered,
      fun kind phase why other => started_resyncPass op kind phase why other powered,
      fun bit kind content small why fails => started_mismatch op kind content small why fails powered,
      fun x rest inbox fatal taken out phase => started_occurrence inbox fatal taken out op phase powered⟩

end Sys2Proof.Machine
end

section
/-! Safe-state entry: what it tells, whom it leaves off the air, and which records stay MAKING (R74, R111, R150, R164). -/

namespace Sys2Proof.Machine

/-! ## Notices to every position (R163, R164) -/

/-- What a notice leaves at a port: the frame queued where the position is PRESENT and there is room, else the notice-lost flag. -/
def Link.told (x : Link) (f : Frame) : Link :=
  if x.present then
    if x.queue.length < 6 then { x with queue := x.queue ++ [f], sending := true } else { x with noticeLost := true }
  else x

section

variable {s : State}

theorem Link.told_of_absent {x : Link} (absent : x.present = false) (f : Frame) : x.told f = x := by
  rw [Link.told, absent, if_neg Bool.false_ne_true]

theorem Link.told_of_room {x : Link} (present : x.present = true) (room : x.queue.length < 6) (f : Frame) :
    x.told f = { x with queue := x.queue ++ [f], sending := true } := by
  rw [Link.told, if_pos present, if_pos room]

theorem Link.told_of_full {x : Link} (present : x.present = true) (full : 6 ≤ x.queue.length) (f : Frame) :
    x.told f = { x with noticeLost := true } := by
  rw [Link.told, if_pos present, if_neg (Nat.not_lt.2 full)]

theorem link_notify (p : Position) (n : Notice) (s : State) (q : Position) :
    (notify p n s).link q = if q = p then (s.link p).told n.frame else s.link q := by
  unfold notify Link.told State.present
  by_cases same : q = p
  · subst same
    rw [if_pos rfl]
    split
    · split
      · next room =>
        rw [if_pos (show (s.link q).queue.length < 6 from room), sendFrame, link_mapLink, if_pos rfl]
      · next full =>
        rw [if_neg (show ¬(s.link q).queue.length < 6 from full)]
        refine Eq.trans (b := (s.mapLink q fun x => { x with noticeLost := true }).link q) (by cases n <;> rfl) ?_
        rw [link_mapLink, if_pos rfl]
    · rfl
  · rw [if_neg same]
    split
    · split
      · rw [sendFrame, link_mapLink, if_neg same]
      · refine Eq.trans (b := (s.mapLink p fun x => { x with noticeLost := true }).link q) (by cases n <;> rfl) ?_
        rw [link_mapLink, if_neg same]
    · rfl

theorem link_notifyMany (n : Notice) (q : Position) : ∀ (ps : List Position) (s : State), ps.Nodup →
    (ps.foldl (fun t p => notify p n t) s).link q = if q ∈ ps then (s.link q).told n.frame else s.link q
  | [], s, _ => by simp
  | p :: ps, s, once => by
    obtain ⟨apart, once⟩ := List.nodup_cons.1 once
    rw [List.foldl_cons, link_notifyMany n q ps _ once, link_notify]
    by_cases same : q = p
    · subst same
      simp [apart]
    · simp [same]

theorem link_notifyAll (n : Notice) (s : State) (q : Position) : (notifyAll n s).link q = (s.link q).told n.frame := by
  rw [notifyAll, link_notifyMany n q _ _ (by decide), if_pos (mem_allPositions q)]

/-- FAULT notices hand nothing to the Fault Log, told or dropped (R181). -/
theorem inbox_notify_fault (p : Position) (k : FaultKind) (v : Severity) (s : State) : (notify p (.fault k v) s).inbox = s.inbox := by
  unfold notify
  split
  · split <;> rfl
  · rfl

theorem inbox_notifyAll_fault (k : FaultKind) (v : Severity) (s : State) : (notifyAll (.fault k v) s).inbox = s.inbox := by
  unfold notifyAll
  generalize allPositions = ps
  induction ps generalizing s with
  | nil => rfl
  | cons p ps ih => rw [List.foldl_cons, ih, inbox_notify_fault]

/-! ## The arbiter in safe state (R101, R111) -/

theorem txOf_arbiterPass_of_safe (q : Position) : ∀ (ps : List Position) (s : State), s.safe = true →
    (arbiterPass ps s).1.txOf q = (if q ∈ ps then { s.txOf q with reason := some .safe } else s.txOf q) ∧ (arbiterPass ps s).2 = false
  | [], s, _ => by simp [arbiterPass]
  | p :: ps, s, safe => by
    obtain ⟨tx, none⟩ := txOf_arbiterPass_of_safe q ps (s.mapTx p fun x => { x with reason := some .safe }) safe
    rw [arbiterPass, judge_of_safe safe]
    refine ⟨tx.trans ?_, none⟩
    rw [txOf_mapTx]
    by_cases same : q = p
    · subst same
      simp
    · simp [same]

/-- An arbiter run in safe state gives every waiter the reason SAFE, and no grant. -/
theorem arbiter_of_safe (safe : s.safe = true) : arbiter s = (arbiterPass s.waiting s).1 := by
  obtain ⟨-, none⟩ := txOf_arbiterPass_of_safe 0 s.waiting s safe
  have pass : arbiterPass s.waiting s = ((arbiterPass s.waiting s).1, false) := Prod.ext rfl none
  show arbiterPasses (6 + 1) s = _
  rw [arbiterPasses, pass]

theorem txOf_arbiter_of_safe (safe : s.safe = true) (q : Position) :
    (arbiter s).txOf q = if q ∈ s.waiting then { s.txOf q with reason := some .safe } else s.txOf q := by
  rw [arbiter_of_safe safe, (txOf_arbiterPass_of_safe q _ s safe).1]

theorem waiting_arbiterPass_of_safe : ∀ (ps : List Position) (s : State), s.safe = true → (arbiterPass ps s).1.waiting = s.waiting
  | [], s, _ => rfl
  | p :: ps, s, safe => by
    rw [arbiterPass, judge_of_safe safe]
    exact waiting_arbiterPass_of_safe ps (s.mapTx p fun x => { x with reason := some .safe }) safe

theorem waiting_arbiter_of_safe (safe : s.safe = true) : (arbiter s).waiting = s.waiting := by
  rw [arbiter_of_safe safe, waiting_arbiterPass_of_safe _ _ safe]

theorem waiting_revokeAll (cause : RevocationCause) (s : State) : (revokeAll cause s).waiting = s.waiting := by
  rw [revokeAll, (moved_leaveEvents s _).waiting (by decide)]
  generalize allPositions = ps
  induction ps generalizing s with
  | nil => rfl
  | cons p ps ih => rw [List.foldl_cons, ih, (moved_withdrawGrant p cause s).waiting (by decide)]

theorem TxRecord.off_revokedBy (x : TxRecord) (cause : RevocationCause) (q : Policy) : (x.revokedBy cause q).state.onAir = false := by
  unfold TxRecord.revokedBy
  split
  · exact TxState.off_withdrawn _
  · next off => simpa using off

theorem safe_revokeAll {cause : RevocationCause} (safe : s.safe = true) : (revokeAll cause s).safe = true :=
  (congrArg FaultLog.safe ((moved_revokeAll cause s).log (by decide))).trans safe

/-- The entry leaves nobody on the air, and every waiter with the reason SAFE (R111). -/
theorem txOf_interlockEntry (safe : s.safe = true) (q : Position) : (interlockEntry s).txOf q =
    if q ∈ s.waiting then { (s.txOf q).revokedBy .safe s.policy with reason := some .safe } else (s.txOf q).revokedBy .safe s.policy := by
  rw [interlockEntry, txOf_arbiter_of_safe (safe_revokeAll safe), txOf_revokeAll, waiting_revokeAll]

theorem silent_interlockEntry (safe : s.safe = true) : (interlockEntry s).Silent where
  off q := by
    rw [State.onAir, txOf_interlockEntry safe]
    split <;> exact TxRecord.off_revokedBy ..
  waiting := by
    have log : (interlockEntry s).safe = true := (congrArg FaultLog.safe ((moved_interlockEntry s).log (by decide))).trans safe
    refine .inr ⟨log, fun q mem => ?_⟩
    rw [interlockEntry, waiting_arbiter_of_safe (safe_revokeAll safe), waiting_revokeAll] at mem
    rw [txOf_interlockEntry safe, if_pos mem]

end

end Sys2Proof.Machine
end

section
/-! The records in safe state: none is made, and what has left its line stays so (R42, R57, R74, R86). -/

namespace Sys2Proof.Machine

variable {R : Position → Line → HolderState → Prop} {s t : State} {w : Work}

/-! ## States that records may have -/

/-- Every record has a state that `R` allows its position and line, and so has one that a wait entry may come to. -/
structure State.Within (s : State) (R : Position → Line → HolderState → Prop) : Prop where
  records : ∀ x ∈ s.alloc.records, R x.pos x.line x.state
  entries : ∀ l, ∀ e ∈ s.listOf l, R e.pos l .pending

theorem mem_left {p : Position} {l : Line} {x : Holder} (mem : x ∈ (s.left p l).alloc.records) : x ∈ s.alloc.records ∨ x.state = .breaking := by
  obtain same | ⟨-, -, -, -, eq⟩ | ⟨-, -, -, -, eq⟩ := left_cases s p l
  · exact .inl (same ▸ mem)
  · rw [eq] at mem
    exact .inl ((mem_records_without ..).1 mem).1
  · rw [eq, State.broken, records_mapRecord] at mem
    obtain ⟨y, was, rfl⟩ := List.mem_map.1 mem
    split
    · exact .inr rfl
    · exact .inl was

theorem mem_listOf_of_still {l : Line} (same : (t.listOf l).map WaitEntry.still = (s.listOf l).map WaitEntry.still) {e : WaitEntry}
    (mem : e ∈ t.listOf l) : ∃ x ∈ s.listOf l, x.pos = e.pos ∧ x.route = e.route := by
  obtain ⟨x, was, still⟩ := List.mem_map.1 (same ▸ List.mem_map_of_mem (f := WaitEntry.still) mem)
  exact ⟨x, was, (pos_of_still still).1, (pos_of_still still).2.1⟩

theorem State.Within.left (within : s.Within R) (leaves : ∀ q j, R q j .breaking) (p : Position) (l : Line) : (s.left p l).Within R where
  records x mem := by
    obtain was | breaking := mem_left mem
    · exact within.records x was
    · rw [breaking]
      exact leaves _ _
  entries j e mem := by
    obtain ⟨x, was, pos, -⟩ := mem_listOf_of_still (lists_left s p l j) mem
    exact pos ▸ within.entries j x was

/-- A work with the table of `b`, in which `R` holds, and each entry is on the line of its route. -/
structure WithinWork (b : State) (R : Position → Line → HolderState → Prop) (w : Work) : Prop where
  table : w.s.table = b.table
  within : w.s.Within R
  placed : ∀ l, ∀ e ∈ w.s.listOf l, (b.routeOf e.route).line = l

theorem admissionsKeep_within (b : State) (leaves : ∀ q j, R q j .breaking) :
    AdmissionsKeep (fun _ => True) (WithinWork b R) (fun l e => R e.pos l .pending ∧ (b.routeOf e.route).line = l) where
  entries w at' l _ e mem := ⟨at'.within.entries l e mem, at'.placed l e mem⟩
  takes v at' l e _ entry := by
    have line : (v.s.routeOf e.route).line = l := by
      rw [routeOf_of_table at'.table]
      exact entry.2
    have fewer (i : Line) (x : WaitEntry)
        (mem : x ∈ (createRecord e.pos e.route (withdraw e.pos (v.s.portOf l) none v)).s.listOf i) : x ∈ v.s.listOf i := by
      rw [createRecord_s, listOf_withRecord, withdraw_s, listOf_withdrawn] at mem
      split at mem
      · exact (List.mem_filter.1 mem).1
      · exact mem
    refine ⟨at'.table, ⟨fun x mem => ?_, fun i x mem => at'.within.entries i x (fewer i x mem)⟩, fun i x mem => at'.placed i x (fewer i x mem)⟩
    rw [createRecord_s, records_withRecord] at mem
    obtain was | new := List.mem_append.1 mem
    · exact at'.within.records x was
    · obtain rfl := List.mem_singleton.1 new
      show R e.pos (v.s.routeOf e.route).line .pending
      rw [line]
      exact entry.1
  leave v at' _ _ _ c _ _ x _ _ _ _ := by
    refine ⟨((worked_goBreaking c.pos x.line v).moved.table (by decide)).trans at'.table, ?_, fun i y mem => ?_⟩
    · rw [goBreaking_s]
      exact at'.within.left leaves _ _
    · rw [goBreaking_s] at mem
      obtain ⟨z, was, -, route⟩ := mem_listOf_of_still (lists_left _ _ _ i) mem
      exact route ▸ at'.placed i z was

theorem within_admitFreed (leaves : ∀ q j, R q j .breaking) (keyed : w.s.AllocationKeyed) (within : w.s.Within R) : (admitFreed w).s.Within R :=
  ((admissionsKeep_within w.s leaves).admitAll (fun _ => trivial) (fun _ _ at' => ⟨at'.table, at'.within, at'.placed⟩) _
    ⟨rfl, within, keyed.placed⟩).within

/-! ## Events in safe state -/

/-- Safe state, an allocation in order, and the states of records that `R` allows. -/
structure State.SafeWithin (s : State) (R : Position → Line → HolderState → Prop) : Prop where
  safe : s.safe = true
  keyed : s.AllocationKeyed
  within : s.Within R

theorem quieted_of_safe (safe : s.safe = true) (p : Position) (x : Holder) : (x.quieted s p).state = x.state := by
  simp [Holder.quieted, safe, asked_placed]

/-- In safe state no event makes a record, and none stands that could not have stood. -/
theorem eventsKeep_safeWithin (leaves : ∀ q j, R q j .breaking) : EventsKeep (fun s => s.SafeWithin R) where
  same s t alike at' := by
    have alloc := alike.alloc
    refine ⟨alike.safe.trans at'.safe, allocationKeyed_of_same at'.keyed alike.table alloc, fun x mem => at'.within.records x (alloc ▸ mem), fun l e mem => ?_⟩
    rw [listOf_of_alloc (congrArg _ alloc)] at mem
    exact at'.within.entries l e mem
  admits w at' := by
    have moves := moves_admitFreed (B := False) at'.keyed (cover_true _)
    exact ⟨(safe_of_moves moves).trans at'.safe, allocationKeyed_moves moves at'.keyed, within_admitFreed leaves at'.keyed at'.within⟩
  made s at' := by
    have records : s.made.alloc.records = s.alloc.records := by
      show s.alloc.records.map _ = _
      refine (List.map_congr_left fun x _ => ?_).trans (List.map_id _)
      simp [State.mayMake, at'.safe]
    exact ⟨at'.safe, allocationKeyed_move (Move.make (A := fun _ _ => True) (B := False) s) at'.keyed, fun x mem => at'.within.records x (records ▸ mem), at'.within.entries⟩
  quiet s q quiet at' := by
    have moves := moves_quietWork at'.keyed quiet
    refine ⟨(safe_of_moves moves).trans at'.safe, allocationKeyed_moves moves at'.keyed, fun x mem => ?_, fun l e mem => ?_⟩
    · rw [records_quietWork at'.keyed quiet] at mem
      obtain ⟨y, was, rfl⟩ := List.mem_map.1 mem
      obtain ⟨pos, line, -⟩ := quieted_placed s q y
      rw [pos, line, quieted_of_safe at'.safe]
      exact at'.within.records y was
    · rw [listOf_of_alloc (lists_quietWork q s)] at mem
      exact at'.within.entries l e mem
  reclaims w q j l at' named none := by
    rw [reclaimOne_of_safe at'.safe named none]
    have restood (f : Standing → Standing) {u : Work} (at' : u.s.SafeWithin R) : (u.mapStanding q j f).s.SafeWithin R :=
      ⟨at'.safe, allocationKeyed_moves (t := (u.mapStanding q j f).s) (A := fun _ _ => True) (B := False) (.single (.standing f trivial)) at'.keyed,
        at'.within.records, at'.within.entries⟩
    exact restood _ (restood _ at')

/-! ## The end of an operation without a latch, and the entry (R45, R74) -/

theorem safeWithin_allocEnd (leaves : ∀ q j, R q j .breaking) (at' : s.SafeWithin R) : (allocEnd s).SafeWithin R := by
  refine (eventsKeep_safeWithin leaves).allocEvent ?_
  have moves := deals_end (A := fun _ _ => True) trivial (fun _ _ => trivial) (Work.start s) ⟨at'.keyed, cover_true _⟩
  refine ⟨(safe_of_moves moves).trans at'.safe, allocationKeyed_moves moves at'.keyed, ?_⟩
  unfold removeWhere
  generalize (Work.start s).s.alloc.records.filter _ = xs
  have start : (Work.start s).s.Within R := at'.within
  generalize Work.start s = w at start
  induction xs generalizing w with
  | nil => exact start
  | cons x xs ih =>
    refine ih _ ⟨fun y mem => start.records y ((mem_records_without ..).1 mem).1, fun l e mem => ?_⟩
    obtain ⟨z, was, pos, -⟩ := mem_listOf_of_still (lists_without w.s x.pos x.line l) mem
    exact pos ▸ start.entries l z was

/-- A record of `p` on `l` is MAKING. -/
def State.makingAt (s : State) (p : Position) (l : Line) : Prop := ∃ x ∈ s.alloc.records, x.state = .making ∧ x.pos = p ∧ x.line = l

/-- Where `b` has a MAKING record, one that is MAKING or on its way out. -/
def State.StillMaking (b : State) (p : Position) (l : Line) (x : HolderState) : Prop := b.makingAt p l → x = .making ∨ x = .breaking

/-- No MAKING record, and where `b` has one, one on its way out. -/
def State.Unmade (b : State) (p : Position) (l : Line) (x : HolderState) : Prop := x ≠ .making ∧ (b.makingAt p l → x = .breaking)

theorem unmade_breaking (b : State) (q : Position) (j : Line) : b.Unmade q j .breaking := ⟨nofun, fun _ => rfl⟩

theorem stillMaking_breaking (b : State) (q : Position) (j : Line) : b.StillMaking q j .breaking := fun _ => .inr rfl

theorem within_stillMaking (keyed : s.AllocationKeyed) : s.Within s.StillMaking where
  records x mem := fun ⟨y, mem', making, pos, line⟩ => by
    have held := recordAt_of_mem keyed.records mem'
    rw [pos, line, recordAt_of_mem keyed.records mem] at held
    cases held
    exact .inl making
  entries l e mem := fun ⟨y, mem', _, pos, line⟩ => by
    have held := recordAt_of_mem keyed.records mem'
    rw [pos, line, keyed.apart l e mem] at held
    cases held

/-- What a position is told of a record that the entry sends BREAKING (R74). -/
abbrev loseToEntry (r : Holder) (w : Work) : Work := lose r.pos r.kind r.line .safe w

theorem besides_loseToEntry : Besides loseToEntry := fun r w => by
  obtain same | same := s_lose r.pos r.kind r.line .safe w
  · rw [loseToEntry, same]
    exact ⟨rfl, rfl, rfl⟩
  · rw [loseToEntry, same]
    exact ⟨rfl, rfl, rfl⟩

theorem entries_breakEach {g : Holder → Work → Work} (adds : ∀ r v l, (g r v).s.listOf l = v.s.listOf l) (l : Line) :
    ∀ (xs : List Holder) (w : Work) (e : WaitEntry), e ∈ (w.breakEach g xs).s.listOf l → ∃ x ∈ w.s.listOf l, x.pos = e.pos
  | [], _, e, mem => ⟨e, mem, rfl⟩
  | x :: xs, w, e, mem => by
    obtain ⟨y, was, pos⟩ := entries_breakEach adds l xs _ e mem
    rw [adds, goBreaking_s] at was
    obtain ⟨z, was', pos', -⟩ := mem_listOf_of_still (lists_left ..) was
    exact ⟨z, was', pos'.trans pos⟩

/-- The entry sends every MAKING record BREAKING (R74). -/
theorem safeWithin_allocEntry {b : State} (at' : s.SafeWithin b.StillMaking) : (allocEntry s).SafeWithin b.Unmade := by
  refine (eventsKeep_safeWithin (unmade_breaking b)).allocEvent ?_
  have moves := deals_entry (A := fun _ _ => True) (B := False) (fun _ _ => trivial) (Work.start s) ⟨at'.keyed, cover_true _⟩
  have keyed := allocationKeyed_moves moves at'.keyed
  refine ⟨(safe_of_moves moves).trans at'.safe, keyed, fun x mem => ?_, fun l e mem => ?_⟩
  · have held := recordAt_of_mem keyed.records mem
    have eq := recordAt_breakEach besides_loseToEntry (s.alloc.records.filter fun r => r.state = .making) (Work.start s) x.pos x.line
    replace eq := held.symm.trans eq
    split at eq
    · cases held' : (Work.start s).s.recordAt x.pos x.line with
      | none => rw [held'] at eq; cases eq
      | some h =>
        rw [held', Option.bind_some] at eq
        rw [(leaving_breaking eq.symm).1]
        exact unmade_breaking ..
    · next apart =>
      obtain ⟨was, -, -⟩ := mem_of_recordAt eq.symm
      have other : x.state ≠ .making := fun making => apart ⟨x, List.mem_filter.2 ⟨was, by simpa using making⟩, rfl, rfl⟩
      exact ⟨other, fun here => (at'.within.records x was here).resolve_left other⟩
  · have adds (r : Holder) (v : Work) (j : Line) : (loseToEntry r v).s.listOf j = v.s.listOf j := by
      obtain same | same := s_lose r.pos r.kind r.line .safe v
      · rw [loseToEntry, same]
      · rw [loseToEntry, same]
        rfl
    obtain ⟨x, was, pos⟩ := entries_breakEach adds l _ (Work.start s) e mem
    refine ⟨nofun, fun here => ?_⟩
    have still := at'.within.entries l x was
    rw [pos] at still
    obtain making | breaking := still here
    · cases making
    · cases breaking

end Sys2Proof.Machine
end

section
/-! Safe-state entry from the flag to the end of its step (R111, R141, R150, R164). -/

namespace Sys2Proof.Machine

section

variable {s t : State}

/-! ## The driver's entry (R150) -/

theorem moved_endWithoutLatch_of_silent (silent : s.Silent) : Moved silentParts s (endWithoutLatch s) := by
  have moved : Moved silentParts s (allocEnd s) :=
    moved_allocEvent_of_silent (fun w => worked_removeWhere (fun r => r.state = .breaking && neverClosed r w.s) w) silent
  rw [endWithoutLatch, arbiter_of_silent (silent.of_moved moved (by decide))]
  exact moved

theorem moved_chainEntry_of_silent (silent : s.Silent) : Moved (.store :: silentParts) s (chainEntry s) := by
  have cleared : Moved [.chain] s (s.mapChain fun c => { c with verifyTimer := none, attempt := none, heldForEntry := false }) := moved_mapChain ..
  unfold chainEntry
  dsimp only
  split
  · split
    · exact cleared.mono (by decide)
    · have ended := cleared.trans (moved_endOperation none _)
      exact ((ended.mono (by decide)).trans ((moved_endWithoutLatch_of_silent (silent.of_moved ended (by decide))).mono (by decide))).trans
        ((moved_endStartUp _).mono (by decide))
  · exact cleared.mono (by decide)

/-- What the entry leaves of the driver: nothing in flight but an operation of `c` that has pulsed its latch, and no timer, attempt or hold. -/
structure Chain.Stopped (c d : Chain) : Prop where
  op : ∀ o, d.op = some o → c.op = some o ∧ o.phase = .settling
  verify : d.verifyTimer = none
  attempt : d.attempt = none
  held : d.heldForEntry = false

theorem Chain.Stopped.steered {c d e : Chain} (stopped : c.Stopped d) (steered : Steered d e) : c.Stopped e where
  op o is := stopped.op o (steered.op ▸ is)
  verify := steered.verify.trans stopped.verify
  attempt := steered.attempt.trans stopped.attempt
  held := steered.heldForEntry.trans stopped.held

theorem stopped_chainEntry (s : State) : s.chain.Stopped (chainEntry s).chain := by
  unfold chainEntry
  dsimp only
  split
  · next o is =>
    split
    · next settling => exact ⟨fun x here => ⟨here, by cases is.symm.trans here; exact settling⟩, rfl, rfl, rfl⟩
    · generalize entered : s.mapChain (fun c => { c with verifyTimer := none, attempt := none, heldForEntry := false }) = u
      have verify : u.chain.verifyTimer = none := by rw [← entered]; rfl
      have attempt : u.chain.attempt = none := by rw [← entered]; rfl
      have held : u.chain.heldForEntry = false := by rw [← entered]; rfl
      have steered := (steered_endWithoutLatch (endOperation none u)).trans (steered_of_moved (moved_endStartUp _) (by decide))
      refine Chain.Stopped.steered (d := (endOperation none u).chain) ⟨?_, ?_, ?_, ?_⟩ steered
      · simp [op_endOperation]
      · simp [endOperation, markLength, State.mapChain, apply_ite Chain.verifyTimer, verify]
      · exact (attempt_endOperation none u).1.trans attempt
      · exact (attempt_endOperation none u).2.1.trans held
  · next is => exact ⟨fun x here => (by cases is.symm.trans here), rfl, rfl, rfl⟩

theorem safeWithin_chainEntry {R : Position → Line → HolderState → Prop} (leaves : ∀ q j, R q j .breaking) (at' : s.SafeWithin R) :
    (chainEntry s).SafeWithin R := by
  have keep := eventsKeep_safeWithin leaves
  have cleared : (s.mapChain fun c => { c with verifyTimer := none, attempt := none, heldForEntry := false }).SafeWithin R :=
    keep.same s _ ⟨rfl, rfl, rfl, rfl, fun _ => rfl⟩ at'
  unfold chainEntry
  dsimp only
  split
  · split
    · exact cleared
    · exact keep.moved (moved_endStartUp _) (by decide) (keep.moved (moved_arbiter _) (by decide)
        (safeWithin_allocEnd leaves (keep.moved (moved_endOperation none _) (by decide) cleared)))
  · exact cleared

/-! ## The close of the step -/

theorem moved_quietEvents_of_silent (b : State) : ∀ (n : Nat) (d : List Position) {s : State}, s.Silent → Moved silentParts s (quietEvents b n d s)
  | 0, _, s, _ => .refl _ _
  | n + 1, d, s, silent => by
    unfold quietEvents
    split
    · next p _ =>
      have event := moved_allocEvent_of_silent (f := fun w => applyReroutes p (requestBreaks p w))
        (fun w => (worked_requestBreaks p w).trans (worked_applyReroutes _ _)) silent
      have one := event.trans ((moved_filterMove p _).mono (by decide))
      exact one.trans (moved_quietEvents_of_silent b n _ (silent.of_moved one (by decide)))
    · exact .refl _ _

/-- In safe state the start rule starts the EXIT RESYNC that has been asked for, and nothing else (R141). -/
theorem startRule_of_safe (safe : s.safe = true) : startRule s = s ∨ startRule s = startResync .exit s := by
  unfold startRule
  dsimp only
  split
  · exact .inl rfl
  · split
    · exact .inr rfl
    · exact .inl rfl

theorem moved_startRule_of_safe (safe : s.safe = true) : Moved [.chain] s (startRule s) := by
  obtain same | exit := startRule_of_safe safe
  · rw [same]
    exact .refl _ _
  · rw [exit]
    exact moved_mapChain ..

/-- Nothing in flight but an operation that had pulsed its latch, or the EXIT RESYNC, and no timer, attempt or hold. -/
theorem stopped_startRule {c : Chain} (safe : s.safe = true) (stopped : c.Stopped s.chain) :
    (∀ o, (startRule s).chain.op = some o → (c.op = some o ∧ o.phase = .settling) ∨ (o.kind = .resync ∧ o.purpose = .exit)) ∧
      (startRule s).chain.verifyTimer = none ∧ (startRule s).chain.attempt = none ∧ (startRule s).chain.heldForEntry = false := by
  obtain same | exit := startRule_of_safe safe
  · rw [same]
    exact ⟨fun o is => .inl (stopped.op o is), stopped.verify, stopped.attempt, stopped.held⟩
  · rw [exit]
    refine ⟨fun o is => .inr ?_, rfl, stopped.attempt, stopped.held⟩
    cases is
    exact ⟨rfl, rfl⟩

/-! ## The entry -/

/-- The state in which the driver and the allocator take the entry. -/
abbrev atEntry (v : State) : State := interlockEntry (notifyAll (.safe true) (v.mapLog fun l => { l with safe := true }))

theorem safe_told (v : State) : (notifyAll (.safe true) (v.mapLog fun l => { l with safe := true })).safe = true :=
  (congrArg FaultLog.safe ((moved_notifyAll _ _).log (by decide))).trans rfl

theorem safe_atEntry (v : State) : (atEntry v).safe = true := by
  have log := (moved_interlockEntry (notifyAll (.safe true) (v.mapLog fun l => { l with safe := true }))).log (by decide)
  rw [State.safe, log]
  exact safe_told v

theorem silent_atEntry (v : State) : (atEntry v).Silent := silent_interlockEntry (safe_told v)

theorem worked_entry (w : Work) : Worked w ((w.s.alloc.records.filter fun r => r.state = .making).foldl
    (fun w r => lose r.pos r.kind r.line .safe (goBreaking r.pos r.line w)) w) :=
  .foldl _ (fun w (r : Holder) => (worked_goBreaking r.pos r.line w).trans (worked_lose _ _ _ _ _)) _ w

/-- Behind the interlock's entry no transmit record changes any more. -/
theorem moved_enterSafe_of_entry (v : State) : Moved (.store :: silentParts) (atEntry v) (enterSafe v) := by
  have chain := moved_chainEntry_of_silent (silent_atEntry v)
  exact chain.trans ((moved_allocEvent_of_silent worked_entry ((silent_atEntry v).of_moved chain (by decide))).mono (by decide))

theorem steered_allocEntry (s : State) : Steered s.chain (allocEntry s).chain := steered_allocEvent worked_entry s

/-- The step of an entry, from its flag to its end. -/
abbrev enteredStep (b v : State) : State := closeStep b (enterSafe v)

theorem grows_chainEntry (s : State) : Grows s (chainEntry s) := by
  unfold chainEntry
  dsimp only
  split
  · split
    · exact grows_of_inbox rfl
    · have ended : Grows s (endOperation none (s.mapChain fun c => { c with verifyTimer := none, attempt := none, heldForEntry := false })) :=
        grows_of_inbox (((moved_endOperation ..).same .inbox (by decide)).trans rfl)
      exact (ended.trans (grows_of_none (acts_endWithoutLatch _))).trans (grows_of_inbox rfl)
  · exact grows_of_inbox rfl

theorem grows_enterSafe (v : State) : Grows v (enterSafe v) := by
  have told : Grows v (notifyAll (.safe true) (v.mapLog fun l => { l with safe := true })) :=
    (grows_of_inbox (t := v.mapLog fun l => { l with safe := true }) rfl).trans (Quieted.grows (quieted_notifyAll _ _))
  have air : Grows v (atEntry v) :=
    (told.trans (Quieted.grows (quieted_revokeAll .safe _))).trans (Quieted.grows (quieted_arbiter_of_safe (safe_revokeAll (safe_told v))))
  exact (air.trans (grows_chainEntry _)).trans (grows_of_none (acts_allocEntry _))

/-- Exit results are taken where they stand at the head of what waits alone. -/
theorem drainResults_of_head (head : ∀ b r, s.inbox ≠ .exitResult b :: r) (n : Nat) : drainResults n s = s := by
  cases n with
  | zero => rfl
  | succ n =>
    unfold drainResults
    split
    · next passed rest is => exact absurd is (head passed rest)
    · rfl

theorem Grows.head (grows : Grows s t) (head : ∀ b r, s.inbox ≠ .exitResult b :: r) (b : Bool) (r : List LogEvent) : t.inbox ≠ .exitResult b :: r := by
  intro is
  obtain ⟨os, eq⟩ := grows
  rw [eq] at is
  cases inbox : s.inbox with
  | nil =>
    rw [inbox, List.nil_append] at is
    obtain ⟨o, -, -, wrong, -⟩ := List.map_eq_cons_iff.1 is
    cases wrong
  | cons e es =>
    rw [inbox] at is
    obtain ⟨rfl, -⟩ := List.cons.inj is
    exact head b es inbox

/-- An exit result taken, with nothing else behind it that its event is to take (R167). -/
theorem drainExit_of_result {passed : Bool} {rest : List LogEvent} (inbox : s.inbox = .exitResult passed :: rest)
    (head : ∀ b r, rest ≠ .exitResult b :: r) : drainExit s = takeExitResult passed { s with inbox := rest } := by
  have grows : Grows { s with inbox := rest } (takeExitResult passed { s with inbox := rest }) := grows_takeExitResult ..
  unfold drainExit
  rw [inbox, List.length_cons, drainResults, inbox]
  exact drainResults_of_head (grows.head head) _

end

end Sys2Proof.Machine
end

section
/-! Obligation O56: an occurrence as the Fault Log takes it (chapter 8). -/

namespace Sys2Proof.Machine

/-! ## The step of an entry (R164) -/

section

variable {b x : State}

theorem watched_of_released {s : State} (released : b.store.ready = .starting → s.store.restartRaw = false) :
    Moved [.store] s (watchPin b s) ∧ (watchPin b s).store.ready = s.store.ready := by
  obtain same | same := watchPin_of_released released
  · rw [same]
    exact ⟨.refl _ _, rfl⟩
  · rw [same]
    exact ⟨moved_mapStore .., rfl⟩

theorem moved_atEntry (x : State) : Moved (.log :: airParts) x (atEntry x) :=
  ((((moved_mapLog x fun l => { l with safe := true }).mono (by decide)).trans ((moved_notifyAll _ _).mono (by decide))).trans
    ((moved_interlockEntry _).mono (by decide)))

theorem chain_atEntry (x : State) : (atEntry x).chain = x.chain :=
  ((moved_interlockEntry _).chain (by decide)).trans ((moved_notifyAll _ _).chain (by decide))

section

variable (released : b.store.ready = .starting → x.store.restartRaw = false)

include released

theorem released_enterSafe (starting : b.store.ready = .starting) : (enterSafe x).store.restartRaw = false :=
  (readies_enterSafe x).2.trans (released starting)

theorem moved_watched_entry : Moved (.store :: silentParts) (atEntry x) (watchPin b (enterSafe x)) :=
  (moved_enterSafe_of_entry x).trans ((watched_of_released (released_enterSafe released)).1.mono (by decide))

theorem moved_delivered_entry : Moved (.store :: silentParts) (atEntry x) (deliverQuiet b (watchPin b (enterSafe x))) :=
  (moved_watched_entry released).trans
    ((moved_quietEvents_of_silent b _ _ ((silent_atEntry x).of_moved (moved_watched_entry released) (by decide))).mono (by decide))

theorem safe_delivered_entry : (deliverQuiet b (watchPin b (enterSafe x))).safe = true := by
  have log := (moved_delivered_entry released).log (by decide)
  rw [State.safe, log]
  exact safe_atEntry x

/-- Behind the interlock's entry nothing of the interlock or of the Fault Log changes to the end of the step. -/
theorem moved_enteredStep : Moved (.store :: silentParts) (atEntry x) (enteredStep b x) :=
  (moved_delivered_entry released).trans ((moved_startRule_of_safe (safe_delivered_entry released)).mono (by decide))

theorem stopped_enteredStep :
    (∀ o, (enteredStep b x).chain.op = some o → (x.chain.op = some o ∧ o.phase = .settling) ∨ (o.kind = .resync ∧ o.purpose = .exit)) ∧
      (enteredStep b x).chain.verifyTimer = none ∧ (enteredStep b x).chain.attempt = none ∧ (enteredStep b x).chain.heldForEntry = false := by
  refine stopped_startRule (safe_delivered_entry released) ?_
  have steered := ((steered_allocEntry (chainEntry (atEntry x))).trans
    (steered_of_moved (watched_of_released (released_enterSafe released)).1 (by decide))).trans (steered_deliverQuiet b _)
  have stopped := (stopped_chainEntry (atEntry x)).steered steered
  rw [chain_atEntry] at stopped
  exact stopped

theorem ready_enteredStep (starting : x.store.ready = .starting) {o : Operation} (op : x.chain.op = some o) (phase : o.phase ≠ .settling) :
    (enteredStep b x).store.ready = .ready := by
  have entered : (enterSafe x).store.ready = .ready :=
    (readies_enterSafe x).1.resolve_left fun same => started_enterSafe op phase (same.trans starting)
  rw [enteredStep, closeStep, (moved_startRule _).store (by decide), (moved_deliverQuiet _ _).store (by decide),
    (watched_of_released (released_enterSafe released)).2, entered]

theorem unmade_enteredStep (keyed : x.AllocationKeyed) : (enteredStep b x).SafeWithin x.Unmade := by
  have keep := eventsKeep_safeWithin (unmade_breaking x)
  have still := eventsKeep_safeWithin (stillMaking_breaking x)
  have told := (moved_notifyAll (.safe true) (x.mapLog fun l => { l with safe := true }))
  have entry : (atEntry x).SafeWithin x.StillMaking := by
    refine still.moved (moved_interlockEntry _) (by decide) ⟨safe_told x, ?_, ?_⟩
    · exact allocationKeyed_of_same keyed ((told.table (by decide)).trans rfl) ((told.alloc (by decide)).trans rfl)
    · have alloc : (notifyAll (.safe true) (x.mapLog fun l => { l with safe := true })).alloc = x.alloc := told.alloc (by decide)
      refine ⟨fun y mem => (within_stillMaking keyed).records y (alloc ▸ mem), fun l e mem => (within_stillMaking keyed).entries l e ?_⟩
      rwa [listOf_of_alloc (congrArg _ alloc)] at mem
  have blocks : (enterSafe x).SafeWithin x.Unmade := safeWithin_allocEntry (safeWithin_chainEntry (stillMaking_breaking x) entry)
  have watched := keep.moved (watched_of_released (released_enterSafe released)).1 (by decide) blocks
  exact keep.moved (moved_startRule _) (by decide) (keep.quietEvents b _ _ watched)

end

theorem log_atEntry (x : State) : (atEntry x).log = { x.log with safe := true } :=
  ((moved_interlockEntry _).log (by decide)).trans (((moved_notifyAll _ _).log (by decide)).trans rfl)

theorem txOf_atEntry (x : State) (q : Position) : (atEntry x).txOf q =
    if q ∈ x.waiting then { (x.txOf q).revokedBy .safe x.policy with reason := some .safe } else (x.txOf q).revokedBy .safe x.policy := by
  have told := moved_notifyAll (.safe true) (x.mapLog fun l => { l with safe := true })
  have tx : (notifyAll (.safe true) (x.mapLog fun l => { l with safe := true })).tx = x.tx := told.tx (by decide)
  have waiting : (notifyAll (.safe true) (x.mapLog fun l => { l with safe := true })).waiting = x.waiting := told.waiting (by decide)
  have table : (notifyAll (.safe true) (x.mapLog fun l => { l with safe := true })).table = x.table := told.table (by decide)
  rw [atEntry, txOf_interlockEntry (safe_told x), State.txOf, tx, waiting, State.policy, table]
  rfl

/-- The entry's notice stands behind the frames that a PRESENT position's queue held, where there was room for it (R164, R181). -/
theorem told_atEntry {q : Position} (present : x.present q = true) (room : (x.link q).queue.length < 6) :
    (x.link q).queue ++ [{ kind := 0x46, payload := [0] }] <+: ((atEntry x).link q).queue := by
  have told := link_notifyAll (.safe true) (x.mapLog fun l => { l with safe := true }) q
  have was : (x.mapLog fun l => { l with safe := true }).link q = x.link q := rfl
  rw [was, Link.told, if_pos (show (x.link q).present = true from present), if_pos room] at told
  have kept := ((moved_interlockEntry (notifyAll (.safe true) (x.mapLog fun l => { l with safe := true }))).links q).queue
  rw [told] at kept
  exact kept

/-- What the entry leaves of each transmit record (R111). -/
theorem transmit_enteredStep (released : b.store.ready = .starting → x.store.restartRaw = false) (coherent : x.TransmitCoherent) (q : Position) :
    (enteredStep b x).inhibit q = true ∧
      ((x.txOf q).state = .granted → ((enteredStep b x).txOf q).state = .revoked ∧ ((enteredStep b x).txOf q).lastRevocation = some .safe) ∧
      ((x.txOf q).state = .hang → ((enteredStep b x).txOf q).state = .idle ∧ ((enteredStep b x).txOf q).lastRevocation = some .safe) ∧
      ((x.txOf q).state = .waiting → ((enteredStep b x).txOf q).state = .waiting ∧ ((enteredStep b x).txOf q).reason = some .safe) := by
  have tx : (enteredStep b x).txOf q = (atEntry x).txOf q := by
    rw [State.txOf, (moved_enteredStep released).tx (by decide), State.txOf]
  have off := (silent_atEntry x).off q
  obtain ⟨⟨-, waits⟩, -⟩ := coherent
  rw [tx, txOf_atEntry]
  refine ⟨?_, fun state => ?_, fun state => ?_, fun state => ?_⟩
  · rw [State.inhibit, State.onAir, tx, ← State.onAir, off]
    rfl
  · rw [if_neg fun mem => by simp [(waits q).1 mem] at state]
    simp [TxRecord.revokedBy, state, TxState.onAir, TxState.withdrawn, TxRecord.leave]
  · rw [if_neg fun mem => by simp [(waits q).1 mem] at state]
    simp [TxRecord.revokedBy, state, TxState.onAir, TxState.withdrawn, TxRecord.leave]
  · rw [if_pos ((waits q).2 state)]
    simp [TxRecord.revokedBy, state, TxState.onAir]

end

/-! ## Classification and the log (R157 to R163) -/

section

variable {s : State} {o : Occurrence}

/-- The kinds that the detect mask and the configured severity do not touch (R157, R158). -/
def Occurrence.Certain (o : Occurrence) : Prop := o.kind = .ungrantedRf ∨ o.kind = .hotSwitch

theorem effectiveSeverity_eq (o : Occurrence) (s : State) : effectiveSeverity o s =
    if o.kind = .ungrantedRf ∨ o.kind = .hotSwitch ∨ o.detail.second = true then .fatal else (s.faultConfig o.kind).severity := by
  unfold effectiveSeverity
  cases kind : o.kind <;> simp

theorem masked_iff : maskedFromLog o s = true ↔ ¬o.Certain ∧ (s.faultConfig o.kind).detectMask = true := by
  unfold maskedFromLog Occurrence.Certain
  cases kind : o.kind <;> simp

theorem dropped_iff : dropped o s = true ↔ ¬o.Certain ∧ o.kind ≠ .chainMismatch ∧ (s.faultConfig o.kind).detectMask = true := by
  rw [dropped, Bool.and_eq_true, masked_iff, decide_eq_true_eq]
  exact ⟨fun ⟨⟨uncertain, mask⟩, kind⟩ => ⟨uncertain, kind, mask⟩, fun ⟨uncertain, kind, mask⟩ => ⟨⟨uncertain, mask⟩, kind⟩⟩

/-- An occurrence of this severity is reported (R162, R163). -/
def State.reports (s : State) (o : Occurrence) (v : Severity) : Prop := v ≠ .minor ∧ (s.faultConfig o.kind).reportMask = false

/-- What an entry in the log leaves in it (R159, R161). -/
structure FaultLog.Entered (l m : FaultLog) (o : Occurrence) (v : Severity) : Prop where
  counters : m.counters = put l.counters o.kind.index (min 255 (l.counters.get o.kind.index + 1))
  minor : v = .minor → m.firstMinor = some (l.firstMinor.getD { occ := o, severity := v, stamp := l.clock }) ∧
    m.nextMinor = (if l.firstMinor = none then l.nextMinor else l.nextMinor ||| kindBit o.kind) ∧
    m.firstSerious = l.firstSerious ∧ m.nextSerious = l.nextSerious
  serious : v ≠ .minor → m.firstSerious = some (l.firstSerious.getD { occ := o, severity := v, stamp := l.clock }) ∧
    m.nextSerious = (if l.firstSerious = none then l.nextSerious else l.nextSerious ||| kindBit o.kind) ∧
    m.firstMinor = l.firstMinor ∧ m.nextMinor = l.nextMinor

theorem entered_logOccurrence (o : Occurrence) (v : Severity) (l : FaultLog) : l.Entered (logOccurrence o v l) o v := by
  unfold logOccurrence
  dsimp only
  split
  · next minor =>
    split
    · next none => exact ⟨rfl, fun _ => by simp [none], fun serious => absurd minor serious⟩
    · next first some => exact ⟨rfl, fun _ => by simp [some], fun serious => absurd minor serious⟩
  · next serious =>
    split
    · next none => exact ⟨rfl, fun minor => absurd minor serious, fun _ => by simp [none]⟩
    · next first some => exact ⟨rfl, fun minor => absurd minor serious, fun _ => by simp [some]⟩

theorem still_logOccurrence (o : Occurrence) (v : Severity) (l : FaultLog) : (logOccurrence o v l).clock = l.clock ∧
    (logOccurrence o v l).alarmA = l.alarmA ∧ (logOccurrence o v l).alarmB = l.alarmB := by
  unfold logOccurrence
  dsimp only
  split <;> split <;> exact ⟨rfl, rfl, rfl⟩

theorem FaultLog.Entered.alarmed {l m : FaultLog} {v : Severity} (entered : l.Entered m o v) (out : AlarmLine) :
    l.Entered (assertAlarm out m) o v := by
  cases out <;> exact ⟨entered.counters, entered.minor, entered.serious⟩

/-- The notice of a reported occurrence (R163). -/
abbrev faultFrame (o : Occurrence) (v : Severity) : Frame := { kind := 0x45, payload := [byte o.kind.number, byte v.code] }

/-- What logging and reporting an occurrence that no mask keeps out leaves. -/
structure State.Recorded (s v : State) (o : Occurrence) (sev : Severity) : Prop where
  entered : s.log.Entered v.log o sev
  alarmA : v.log.alarmA = true ↔ s.log.alarmA = true ∨ (s.reports o sev ∧ (s.faultConfig o.kind).routing = .a)
  alarmB : v.log.alarmB = true ↔ s.log.alarmB = true ∨ (s.reports o sev ∧ (s.faultConfig o.kind).routing = .b)
  quiet : ¬s.reports o sev → v.links = s.links
  told : s.reports o sev → ∀ q, v.link q = (s.link q).told (faultFrame o sev)

theorem recorded_reportFault (o : Occurrence) (sev : Severity) (s : State) :
    s.Recorded (reportFault o sev (s.mapLog (logOccurrence o sev))) o sev := by
  have entered := entered_logOccurrence o sev s.log
  obtain ⟨-, alarmA, alarmB⟩ := still_logOccurrence o sev s.log
  have config : (s.mapLog (logOccurrence o sev)).faultConfig o.kind = s.faultConfig o.kind := rfl
  by_cases reports : s.reports o sev
  · obtain ⟨serious, open'⟩ := reports
    have reported : reportFault o sev (s.mapLog (logOccurrence o sev)) =
        notifyAll (.fault o.kind sev) ((s.mapLog (logOccurrence o sev)).mapLog (assertAlarm (s.faultConfig o.kind).routing)) := by
      rw [reportFault, config, if_pos (by simp [serious, open'])]
    have log : (reportFault o sev (s.mapLog (logOccurrence o sev))).log =
        assertAlarm (s.faultConfig o.kind).routing (logOccurrence o sev s.log) := by
      rw [reported, (moved_notifyAll _ _).log (by decide)]
      rfl
    refine ⟨?_, ?_, ?_, fun out => absurd ⟨serious, open'⟩ out, fun _ q => ?_⟩
    · rw [log]
      exact entered.alarmed _
    · rw [log]
      cases out : (s.faultConfig o.kind).routing <;> simp [assertAlarm, alarmA, State.reports, serious, open']
    · rw [log]
      cases out : (s.faultConfig o.kind).routing <;> simp [assertAlarm, alarmB, State.reports, serious, open']
    · rw [reported]
      exact link_notifyAll _ _ q
  · have same : reportFault o sev (s.mapLog (logOccurrence o sev)) = s.mapLog (logOccurrence o sev) := by
      rw [reportFault, config, if_neg fun here => reports ?_]
      simpa [State.reports] using here
    rw [same]
    exact ⟨entered, by simp [alarmA, reports], by simp [alarmB, reports], fun _ => rfl, fun out => absurd out reports⟩

theorem recordOccurrence_of_masked (masked : maskedFromLog o s = true) : recordOccurrence o s = s := if_pos masked

theorem recorded_recordOccurrence (open' : maskedFromLog o s = false) : s.Recorded (recordOccurrence o s) o (effectiveSeverity o s) := by
  rw [recordOccurrence, open', if_neg Bool.false_ne_true]
  exact recorded_reportFault o _ s

theorem inbox_recordOccurrence (o : Occurrence) (s : State) : (recordOccurrence o s).inbox = s.inbox := by
  unfold recordOccurrence reportFault
  split
  · rfl
  · split
    · rw [inbox_notifyAll_fault]
      rfl
    · rfl

theorem clock_recordOccurrence (o : Occurrence) (s : State) : (recordOccurrence o s).log.clock = s.log.clock := by
  unfold recordOccurrence reportFault
  split
  · rfl
  · split
    · rw [(moved_notifyAll _ _).log (by decide)]
      refine Eq.trans (b := (logOccurrence o (effectiveSeverity o s) s.log).clock) ?_ (still_logOccurrence ..).1
      cases (State.faultConfig (s.mapLog (logOccurrence o (effectiveSeverity o s))) o.kind).routing <;> rfl
    · exact (still_logOccurrence ..).1

theorem takeOccurrence_of_dropped (drop : dropped o s = true) : takeOccurrence o s = s := if_pos drop

theorem takeOccurrence_of_minor (kept : dropped o s = false) (minor : effectiveSeverity o s ≠ .fatal) :
    takeOccurrence o s = recordOccurrence o s := by
  rw [takeOccurrence, kept, if_neg Bool.false_ne_true, if_neg minor]

theorem takeOccurrence_of_safe (kept : dropped o s = false) (fatal : effectiveSeverity o s = .fatal) (safe : s.safe = true) :
    takeOccurrence o s = spoilExit (recordOccurrence o s) := by
  have still : (recordOccurrence o s).safe = true := (log_recordOccurrence o s).1.trans safe
  rw [takeOccurrence, kept, if_neg Bool.false_ne_true, if_pos fatal, takeFatal, if_pos still]

theorem takeOccurrence_of_entry (kept : dropped o s = false) (fatal : effectiveSeverity o s = .fatal) (out : s.safe = false) :
    takeOccurrence o s = enterSafe (spoilExit (recordOccurrence o s)) := by
  have still : (recordOccurrence o s).safe = false := (log_recordOccurrence o s).1.trans out
  rw [takeOccurrence, kept, if_neg Bool.false_ne_true, if_pos fatal, takeFatal, still, if_neg Bool.false_ne_true]

theorem spoilExit_eq (s : State) : spoilExit s = { s with log := { s.log with exitSpoiled := s.log.exitSpoiled || s.log.exitPending } } := by
  unfold spoilExit
  split
  · next pending => simp [State.mapLog, pending]
  · next still => rw [Bool.eq_false_iff.2 still, Bool.or_false]

end

/-! ## The settlement -/

section

variable {s : State} {o : Occurrence} {rest : List LogEvent}

/-- An occurrence that is taken, with nothing else that its event is to take. -/
theorem exec_occurrence_of_still {t : State} (powered : s.powered = true) (inbox : s.inbox = .occurred o :: rest)
    (head : ∀ b r, rest ≠ .exitResult b :: r) (taken : takeOccurrence o { s with inbox := rest } = t) (grows : Grows { s with inbox := rest } t)
    (tx : t.tx = s.tx) (store : t.store = s.store) : exec .occurrence s = .next (startRule t) := by
  rw [exec_occurrence powered inbox, taken, drainExit, drainResults_of_head (grows.head head), closeStep_of_tx tx (congrArg Store.ready store)]

theorem log_closeStep {b s : State} (ready : s.store.ready = b.store.ready) : (closeStep b s).log = s.log := by
  rw [closeStep, watchPin_same b s ready, (moved_startRule _).log (by decide), (moved_deliverQuiet b s).log (by decide)]

theorem Link.length_told (x : Link) (f : Frame) : (x.told f).queue.length ≤ x.queue.length + 1 := by
  unfold Link.told
  split
  · split <;> simp
  · simp

/-- What taking an occurrence that enters no safe state leaves, but for the exit. -/
structure Logged (o : Occurrence) (s y : State) : Prop where
  moved : Moved [.log, .links, .inbox] s y
  inbox : y.inbox = s.inbox
  counters : dropped o s = false → maskedFromLog o s = false →
    y.log.counters = put s.log.counters o.kind.index (min 255 (s.log.counters.get o.kind.index + 1))
  queue : ∀ q, (y.link q).queue.length ≤ (s.link q).queue.length + 1

theorem Logged.spoiled {y : State} (logged : Logged o s y) : Logged o s (spoilExit y) := by
  have moved := logged.moved.trans ((moved_spoilExit y).mono (by decide))
  rw [spoilExit_eq] at moved ⊢
  exact ⟨moved, logged.inbox, logged.counters, logged.queue⟩

theorem logged_recordOccurrence (o : Occurrence) (s : State) : Logged o s (recordOccurrence o s) := by
  refine ⟨moved_recordOccurrence o s, inbox_recordOccurrence o s, fun _ open' => (recorded_recordOccurrence open').entered.counters, fun q => ?_⟩
  cases masked : maskedFromLog o s with
  | true =>
    rw [recordOccurrence_of_masked masked]
    exact Nat.le_succ _
  | false =>
    have recorded := recorded_recordOccurrence masked
    by_cases reports : s.reports o (effectiveSeverity o s)
    · rw [recorded.told reports]
      exact Link.length_told ..
    · rw [State.link, recorded.quiet reports]
      exact Nat.le_succ _

theorem logged_takeOccurrence (safe : s.safe = true) : Logged o s (takeOccurrence o s) := by
  cases drop : dropped o s with
  | true =>
    rw [takeOccurrence_of_dropped drop]
    exact ⟨.refl _ _, rfl, fun kept => by simp [drop] at kept, fun _ => Nat.le_succ _⟩
  | false =>
    by_cases fatal : effectiveSeverity o s = .fatal
    · rw [takeOccurrence_of_safe drop fatal safe]
      exact (logged_recordOccurrence o s).spoiled
    · rw [takeOccurrence_of_minor drop fatal]
      exact logged_recordOccurrence o s

/-- In safe state an occurrence keeps safe state, and spoils a pending exit where it is fatal (R167). -/
theorem spoiled_takeOccurrence (safe : s.safe = true) : (takeOccurrence o s).safe = true ∧ ((takeOccurrence o s).log.exitSpoiled = true ↔
    s.log.exitSpoiled = true ∨ (s.log.exitPending = true ∧ effectiveSeverity o s = .fatal ∧ dropped o s = false)) := by
  cases fatal : s.fatal o with
  | true =>
    obtain ⟨still, spoiled⟩ := log_takeOccurrence_safe safe fatal
    simp only [State.fatal, Bool.and_eq_true, decide_eq_true_eq, Bool.not_eq_true'] at fatal
    exact ⟨still, by simp [spoiled, fatal, or_comm]⟩
  | false =>
    obtain ⟨still, spoiled⟩ := log_takeOccurrence_minor fatal
    have harmless : ¬(effectiveSeverity o s = .fatal ∧ dropped o s = false) := fun ⟨severe, kept⟩ => by simp [State.fatal, severe, kept] at fatal
    exact ⟨still.trans safe, by simp [spoiled, harmless]⟩

/-- What an exit result leaves of the Fault Log, and whom it tells (R167, R168). -/
structure ResultTaken (passed : Bool) (y z : State) : Prop where
  pending : z.log.exitPending = false
  counters : z.log.counters = y.log.counters
  failed : passed = false → z.safe = y.safe ∧ z.log.exitSpoiled = y.log.exitSpoiled
  passed : passed = true → y.safe = true → z.log.exitSpoiled = false ∧ (z.safe = true ↔ y.log.exitSpoiled = true) ∧
    (y.log.exitSpoiled = false → ∀ q, y.present q = true → (y.link q).queue.length < 6 →
      (y.link q).queue ++ [{ kind := 0x46, payload := [1] }] <+: (z.link q).queue)
  store : z.store = y.store

theorem log_leaveSafe (s : State) : (leaveSafe s).log = { s.log with safe := false } := by
  rw [leaveSafe, (moved_arbiter _).log (by decide), (moved_allocExit _).log (by decide), (moved_notifyAll _ _).log (by decide)]
  rfl

theorem told_leaveSafe {q : Position} (present : s.present q = true) (room : (s.link q).queue.length < 6) :
    (s.link q).queue ++ [{ kind := 0x46, payload := [1] }] <+: ((leaveSafe s).link q).queue := by
  have told := link_notifyAll (.safe false) (s.mapLog fun l => { l with safe := false }) q
  have was : (s.mapLog fun l => { l with safe := false }).link q = s.link q := rfl
  rw [was, Link.told, if_pos (show (s.link q).present = true from present), if_pos room] at told
  unfold leaveSafe
  generalize notifyAll (.safe false) (s.mapLog fun l => { l with safe := false }) = u at told ⊢
  have kept := ((moved_allocExit u).trans ((moved_arbiter _).mono (by decide))).links q |>.queue
  rwa [told] at kept

theorem resultTaken_takeExitResult (passed : Bool) (s : State) : ResultTaken passed s (takeExitResult passed s) := by
  cases passed with
  | false => exact ⟨rfl, rfl, fun _ => ⟨rfl, rfl⟩, nofun, rfl⟩
  | true =>
    cases spoiled : s.log.exitSpoiled with
    | true =>
      have taken : takeExitResult true s = { s with log := { s.log with exitPending := false, exitSpoiled := false } } := by
        simp [takeExitResult, spoiled, State.mapLog]
      rw [taken]
      exact ⟨rfl, rfl, nofun, fun _ safe => ⟨rfl, iff_of_true safe spoiled, fun out => absurd (spoiled.symm.trans out) nofun⟩, rfl⟩
    | false =>
      have taken : takeExitResult true s = leaveSafe (s.mapLog fun l => { l with exitPending := false }) := by
        simp [takeExitResult, spoiled]
      rw [taken]
      refine ⟨by rw [log_leaveSafe]; rfl, by rw [log_leaveSafe]; rfl, nofun, fun _ _ => ⟨?_, ?_, fun _ q present room => ?_⟩, ?_⟩
      · rw [log_leaveSafe]
        exact spoiled
      · rw [State.safe, log_leaveSafe]
        simp [spoiled]
      · exact told_leaveSafe (s := s.mapLog fun l => { l with exitPending := false }) present room
      · rw [leaveSafe, (moved_arbiter _).store (by decide), (moved_allocExit _).store (by decide), (moved_notifyAll _ _).store (by decide)]
        rfl

/-- An occurrence in safe state with an exit result behind it (R156, R167). -/
theorem occurrence_result {passed : Bool} (powered : s.powered = true) (safe : s.safe = true)
    (inbox : s.inbox = .occurred o :: .exitResult passed :: rest) (head : ∀ b r, rest ≠ .exitResult b :: r) :
    let spoiled : Prop := s.log.exitSpoiled = true ∨ (s.log.exitPending = true ∧ effectiveSeverity o s = .fatal ∧ dropped o s = false)
    ∃ t, exec .occurrence s = .next t ∧ t.log.exitPending = false ∧ rest <+: t.inbox ∧
      (dropped o s = false → maskedFromLog o s = false →
        t.log.counters = put s.log.counters o.kind.index (min 255 (s.log.counters.get o.kind.index + 1))) ∧
      (passed = false → t.safe = true ∧ (t.log.exitSpoiled = true ↔ spoiled)) ∧
      (passed = true → t.log.exitSpoiled = false ∧ (t.safe = true ↔ spoiled) ∧
        (¬spoiled → ∀ q, s.present q = true → (s.link q).queue.length < 5 →
          { kind := 0x46, payload := [1] } ∈ (t.link q).queue)) := by
  let s₀ : State := { s with inbox := .exitResult passed :: rest }
  have logged : Logged o s₀ (takeOccurrence o s₀) := logged_takeOccurrence safe
  obtain ⟨still, spoiled⟩ := spoiled_takeOccurrence (o := o) (s := s₀) safe
  have drained : drainExit (takeOccurrence o s₀) = _ := drainExit_of_result logged.inbox head
  have result := resultTaken_takeExitResult passed { takeOccurrence o s₀ with inbox := rest }
  have grows : Grows { takeOccurrence o s₀ with inbox := rest } _ := grows_takeExitResult passed _
  have runs := exec_occurrence powered inbox
  rw [show drainExit (takeOccurrence o { s with inbox := .exitResult passed :: rest }) = _ from drained] at runs
  generalize takeExitResult passed { takeOccurrence o s₀ with inbox := rest } = z at result grows runs
  have store : z.store = s.store := result.store.trans (logged.moved.store (by decide))
  have closed := moved_closeStep s z (congrArg Store.ready store)
  have log : (closeStep s z).log = z.log := log_closeStep (congrArg Store.ready store)
  refine ⟨closeStep s z, runs, by rw [log, result.pending], ?_, fun kept open' => ?_, fun failed => ?_, fun passed => ?_⟩
  · obtain ⟨os, eq⟩ := grows
    exact (List.prefix_append rest _).trans (eq ▸ closed.inbox)
  · rw [log, result.counters]
    exact logged.counters kept open'
  · obtain ⟨safe', spoiled'⟩ := result.failed failed
    rw [State.safe, log, spoiled']
    exact ⟨safe'.trans still, spoiled⟩
  · obtain ⟨clear, left, told⟩ := result.passed passed still
    rw [State.safe, log]
    refine ⟨clear, left.trans spoiled, fun unspoiled q present room => ?_⟩
    have out : (takeOccurrence o s₀).log.exitSpoiled = false := Bool.eq_false_iff.2 fun on => unspoiled (spoiled.1 on)
    refine (closed.links q).queue.subset ((told out q ?_ ?_).subset (List.mem_append_right _ (List.mem_singleton.2 rfl)))
    · exact (logged.moved.links q).present.trans present
    · exact (logged.queue q).trans_lt (Nat.succ_lt_succ room)

/-- A fatal occurrence outside safe state, from its record to the end of the step (R164). -/
theorem occurrence_entry {v : State} (powered : s.powered = true) (inbox : s.inbox = .occurred o :: rest) (head : ∀ b r, rest ≠ .exitResult b :: r)
    (record : recordOccurrence o { s with inbox := rest } = v) (kept : dropped o s = false) (fatal : effectiveSeverity o s = .fatal)
    (out : s.safe = false) : exec .occurrence s = .next (enteredStep s (spoilExit v)) := by
  subst record
  have taken : takeOccurrence o { s with inbox := rest } = enterSafe (spoilExit (recordOccurrence o { s with inbox := rest })) :=
    takeOccurrence_of_entry kept fatal out
  have spoiled : Grows { s with inbox := rest } (spoilExit (recordOccurrence o { s with inbox := rest })) := by
    rw [spoilExit_eq]
    exact grows_of_inbox (inbox_recordOccurrence o { s with inbox := rest })
  rw [exec_occurrence powered inbox, taken, drainExit, drainResults_of_head ((spoiled.trans (grows_enterSafe _)).head head)]

end

/-- Settles O56: the record by its mask and severity, and then the start rule, a spoiled exit, or the entry. -/
theorem occurrenceTaken : Obligations.OccurrenceTaken := by
  refine ⟨fun s o passed rest powered safe _ inbox head => occurrence_result powered safe inbox head, fun s o rest powered inbox head => ?_⟩
  let s₀ : State := { s with inbox := rest }
  have sev := effectiveSeverity_eq o s₀
  refine ⟨fun uncertain kind mask => ?_, fun certain => ?_⟩
  · exact exec_occurrence_of_still powered inbox head (takeOccurrence_of_dropped (dropped_iff.2 ⟨uncertain, kind, mask⟩)) (.refl _) rfl rfl
  · have kept : dropped o s₀ = false := Bool.eq_false_iff.2 fun drop => by
      obtain ⟨uncertain, kind, mask⟩ := dropped_iff.1 drop
      obtain is | is | is := certain
      · exact uncertain is
      · exact kind is
      · exact absurd (mask.symm.trans is) nofun
    have moved := moved_recordOccurrence o s₀
    have still := inbox_recordOccurrence o s₀
    obtain ⟨safe, pending, spoiled⟩ := log_recordOccurrence o s₀
    have grows : Grows s₀ (recordOccurrence o s₀) := grows_of_inbox still
    refine ⟨recordOccurrence o s₀, fun x out => ?_, still, clock_recordOccurrence o s₀, safe, pending, spoiled, fun uncertain mask => ?_,
      fun open' => ?_, fun minor => ?_, fun fatal on => ?_, fun fatal out coherent keyed released => ?_⟩
    · have same := moved.same x fun mem => out ((by decide : [Part.log, .links, .inbox] ⊆ [.log, .inbox, .links]) mem)
      cases x with
      | inbox => exact absurd (by decide) out
      | _ => exact same
    · exact recordOccurrence_of_masked (masked_iff.2 ⟨uncertain, mask⟩)
    · have recorded : s₀.Recorded (recordOccurrence o s₀) o (effectiveSeverity o s₀) := recorded_recordOccurrence (Bool.eq_false_iff.2 fun masked => by
        obtain ⟨uncertain, mask⟩ := masked_iff.1 masked
        exact open'.elim uncertain fun is => absurd (mask.symm.trans is) nofun)
      rw [sev] at recorded
      refine ⟨recorded.entered.counters, recorded.entered.minor, recorded.entered.serious, recorded.alarmA, recorded.alarmB, recorded.quiet,
        fun told q => ⟨fun absent => ?_, fun present room => ?_, fun present full => ?_⟩⟩
      · exact (recorded.told told q).trans (Link.told_of_absent absent _)
      · exact (recorded.told told q).trans (Link.told_of_room present room _)
      · exact (recorded.told told q).trans (Link.told_of_full present full _)
    · exact exec_occurrence_of_still powered inbox head (takeOccurrence_of_minor kept (sev ▸ minor)) grows (moved.tx (by decide))
        (moved.store (by decide))
    · have taken := takeOccurrence_of_safe kept (sev.trans fatal) on
      rw [spoilExit_eq] at taken
      exact exec_occurrence_of_still powered inbox head taken (grows_of_inbox still) (moved.tx (by decide)) (moved.store (by decide))
    · have runs := occurrence_entry powered inbox head rfl kept (sev.trans fatal) out
      generalize recordOccurrence o s₀ = v at moved runs
      have eq := spoilExit_eq v
      have spoils := moved_spoilExit v
      generalize spoilExit v = x at eq spoils runs
      have links (q : Position) : x.link q = v.link q := by rw [eq]; rfl
      have alloc : x.alloc = s.alloc := (by rw [eq] : x.alloc = v.alloc).trans (moved.alloc (by decide))
      have table : x.table = s.table := (by rw [eq] : x.table = v.table).trans (moved.table (by decide))
      have tx : x.tx = s.tx := (by rw [eq] : x.tx = v.tx).trans (moved.tx (by decide))
      have waiting : x.waiting = s.waiting := (by rw [eq] : x.waiting = v.waiting).trans (moved.waiting (by decide))
      have store : x.store = s.store := (by rw [eq] : x.store = v.store).trans (moved.store (by decide))
      have chain : x.chain = s.chain := (by rw [eq] : x.chain = v.chain).trans (moved.chain (by decide))
      have released : s.store.ready = .starting → x.store.restartRaw = false := store ▸ released
      have after := moved_enteredStep released
      have unmade := (unmade_enteredStep released (allocationKeyed_of_same keyed table alloc)).within
      obtain ⟨op, verify, attempt, held⟩ := stopped_enteredStep released
      refine ⟨enteredStep s x, runs, ?_, ?_, fun q present room => ?_, fun q => ?_, fun y mem => (unmade.records y mem).1, fun y mem making h held => ?_,
        fun o is => chain ▸ op o is, verify, attempt, held, fun starting phase some => ?_⟩
      · exact ((spoils.mono (by decide)).trans ((moved_atEntry x).mono (by decide))).trans (after.mono (by decide))
      · rw [after.log (by decide), log_atEntry, eq]
      · rw [← links] at room ⊢
        have present' : x.present q = true := by rw [State.present, links]; exact present
        exact (told_atEntry present' room).trans (after.links q).queue
      · have transmit := transmit_enteredStep released (coherent_of_same coherent tx waiting) q
        rw [State.txOf, tx] at transmit
        exact transmit
      · obtain ⟨mem', pos, line⟩ := mem_of_recordAt held
        exact (unmade.records h mem').2 ⟨y, alloc ▸ mem, making, pos.symm, line.symm⟩
      · obtain ⟨o, is⟩ := Option.isSome_iff_exists.1 some
        exact ready_enteredStep released (store ▸ starting) (chain ▸ is) (phase o is)

end Sys2Proof.Machine
end

section
/-! A position and kind that a ring claim has served: what follows keeps a route that covers the band (R79, R81, R85, R86). -/

namespace Sys2Proof.Machine

variable {p : Position} {k : PortKind} {b : Band} {C : Route → Prop} {m : Line} {s t : State} {w : Work}

/-! ## A covering route in place -/

/-- The routes that cover a band. -/
abbrev State.Covering (s : State) (b : Band) (r : Route) : Prop := s.covers r b = true

/-- The record stands, and the route that it wants is one of `C`. -/
def Holder.StandsBy (h : Holder) (C : Route → Prop) : Prop := h.state ≠ .breaking ∧ C (h.reroute.getD h.route)

/-- The position's entries of the kind stand on `m` alone, with routes of `C`, and on `m` it has such an entry, or a record that stands
by one. -/
structure State.Anchored (s : State) (p : Position) (k : PortKind) (C : Route → Prop) (m : Line) : Prop where
  keyed : s.AllocationKeyed
  port : s.portOf m = k
  entries : ∀ l, s.portOf l = k → ∀ e ∈ s.listOf l, e.pos = p → l = m ∧ C e.route
  stands : (∃ e ∈ s.listOf m, e.pos = p) ∨ ∃ h, s.recordAt p m = some h ∧ h.StandsBy C

theorem covers_of_table (table : t.table = s.table) (r : Route) (b : Band) : t.covers r b = s.covers r b := by
  rw [State.covers, routeOf_of_table table]
  rfl

theorem mem_standingRoutes_of_record {h : Holder} (keyed : s.AllocationKeyed) (held : s.recordAt p m = some h) (stands : h.state ≠ .breaking)
    (port : s.portOf m = k) : h.reroute.getD h.route ∈ s.standingRoutes p k := by
  obtain ⟨mem, pos, line⟩ := mem_of_recordAt held
  have own : h ∈ s.recordsOf p k := (mem_recordsOf ..).2 ⟨mem, pos, by rw [(keyed.routed h mem).2.1, line, port]⟩
  exact List.mem_append_left _ (List.mem_map.2 ⟨h, List.mem_filter.2 ⟨own, by simpa using stands⟩, rfl⟩)

theorem mem_standingRoutes_of_entry {e : WaitEntry} (mem : e ∈ s.listOf m) (port : s.portOf m = k) : e.route ∈ s.standingRoutes e.pos k := by
  refine List.mem_append_right _ (List.mem_flatMap.2 ⟨m, List.mem_finRange m, ?_⟩)
  rw [if_pos port]
  exact List.mem_map.2 ⟨e, List.mem_filter.2 ⟨mem, by simp⟩, rfl⟩

theorem State.Anchored.covered (anchored : s.Anchored p k C m) : ∃ r ∈ s.standingRoutes p k, C r := by
  obtain ⟨e, mem, rfl⟩ | ⟨h, held, stands, covers⟩ := anchored.stands
  · exact ⟨e.route, mem_standingRoutes_of_entry mem anchored.port, (anchored.entries m anchored.port e mem rfl).2⟩
  · exact ⟨_, mem_standingRoutes_of_record anchored.keyed held stands anchored.port, covers⟩

theorem State.Anchored.unneeded (anchored : s.Anchored p k C m) (covering : ∀ r, C r → s.covers r b = true) : s.claimNeeded p k b = false := by
  obtain ⟨r, mem, covers⟩ := anchored.covered
  have any : ((s.standingRoutes p k).any fun r => s.covers r b) = true := List.any_eq_true.2 ⟨r, mem, covering r covers⟩
  simp [State.claimNeeded, any]

/-- A standing route of `C`, where there is no entry of the kind, is a record's. -/
theorem anchored_of_record (keyed : s.AllocationKeyed) (out : ∀ l, s.portOf l = k → ∀ e ∈ s.listOf l, e.pos ≠ p)
    (covered : ∃ r ∈ s.standingRoutes p k, C r) : ∃ m, s.Anchored p k C m := by
  obtain ⟨r, mem, covers⟩ := covered
  obtain of | mem := List.mem_append.1 mem
  · obtain ⟨h, own, rfl⟩ := List.mem_map.1 of
    obtain ⟨mem, stands⟩ := List.mem_filter.1 own
    obtain ⟨mem, pos, kind⟩ := (mem_recordsOf ..).1 mem
    refine ⟨h.line, keyed, by rw [← (keyed.routed h mem).2.1, kind], fun l port e mem own => absurd own (out l port e mem), .inr ⟨h, ?_, ?_, covers⟩⟩
    · exact (recordAt_eq_some_iff keyed.records).2 ⟨mem, pos, rfl⟩
    · simpa using stands
  · obtain ⟨l, -, mem⟩ := List.mem_flatMap.1 mem
    split at mem
    · next port =>
      obtain ⟨e, mem, -⟩ := List.mem_map.1 mem
      obtain ⟨mem, own⟩ := List.mem_filter.1 mem
      exact absurd (by simpa using own) (out l port e mem)
    · cases mem

/-! ## Admissions -/

/-- A work with the table of `b₀`, in which the position is anchored. -/
structure AnchoredWork (b₀ : State) (p : Position) (k : PortKind) (C : Route → Prop) (m : Line) (w : Work) : Prop where
  table : w.s.table = b₀.table
  kinded : w.s.Kinded
  placed : ∀ l, ∀ e ∈ w.s.listOf l, (b₀.routeOf e.route).line = l
  entries : ∀ l, b₀.portOf l = k → ∀ e ∈ w.s.listOf l, e.pos = p → l = m ∧ C e.route
  stands : ((∃ e ∈ w.s.listOf m, e.pos = p) ∧ w.s.recordAt p m = none) ∨ ∃ h, w.s.recordAt p m = some h ∧ h.StandsBy C

theorem admissionsKeep_anchored {b₀ : State} (port : b₀.portOf m = k) : AdmissionsKeep (fun _ => True) (AnchoredWork b₀ p k C m)
    (fun l e => (b₀.routeOf e.route).line = l ∧ (e.pos = p → b₀.portOf l = k → l = m ∧ C e.route)) where
  entries w at' l _ e mem := ⟨at'.placed l e mem, fun own port => at'.entries l port e mem own⟩
  takes v at' l e _ entry := by
    obtain ⟨placed, own⟩ := entry
    have port' := portOf_of_table at'.table
    have line : (v.s.routeOf e.route).line = l := by
      rw [routeOf_of_table at'.table]
      exact placed
    have fewer (i : Line) (x : WaitEntry)
        (mem : x ∈ (createRecord e.pos e.route (withdraw e.pos (v.s.portOf l) none v)).s.listOf i) : x ∈ v.s.listOf i := by
      rw [createRecord_s, listOf_withRecord, withdraw_s, listOf_withdrawn] at mem
      split at mem
      · exact (List.mem_filter.1 mem).1
      · exact mem
    have record : (createRecord e.pos e.route (withdraw e.pos (v.s.portOf l) none v)).s.recordAt p m =
        (v.s.recordAt p m).or (if p = e.pos ∧ m = l then some (v.s.newRecord e.pos e.route) else none) := by
      rw [createRecord_s, recordAt_withRecord]
      show (v.s.recordAt p m).or (if p = e.pos ∧ m = (v.s.routeOf e.route).line then some (v.s.newRecord e.pos e.route) else none) = _
      rw [line]
    have yields := (yields_withdraw (K := fun _ => True) at'.kinded e.pos (v.s.portOf l) none).trans
      (yields_createRecord (yields_withdraw (K := fun _ => True) at'.kinded e.pos (v.s.portOf l) none).kinded e.pos e.route)
    refine ⟨at'.table, yields.kinded, fun i x mem => at'.placed i x (fewer i x mem), fun i port x mem => at'.entries i port x (fewer i x mem), ?_⟩
    obtain ⟨⟨x, mem, rfl⟩, none⟩ | ⟨h, held, serves⟩ := at'.stands
    · rw [record, none, Option.none_or]
      by_cases here : x.pos = e.pos ∧ m = l
      · obtain ⟨-, covers⟩ := own here.1.symm (by rw [← here.2, port])
        exact .inr ⟨_, if_pos here, nofun, covers⟩
      · refine .inl ⟨⟨x, ?_, rfl⟩, if_neg here⟩
        rw [createRecord_s, listOf_withRecord, withdraw_s, listOf_withdrawn]
        split
        · next same =>
          refine List.mem_filter.2 ⟨mem, ?_⟩
          simp only [decide_eq_true_eq]
          refine fun pos => here ⟨pos, (own pos.symm ?_).1.symm⟩
          rw [← port', ← same.1, port', port]
        · exact mem
    · exact .inr ⟨h, by rw [record, held]; rfl, serves⟩
  leave v at' u at'' l c _ entry x mem pos kind line := by
    have yields := yields_goBreaking (K := fun _ => True) at'.kinded c.pos (l := x.line) trivial
    have still (i : Line) (y : WaitEntry) (mem : y ∈ (goBreaking c.pos x.line v).s.listOf i) : ∃ z ∈ v.s.listOf i, z.pos = y.pos ∧ z.route = y.route := by
      rw [goBreaking_s] at mem
      exact mem_listOf_of_still (lists_left ..) mem
    refine ⟨yields.table.trans at'.table, yields.kinded, fun i y mem => ?_, fun i port y mem own => ?_, ?_⟩
    · obtain ⟨z, was, -, route⟩ := still i y mem
      exact route ▸ at'.placed i z was
    · obtain ⟨z, was, pos, route⟩ := still i y mem
      exact route ▸ at'.entries i port z was (pos.trans own)
    · have apart : ¬(p = c.pos ∧ m = x.line) := fun here => by
        have same : b₀.portOf l = k := by rw [← portOf_of_table at''.table, ← kind, at''.kinded x mem, portOf_of_table at''.table, ← here.2, port]
        exact line ((here.2.symm.trans (entry.2 here.1.symm same).1.symm))
      have record : (goBreaking c.pos x.line v).s.recordAt p m = v.s.recordAt p m := by
        rw [goBreaking_s]
        exact recordAt_left_of_ne apart
      rw [record]
      refine at'.stands.imp_left fun ⟨⟨e, mem, own⟩, empty⟩ => ⟨?_, empty⟩
      have stillHere : e.still ∈ ((goBreaking c.pos x.line v).s.listOf m).map WaitEntry.still := by
        rw [goBreaking_s, lists_left]
        exact List.mem_map_of_mem mem
      obtain ⟨y, mem', same⟩ := List.mem_map.1 stillHere
      exact ⟨y, mem', (pos_of_still same).1.trans own⟩

theorem anchored_admitFreed (anchored : w.s.Anchored p k C m) : (admitFreed w).s.Anchored p k C m := by
  have keyed := anchored.keyed
  have start : AnchoredWork w.s p k C m w := by
    refine ⟨rfl, kinded_of_keyed keyed, keyed.placed, anchored.entries, anchored.stands.imp_left fun ⟨e, mem, own⟩ => ⟨⟨e, mem, own⟩, ?_⟩⟩
    exact own ▸ keyed.apart m e mem
  have after := (admissionsKeep_anchored anchored.port).admitAll (fun _ => trivial)
    (fun _ _ at' => ⟨at'.table, at'.kinded, at'.placed, at'.entries, at'.stands⟩) (w.freed.length + w.s.alloc.records.length) start
  have port := portOf_of_table after.table
  refine ⟨allocationKeyed_moves (moves_admitFreed (B := False) keyed (cover_true _)) keyed, (port m).trans anchored.port, fun l same e mem own => ?_, ?_⟩
  · exact after.entries l ((port l).symm.trans same) e mem own
  · exact after.stands.imp_left fun here => here.1

/-! ## What the allocator does for others -/

theorem Holder.Later.wants {x y : Holder} (later : x.Later y) (stands : x.state ≠ .breaking) : y.reroute.getD y.route = x.reroute.getD x.route := by
  induction later with
  | refl => rfl
  | tail before goes ih =>
    cases goes with
    | make _ => exact ih
    | ask breaking => exact absurd ((Holder.Later.breaking before).1 breaking) stands
    | reroute _ =>
      rw [← ih]
      unfold Holder.takeReroute
      split
      · next stored => rw [stored]; rfl
      · rfl

theorem Holder.Later.standsBy {x y : Holder} (later : x.Later y) (stands : x.StandsBy C) : y.StandsBy C := by
  refine ⟨fun breaking => stands.1 (later.breaking.1 breaking), ?_⟩
  rw [later.wants stands.1]
  exact stands.2

/-- A change that leaves the position's entries of the kind, and has its records of the kind go on. -/
theorem State.Anchored.goes (anchored : s.Anchored p k C m) (keyed : t.AllocationKeyed) (table : t.table = s.table)
    (entries : ∀ l, s.portOf l = k → (t.listOf l).filter (fun e => e.pos = p) = (s.listOf l).filter fun e => e.pos = p)
    (records : Option.Rel Holder.Later (s.recordAt p m) (t.recordAt p m)) : t.Anchored p k C m := by
  have port := portOf_of_table table
  have same {l : Line} (own : s.portOf l = k) {e : WaitEntry} (pos : e.pos = p) : e ∈ t.listOf l ↔ e ∈ s.listOf l := by
    have of (xs : List WaitEntry) : e ∈ xs ↔ e ∈ xs.filter fun e => e.pos = p := by simp [pos]
    rw [of, entries l own, ← of]
  refine ⟨keyed, (port m).trans anchored.port, fun l own e mem pos => ?_, ?_⟩
  · rw [port] at own
    exact anchored.entries l own e ((same own pos).1 mem) pos
  · refine anchored.stands.imp (fun ⟨e, mem, pos⟩ => ⟨e, (same anchored.port pos).2 mem, pos⟩) fun ⟨h, held, covers⟩ => ?_
    rw [held] at records
    obtain ⟨x, held', later⟩ := some_of_rel records
    exact ⟨x, held', later.standsBy covers⟩

theorem Holder.Keeps.later {x y : Holder} (keeps : x.Keeps y) : x.Later y := by
  obtain rfl | ⟨pending, rfl⟩ := keeps
  · exact .refl
  · exact .single (.make pending)

theorem State.Anchored.spared (anchored : s.Anchored p k C m) (keyed : t.AllocationKeyed) (table : t.table = s.table) (spared : s.Spared t p k) :
    t.Anchored p k C m := by
  refine anchored.goes keyed table spared.entries ?_
  obtain ⟨found, gone⟩ := spared.recordAt anchored.keyed keyed (portOf_of_table table) anchored.port
  cases held : s.recordAt p m with
  | none => rw [gone held]; exact .none
  | some h =>
    obtain ⟨x, held', keeps⟩ := found h held
    rw [held']
    exact .some keeps.later

theorem State.Anchored.moves {A : Position → PortKind → Prop} {B : Prop} (anchored : s.Anchored p k C m) (moves : Moves A B s t) (out : ¬A p k) :
    t.Anchored p k C m := by
  have table : t.table = s.table := by rw [moves.eq]
  exact anchored.spared (allocationKeyed_moves moves anchored.keyed) table (spared_moves moves anchored.keyed out)

/-- Whoever is not `p`, or claims for another kind. -/
abbrev Others (p : Position) (k : PortKind) (q : Position) (j : PortKind) : Prop := ¬(q = p ∧ j = k)

theorem spared_reclaimed (keyed : w.s.AllocationKeyed) {q : Position} {l : Line} {g : Holder → Holder} (placed : Placed g)
    (other : Others p k q (w.s.portOf l)) : w.s.Spared (reclaimed w q l g).s p k := by
  have withdrawn : Move (Others p k) False w.s (w.s.withdrawn q (w.s.portOf l) none) := .withdraw none other
  have keyed' := allocationKeyed_move withdrawn keyed
  refine State.Spared.trans (t := w.s.withdrawn q (w.s.portOf l) none) (fun _ => rfl) (spared_move withdrawn keyed (not_not.2 ⟨rfl, rfl⟩))
    ⟨?_, fun _ _ => rfl, rfl⟩
  have same : (reclaimed w q l g).s.recordsOf p k = (w.s.withdrawn q (w.s.portOf l) none).recordsOf p k :=
    recordsOf_mapRecord_of_ne placed keyed' fun here => other ⟨here.1.symm, here.2.symm⟩
  rw [same]
  exact forall₂_keeps_refl _

theorem claimsKeep_anchored {q : Position} {j : PortKind} (other : Others p k q j) : ClaimsKeep q j (fun s => s.Anchored p k C m) where
  keyed _ anchored := anchored.keyed
  admits _ := anchored_admitFreed
  assigns w r anchored port none had :=
    anchored.moves (moves_assign (A := Others p k) (B := False) anchored.keyed (port ▸ other) none (roomy_of_canBeHad had)) (not_not.2 ⟨rfl, rfl⟩)
  queues w r anchored port none :=
    anchored.moves (t := (enqueueWait q r w).s) (A := Others p k) (B := False) (.single (.enqueue (port ▸ other) none)) (not_not.2 ⟨rfl, rfl⟩)
  changes w r h g anchored port held stands placed moves :=
    anchored.spared (allocationKeyed_moves moves anchored.keyed) rfl (spared_reclaimed anchored.keyed placed (port ▸ other))
  standing w f anchored :=
    anchored.moves (t := (w.mapStanding q j f).s) (A := Others p k) (B := False) (.single (.standing f other)) (not_not.2 ⟨rfl, rfl⟩)

theorem State.Anchored.restood (anchored : w.s.Anchored p k C m) (q : Position) (j : PortKind) (f : Standing → Standing) :
    (w.mapStanding q j f).s.Anchored p k C m :=
  anchored.goes (t := (w.mapStanding q j f).s)
    (allocationKeyed_moves (t := (w.mapStanding q j f).s) (A := fun _ _ => True) (B := False) (.single (.standing f trivial)) anchored.keyed) rfl
    (fun _ _ => rfl) (optionRel_refl (fun _ => .refl) _)

/-! ## A position on its band -/

/-- The position is on the band, and served by a route of `C`, all of which cover the band. -/
structure State.OnBand (s : State) (p : Position) (k : PortKind) (b : Band) (C : Route → Prop) (m : Line) : Prop where
  band : (s.freqOf p).band = some b
  covering : ∀ r, C r → s.covers r b = true
  anchored : s.Anchored p k C m

theorem State.OnBand.covered (on : s.OnBand p k b C m) : ∃ r ∈ s.standingRoutes p k, s.covers r b = true := by
  obtain ⟨r, mem, own⟩ := on.anchored.covered
  exact ⟨r, mem, on.covering r own⟩

theorem claimIfNeeded_of_anchored (band : (w.s.freqOf p).band = some b) (covering : ∀ r, C r → w.s.covers r b = true) (anchored : w.s.Anchored p k C m) : claimIfNeeded p k w = w := by
  simp only [claimIfNeeded, band, anchored.unneeded covering, Bool.false_eq_true, if_false]

/-- The records in place after a change of each. -/
theorem State.Anchored.mapped {f : Holder → Holder} (anchored : s.Anchored p k C m) (keyed : t.AllocationKeyed) (table : t.table = s.table)
    (lists : t.alloc.lists = s.alloc.lists) (records : t.alloc.records = s.alloc.records.map f)
    (placed : ∀ r, (f r).pos = r.pos ∧ (f r).line = r.line) (later : ∀ r : Holder, r.Later (f r)) : t.Anchored p k C m := by
  refine anchored.goes keyed table (fun l _ => by rw [listOf_of_alloc lists]) ?_
  rw [recordAt_of_map records placed]
  cases s.recordAt p m with
  | none => exact .none
  | some x => exact .some (later x)

/-- A position on its band stays served through every event. -/
theorem eventsKeep_onBand : EventsKeep (fun s => s.OnBand p k b C m) where
  same s t alike at' := by
    have covers (r : Route) : t.covers r b = s.covers r b := covers_of_table alike.table r b
    have records : t.alloc.records = s.alloc.records.map id := by rw [alike.alloc, List.map_id]
    refine ⟨?_, fun r own => (covers r).trans (at'.covering r own), at'.anchored.mapped (allocationKeyed_of_same at'.anchored.keyed alike.table alike.alloc) alike.table (congrArg _ alike.alloc) records
      (fun _ => ⟨rfl, rfl⟩) fun _ => .refl⟩
    rw [State.freqOf, alike.freq]
    exact at'.band
  admits w at' := by
    refine ⟨?_, fun r own => (covers_of_table ((worked_admitFreed w).moved.table (by decide)) r b).trans (at'.covering r own), anchored_admitFreed at'.anchored⟩
    rw [State.freqOf, (worked_admitFreed w).moved.freq (by decide)]
    exact at'.band
  made s at' := by
    refine ⟨at'.band, at'.covering, at'.anchored.mapped (allocationKeyed_move (Move.make (A := fun _ _ => True) (B := False) s) at'.anchored.keyed) rfl rfl rfl
      (fun r => by split <;> exact ⟨rfl, rfl⟩) fun r => ?_⟩
    split
    · next may =>
      simp only [Bool.and_eq_true, decide_eq_true_eq] at may
      exact .single (.make may.1)
    · exact .refl
  quiet s q quiet at' := by
    have keyed := at'.anchored.keyed
    have yields := yields_quietWork keyed q
    refine ⟨?_, fun r own => (covers_of_table yields.table r b).trans (at'.covering r own), at'.anchored.mapped (allocationKeyed_moves (moves_quietWork keyed quiet) keyed) yields.table (lists_quietWork q s)
      (records_quietWork keyed quiet) (fun r => ⟨(quieted_placed s q r).1, (quieted_placed s q r).2.1⟩) (later_quieted s q)⟩
    have worked : Worked (Work.start s) (quietWork q s) := (worked_requestBreaks q _).trans (worked_applyReroutes _ _)
    rw [State.freqOf, worked.moved.freq (by decide)]
    exact at'.band
  reclaims w q j l at' named none := by
    have band : ((reclaimOne q j w).s.freqOf p).band = some b := by
      rw [State.freqOf, (worked_reclaimOne q j w).moved.freq (by decide)]
      exact at'.band
    refine ⟨band, fun r own => (covers_of_table ((worked_reclaimOne q j w).moved.table (by decide)) r b).trans (at'.covering r own), ?_⟩
    by_cases own : q = p ∧ j = k
    · obtain ⟨rfl, rfl⟩ := own
      have stood := at'.anchored.restood q j fun x => { x with reclaim := Option.none }
      simp only [Machine.reclaimOne, named, none, Option.isNone_none, if_true]
      split
      · exact stood.restood q j _
      · rw [claimIfNeeded_of_anchored (w := w.mapStanding q j _) at'.band at'.covering stood]
        exact stood
    · exact (claimsKeep_anchored own).reclaimOne at'.anchored

end Sys2Proof.Machine
end

section
/-! What a ring claim that a position, a removal, or the end of safe state calls for comes to (R79 to R83, R85, R86). -/

namespace Sys2Proof.Machine

variable {p : Position} {k : PortKind} {b : Band} {C : Route → Prop} {r : Route} {w v : Work}

/-! ## The claim of a candidate -/

theorem anchored_assign (keyed : w.s.AllocationKeyed) (port : w.s.portOf (w.s.routeOf r).line = k)
    (free : w.s.recordAt p (w.s.routeOf r).line = none) (had : w.s.canBeHad (w.s.routeOf r).line r = true) (covers : C r) :
    (assign p r w).s.Anchored p k C (w.s.routeOf r).line := by
  have moves := moves_assign keyed (A := fun _ _ => True) (B := False) (p := p) trivial free (roomy_of_canBeHad had)
  have table : (assign p r w).s.table = w.s.table := by rw [moves.eq]
  refine ⟨allocationKeyed_moves moves keyed, (portOf_of_table table _).trans port, fun l own e mem pos => ?_, .inr ⟨w.s.newRecord p r, ?_, nofun, ?_⟩⟩
  · rw [portOf_of_table table] at own
    rw [assign_eq, createRecord_s, listOf_withRecord] at mem
    obtain ⟨x, was, pos', -⟩ := mem_listOf_of_still (still_releases p (w.others p r) _ l) mem
    rw [withdraw_s] at was
    exact absurd (pos'.trans pos) (withdrawn_apart w.s p (own.trans port.symm) x was)
  · rw [recordAt_assign free, if_pos ⟨rfl, rfl⟩]
  · exact covers

theorem anchored_reclaimed {h : Holder} {g : Holder → Holder} (keyed : (reclaimed w p (w.s.routeOf r).line g).s.AllocationKeyed)
    (port : w.s.portOf (w.s.routeOf r).line = k) (held : w.s.recordAt p (w.s.routeOf r).line = some h) (stands : h.state ≠ .breaking)
    (placed : Placed g) (changed : g h = h.claimed r (w.s.pathQuiet p)) (covers : C r) :
    (reclaimed w p (w.s.routeOf r).line g).s.Anchored p k C (w.s.routeOf r).line := by
  refine ⟨keyed, port, fun l own e mem pos => ?_, .inr ⟨g h, ?_, ?_, ?_⟩⟩
  · rw [listOf_reclaimed, if_pos (show w.s.portOf l = w.s.portOf (w.s.routeOf r).line from own.trans port.symm)] at mem
    exact absurd pos (by simpa using (List.mem_filter.1 mem).2)
  · rw [recordAt_reclaimed placed, if_pos ⟨rfl, rfl⟩, held]
    rfl
  · rw [changed]
    exact claimed_stands stands r _
  · rw [changed, claimed_wants]
    exact covers

theorem anchored_enqueueWait (keyed : w.s.AllocationKeyed) (port : w.s.portOf (w.s.routeOf r).line = k)
    (none : w.s.recordAt p (w.s.routeOf r).line = none) (covers : C r) :
    (enqueueWait p r w).s.Anchored p k C (w.s.routeOf r).line := by
  have moves : Moves (fun _ _ => True) False w.s (enqueueWait p r w).s := .single (.enqueue trivial none)
  refine ⟨allocationKeyed_moves moves keyed, port, fun l own e mem pos => ?_, .inl ?_⟩
  · rw [enqueueWait_s, listOf_enqueued] at mem
    split at mem
    · next line =>
      obtain ⟨-, other⟩ | ⟨-, route⟩ := mem_queueFor mem
      · exact absurd pos other
      · exact ⟨line, route.symm ▸ covers⟩
    · rw [if_pos (show w.s.portOf l = w.s.portOf (w.s.routeOf r).line from own.trans port.symm)] at mem
      exact absurd pos (by simpa using (List.mem_filter.1 mem).2)
  · obtain ⟨e, mem, pos, -⟩ := mem_queueFor_self (s := w.s) (p := p) r (w.s.listOf (w.s.routeOf r).line)
    refine ⟨e, ?_, pos⟩
    rw [enqueueWait_s, listOf_enqueued, if_pos rfl]
    exact mem

/-- What a claim of a candidate, not by TAKE, leaves where it is made. -/
theorem anchored_claimRoute (keyed : w.s.AllocationKeyed) (candidate : w.s.candidateEntry p k r = true) (covers : C r)
    {m : Manner} (made : m = .wait ∨ (m = .now ∧ w.s.qualifies p r = true)) : (claimRoute p r m w).1.s.Anchored p k C (w.s.routeOf r).line := by
  obtain ⟨port, -, -, stands⟩ := candidate_spec candidate
  cases at' : w.s.recordAt p (w.s.routeOf r).line with
  | some h =>
    obtain ⟨standing, apart⟩ := stands h at'
    obtain ⟨g, placed, changed, moves, claim⟩ := claimRoute_held keyed at' standing apart m
    have anchored := anchored_reclaimed (C := C) (allocationKeyed_moves moves keyed) port at' standing placed changed covers
    obtain claim | ⟨-, claim⟩ := claim
    · rw [claim]
      exact anchored
    · rw [claim]
      refine anchored_admitFreed ?_
      rw [s_freeIfAux]
      exact anchored
  | none =>
    by_cases had : w.s.canBeHad (w.s.routeOf r).line r = true
    · rw [claimRoute_of_free at' had m]
      exact anchored_admitFreed (anchored_assign keyed port at' had covers)
    · rw [claimRoute_of_occupied at' (Bool.eq_false_iff.2 had) m]
      obtain rfl | ⟨rfl, qualifies⟩ := made
      · exact anchored_enqueueWait keyed port at' covers
      · exact absurd (by simpa [State.qualifies, at'] using qualifies) had

/-! ## The ring claim (R81) -/

/-- What a ring claim called for unasked, or nothing in its place, makes of a work: the standings but for the one it settles, the notices, and
the allocation's order. -/
structure Claimed (p : Position) (k : PortKind) (w v : Work) : Prop where
  worked : Worked w v
  keyed : v.s.AllocationKeyed
  standing : ∀ q j, v.s.standing q j = w.s.standing q j ∨ (q = p ∧ j = k ∧ v.s.standing q j = (w.s.standing q j).settled)
  notes : w.notes <+: v.notes

theorem claimed_refl (keyed : w.s.AllocationKeyed) : Claimed p k w w := ⟨.refl w, keyed, fun _ _ => .inl rfl, List.prefix_refl _⟩

theorem keyed_of_deals (deals : Deals (fun _ _ => True) False w v) (keyed : w.s.AllocationKeyed) : v.s.AllocationKeyed :=
  allocationKeyed_moves (deals ⟨keyed, cover_true _⟩) keyed

theorem claimed_settleRing {u : Work} (worked : Worked w u) (keyed : u.s.AllocationKeyed) (standings : u.s.alloc.standings = w.s.alloc.standings)
    (notes : w.notes <+: u.notes) : Claimed p k w (settleRing p k u) where
  worked := worked.trans (worked_settleRing p k u)
  keyed := keyed_of_deals (deals_settleRing trivial u) keyed
  standing q j := by
    have same : u.s.standing q j = w.s.standing q j := standing_of_standings standings q j
    rw [standing_settleRing]
    split
    · next here => exact .inr ⟨here.1, here.2, by rw [same]⟩
    · exact .inl same
  notes := notes

/-- The claim of a candidate, with the LOST notices that it calls for, and the standing settled. -/
theorem claimed_claimRoute (keyed : w.s.AllocationKeyed) (present : w.s.present p = true) {m : Manner} (manner : m ≠ .take)
    (candidate : w.s.candidateEntry p k r = true) :
    Claimed p k w (settleRing p k (claimRoute p r m w).1) ∧
      ∀ l before, Claimed p k w (settleRing p k (loseFollowed p k l before (claimRoute p r m w).1)) := by
  have yields : Yields (fun _ => True) w (claimRoute p r m w).1 := yields_claimRoute (kinded_of_keyed keyed) p manner trivial fun _ _ => trivial
  have keyed' : (claimRoute p r m w).1.s.AllocationKeyed := keyed_of_deals (deals_claimRoute m trivial fun take => absurd take manner) keyed
  have still : (claimRoute p r m w).1.s.present p = true := ((worked_claimRoute p r m w).moved.links p).present.trans present
  have worked := worked_claimRoute p r m w
  refine ⟨claimed_settleRing worked keyed' yields.standings ⟨[], by rw [yields.notes, List.append_nil]⟩, fun l before => ?_⟩
  rw [loseFollowed_eq still]
  exact claimed_settleRing ⟨worked.moved⟩ keyed' yields.standings ⟨_, by rw [← yields.notes]⟩

theorem claimed_ringClaim (keyed : w.s.AllocationKeyed) (present : w.s.present p = true) (b : Band) : Claimed p k w (ringClaim p k b true w).1 := by
  have candidate {r : Route} (mem : r ∈ w.s.candidates p k b) : w.s.candidateEntry p k r = true :=
    (Bool.and_eq_true_iff.1 (List.mem_filter.1 mem).2).1
  cases found : (w.s.candidates p k b).find? fun r => w.s.qualifies p r with
  | some r =>
    simp only [ringClaim, found, if_true]
    exact (claimed_claimRoute keyed present (m := .now) nofun (candidate (List.mem_of_find?_eq_some found))).2 _ _
  | none =>
    cases head : w.s.candidates p k b with
    | nil =>
      have nobody := head ▸ found
      simp only [ringClaim, head, nobody, noteNoRoute, present, if_true]
      exact ⟨⟨.refl _ _⟩, keyed, fun _ _ => .inl rfl, List.prefix_append _ _⟩
    | cons r rs =>
      have nobody := head ▸ found
      simp only [ringClaim, head, nobody]
      exact (claimed_claimRoute keyed present (m := .wait) nofun (candidate (head ▸ List.mem_cons_self))).1

/-- A ring claim leaves the position with a route that covers the band, or NO_ROUTE to be told. -/
theorem served_ringClaim (keyed : w.s.AllocationKeyed) (present : w.s.present p = true) (b : Band) :
    (∃ m, (ringClaim p k b true w).1.s.Anchored p k (w.s.Covering b) m) ∨ (p, Notice.noRoute k b) ∈ (ringClaim p k b true w).1.notes := by
  have candidate {r : Route} (mem : r ∈ w.s.candidates p k b) : w.s.candidateEntry p k r = true ∧ w.s.covers r b = true :=
    Bool.and_eq_true_iff.1 (List.mem_filter.1 mem).2
  cases found : (w.s.candidates p k b).find? fun r => w.s.qualifies p r with
  | some r =>
    obtain ⟨fits, covers⟩ := candidate (List.mem_of_find?_eq_some found)
    have anchored := anchored_claimRoute (C := w.s.Covering b) keyed fits covers (.inr ⟨rfl, by simpa using List.find?_some found⟩)
    have still : (claimRoute p r .now w).1.s.present p = true := ((worked_claimRoute p r .now w).moved.links p).present.trans present
    simp only [ringClaim, found, if_true, loseFollowed_eq still]
    exact .inl ⟨_, anchored.restood (w := { (claimRoute p r .now w).1 with notes := _ }) p k _⟩
  | none =>
    cases head : w.s.candidates p k b with
    | nil =>
      have nobody := head ▸ found
      simp only [ringClaim, head, nobody, noteNoRoute, present, if_true]
      exact .inr (List.mem_append_right _ (List.mem_singleton.2 rfl))
    | cons r rs =>
      have nobody := head ▸ found
      obtain ⟨fits, covers⟩ := candidate (head ▸ List.mem_cons_self)
      have anchored := anchored_claimRoute (C := w.s.Covering b) keyed fits covers (m := .wait) (.inl rfl)
      simp only [ringClaim, head, nobody]
      exact .inl ⟨_, anchored.restood p k _⟩

/-! ## The claims that are called for (R79, R81, R85, R86) -/

theorem claimed_calledClaim (keyed : w.s.AllocationKeyed) (present : w.s.present p = true) (out : w.s.safe = false) (b : Band) :
    Claimed p k w (calledClaim p k b w) := by
  unfold calledClaim
  rw [out, if_neg Bool.false_ne_true]
  split
  · exact claimed_refl keyed
  · exact claimed_ringClaim keyed present b

theorem claimed_claimIfNeeded (keyed : w.s.AllocationKeyed) (out : w.s.safe = false) : Claimed p k w (claimIfNeeded p k w) := by
  unfold claimIfNeeded
  split
  · next b _ =>
    split
    · next needed => exact claimed_calledClaim keyed (Bool.and_eq_true_iff.1 needed).1 out b
    · exact claimed_refl keyed
  · exact claimed_refl keyed

/-- A claim that is called for in READY serves the position on its band. -/
theorem served_claimIfNeeded (keyed : w.s.AllocationKeyed) (out : w.s.safe = false) (ready : w.s.isReady = true)
    (waits : ∀ l, w.s.portOf l = k → ∀ e ∈ w.s.listOf l, e.pos ≠ p) (present : w.s.present p = true) (band : (w.s.freqOf p).band = some b) :
    (∃ m, (claimIfNeeded p k w).s.Anchored p k (w.s.Covering b) m) ∨ (p, Notice.noRoute k b) ∈ (claimIfNeeded p k w).notes := by
  cases needed : w.s.claimNeeded p k b with
  | true =>
    simp only [claimIfNeeded, band, needed, if_true, calledClaim, out, ready, Bool.false_eq_true, if_false, Bool.not_true]
    exact served_ringClaim keyed present b
  | false =>
    simp only [claimIfNeeded, band, needed, Bool.false_eq_true, if_false]
    refine .inl (anchored_of_record keyed waits ?_)
    simpa [State.claimNeeded, present] using needed

end Sys2Proof.Machine
end

section
/-! Ring claims in the turns of an event, and what the rest of the step leaves of them (R46, R81, R85, R86). -/

namespace Sys2Proof.Machine

variable {p : Position} {k : PortKind} {b : Band} {n : Notice} {s t : State} {w v : Work}

/-! ## Turns by position and kind -/

/-- Something done for each position and kind, of which the turn of `p` and `k` takes `I` to `J`, and the others' keep both. -/
theorem eachPort_turn {f : Position → PortKind → Work → Work} {I J : Work → Prop} (before : ∀ q j w, Others p k q j → I w → I (f q j w))
    (turn : ∀ w, I w → J (f p k w)) (after : ∀ q j w, Others p k q j → J w → J (f q j w)) (at' : I w) : J (eachPort f w) := by
  have pass : ∀ (qs : List Position) (w : Work), qs.Nodup → (p ∈ qs → I w → J (qs.foldl (fun w q => f q .aux (f q .main w)) w)) ∧
      (p ∉ qs → J w → J (qs.foldl (fun w q => f q .aux (f q .main w)) w)) := by
    intro qs
    induction qs with
    | nil => exact fun w _ => ⟨nofun, fun _ at' => at'⟩
    | cons q qs ih =>
      intro w once
      obtain ⟨apart, once⟩ := List.nodup_cons.1 once
      obtain ⟨inside, outside⟩ := ih (f q .aux (f q .main w)) once
      refine ⟨fun mem at' => ?_, fun out at' => ?_⟩
      · by_cases own : p = q
        · subst own
          refine outside apart ?_
          cases k with
          | main => exact after _ _ _ (by simp) (turn _ at')
          | aux => exact turn _ (before _ _ _ (by simp) at')
        · have other (j : PortKind) : Others p k q j := fun here => own here.1.symm
          exact inside ((List.mem_cons.1 mem).resolve_left own) (before _ _ _ (other .aux) (before _ _ _ (other .main) at'))
      · have other (j : PortKind) : Others p k q j := fun here => out (here.1 ▸ List.mem_cons_self)
        exact outside (fun mem => out (List.mem_cons_of_mem _ mem)) (after _ _ _ (other .aux) (after _ _ _ (other .main) at'))
  exact (pass allPositions w (by decide)).1 (mem_allPositions p) at'

/-! ## Notices of the event -/

theorem reclaimOne_eq (q : Position) (j : PortKind) (w : Work) (out : w.s.safe = false) :
    reclaimOne q j w = w ∨ reclaimOne q j w = claimIfNeeded q j (w.mapStanding q j fun x => { x with reclaim := none }) := by
  have out' : (w.mapStanding q j fun x => { x with reclaim := none }).s.safe = false := out
  unfold reclaimOne
  split
  · split
    · dsimp only
      rw [out', if_neg Bool.false_ne_true]
      exact .inr rfl
    · exact .inl rfl
  · exact .inl rfl

theorem keyed_mapStanding (keyed : w.s.AllocationKeyed) (q : Position) (j : PortKind) (f : Standing → Standing) :
    (w.mapStanding q j f).s.AllocationKeyed := keyed_of_deals (deals_mapStanding f trivial w) keyed

/-- Outside safe state, a notice that waits to be handed on. -/
structure Noted (p : Position) (n : Notice) (w : Work) : Prop where
  keyed : w.s.AllocationKeyed
  out : w.s.safe = false
  noted : (p, n) ∈ w.notes

theorem safe_of_worked (worked : Worked w v) : v.s.safe = w.s.safe := congrArg FaultLog.safe (worked.moved.log (by decide))

theorem Noted.claimed {q : Position} {j : PortKind} (noted : Noted p n w) (claimed : Claimed q j w v) : Noted p n v :=
  ⟨claimed.keyed, (safe_of_worked claimed.worked).trans noted.out, claimed.notes.subset noted.noted⟩

theorem Noted.restood (noted : Noted p n w) (q : Position) (j : PortKind) (f : Standing → Standing) : Noted p n (w.mapStanding q j f) :=
  ⟨keyed_mapStanding noted.keyed q j f, noted.out, noted.noted⟩

theorem Noted.claimIfNeeded {q : Position} {j : PortKind} (noted : Noted p n w) : Noted p n (claimIfNeeded q j w) :=
  noted.claimed (claimed_claimIfNeeded noted.keyed noted.out)

theorem Noted.reclaimOne {q : Position} {j : PortKind} (noted : Noted p n w) : Noted p n (reclaimOne q j w) := by
  obtain same | claim := reclaimOne_eq q j w noted.out
  · rw [same]
    exact noted
  · rw [claim]
    exact (noted.restood q j _).claimIfNeeded

theorem Noted.takeDue {q : Position} {j : PortKind} (noted : Noted p n w) : Noted p n (takeDue q j w) := by
  unfold Machine.takeDue
  split
  · exact (noted.restood q j _).claimIfNeeded
  · exact noted

theorem Noted.admitFreed (noted : Noted p n w) : Noted p n (admitFreed w) := by
  refine ⟨keyed_of_deals (deals_admitFreed w) noted.keyed, (safe_of_worked (worked_admitFreed w)).trans noted.out, ?_⟩
  rw [(yields_admitFreed (K := fun _ => True) (kinded_of_keyed noted.keyed) fun _ _ => trivial).notes]
  exact noted.noted

theorem Noted.reclaims (noted : Noted p n w) : Noted p n (reclaims w) := by
  unfold Machine.reclaims eachPort
  generalize allPositions = qs
  induction qs generalizing w with
  | nil => exact noted
  | cons q qs ih => exact ih noted.reclaimOne.reclaimOne

/-- The position's queue has the frame, where it is not full. -/
def State.Tells (s : State) (p : Position) (f : Frame) : Prop := (s.link p).queue.length < 6 → f ∈ (s.link p).queue

theorem State.Tells.moved {f : Frame} {ps : List Part} (tells : s.Tells p f) (moved : Moved ps s t) : t.Tells p f := fun short =>
  (moved.links p).queue.subset (tells ((moved.links p).queue.length_le.trans_lt short))

theorem tells_handOn (present : w.s.present p = true) (mem : (p, n) ∈ w.notes) : (handOn w).Tells p n.frame := by
  have grants := moved_notifyEach w.grants w.s
  have events := moved_takeTxiEvents w.events (notifyEach w.grants w.s)
  have losses := moved_notifyEach w.losses (takeTxiEvents w.events (notifyEach w.grants w.s))
  cases granted : n.isGranted with
  | true =>
    have first : (notifyEach w.grants w.s).Tells p n.frame := told_notifyEach present (List.mem_filter.2 ⟨mem, granted⟩)
    exact (first.moved events).moved losses
  | false =>
    refine told_notifyEach ?_ (List.mem_filter.2 ⟨mem, by simpa using granted⟩)
    exact (events.links p).present.trans ((grants.links p).present.trans present)

theorem tells_closed (noted : Noted p n w) (present : w.s.present p = true) (u : State) : (handOn (closeWork u w)).Tells p n.frame := by
  obtain ⟨es, -, notes, -⟩ := closeWork_eq u w
  refine tells_handOn (((moved_closeWork u w).links p).present.trans present) ?_
  rw [notes]
  exact noted.admitFreed.noted

/-! ## What an event leaves of a claim in it -/

/-- The position is on the band, served by a claim of the kind, or NO_ROUTE waits to be handed on to it. -/
def Work.Served (w : Work) (p : Position) (k : PortKind) (b : Band) : Prop := (∃ C m, w.s.OnBand p k b C m) ∨ Noted p (.noRoute k b) w

/-- The position is on the band, served by a claim of the kind, or it has been told NO_ROUTE. -/
def State.ServedOn (s : State) (p : Position) (k : PortKind) (b : Band) : Prop :=
  (∃ C m, s.OnBand p k b C m) ∨ s.Tells p (Notice.noRoute k b).frame

theorem servedOn_of_reclaimed (served : w.Served p k b) (present : w.s.present p = true) (u : State) :
    (handOn (closeWork u (reclaims (admitFreed w)))).ServedOn p k b := by
  obtain ⟨C, m, on⟩ | noted := served
  · exact .inl ⟨C, m, eventsKeep_onBand.handOn (eventsKeep_onBand.closeWork u (eventsKeep_onBand.reclaimed (eventsKeep_onBand.admits _ on)))⟩
  · refine .inr ?_
    refine tells_closed noted.admitFreed.reclaims ?_ u
    exact ((worked_reclaims _).moved.links p).present.trans (((worked_admitFreed w).moved.links p).present.trans present)

theorem servedOn_of_closed (served : w.Served p k b) (present : w.s.present p = true) (u : State) : (handOn (closeWork u w)).ServedOn p k b :=
  served.imp (fun ⟨C, m, on⟩ => ⟨C, m, eventsKeep_onBand.handOn (eventsKeep_onBand.closeWork u on)⟩) fun noted => tells_closed noted present u

theorem State.ServedOn.moved {ps : List Part} (served : s.ServedOn p k b) (moved : Moved ps s t) (out : ∀ x ∈ [Part.table, .alloc, .log, .freq], x ∉ ps) :
    t.ServedOn p k b := served.imp (fun ⟨C, m, on⟩ => ⟨C, m, eventsKeep_onBand.moved moved out on⟩) fun tells => tells.moved moved

theorem State.ServedOn.closeStep {u : State} (served : s.ServedOn p k b) (ready : s.store.ready = u.store.ready) : (closeStep u s).ServedOn p k b :=
  served.imp (fun ⟨C, m, on⟩ => ⟨C, m, eventsKeep_onBand.closeStep ready on⟩) fun tells => tells.moved (moved_closeStep u s ready)

/-- A position served on each band that it may be on has followed it. -/
theorem followed_of_servedOn (served : ∀ b, (s.freqOf p).band = some b → s.present p = true → s.ServedOn p k b) : s.Followed p k :=
  fun b band present => (served b band present).imp_left fun ⟨_, _, on⟩ => on.covered

end Sys2Proof.Machine
end

section
/-! A position that waits for no line of a kind: its standing through the events of others, in and out of safe state (R85, R86). -/

namespace Sys2Proof.Machine

variable {p : Position} {k : PortKind} {S : Standing → Prop} {A : Prop} {s t : State} {w v : Work}

/-! ## Positions that wait for no line of a kind -/

/-- The standing is one of `S`, and under `A` the position waits for no line of the kind. -/
structure State.Idles (s : State) (p : Position) (k : PortKind) (S : Standing → Prop) (A : Prop) : Prop where
  keyed : s.AllocationKeyed
  stands : S (s.standing p k)
  waits : A → ∀ l, s.portOf l = k → ∀ e ∈ s.listOf l, e.pos ≠ p

theorem State.Idles.fewer (idles : s.Idles p k S A) (keyed : t.AllocationKeyed) (table : t.table = s.table) (stands : S (t.standing p k))
    (lists : ∀ l, ∀ e ∈ t.listOf l, ∃ x ∈ s.listOf l, x.pos = e.pos) : t.Idles p k S A := by
  refine ⟨keyed, stands, fun alone l port e mem => ?_⟩
  obtain ⟨x, was, pos⟩ := lists l e mem
  rw [← pos]
  exact idles.waits alone l ((portOf_of_table table l).symm.trans port) x was

theorem State.Idles.moves {P : Position → PortKind → Prop} {B : Prop} (idles : s.Idles p k S A) (moves : Moves P B s t) (out : ¬P p k) :
    t.Idles p k S A := by
  have table : t.table = s.table := by rw [moves.eq]
  have spared := spared_moves moves idles.keyed out
  refine ⟨allocationKeyed_moves moves idles.keyed, spared.standing ▸ idles.stands, fun alone l port e mem pos => ?_⟩
  rw [portOf_of_table table] at port
  have own : e ∈ (s.listOf l).filter fun e => e.pos = p := by
    rw [← spared.entries l port]
    exact List.mem_filter.2 ⟨mem, by simpa using pos⟩
  exact idles.waits alone l port e (List.mem_filter.1 own).1 pos

theorem idles_admitFreed (idles : w.s.Idles p k S A) : (admitFreed w).s.Idles p k S A := by
  have yields := yields_admitFreed (K := fun _ => True) (kinded_of_keyed idles.keyed) fun _ _ => trivial
  refine idles.fewer (keyed_of_deals (deals_admitFreed w) idles.keyed) yields.table ?_
    (admitFreed_leaves (P := fun _ _ _ => False) w idles.keyed (fun _ _ _ => id) fun _ _ => False.elim).1
  rw [standing_of_standings yields.standings]
  exact idles.stands

theorem claimsKeep_idles {q : Position} {j : PortKind} (other : Others p k q j) : ClaimsKeep q j (fun s => s.Idles p k S A) where
  keyed _ idles := idles.keyed
  admits _ := idles_admitFreed
  assigns w r idles port none had :=
    idles.moves (moves_assign (A := Others p k) (B := False) idles.keyed (port ▸ other) none (roomy_of_canBeHad had)) (not_not.2 ⟨rfl, rfl⟩)
  queues w r idles port none :=
    idles.moves (t := (enqueueWait q r w).s) (P := Others p k) (B := False) (.single (.enqueue (port ▸ other) none)) (not_not.2 ⟨rfl, rfl⟩)
  changes w r h g idles port held stands placed moves := by
    refine idles.fewer (allocationKeyed_moves moves idles.keyed) rfl idles.stands fun l e mem => ⟨e, ?_, rfl⟩
    rw [listOf_reclaimed] at mem
    split at mem
    · exact (List.mem_filter.1 mem).1
    · exact mem
  standing w f idles :=
    idles.moves (t := (w.mapStanding q j f).s) (P := Others p k) (B := False) (.single (.standing f other)) (not_not.2 ⟨rfl, rfl⟩)

theorem State.Idles.restood (idles : w.s.Idles p k S A) {T : Standing → Prop} {f : Standing → Standing} (change : ∀ x, S x → T (f x)) :
    (w.mapStanding p k f).s.Idles p k T A :=
  ⟨keyed_mapStanding idles.keyed p k f, by
    show T ((w.s.mapStanding p k f).standing p k)
    rw [standing_mapStanding, if_pos ⟨rfl, rfl⟩]
    exact change _ idles.stands, idles.waits⟩

theorem State.Idles.quieted (idles : s.Idles p k S A) {q : Position} (quiet : s.pathQuiet q = true) : (quietWork q s).s.Idles p k S A := by
  have yields := yields_quietWork idles.keyed q
  refine idles.fewer (allocationKeyed_moves (moves_quietWork idles.keyed quiet) idles.keyed) yields.table ?_ fun l e mem => ⟨e, ?_, rfl⟩
  · rw [standing_of_standings yields.standings]
    exact idles.stands
  · rwa [listOf_of_alloc (lists_quietWork q s)] at mem

theorem State.Idles.made (idles : s.Idles p k S A) : s.made.Idles p k S A :=
  idles.fewer (allocationKeyed_move (Move.make (A := fun _ _ => True) (B := False) s) idles.keyed) rfl idles.stands fun _ e mem => ⟨e, mem, rfl⟩

theorem State.Idles.of_same (idles : s.Idles p k S A) (table : t.table = s.table) (alloc : t.alloc = s.alloc) : t.Idles p k S A :=
  idles.fewer (allocationKeyed_of_same idles.keyed table alloc) table
    (by rw [standing_of_standings (congrArg _ alloc)]; exact idles.stands)
    fun l e mem => ⟨e, by rwa [listOf_of_alloc (congrArg _ alloc)] at mem, rfl⟩

theorem State.Idles.same (idles : s.Idles p k S A) (alike : s.Resembles t) : t.Idles p k S A := idles.of_same alike.table alike.alloc

/-- In safe state the standing keeps what a removal and a follow due leave of it (R86). -/
theorem eventsKeep_idles_safe (reclaim : ∀ x, S x → S { x with reclaim := none }) (due : ∀ x, S x → S { x with due := true }) :
    EventsKeep (fun s => s.safe = true ∧ s.Idles p k S A) where
  same s t alike at' := ⟨alike.safe.trans at'.1, at'.2.same alike⟩
  admits w at' := ⟨(safe_of_worked (worked_admitFreed w)).trans at'.1, idles_admitFreed at'.2⟩
  made s at' := ⟨at'.1, at'.2.made⟩
  quiet s q quiet at' := ⟨(safe_of_moves (moves_quietWork at'.2.keyed quiet)).trans at'.1, at'.2.quieted quiet⟩
  reclaims w q j l at' named none := by
    refine ⟨(safe_of_worked (worked_reclaimOne q j w)).trans at'.1, ?_⟩
    by_cases own : q = p ∧ j = k
    · obtain ⟨rfl, rfl⟩ := own
      rw [reclaimOne_of_safe at'.1 named none]
      exact State.Idles.restood (w := w.mapStanding q j _) (at'.2.restood reclaim) due
    · exact (claimsKeep_idles own).reclaimOne at'.2

/-! ## Standings out of safe state -/

/-- Out of safe state, a standing of `S`. -/
structure State.Stood (s : State) (p : Position) (k : PortKind) (S : Standing → Prop) : Prop where
  keyed : s.AllocationKeyed
  out : s.safe = false
  stands : S (s.standing p k)

theorem State.Stood.claimed (stood : w.s.Stood p k S) (settle : ∀ x, S x → S x.settled) {q : Position} {j : PortKind} (claimed : Claimed q j w v) :
    v.s.Stood p k S := by
  refine ⟨claimed.keyed, (safe_of_worked claimed.worked).trans stood.out, ?_⟩
  obtain same | ⟨-, -, same⟩ := claimed.standing p k
  · exact same ▸ stood.stands
  · exact same ▸ settle _ stood.stands

theorem State.Stood.restood (stood : w.s.Stood p k S) {q : Position} {j : PortKind} {f : Standing → Standing} (change : q = p → j = k → ∀ x, S x → S (f x)) :
    (w.mapStanding q j f).s.Stood p k S := by
  refine ⟨keyed_mapStanding stood.keyed q j f, stood.out, ?_⟩
  show S ((w.s.mapStanding q j f).standing p k)
  rw [standing_mapStanding]
  split
  · next here =>
    obtain ⟨rfl, rfl⟩ := here
    exact change rfl rfl _ stood.stands
  · exact stood.stands

theorem State.Stood.like (stood : s.Stood p k S) (keyed : t.AllocationKeyed) (safe : t.safe = s.safe) (standings : t.alloc.standings = s.alloc.standings) :
    t.Stood p k S := ⟨keyed, safe.trans stood.out, by rw [standing_of_standings standings]; exact stood.stands⟩

theorem eventsKeep_stood (settle : ∀ x, S x → S x.settled) (reclaim : ∀ x, S x → S { x with reclaim := none }) :
    EventsKeep (fun s => s.Stood p k S) where
  same s t alike stood := stood.like (allocationKeyed_of_same stood.keyed alike.table alike.alloc) alike.safe (congrArg _ alike.alloc)
  admits w stood := stood.like (keyed_of_deals (deals_admitFreed w) stood.keyed) (safe_of_worked (worked_admitFreed w))
    (yields_admitFreed (K := fun _ => True) (kinded_of_keyed stood.keyed) fun _ _ => trivial).standings
  made s stood := stood.like (allocationKeyed_move (Move.make (A := fun _ _ => True) (B := False) s) stood.keyed) rfl rfl
  quiet s q quiet stood := stood.like (allocationKeyed_moves (moves_quietWork stood.keyed quiet) stood.keyed)
    (safe_of_moves (moves_quietWork stood.keyed quiet)) (yields_quietWork stood.keyed q).standings
  reclaims w q j l stood named none := by
    obtain same | claim := reclaimOne_eq q j w stood.out
    · rw [same]
      exact stood
    · rw [claim]
      have restood : (w.mapStanding q j fun x => { x with reclaim := Option.none }).s.Stood p k S := stood.restood fun _ _ => reclaim
      exact restood.claimed settle (claimed_claimIfNeeded restood.keyed restood.out)

end Sys2Proof.Machine
end

section
/-! The allocator at the end of safe state: stored reroutes, and the ring claims of the follow dues (R86, R168). -/

namespace Sys2Proof.Machine

variable {p : Position} {k : PortKind} {b : Band} {S : Standing → Prop} {A : Prop} {s : State} {w : Work}

theorem idles_applyReroutes (idles : w.s.Idles p k S A) (q : Position) : (applyReroutes q w).s.Idles p k S A := by
  have yields := yields_applyReroutes (K := fun _ => True) (kinded_of_keyed idles.keyed) q trivial
  refine idles.fewer (keyed_of_deals (deals_applyReroutes (fun _ => trivial) w) idles.keyed) yields.table ?_ fun l e mem => ⟨e, ?_, rfl⟩
  · rw [standing_of_standings yields.standings]
    exact idles.stands
  · rwa [listOf_of_alloc (lists_applyReroutes q w)] at mem

theorem removeWhere_leaves (t : Holder → Bool) (w : Work) : (removeWhere t w).s.table = w.s.table ∧
    (removeWhere t w).s.alloc.standings = w.s.alloc.standings ∧ ∀ l, ∀ e ∈ (removeWhere t w).s.listOf l, ∃ x ∈ w.s.listOf l, x.pos = e.pos := by
  unfold removeWhere
  generalize w.s.alloc.records.filter t = xs
  induction xs generalizing w with
  | nil => exact ⟨rfl, rfl, fun _ e mem => ⟨e, mem, rfl⟩⟩
  | cons x xs ih =>
    obtain ⟨table, standings, lists⟩ := ih (removeRecord x.pos x.line w)
    refine ⟨table, standings, fun l e mem => ?_⟩
    obtain ⟨y, mem, pos⟩ := lists l e mem
    obtain ⟨z, was, pos', -⟩ := mem_listOf_of_still (lists_without w.s x.pos x.line l) mem
    exact ⟨z, was, pos'.trans pos⟩

theorem idles_removeWhere (idles : w.s.Idles p k S A) {t : Holder → Bool} (keyed : (removeWhere t w).s.AllocationKeyed) :
    (removeWhere t w).s.Idles p k S A := by
  obtain ⟨table, standings, lists⟩ := removeWhere_leaves t w
  refine idles.fewer keyed table ?_ lists
  rw [standing_of_standings standings]
  exact idles.stands

/-- The stored reroutes of every position are applied, and the lines freed have their admissions, before the follow dues. -/
abbrev reroutedWork (s : State) : Work := admitFreed (allPositions.foldl (fun w q => applyReroutes q w) (makeTests (Work.start s)))

theorem idles_reroutedWork (idles : s.Idles p k S A) : (reroutedWork s).s.Idles p k S A := by
  refine idles_admitFreed ?_
  have start : (makeTests (Work.start s)).s.Idles p k S A := idles.made
  generalize makeTests (Work.start s) = w at start
  generalize allPositions = qs
  induction qs generalizing w with
  | nil => exact start
  | cons q qs ih => exact ih _ (idles_applyReroutes start q)

theorem worked_reroutedWork (s : State) : Worked (Work.start s) (reroutedWork s) :=
  ((worked_makeTests _).trans (.foldl _ (fun w q => worked_applyReroutes q w) _ _)).trans (worked_admitFreed _)

/-- A follow due of the position and kind is yet to be taken. -/
structure Work.Owes (w : Work) (p : Position) (k : PortKind) (A : Prop) (s : State) : Prop where
  idles : w.s.Idles p k (fun x => x.due = true) A
  worked : Worked (Work.start s) w

/-- The position's claim has been made, with its standing one of `S`; where it waited for no line of the kind and is on the band, it is served. -/
structure Work.Paid (w : Work) (p : Position) (k : PortKind) (S : Standing → Prop) (A : Prop) (s : State) : Prop where
  stood : w.s.Stood p k S
  served : A → ∀ b, (s.freqOf p).band = some b → s.present p = true → w.Served p k b
  worked : Worked (Work.start s) w

theorem onBand_of_worked {v : Work} {C : Route → Prop} {m : Line} (worked : Worked v w) (band : (v.s.freqOf p).band = some b)
    (covering : ∀ r, C r → v.s.covers r b = true) (anchored : w.s.Anchored p k C m) : w.s.OnBand p k b C m where
  band := by
    rw [State.freqOf, worked.moved.freq (by decide)]
    exact band
  covering r own := (covers_of_table (worked.moved.table (by decide)) r b).trans (covering r own)
  anchored := anchored

/-- A claim that is called for out of safe state. -/
theorem paid_claimIfNeeded (idles : w.s.Idles p k S A) (settle : ∀ x, S x → S x.settled) (worked : Worked (Work.start s) w) (out : s.safe = false) :
    (claimIfNeeded p k w).Paid p k S (A ∧ s.isReady = true) s := by
  have safe : w.s.safe = false := (safe_of_worked worked).trans out
  have claimed := claimed_claimIfNeeded (p := p) (k := k) idles.keyed safe
  have stood : w.s.Stood p k S := ⟨idles.keyed, safe, idles.stands⟩
  refine ⟨stood.claimed settle claimed, fun ⟨alone, ready⟩ b band present => ?_, worked.trans claimed.worked⟩
  have ready' : w.s.isReady = true := by
    rw [State.isReady, worked.moved.store (by decide)]
    exact ready
  have present' : w.s.present p = true := (worked.moved.links p).present.trans present
  have band' : (w.s.freqOf p).band = some b := by
    rw [State.freqOf, worked.moved.freq (by decide)]
    exact band
  obtain ⟨m, anchored⟩ | noted := served_claimIfNeeded idles.keyed safe ready' (idles.waits alone) present' band'
  · exact .inl ⟨_, m, onBand_of_worked claimed.worked band' (fun _ own => own) anchored⟩
  · exact .inr ⟨claimed.keyed, (safe_of_worked claimed.worked).trans safe, noted⟩

theorem Work.Owes.paid (owes : w.Owes p k A s) (out : s.safe = false) :
    (takeDue p k w).Paid p k (fun x => x.due = false) (A ∧ s.isReady = true) s := by
  have cleared : (setDue p k false w).s.Idles p k (fun x => x.due = false) A := owes.idles.restood fun _ _ => rfl
  have taken : takeDue p k w = claimIfNeeded p k (setDue p k false w) := if_pos owes.idles.stands
  rw [taken]
  exact paid_claimIfNeeded cleared (fun _ _ => rfl) (owes.worked.trans (worked_setDue p k false w)) out

theorem Work.Owes.others (owes : w.Owes p k A s) {q : Position} {j : PortKind} (other : Others p k q j) : (takeDue q j w).Owes p k A s :=
  ⟨(claimsKeep_idles other).takeDue owes.idles, owes.worked.trans (worked_takeDue q j w)⟩

theorem takeDue_eq (q : Position) (j : PortKind) (w : Work) : takeDue q j w = w ∨ takeDue q j w = claimIfNeeded q j (setDue q j false w) := by
  unfold takeDue
  split
  · exact .inr rfl
  · exact .inl rfl

theorem Work.Paid.others (paid : w.Paid p k (fun x => x.due = false) A s) {q : Position} {j : PortKind} (other : Others p k q j) :
    (takeDue q j w).Paid p k (fun x => x.due = false) A s := by
  refine ⟨?_, fun alone b band present => ?_, paid.worked.trans (worked_takeDue q j w)⟩
  · obtain same | claim := takeDue_eq q j w
    · rw [same]
      exact paid.stood
    · rw [claim]
      have restood : (setDue q j false w).s.Stood p k fun x => x.due = false := paid.stood.restood fun own kind => absurd ⟨own, kind⟩ other
      exact restood.claimed (fun _ _ => rfl) (claimed_claimIfNeeded restood.keyed restood.out)
  · refine (paid.served alone b band present).imp ?_ Noted.takeDue
    rintro ⟨C, m, on⟩
    exact ⟨C, m, onBand_of_worked (worked_takeDue q j w) on.band on.covering ((claimsKeep_anchored other).takeDue on.anchored)⟩

/-- The allocator takes the end of safe state: each follow due (R86). -/
theorem followDue_allocExit (idles : s.Idles p k (fun x => x.due = true) A) (out : s.safe = false) (ready : s.isReady = true) :
    (allocExit s).Stood p k (fun x => x.due = false) ∧
      (A → ∀ b, (s.freqOf p).band = some b → s.present p = true → (allocExit s).ServedOn p k b) := by
  have owes : (reroutedWork s).Owes p k A s := ⟨idles_reroutedWork idles, worked_reroutedWork s⟩
  have paid : (eachPort takeDue (reroutedWork s)).Paid p k (fun x => x.due = false) (A ∧ s.isReady = true) s :=
    eachPort_turn (I := fun w => w.Owes p k A s) (J := fun w => w.Paid p k (fun x => x.due = false) (A ∧ s.isReady = true) s)
      (fun _ _ _ other owes => owes.others other) (fun _ owes => owes.paid out) (fun _ _ _ other paid => paid.others other) owes
  have keep := eventsKeep_stood (p := p) (k := k) (S := fun x => x.due = false) (fun _ _ => rfl) fun _ due => due
  show (handOn (closeWork s (reclaims (admitFreed (eachPort takeDue (reroutedWork s)))))).Stood p k _ ∧ _
  refine ⟨keep.handOn (keep.closeWork s (keep.reclaimed (keep.admits _ paid.stood))), fun alone b band present => ?_⟩
  exact servedOn_of_reclaimed (paid.served ⟨alone, ready⟩ b band present) ((paid.worked.moved.links p).present.trans present) s

end Sys2Proof.Machine
end

section
/-! Safe state with nobody on the air: what ends without a latch tells nobody anything (R46, R101, R145). -/

namespace Sys2Proof.Machine

variable {s t : State} {w : Work}

/-- Safe state, with nobody on the air. -/
structure State.Muted (s : State) : Prop where
  safe : s.safe = true
  off : ∀ q, s.onAir q = false

theorem State.Muted.of_moved {ps : List Part} (muted : s.Muted) (moved : Moved ps s t) (out : Part.tx ∉ ps ∧ Part.log ∉ ps) : t.Muted where
  safe := (congrArg FaultLog.safe (moved.log out.2)).trans muted.safe
  off q := by
    rw [State.onAir, State.txOf, moved.tx out.1]
    exact muted.off q

theorem muted_of_safeInhibited (safe : s.safe = true) (inhibited : s.SafeInhibited) : s.Muted where
  safe := safe
  off q := by
    have out := inhibited safe q
    simpa [State.inhibit] using out

/-! ## The interlock -/

theorem moved_arbiterPass_of_safe : ∀ (ps : List Position) (s : State), s.safe = true → Moved [.tx] s (arbiterPass ps s).1
  | [], s, _ => .refl _ s
  | p :: ps, s, safe => by
    rw [arbiterPass, judge_of_safe safe]
    exact (moved_mapTx s p _).trans (moved_arbiterPass_of_safe ps _ safe)

theorem moved_arbiter_of_safe (safe : s.safe = true) : Moved [.tx] s (arbiter s) := by
  rw [arbiter_of_safe safe]
  exact moved_arbiterPass_of_safe _ s safe

theorem State.Muted.arbiter (muted : s.Muted) : (arbiter s).Muted where
  safe := (congrArg FaultLog.safe ((moved_arbiter s).log (by decide))).trans muted.safe
  off q := by
    rw [State.onAir, txOf_arbiter_of_safe muted.safe]
    split <;> exact muted.off q

theorem takeTxiEvent_of_muted (muted : s.Muted) (e : TxiEvent) : Moved [.tx] s (takeTxiEvent e s) ∧ (takeTxiEvent e s).Muted := by
  have still : Moved [.tx] s s ∧ s.Muted := ⟨.refl _ s, muted⟩
  have run : Moved [.tx] s (arbiter s) ∧ (arbiter s).Muted := ⟨moved_arbiter_of_safe muted.safe, muted.arbiter⟩
  cases e with
  | connected p => exact run
  | switchingEnded p => exact run
  | revoke p =>
    have same : takeTxiEvent (.revoke p) s = s := if_neg (by simp [muted.off p])
    rwa [same]
  | mainRelease p =>
    have off := muted.off p
    rw [State.onAir] at off
    have same : takeTxiEvent (.mainRelease p) s = s := by
      show takeMainRelease p s = s
      unfold takeMainRelease
      split
      · next state => rw [state] at off; cases off
      · next state => rw [state] at off; cases off
      · rfl
    rwa [same]

theorem takeTxiEvents_of_muted : ∀ (es : List TxiEvent) {s : State}, s.Muted → Moved [.tx] s (takeTxiEvents es s) ∧ (takeTxiEvents es s).Muted
  | [], s, muted => ⟨.refl _ s, muted⟩
  | e :: es, s, muted => by
    obtain ⟨one, muted'⟩ := takeTxiEvent_of_muted muted e
    obtain ⟨others, muted''⟩ := takeTxiEvents_of_muted es muted'
    exact ⟨one.trans others, muted''⟩

/-! ## The allocator's notices -/

theorem notes_admitFreed (w : Work) : (admitFreed w).notes = w.notes :=
  AdmissionsKeep.admitAll (K := fun _ => True) (I := fun v => v.notes = w.notes) (N := fun _ _ => True)
    ⟨fun _ _ _ _ _ _ => trivial, fun _ same _ _ _ _ => same,
      fun _ same _ _ _ _ _ _ x _ _ _ _ => (goBreaking_hands _ x.line _).1.trans same⟩ (fun _ => trivial) (fun _ _ same => same) _ rfl

theorem notes_reclaimOne_of_safe (safe : w.s.safe = true) (q : Position) (j : PortKind) : (reclaimOne q j w).notes = w.notes := by
  cases named : (w.s.standing q j).reclaim with
  | none => simp only [reclaimOne, named]
  | some l =>
    cases held : w.s.recordAt q l with
    | none =>
      rw [reclaimOne_of_safe safe named held]
      rfl
    | some h => simp only [reclaimOne, named, held, Option.isNone_some, Bool.false_eq_true, if_false]

theorem notes_reclaims_of_safe (safe : w.s.safe = true) : (reclaims w).notes = w.notes := by
  unfold reclaims eachPort
  generalize allPositions = qs
  induction qs generalizing w with
  | nil => rfl
  | cons q qs ih =>
    have main : (reclaimOne q .main w).s.safe = true := (safe_of_worked (worked_reclaimOne q .main w)).trans safe
    have aux : (reclaimOne q .aux (reclaimOne q .main w)).s.safe = true := (safe_of_worked (worked_reclaimOne q .aux _)).trans main
    rw [List.foldl_cons, ih aux, notes_reclaimOne_of_safe main, notes_reclaimOne_of_safe safe]

theorem notes_removeWhere (t : Holder → Bool) (w : Work) : (removeWhere t w).notes = w.notes := by
  unfold removeWhere
  generalize w.s.alloc.records.filter t = xs
  induction xs generalizing w with
  | nil => rfl
  | cons x xs ih => exact ih (removeRecord x.pos x.line w)

/-- The end of an operation without a latch tells nobody, and hands nothing over. -/
theorem endWithoutLatch_of_muted (muted : s.Muted) : Moved [.alloc, .chain, .tx] s (endWithoutLatch s) ∧ (endWithoutLatch s).Muted := by
  have removes (w : Work) : Worked w (removeWhere (fun r => r.state = .breaking && neverClosed r w.s) w) := worked_removeWhere _ w
  generalize start : removeWhere (fun r => r.state = .breaking && neverClosed r (Work.start s).s) (Work.start s) = u
  have worked : Worked (Work.start s) u := start ▸ removes _
  have admitted := worked.trans (worked_admitFreed u)
  have silent : (closeWork s (reclaims (admitFreed u))).notes = [] := by
    obtain ⟨es, -, notes, -⟩ := closeWork_eq s (reclaims (admitFreed u))
    rw [notes, notes_admitFreed, notes_reclaims_of_safe ((safe_of_worked admitted).trans muted.safe), notes_admitFreed, ← start, notes_removeWhere]
    rfl
  have moved : Moved [.alloc, .chain] s (closeWork s (reclaims (admitFreed u))).s := by
    rw [← start]
    exact moved_event removes s
  have ended : allocEnd s = takeTxiEvents (closeWork s (reclaims (admitFreed u))).events (closeWork s (reclaims (admitFreed u))).s := by
    rw [← handOn_of_quiet silent, ← start]
    rfl
  have event : Moved [.alloc, .chain, .tx] s (allocEnd s) ∧ (allocEnd s).Muted := by
    rw [ended]
    obtain ⟨taken, muted'⟩ := takeTxiEvents_of_muted (closeWork s (reclaims (admitFreed u))).events (muted.of_moved moved (by decide))
    exact ⟨(moved.mono (by decide)).trans (taken.mono (by decide)), muted'⟩
  exact ⟨event.1.trans ((moved_arbiter_of_safe event.2.safe).mono (by decide)), event.2.arbiter⟩

end Sys2Proof.Machine
end

section
/-! Obligation O59: the start rule, VERIFY and RESYNC, and the exit (sections 7.4, 7.5, 7.7 and 8.6). -/

namespace Sys2Proof.Machine

section

variable {s : State} {o : Operation}

/-! ## The verify timer and the fill (R144, R145) -/

theorem exec_verifyTimerExpiry_of_running (powered : s.powered = true) (running : s.chain.verifyTimer.isSome = true) :
    exec .verifyTimerExpiry s = .next (startRule
      (if (s.mapChain fun c => { c with verifyTimer := none }).mayVerify
        then startVerify .ordinary (s.mapChain fun c => { c with verifyTimer := none })
        else s.mapChain fun c => { c with verifyTimer := none })) := by
  show execVerifyTimerExpiry s = _
  unfold execVerifyTimerExpiry
  rw [wholeStep_of_powered _ powered]
  simp only [running, if_true]
  rw [closeStep_of_tx]
  · split <;> rfl
  · split <;> rfl

theorem mayVerify_iff : (s.mapChain fun c => { c with verifyTimer := none }).mayVerify = true ↔ s.chain.op = none ∧ s.chain.content ≠ none ∧
    s.chain.pending = s.chain.latched ∧ s.chain.heldForEntry = false ∧ s.safe = false := by
  have safe : (s.mapChain fun c => { c with verifyTimer := none }).safe = s.safe := rfl
  simp only [State.mayVerify, safe, mapChain_chain, Bool.and_eq_true, Option.isNone_iff_eq_none, Option.isSome_iff_ne_none,
    Bool.not_eq_true', and_assoc]
  exact and_congr_right fun _ => and_congr_right fun _ => and_congr_left fun _ => decide_eq_true_iff

theorem exec_resyncFillEnd (powered : s.powered = true) (op : s.chain.op = some o) (kind : o.kind = .resync) (phase : o.phase = .filling) :
    exec .resyncFillEnd s = .next { s with chain := { s.chain with
      content := some s.chain.latched, op := some { o with phase := .checking } } } := by
  show execResyncFillEnd s = _
  have filling : s.inPhase .resync .filling = true := (inPhase_iff ..).2 ⟨o, op, kind, phase⟩
  unfold execResyncFillEnd
  rw [whilePowered, if_pos powered, if_pos filling, State.mapChain, op, Option.map_some]

/-! ## The start rule, line by line (R141, R147) -/

theorem startNothing_eq (s : State) : startNothing s = { s with chain := { s.chain with
    verifyTimer := if s.chain.verifyTimer = none ∧ 0 < s.policy.tVerify then some (1000 * s.policy.tVerify) else s.chain.verifyTimer
    attempt := s.chain.attempt.filter fun a => !a.repeatDue } } := by
  have attempt : (if s.chain.repeatDue then none else s.chain.attempt) = s.chain.attempt.filter fun a => !a.repeatDue := by
    unfold Chain.repeatDue
    cases s.chain.attempt with
    | none => rfl
    | some a => cases due : a.repeatDue <;> simp [due, Option.filter]
  have timer : (if s.chain.verifyTimer.isNone && s.policy.tVerify > 0 then some s.policy.verifyMs else s.chain.verifyTimer) =
      if s.chain.verifyTimer = none ∧ 0 < s.policy.tVerify then some (1000 * s.policy.tVerify) else s.chain.verifyTimer := by
    simp [Policy.verifyMs, Nat.mul_comm]
  rw [← attempt, ← timer]
  rfl

/-- Settles O59's part on the start rule: its first line that applies. -/
theorem startRule_lines (s : State) :
    let c := s.chain
    let running (k : OpKind) (why : Purpose) (ph : Phase) : Operation :=
      { kind := k, purpose := why, phase := ph, image := c.latched, changeSet := 0, length := s.policy.chainLength }
    let resyncs (why : Purpose) : Prop :=
      startRule s = { s with chain := { c with op := some (running .resync why .filling), verifyTimer := none } }
    (c.op.isSome = true ∨ s.store.ready = .starting → startRule s = s) ∧
    (c.op = none → s.store.ready ≠ .starting →
      if c.heldForEntry = true then startRule s = s
      else if s.safe = true ∧ c.exitRequest = true then resyncs .exit
      else if s.safe = true then startRule s = s
      else if c.content = none then resyncs (if c.attempt = none then .unknown else .retry)
      else if c.restartHold = true ∧ c.pending = 0 then s.ChangeStarts .restart (startRule s)
      else if c.pending ≠ c.latched then s.ChangeStarts .ordinary (startRule s)
      else if c.refreshDue = true then s.ChangeStarts .refresh (startRule s)
      else startRule s = { s with chain := { c with
        verifyTimer := if c.verifyTimer = none ∧ 0 < s.policy.tVerify then some (1000 * s.policy.tVerify) else c.verifyTimer
        attempt := c.attempt.filter fun a => !a.repeatDue } }) := by
  refine ⟨fun blocked => startRule_of_blocked (blocked.imp_right .inl), fun idle started => ?_⟩
  split
  · next held => exact startRule_of_blocked (.inr (.inr held))
  next free =>
  have rule := startRule_of_free idle started (Bool.eq_false_iff.2 free)
  by_cases safe : s.safe = true
  · rw [if_pos safe] at rule
    by_cases exit : s.chain.exitRequest = true
    · rw [if_pos ⟨safe, exit⟩, rule, if_pos exit]
      rfl
    · rw [if_neg (fun both => exit both.2), if_pos safe, rule, if_neg exit]
  rw [if_neg (fun both => safe both.1), if_neg safe]
  rw [if_neg safe] at rule
  split
  · next unknown =>
    rw [rule, if_pos unknown]
    rfl
  next known =>
  rw [if_neg known] at rule
  split
  · next restart =>
    rw [rule, if_pos restart]
    exact changeStarts_startChange ..
  next free =>
  rw [if_neg free] at rule
  split
  · next moves =>
    rw [rule, if_pos moves]
    exact changeStarts_startChange ..
  next still =>
  rw [if_neg still] at rule
  split
  · next due =>
    rw [rule, if_pos due]
    exact changeStarts_startChange ..
  · next clean =>
    rw [rule, if_neg clean]
    exact startNothing_eq s

/-! ## Ends of VERIFY and RESYNC (R144, R145, R149) -/

/-- The operation has ended with the latched image in the chain. -/
abbrev endedWhole (s : State) : State := endWithoutLatch (endOperation (some s.chain.latched) s)

/-- What the end of an operation that leaves the latched image in the chain makes of the driver. -/
structure Chain.EndedWhole (c d : Chain) : Prop where
  op : d.op = none
  latched : d.latched = c.latched
  content : d.content = if c.lengthDue then none else some c.latched
  attempt : d.attempt = c.attempt
  held : d.heldForEntry = c.heldForEntry
  exitRequest : d.exitRequest = c.exitRequest

theorem Chain.EndedWhole.steered {c d e : Chain} (ended : c.EndedWhole d) (steered : Steered d e) : c.EndedWhole e :=
  ⟨steered.op.trans ended.op, steered.latched.trans ended.latched, steered.content.trans ended.content, steered.attempt.trans ended.attempt,
    steered.heldForEntry.trans ended.held, steered.exitRequest.trans ended.exitRequest⟩

theorem chain_endedWhole (s : State) : s.chain.EndedWhole (endedWhole s).chain := by
  obtain ⟨attempt, held, exit, content, -⟩ := attempt_endOperation (some s.chain.latched) s
  obtain ⟨-, -, latched, -⟩ := chain_endOperation (some s.chain.latched) s
  have ended : s.chain.EndedWhole (endOperation (some s.chain.latched) s).chain := ⟨op_endOperation _ s, latched, content, attempt, held, exit⟩
  exact ended.steered (steered_endWithoutLatch _)

theorem moved_endedWhole (s : State) : Moved allocParts s (endedWhole s) :=
  ((moved_endOperation _ s).mono (by decide)).trans (moved_endWithoutLatch _)

/-- The close of a step that begins no RESTART, up to its start rule. -/
structure Closed (u v : State) : Prop where
  moved : Moved (.store :: allocParts) u v
  steered : Steered u.chain v.chain
  ready : v.store.ready = u.store.ready

theorem closed_of_released {u : State} (released : s.store.ready = .starting → u.store.restartRaw = false) :
    ∃ v, closeStep s u = startRule v ∧ Closed u v := by
  obtain ⟨v, eq, moved, steered, ready⟩ := closeStep_of_released released
  exact ⟨v, eq, moved, steered, ready⟩

theorem Closed.safe {u v : State} (closed : Closed u v) : v.safe = u.safe := congrArg FaultLog.safe (closed.moved.log (by decide))

theorem Closed.started {u v : State} (closed : Closed u v) : Moved (.store :: allocParts) u (startRule v) :=
  closed.moved.trans ((moved_startRule v).mono (by decide))

theorem ready_startRule (v : State) : (startRule v).store.ready = v.store.ready := by rw [(moved_startRule v).store (by decide)]

/-- The driver holds the latched image, but for a length written meanwhile, and relays are as they were. -/
def Chain.Holds (c d : Chain) : Prop := d.latched = c.latched ∧ d.content = if c.lengthDue then none else some c.latched

theorem Chain.Holds.started {c : Chain} {u v : State} (holds : c.Holds u.chain) (closed : Closed u v) : c.Holds (startRule v).chain := by
  have kept := startKept_startRule v
  exact ⟨kept.latched.trans (closed.steered.latched.trans holds.1), kept.content.trans (closed.steered.content.trans holds.2)⟩

theorem readies_endedWhole (s : State) : Readies s (endedWhole s) := readies_endWithoutLatch _ s

/-- The end of a VERIFY (R144, R152). -/
theorem verifyEnd_ends (powered : s.powered = true) (op : s.chain.op = some o) (kind : o.kind = .verify) (phase : o.phase = .shifting)
    (released : s.store.ready = .starting → s.store.restartRaw = false) :
    ∃ t, exec .verifyEnd s = .next t ∧ Moved (.store :: allocParts) s t ∧ s.chain.Holds t.chain ∧ t.chain.attempt = none ∧
      (o.purpose = .startUp → t.store.ready ≠ .starting) := by
  have runs := exec_verifyEnd powered
  have shifting : s.inPhase .verify .shifting = true := (inPhase_iff ..).2 ⟨o, op, kind, phase⟩
  have purpose : s.purpose = some o.purpose := by rw [State.purpose, op]; rfl
  rw [if_pos shifting, purpose] at runs
  have ended := moved_endedWhole s
  have closes : Moved [.chain] (endedWhole s) (closeAttempt (endedWhole s)) := moved_closeAttempt _
  have chain := (chain_endedWhole s)
  have attempted : (closeAttempt (endedWhole s)).chain = { (endedWhole s).chain with attempt := none } := rfl
  generalize after : (if some o.purpose = some Purpose.startUp then endStartUp (closeAttempt (endedWhole s)) else closeAttempt (endedWhole s)) = u
    at runs
  have moved : Moved (.store :: allocParts) s u := by
    rw [← after]
    split
    · exact (ended.mono (by decide)).trans ((closes.mono (by decide)).trans ((moved_endStartUp _).mono (by decide)))
    · exact (ended.mono (by decide)).trans (closes.mono (by decide))
  have same : u.chain = { (endedWhole s).chain with attempt := none } := by
    rw [← after]
    split
    · rw [(moved_endStartUp _).chain (by decide), attempted]
    · exact attempted
  have readies : Readies s u := by
    have kept : Readies s (closeAttempt (endedWhole s)) := (readies_endedWhole s).trans (readies_of_moved closes (by decide))
    rw [← after]
    split
    · exact kept.trans (readies_endStartUp _)
    · exact kept
  obtain ⟨v, closed, close⟩ := closed_of_released (u := u) fun starting => readies.2.trans (released starting)
  refine ⟨startRule v, by rw [← closed]; exact runs, moved.trans close.started, ?_, ?_, fun startUp => ?_⟩
  · have holds : s.chain.Holds u.chain := by rw [same]; exact ⟨chain.latched, chain.content⟩
    exact holds.started close
  · exact attempt_startRule_of_none (by rw [close.steered.attempt, same])
  · rw [ready_startRule, close.ready, ← after, if_pos (congrArg some startUp)]
    exact started_endStartUp _

/-! ## The pass of a RESYNC (R145, R147, R152, R167) -/

theorem exec_resyncPass_of_running (powered : s.powered = true) (op : s.chain.op = some o) (kind : o.kind = .resync) (phase : o.phase = .checking) :
    exec .resyncPass s = .next (closeStep s (afterResync (some o.purpose) (endedWhole s))) := by
  have checking : s.inPhase .resync .checking = true := (inPhase_iff ..).2 ⟨o, op, kind, phase⟩
  rw [exec_resyncPass powered, if_pos checking, State.purpose, op, Option.map_some]

/-- The exit request is cleared. -/
abbrev requestCleared (s : State) : State := s.mapChain fun c => { c with exitRequest := false }

theorem taken_raiseExit (empty : s.inbox = []) (passed : Bool) : { raiseExit passed s with inbox := [] } = s := by
  cases s
  cases empty
  rfl

theorem endExit_of_empty (empty : s.inbox = []) (passed : Bool) : endExit passed s = takeExitResult passed (requestCleared s) := by
  have raised : (raiseExit passed (requestCleared s)).inbox = [.exitResult passed] := by
    show s.inbox ++ _ = _
    rw [empty]
    rfl
  rw [endExit, drainExit_of_result raised nofun, taken_raiseExit (s := requestCleared s) empty]

/-- An exit's result is taken at once, or waits behind an occurrence (R148, R167). -/
theorem endExit_cases (head : ∀ b r, s.inbox ≠ .exitResult b :: r) (passed : Bool) :
    endExit passed s = takeExitResult passed (requestCleared s) ∨ endExit passed s = raiseExit passed (requestCleared s) := by
  match waits : s.inbox with
  | [] => exact .inl (endExit_of_empty waits passed)
  | .occurred x :: rest => exact .inr (endExit_of_occurred waits passed)
  | .exitResult b :: r => exact absurd waits (head b r)

theorem steered_leaveSafe (s : State) : Steered s.chain (leaveSafe s).chain := by
  have told := (moved_mapLog s fun l => { l with safe := false }).mono (qs := [.log, .links, .inbox]) (by decide)
  have told := told.trans ((moved_notifyAll (.safe false) _).mono (by decide))
  exact ((steered_of_moved told (by decide)).trans (steered_allocEvent worked_allocExit _)).trans (steered_of_moved (moved_arbiter _) (by decide))

theorem takeExitResult_cases (passed : Bool) (s : State) :
    ∃ l, takeExitResult passed s = { s with log := l } ∨ takeExitResult passed s = leaveSafe { s with log := l } := by
  cases passed with
  | false => exact ⟨_, .inl rfl⟩
  | true =>
    cases spoiled : s.log.exitSpoiled with
    | true => exact ⟨{ s.log with exitPending := false, exitSpoiled := false }, .inl (by simp [takeExitResult, spoiled, State.mapLog])⟩
    | false => exact ⟨{ s.log with exitPending := false }, .inr (by simp [takeExitResult, spoiled, State.mapLog])⟩

theorem steered_takeExitResult (passed : Bool) (s : State) : Steered s.chain (takeExitResult passed s).chain := by
  obtain ⟨l, same | left⟩ := takeExitResult_cases passed s
  · rw [same]
    exact .refl _
  · rw [left]
    exact steered_leaveSafe { s with log := l }

theorem endExit_leaves (head : ∀ b r, s.inbox ≠ .exitResult b :: r) (passed : Bool) :
    Moved logParts s (endExit passed s) ∧ Steered (requestCleared s).chain (endExit passed s).chain := by
  have cleared : Moved [.chain] s (requestCleared s) := moved_mapChain ..
  obtain taken | waits := endExit_cases head passed
  · rw [taken]
    exact ⟨(cleared.mono (by decide)).trans (moved_takeExitResult ..), steered_takeExitResult ..⟩
  · rw [waits]
    exact ⟨(cleared.mono (by decide)).trans ((moved_raiseExit ..).mono (by decide)), .refl _⟩

theorem head_endedWhole (head : ∀ b r, s.inbox ≠ .exitResult b :: r) (b : Bool) (r : List LogEvent) : (endedWhole s).inbox ≠ .exitResult b :: r :=
  (grows_of_none ((acts_endOperation (some s.chain.latched) s).trans (acts_endWithoutLatch _))).head head b r

/-- What a RESYNC's pass leaves, whatever its purpose. -/
structure Passed (s u : State) : Prop where
  moved : Moved (.store :: logParts) s u
  holds : s.chain.Holds u.chain
  idle : u.chain.op = none
  readies : Readies s u

theorem holds_endedWhole (s : State) : s.chain.Holds (endedWhole s).chain := ⟨(chain_endedWhole s).latched, (chain_endedWhole s).content⟩

theorem passed_afterResync (head : ∀ b r, s.inbox ≠ .exitResult b :: r) (why : Purpose) : Passed s (afterResync (some why) (endedWhole s)) := by
  have ended : Moved (.store :: logParts) s (endedWhole s) := (moved_endedWhole s).mono (by decide)
  have readies : Readies s (afterResync (some why) (endedWhole s)) := (readies_endedWhole s).trans (readies_afterResync _ _)
  obtain ⟨latched, content⟩ := holds_endedWhole s
  have idle := (chain_endedWhole s).op
  obtain ⟨exits, steered⟩ := endExit_leaves (head_endedWhole head) true
  generalize endedWhole s = e at *
  have closes (e : State) : Moved (.store :: logParts) e (closeAttempt e) := (moved_closeAttempt e).mono (by decide)
  suffices Moved (.store :: logParts) e (afterResync (some why) e) ∧ (afterResync (some why) e).chain.latched = e.chain.latched ∧
      (afterResync (some why) e).chain.content = e.chain.content ∧ (afterResync (some why) e).chain.op = e.chain.op by
    obtain ⟨moved, latched', content', idle'⟩ := this
    exact ⟨ended.trans moved, ⟨latched'.trans latched, content'.trans content⟩, idle'.trans idle, readies⟩
  cases why with
  | exit => exact ⟨exits.mono (by decide), steered.latched, steered.content, steered.op⟩
  | retry =>
    show Moved (.store :: logParts) e (afterRetry e) ∧ (afterRetry e).chain.latched = _ ∧ (afterRetry e).chain.content = _ ∧
      (afterRetry e).chain.op = _
    unfold afterRetry
    split
    · exact ⟨(moved_mapChain e _).mono (by decide), rfl, rfl, rfl⟩
    · have started := moved_endStartUp (closeAttempt e)
      rw [started.chain (by decide)]
      exact ⟨(closes e).trans (started.mono (by decide)), rfl, rfl, rfl⟩
  | _ => exact ⟨closes e, rfl, rfl, rfl⟩

/-! ## What the close of the step starts (R141, R147) -/

/-- A CHANGE whose repeat is due is started again. -/
theorem startRule_repeats {v : State} (idle : v.chain.op = none) (started : v.store.ready ≠ .starting) (free : v.chain.heldForEntry = false)
    (out : v.safe = false) (known : v.chain.content ≠ none) (attempt : v.chain.attempt = some { kind := .change, repeatDue := true })
    (moves : (startRule v).chain.pending ≠ (startRule v).chain.latched) :
    (∃ c, (startRule v).chain.op = some c ∧ c.kind = .change ∧ c.image = (startRule v).chain.pending) ∧
      (startRule v).chain.attempt = some { kind := .change, repeatDue := false } := by
  have kept := startKept_startRule v
  have still : v.chain.pending ≠ v.chain.latched := by rwa [kept.pending, kept.latched] at moves
  have begun (why : Purpose) : (∃ c, (startChange why v).chain.op = some c ∧ c.kind = .change ∧ c.image = (startChange why v).chain.pending) ∧
      (startChange why v).chain.attempt = some { kind := .change, repeatDue := false } := by
    have chain := congrArg State.chain (changeStarts_startChange why v).1
    change (startChange why v).chain = _ at chain
    rw [chain, attempt]
    exact ⟨⟨_, rfl, rfl, rfl⟩, rfl⟩
  rw [startRule_of_free idle started free, if_neg (by simp [out]), if_neg known, if_pos still]
  split
  · exact begun .restart
  · exact begun .ordinary

/-! ## The exit (R86, R167, R168) -/

theorem endedWhole_of_muted (muted : s.Muted) : Moved [.alloc, .chain, .tx] s (endedWhole s) := by
  have ended : Moved [.chain] s (endOperation (some s.chain.latched) s) := moved_endOperation _ s
  exact (ended.mono (by decide)).trans (endWithoutLatch_of_muted (muted.of_moved ended (by decide))).1

theorem idles_endedWhole {p : Position} {k : PortKind} {A : Prop} (safe : s.safe = true) (idles : s.Idles p k (fun x => x.due = true) A) :
    (endedWhole s).safe = true ∧ (endedWhole s).Idles p k (fun x => x.due = true) A := by
  have keep := eventsKeep_idles_safe (p := p) (k := k) (A := A) (S := fun x => x.due = true) (fun _ due => due) fun _ _ => rfl
  have ended := keep.moved (moved_endOperation (some s.chain.latched) s) (by decide) ⟨safe, idles⟩
  unfold endedWhole endWithoutLatch
  generalize endOperation (some s.chain.latched) s = u at ended ⊢
  refine keep.moved (moved_arbiter _) (by decide) (keep.allocEvent ?_)
  have moves := deals_end (A := fun _ _ => True) trivial (fun _ _ => trivial) (Work.start u) ⟨ended.2.keyed, cover_true _⟩
  exact ⟨(safe_of_moves moves).trans ended.1, idles_removeWhere (w := Work.start u) ended.2 (allocationKeyed_moves moves ended.2.keyed)⟩

/-- Each follow due, as safe state is left (R86, R168). -/
theorem followDue_leaveSafe {p : Position} {k : PortKind} {A : Prop} (ready : s.isReady = true) (idles : s.Idles p k (fun x => x.due = true) A) :
    (leaveSafe s).Stood p k (fun x => x.due = false) ∧
      (A → ∀ b, (s.freqOf p).band = some b → s.present p = true → (leaveSafe s).ServedOn p k b) := by
  unfold leaveSafe
  dsimp only
  have idles : (s.mapLog fun l => { l with safe := false }).Idles p k (fun x => x.due = true) A :=
    idles.of_same rfl rfl
  have out : (s.mapLog fun l => { l with safe := false }).safe = false := rfl
  have ready : (s.mapLog fun l => { l with safe := false }).isReady = true := ready
  have same : (s.mapLog fun l => { l with safe := false }).freq = s.freq := rfl
  have alike (p : Position) : (s.mapLog fun l => { l with safe := false }).present p = s.present p := rfl
  generalize s.mapLog (fun l => { l with safe := false }) = u at idles out ready same alike ⊢
  have told := moved_notifyAll (.safe false) u
  have present : (notifyAll (.safe false) u).present p = s.present p := (told.links p).present.trans (alike p)
  have idles := idles.same (resembles_of_moved told (by decide))
  have out : (notifyAll (.safe false) u).safe = false := (congrArg FaultLog.safe (told.log (by decide))).trans out
  have ready : (notifyAll (.safe false) u).isReady = true := by
    rw [State.isReady, told.store (by decide)]
    exact ready
  have freq : (notifyAll (.safe false) u).freqOf p = s.freqOf p := by rw [State.freqOf, told.freq (by decide), same, State.freqOf]
  obtain ⟨stood, served⟩ := followDue_allocExit idles out ready
  rw [freq, present] at served
  have run := moved_arbiter (allocExit (notifyAll (.safe false) u))
  have keep := eventsKeep_stood (p := p) (k := k) (S := fun x => x.due = false) (fun _ _ => rfl) fun _ due => due
  exact ⟨keep.moved run (by decide) stood, fun alone b band here => (served alone b band here).moved run (by decide)⟩

/-- The EXIT RESYNC's result, taken at its pass with nothing before it (R86, R167, R168). -/
theorem exit_taken (empty : s.inbox = []) (safe : s.safe = true) (inhibited : s.SafeInhibited) :
    let t := closeStep s (afterResync (some .exit) (endedWhole s))
    t.log.exitPending = false ∧ t.log.exitSpoiled = false ∧ (t.safe = true ↔ s.log.exitSpoiled = true) ∧
      (s.log.exitSpoiled = false → s.isReady = true → s.AllocationKeyed → ∀ p k, (s.standing p k).due = true →
        (t.standing p k).due = false ∧ (s.WaitsNowhere p → t.Followed p k)) ∧
      (s.log.exitSpoiled = false → ∀ q, s.present q = true → (s.link q).queue.length < 6 →
        (s.link q).queue ++ [{ kind := 0x46, payload := [1] }] <+: (t.link q).queue) := by
  have ended := endedWhole_of_muted (muted_of_safeInhibited safe inhibited)
  have stop : (endedWhole s).inbox = [] := (ended.same .inbox (by decide)).trans empty
  have quiet : Moved [.alloc, .chain, .tx] s (requestCleared (endedWhole s)) := ended.trans ((moved_mapChain (endedWhole s) _).mono (by decide))
  have taken : afterResync (some .exit) (endedWhole s) = takeExitResult true (requestCleared (endedWhole s)) := endExit_of_empty stop true
  have result := resultTaken_takeExitResult true (requestCleared (endedWhole s))
  have idles {p : Position} {k : PortKind} (keyed : s.AllocationKeyed) (due : (s.standing p k).due = true) :
      (requestCleared (endedWhole s)).Idles p k (fun x => x.due = true) (s.WaitsNowhere p) :=
    (idles_endedWhole safe ⟨keyed, due, fun alone l _ => alone l⟩).2.of_same rfl rfl
  have moved := (passed_afterResync (s := s) (fun b r is => nomatch empty.symm.trans is) .exit).moved
  rw [taken] at moved ⊢
  generalize requestCleared (endedWhole s) = y at *
  have log : y.log = s.log := quiet.log (by decide)
  have store : y.store = s.store := quiet.store (by decide)
  have ready : (takeExitResult true y).store.ready = s.store.ready := congrArg Store.ready (result.store.trans store)
  have closed := moved_closeStep s _ ready
  obtain ⟨clear, left, told⟩ := result.passed rfl ((congrArg FaultLog.safe log).trans safe)
  rw [log] at left told
  have leaves (unspoiled : s.log.exitSpoiled = false) : takeExitResult true y = leaveSafe (y.mapLog fun l => { l with exitPending := false }) := by
    simp [takeExitResult, log, unspoiled]
  refine ⟨?_, ?_, ?_, fun unspoiled inReady keyed p k due => ?_, fun unspoiled q present room => ?_⟩
  · rw [log_closeStep ready]
    exact result.pending
  · rw [log_closeStep ready]
    exact clear
  · rw [State.safe, log_closeStep ready]
    exact left
  · have start : (y.mapLog fun l => { l with exitPending := false }).Idles p k (fun x => x.due = true) (s.WaitsNowhere p) :=
      (idles keyed due).of_same rfl rfl
    have inReady : (y.mapLog fun l => { l with exitPending := false }).isReady = true := by
      rw [State.isReady, show (y.mapLog fun l => { l with exitPending := false }).store = s.store from store]
      exact inReady
    obtain ⟨stood, served⟩ := followDue_leaveSafe inReady start
    have freq : (y.mapLog fun l => { l with exitPending := false }).freqOf p = s.freqOf p := by
      show y.freqOf p = _
      rw [State.freqOf, quiet.freq (by decide), State.freqOf]
    have present : (y.mapLog fun l => { l with exitPending := false }).present p = s.present p := (quiet.links p).present
    rw [← leaves unspoiled] at stood served
    rw [freq, present] at served
    have keep := eventsKeep_stood (p := p) (k := k) (S := fun x => x.due = false) (fun _ _ => rfl) fun _ due => due
    refine ⟨(keep.closeStep ready stood).stands, fun alone => followed_of_servedOn fun b band here => (served alone b ?_ ?_).closeStep ready⟩
    · have same : (closeStep s (takeExitResult true y)).freqOf p = s.freqOf p := by
        rw [State.freqOf, closed.freq (by decide), moved.freq (by decide), State.freqOf]
      rwa [same] at band
    · exact ((closed.links p).present.trans (moved.links p).present).symm.trans here
  · have link : y.link q = s.link q := congrArg (fun ls => ls.get q) (quiet.same .links (by decide))
    have queued := told unspoiled q ((quiet.links q).present.trans present) (by rwa [link])
    rw [link] at queued
    exact queued.trans (closed.links q).queue

/-! ## The ends of a RESYNC by its purpose -/

/-- The attempt of a RETRY's CHANGE goes on at the pass (R147). -/
theorem afterResync_of_change {a : Attempt} (attempt : s.chain.attempt = some a) (change : a.kind = .change) :
    afterResync (some .retry) (endedWhole s) =
      (endedWhole s).mapChain fun c => { c with attempt := c.attempt.map fun x => { x with repeatDue := true } } := by
  have kind : ((endedWhole s).chain.attempt.map (·.kind)) = some .change := by
    rw [(chain_endedWhole s).attempt, attempt, Option.map_some, change]
  exact if_pos kind

/-- Any other RETRY's attempt is closed, and a start-up sequence ends (R147, R152). -/
theorem afterResync_of_other (other : ∀ a, s.chain.attempt = some a → a.kind ≠ .change) :
    afterResync (some .retry) (endedWhole s) = endStartUp (closeAttempt (endedWhole s)) := by
  have kind : ((endedWhole s).chain.attempt.map (·.kind)) ≠ some .change := by
    rw [(chain_endedWhole s).attempt]
    cases attempt : s.chain.attempt with
    | none => nofun
    | some a => exact fun same => other a attempt (Option.some.inj same)
  exact if_neg kind

/-- The repeat of a CHANGE after its RETRY (R147). -/
theorem resyncPass_repeats {v : State} {a : Attempt} (op : s.chain.op = some o) (attempt : s.chain.attempt = some a) (change : a.kind = .change)
    (started : s.store.ready ≠ .starting) (out : s.safe = false) (free : s.chain.heldForEntry = false) (due : s.chain.lengthDue = false)
    (closed : Closed (afterResync (some .retry) (endedWhole s)) v) (moves : (startRule v).chain.pending ≠ (startRule v).chain.latched) :
    (∃ c, (startRule v).chain.op = some c ∧ c.kind = .change ∧ c.image = (startRule v).chain.pending) ∧
      (startRule v).chain.attempt = some { kind := .change, repeatDue := false } := by
  have chain := chain_endedWhole s
  have ended := moved_endedWhole s
  have steered := closed.steered
  have ready := closed.ready
  have safe := closed.safe
  rw [afterResync_of_change attempt change] at steered ready safe
  refine startRule_repeats (steered.op.trans chain.op) ?_ (steered.heldForEntry.trans (chain.held.trans free)) ?_ ?_ ?_ moves
  · rw [ready]
    show (endedWhole s).store.ready ≠ _
    rwa [ended.store (by decide)]
  · rw [safe]
    exact (congrArg FaultLog.safe (ended.log (by decide))).trans out
  · rw [steered.content]
    show (endedWhole s).chain.content ≠ none
    rw [chain.content, due]
    nofun
  · rw [steered.attempt]
    show (endedWhole s).chain.attempt.map _ = _
    rw [chain.attempt, attempt]
    cases a
    cases change
    rfl

end

/-- Settles O59: the start rule by its lines, the ends of VERIFY and RESYNC by their purposes, and the exit's follow dues. -/
theorem verifyAndResyncRun : Obligations.VerifyAndResyncRun := by
  refine ⟨fun s powered running => ⟨fun may => ?_, fun may => ?_⟩, startRule_lines, fun s o powered op kind phase => exec_resyncFillEnd powered op kind phase,
    fun s o powered op released head => ⟨fun kind phase => verifyEnd_ends powered op kind phase released, fun kind phase => ?_⟩⟩
  · rw [exec_verifyTimerExpiry_of_running powered running, if_pos (mayVerify_iff.2 may)]
    exact congrArg _ (startRule_of_blocked (.inl rfl))
  · rw [exec_verifyTimerExpiry_of_running powered running, if_neg fun on => may (mayVerify_iff.1 on)]
    rfl
  · have passed := passed_afterResync head o.purpose
    obtain ⟨v, eq, closed⟩ := closed_of_released (s := s) fun starting => passed.readies.2.trans (released starting)
    have attempted (none : (afterResync (some o.purpose) (endedWhole s)).chain.attempt = none) : (startRule v).chain.attempt = Option.none :=
      attempt_startRule_of_none (closed.steered.attempt.trans none)
    refine ⟨startRule v, by rw [exec_resyncPass_of_running powered op kind phase, eq], passed.moved.trans (closed.started.mono (by decide)),
      passed.holds.started closed, fun unknown => attempted (by rw [unknown]; rfl), fun retry ⟨a, attempt, change⟩ started out free due moves => ?_,
      fun retry other => ?_, fun exit => ?_, fun exit empty safe inhibited => ?_⟩
    · rw [retry] at closed
      exact resyncPass_repeats op attempt change started out free due closed moves
    · rw [retry, afterResync_of_other other] at closed attempted
      refine ⟨attempted ?_, ?_⟩
      · rw [(moved_endStartUp _).chain (by decide)]
        rfl
      · rw [ready_startRule, closed.ready]
        exact started_endStartUp _
    · rw [exit] at closed
      rw [(startKept_startRule v).exitRequest, closed.steered.exitRequest]
      exact (endExit_leaves (head_endedWhole head) true).2.exitRequest
    · rw [← eq, exit]
      exact exit_taken empty safe inhibited

end Sys2Proof.Machine
end

section
/-! The causes of the last revocations through events that revoke nobody, and filter targets (R36, R107, R139). -/

namespace Sys2Proof.Machine

variable {s t u : State} {w : Work} {p : Position}

/-! ## The interlock without a revocation -/

/-- No position has been revoked: the cause of each one's last revocation is as it was. -/
def SameCauses (s t : State) : Prop := ∀ q, (t.txOf q).lastRevocation = (s.txOf q).lastRevocation

theorem SameCauses.trans (one : SameCauses s t) (two : SameCauses t u) : SameCauses s u := fun q => (two q).trans (one q)

theorem sameCauses_of_tx (same : t.tx = s.tx) : SameCauses s t := fun q => by rw [State.txOf, same, State.txOf]

theorem SameCauses.refl (s : State) : SameCauses s s := fun _ => rfl

theorem sameCauses_foldl {α : Type} {f : State → α → State} (each : ∀ s a, SameCauses s (f s a)) : ∀ (xs : List α) (s : State), SameCauses s (xs.foldl f s)
  | [], s => .refl s
  | x :: xs, s => (each s x).trans (sameCauses_foldl each xs _)

theorem sameCauses_mapTx {f : TxRecord → TxRecord} (kept : ∀ x, (f x).lastRevocation = x.lastRevocation) (p : Position) (s : State) :
    SameCauses s (s.mapTx p f) := fun q => by
  rw [txOf_mapTx]
  split
  · next here =>
    rw [kept, here]
  · rfl

theorem sameCauses_arbiterPass : ∀ (ps : List Position) (s : State), SameCauses s (arbiterPass ps s).1
  | [], s => .refl s
  | p :: ps, s => by
    unfold arbiterPass
    split
    · have air : SameCauses s (putOnAir p s) :=
        sameCauses_mapTx (f := fun x => { x with state := .granted, tailTimer := none, skipHang := false }) (fun _ => rfl) p s
      exact (air.trans (sameCauses_of_tx ((moved_evaluateAdvisories _).tx (by decide)))).trans (sameCauses_arbiterPass ps _)
    · next r _ => exact (sameCauses_mapTx (f := fun x => { x with reason := some r }) (fun _ => rfl) p s).trans (sameCauses_arbiterPass ps _)

theorem sameCauses_arbiterPasses : ∀ (n : Nat) (s : State), SameCauses s (arbiterPasses n s)
  | 0, s => .refl s
  | n + 1, s => by
    have one := sameCauses_arbiterPass s.waiting s
    unfold arbiterPasses
    split
    · next t pass =>
      rw [pass] at one
      exact one.trans (sameCauses_arbiterPasses n t)
    · next t pass =>
      rw [pass] at one
      exact one

theorem sameCauses_arbiter (s : State) : SameCauses s (arbiter s) := sameCauses_arbiterPasses _ s

theorem sameCauses_leaveAir (p : Position) (next : TxState) (s : State) : SameCauses s (leaveAir p next s) := fun q => by
  rw [State.txOf, leaveAir, (moved_evaluateAdvisories _).tx (by decide), tx_leaveSlot, get_put]
  split
  · next here =>
    subst here
    rfl
  · rfl

theorem sameCauses_takeTxiEvent {e : TxiEvent} (unrevoking : ∀ q, e ≠ .revoke q) (s : State) : SameCauses s (takeTxiEvent e s) := by
  cases e with
  | connected p => exact sameCauses_arbiter s
  | switchingEnded p => exact sameCauses_arbiter s
  | revoke p => exact absurd rfl (unrevoking p)
  | mainRelease p =>
    show SameCauses s (takeMainRelease p s)
    unfold takeMainRelease
    split
    · exact sameCauses_mapTx (f := fun x => { x with skipHang := true }) (fun _ => rfl) p s
    · exact (sameCauses_leaveAir p .idle s).trans (sameCauses_arbiter _)
    · exact .refl s

theorem sameCauses_takeTxiEvents : ∀ (es : List TxiEvent) (s : State), (∀ e ∈ es, ∀ q, e ≠ .revoke q) → SameCauses s (takeTxiEvents es s)
  | [], s, _ => .refl s
  | e :: es, s, unrevoking => (sameCauses_takeTxiEvent (unrevoking e List.mem_cons_self) s).trans
      (sameCauses_takeTxiEvents es _ fun e mem => unrevoking e (List.mem_cons_of_mem _ mem))

theorem sameCauses_reportEvent (s : State) : SameCauses s (reportEvent s) :=
  (sameCauses_arbiter s).trans (sameCauses_of_tx ((moved_evaluateAdvisories _).tx (by decide)))

/-! ## The allocator's events, and the close of a step -/

theorem sameCauses_allocEvent {f : Work → Work} (worked : ∀ w, Worked w (f w)) (unrevoking : Unrevoking (Work.start s) (f (Work.start s))) :
    SameCauses s (allocEvent f s) := by
  obtain ⟨es, events, out⟩ := unrevoking.trans (unrevoking_eventWork (f := f) s)
  have own : ∀ e ∈ (eventWork f s).events, ∀ q, e ≠ .revoke q := fun e mem => by
    rw [events] at mem
    exact out e ((List.mem_append.1 mem).resolve_left nofun)
  have told := sameCauses_of_tx ((moved_notifyEach (eventWork f s).grants (eventWork f s).s).tx (by decide))
  have losses := sameCauses_of_tx ((moved_notifyEach (eventWork f s).losses
    (takeTxiEvents (eventWork f s).events (notifyEach (eventWork f s).grants (eventWork f s).s))).tx (by decide))
  exact (((sameCauses_of_tx ((moved_event worked s).tx (by decide))).trans told).trans (sameCauses_takeTxiEvents _ _ own)).trans losses

theorem sameCauses_pathQuietEvent (q : Position) (s : State) : SameCauses s (pathQuietEvent q s) :=
  (sameCauses_allocEvent (f := fun w => applyReroutes q (requestBreaks q w)) (fun w => (worked_requestBreaks q w).trans (worked_applyReroutes q _))
    (unrevoking_quietWork q s)).trans (sameCauses_of_tx ((moved_filterMove q _).tx (by decide)))

theorem sameCauses_quietEvents (b : State) : ∀ (n : Nat) (d : List Position) (s : State), SameCauses s (quietEvents b n d s)
  | 0, _, s => .refl s
  | n + 1, d, s => by
    unfold quietEvents
    split
    · exact (sameCauses_pathQuietEvent _ s).trans (sameCauses_quietEvents b n _ _)
    · exact .refl s

theorem sameCauses_closeStep {b : State} (ready : s.store.ready = b.store.ready) : SameCauses s (closeStep b s) := by
  rw [closeStep, watchPin_same b s ready]
  exact (sameCauses_quietEvents b _ _ _).trans (sameCauses_of_tx ((moved_startRule _).tx (by decide)))

/-! ## Band changes (R84) -/

theorem unrevoking_followBand (p : Position) (k : PortKind) (w : Work) : Unrevoking w (followBand p k w) := by
  unfold followBand
  split
  · split
    · split
      · exact unrevoking_calledClaim ..
      · exact unrevoking_of_events rfl
    · exact unrevoking_of_events rfl
  · exact .refl w

theorem sameCauses_allocBandChange (p : Position) (s : State) : SameCauses s (allocBandChange p s) :=
  sameCauses_allocEvent (f := fun w => followBand p .aux (followBand p .main w)) (fun w => (worked_followBand p .main w).trans (worked_followBand _ _ _))
    ((unrevoking_followBand p .main (Work.start s)).trans (unrevoking_followBand p .aux _))

theorem sameCauses_bandTaken (p : Position) (s : State) : SameCauses s (bandTaken p s) := by
  have run := sameCauses_arbiter s
  unfold bandTaken
  dsimp only
  generalize arbiter s = u at run ⊢
  have steered : SameCauses u (setTarget p (u.bandFilter p) u) := sameCauses_of_tx ((moved_setTarget _ _ _).tx (by decide))
  exact (run.trans steered).trans (sameCauses_allocBandChange p _)

/-! ## Filter targets (R139) -/

theorem target_of_steered (steered : Steered s.chain t.chain) (q : Position) : (t.filterOf q).target = (s.filterOf q).target := (steered.filters q).1

theorem target_setTarget (p : Position) (f : Option FilterNo) (s : State) (q : Position) :
    ((setTarget p f s).filterOf q).target = if q = p then f else (s.filterOf q).target := by
  rw [setTarget, target_of_steered (steered_filterMove p _), filterOf_mapFilter]
  split <;> rfl

theorem steered_allocBandChange (p : Position) (s : State) : Steered s.chain (allocBandChange p s).chain :=
  steered_allocEvent (fun w => (worked_followBand p .main w).trans (worked_followBand _ _ _)) s

theorem bandFilter_of_same (freq : t.freq = s.freq) (table : t.table = s.table) (p : Position) : t.bandFilter p = s.bandFilter p := by
  rw [State.bandFilter, State.freqOf, freq, table]
  rfl

/-- The targets after a band-change event: the position's own is its band's filter. -/
theorem target_bandTaken (p : Position) (s : State) (q : Position) :
    ((bandTaken p s).filterOf q).target = if q = p then s.bandFilter p else (s.filterOf q).target := by
  have run := moved_arbiter s
  have chain : (arbiter s).filterOf q = s.filterOf q := by rw [State.filterOf, run.chain (by decide), State.filterOf]
  rw [bandTaken, target_of_steered (steered_allocBandChange p _), target_setTarget, bandFilter_of_same (run.freq (by decide)) (run.table (by decide)), chain]

end Sys2Proof.Machine
end

section
/-! Obligation O34: the re-decode behind a band write (sections 1.2 and 2.6). -/

namespace Sys2Proof.Machine

section

variable {s u : State} {p q : Position} {i : Band} {e : BandEntry}

/-! ## The entry that a band write carries (R5, R6, R185, R186) -/

theorem bandOf_bytes {cs : List Byte} (lower : e.lower < 2 ^ 24) (upper : e.upper < 2 ^ 24) (six : cs.length = 6)
    (label : e.label = cs.takeWhile fun c => c ≠ 0) :
    bandOf (bigEndian 3 e.lower ++ bigEndian 3 e.upper ++ [byte e.filter.val] ++ cs ++ [flag e.enabled]) = some e := by
  have filter : below 8 (byte e.filter.val).toNat = some e.filter := below_byte e.filter (by decide)
  have split : bigEndian 3 e.lower ++ bigEndian 3 e.upper ++ [byte e.filter.val] ++ cs ++ [flag e.enabled] =
      bigEndian 3 e.lower ++ (bigEndian 3 e.upper ++ (byte e.filter.val :: (cs ++ [flag e.enabled]))) := by simp
  have seventh : byteAt (bigEndian 3 e.lower ++ (bigEndian 3 e.upper ++ (byte e.filter.val :: (cs ++ [flag e.enabled])))) 6 =
      (byte e.filter.val).toNat := by simp [byteAt, bigEndian]
  have last : byteAt (bigEndian 3 e.lower ++ (bigEndian 3 e.upper ++ (byte e.filter.val :: (cs ++ [flag e.enabled])))) 13 =
      (flag e.enabled).toNat := by simp [byteAt, bigEndian, six]
  have low : field (bigEndian 3 e.lower ++ (bigEndian 3 e.upper ++ (byte e.filter.val :: (cs ++ [flag e.enabled])))) 0 3 = bigEndian 3 e.lower := by
    simp [field]
  have high : field (bigEndian 3 e.lower ++ (bigEndian 3 e.upper ++ (byte e.filter.val :: (cs ++ [flag e.enabled])))) 3 3 = bigEndian 3 e.upper := by
    simp [field]
  have text : field (bigEndian 3 e.lower ++ (bigEndian 3 e.upper ++ (byte e.filter.val :: (cs ++ [flag e.enabled])))) 7 6 = cs := by
    have dropped : (bigEndian 3 e.lower ++ (bigEndian 3 e.upper ++ (byte e.filter.val :: (cs ++ [flag e.enabled])))).drop 7 = cs ++ [flag e.enabled] := by
      simp [bigEndian]
    rw [field, dropped, ← six, List.take_left]
  have value {n : Nat} (small : n < 2 ^ 24) : ofBigEndian (bigEndian 3 n) = n := (ofBigEndian_bigEndian 3 n).trans (Nat.mod_eq_of_lt small)
  simp only [bandOf, split, seventh, last, low, high, text, filter, flagOf_toNat_flag, value lower, value upper, labelChars, ← label]
  rfl

theorem bandClear_iff (t : Table) : t.bandClear i e = true ↔ (e.enabled = true → ∀ j, j ≠ i → (t.bands.get j).enabled = true →
    e.upper < (t.bands.get j).lower ∨ (t.bands.get j).upper < e.lower) := by
  cases on : e.enabled with
  | false => simp [Table.bandClear, on]
  | true =>
    simp only [Table.bandClear, on, Bool.not_true, Bool.false_or, List.all_eq_true, List.mem_finRange, forall_const, true_implies,
      Bool.or_eq_true, decide_eq_true_eq, Bool.not_eq_true', overlap, Bool.and_eq_false_iff, decide_eq_false_iff_not, Nat.not_le]
    refine forall_congr' fun j => ?_
    by_cases same : j = i <;> cases (t.bands.get j).enabled <;> simp [same, or_comm]

theorem bandValid_iff : e.valid = true ↔ e.lower ≤ 600000 ∧ e.upper ≤ 600000 ∧ e.lower ≤ e.upper ∧
    ∀ c ∈ e.label, 0x20 ≤ c.toNat ∧ c.toNat ≤ 0x7E := by
  simp only [BandEntry.valid, labelOk_iff, Bool.and_eq_true, decide_eq_true_eq, and_assoc]
  exact Iff.rfl

/-! ## The records (R36, R39) -/

/-- A record that differs from another in the values last sent alone. -/
def FreqRecord.SentAgain (x y : FreqRecord) : Prop := ∃ b o st, y = { x with sentBand := b, sentOutOfBand := o, sentStale := st }

theorem FreqRecord.SentAgain.trans {x y z : FreqRecord} (one : x.SentAgain y) (two : y.SentAgain z) : x.SentAgain z := by
  obtain ⟨b', o', st', rfl⟩ := one
  obtain ⟨b, o, st, rfl⟩ := two
  exact ⟨b, o, st, rfl⟩

theorem sentAgain_bandNotice (q : Position) (s : State) (p : Position) : (s.freqOf p).SentAgain ((bandNotice q s).freqOf p) := by
  rw [freqOf_bandNotice]
  split
  · next here =>
    rw [here.1]
    exact ⟨_, _, _, rfl⟩
  · exact ⟨_, _, _, rfl⟩

theorem sentAgain_redecodeNotices (s : State) (p : Position) : (s.freqOf p).SentAgain ((redecodeNotices s).freqOf p) := by
  unfold redecodeNotices
  generalize allPositions = qs
  induction qs generalizing s with
  | nil => exact ⟨_, _, _, rfl⟩
  | cons q qs ih => exact (sentAgain_bandNotice q s p).trans (ih _)

/-- What a re-decode gives of a record (R36). -/
theorem redecoded_spec (r : FreqRecord) (bands : Vector BandEntry 12) :
    r.redecoded bands = { r with
      candidate := none
      count := 0
      band := (match r.transmit with
        | some x => decodeBand bands x
        | none => r.band.filter fun b => (bands.get b).enabled)
      outOfBand := (match r.transmit with
        | some x => (decodeBand bands x).isNone
        | none => r.outOfBand) } := by
  have same : FreqRecord.transmit { r with candidate := none, count := 0 } = r.transmit := rfl
  unfold FreqRecord.redecoded
  dsimp only
  rw [same]
  cases r.transmit with
  | some x => cases decoded : decodeBand bands x <;> simp [decoded]
  | none =>
    cases band : r.band with
    | none => simp [band]
    | some b => cases on : (bands.get b).enabled <;> simp [band, on, Option.filter]

/-! ## The parts of the re-decode -/

theorem redecodeRevokes_of_off (off : ∀ q, s.onAir q = false) (b : State) : redecodeRevokes b s = s := by
  have one (p : Position) : (if bandKept b p s then s else revoke p .band s) = s := by
    split
    · rfl
    · exact if_neg (by simp [off p])
  unfold redecodeRevokes
  generalize allPositions = qs
  induction qs with
  | nil => rfl
  | cons p qs ih => rw [List.foldl_cons, one, ih]

/-- Parts of the re-decode leave the frequency records and the table. -/
theorem moved_redecodePart (b : State) (p : Position) (s : State) : Moved allocParts s (redecodeOne b p s) := by
  unfold redecodeOne retarget
  split
  · split
    · exact (moved_setTarget _ _ _).mono (by decide)
    · exact .refl _ s
  · exact moved_bandTaken p s

theorem sameCauses_redecodeOne (b : State) (p : Position) (s : State) : SameCauses s (redecodeOne b p s) := by
  unfold redecodeOne retarget
  split
  · split
    · exact sameCauses_of_tx ((moved_setTarget _ _ _).tx (by decide))
    · exact .refl s
  · exact sameCauses_bandTaken p s

/-- A position whose band has changed, or which has one, gets its band's filter as target (R36, R37). -/
theorem target_redecodeOne (b : State) (p : Position) (s : State) (q : Position) : ((redecodeOne b p s).filterOf q).target =
    if q = p ∧ ¬(bandKept b p s = true ∧ (s.freqOf p).band = none) then s.bandFilter p else (s.filterOf q).target := by
  unfold redecodeOne retarget
  cases kept : bandKept b p s with
  | false =>
    rw [if_neg Bool.false_ne_true, target_bandTaken]
    simp
  | true =>
    rw [if_pos rfl]
    cases band : (s.freqOf p).band with
    | none => simp
    | some x =>
      rw [Option.isSome_some, if_pos rfl, target_setTarget]
      simp

theorem target_redecodeParts (b : State) (q : Position) (tuned : (u.freqOf q).band ≠ (b.freqOf q).band ∨ (u.freqOf q).band.isSome = true) :
    ∀ (qs : List Position) (s : State), s.freq = u.freq → s.table = u.table → (q ∈ qs ∨ (s.filterOf q).target = u.bandFilter q) →
      ((qs.foldl (fun s p => redecodeOne b p s) s).filterOf q).target = u.bandFilter q
  | [], s, _, _, mem => mem.resolve_left nofun
  | p :: qs, s, freq, table, mem => by
    have part := moved_redecodePart b p s
    have target := target_redecodeOne b p s q
    refine target_redecodeParts b q tuned qs _ ((part.freq (by decide)).trans freq) ((part.table (by decide)).trans table) ?_
    by_cases here : q = p
    · subst here
      have differs : ¬(bandKept b q s = true ∧ (s.freqOf q).band = none) := by
        rintro ⟨kept, none⟩
        rw [State.freqOf, freq, ← State.freqOf] at none
        rw [bandKept, decide_eq_true_eq, State.freqOf, freq, ← State.freqOf] at kept
        obtain changed | some := tuned
        · exact changed kept
        · rw [none] at some
          cases some
      rw [if_pos ⟨rfl, differs⟩, bandFilter_of_same freq table] at target
      exact .inr target
    · rw [if_neg fun own => here own.1] at target
      rw [target]
      exact mem.imp_left fun mem => (List.mem_cons.1 mem).resolve_left here

/-- What a re-decode with nobody on the air leaves of the records, the last revocations, and the targets (R36). -/
structure Redecoded (b s t : State) : Prop where
  moved : Moved (.freq :: allocParts) s t
  records : ∀ q, ((s.freqOf q).redecoded s.table.bands).SentAgain (t.freqOf q)
  causes : SameCauses s t
  targets : ∀ q, (t.freqOf q).band ≠ (b.freqOf q).band ∨ (t.freqOf q).band.isSome = true → (t.filterOf q).target = t.bandFilter q

theorem redecoded_redecode (off : ∀ q, s.onAir q = false) (b : State) : Redecoded b s (redecode b s) := by
  have whole := moved_redecode b s
  unfold redecode at whole ⊢
  have records (q : Position) : (redecodeRecords s).freqOf q = (s.freqOf q).redecoded s.table.bands := by
    rw [State.freqOf, redecodeRecords, get_mapFin, State.freqOf]
  have decoded : SameCauses s (redecodeRecords s) := sameCauses_of_tx rfl
  have still : (redecodeRecords s).table = s.table := rfl
  rw [redecodeRevokes_of_off (s := redecodeRecords s) off] at whole ⊢
  have notices := moved_redecodeNotices (redecodeRecords s)
  have sent := sentAgain_redecodeNotices (redecodeRecords s)
  simp only [records] at sent
  have told := decoded.trans (sameCauses_of_tx (notices.tx (by decide)))
  generalize redecodeNotices (redecodeRecords s) = u at *
  have parts : Moved allocParts u (allPositions.foldl (fun s p => redecodeOne b p s) u) := .foldl _ (fun s p => moved_redecodePart b p s) _ _
  have causes : SameCauses u (allPositions.foldl (fun s p => redecodeOne b p s) u) := sameCauses_foldl (fun s p => sameCauses_redecodeOne b p s) _ _
  have targets (q : Position) (tuned : (u.freqOf q).band ≠ (b.freqOf q).band ∨ (u.freqOf q).band.isSome = true) :=
    target_redecodeParts b q tuned allPositions u rfl rfl (.inl (mem_allPositions q))
  generalize allPositions.foldl (fun s p => redecodeOne b p s) u = v at *
  have reports : Moved airParts v (allPositions.foldl (fun s _ => reportEvent s) v) := .foldl _ (fun s _ => moved_reportEvent s) _ _
  have reported : SameCauses v (allPositions.foldl (fun s _ => reportEvent s) v) := sameCauses_foldl (fun s _ => sameCauses_reportEvent s) _ _
  generalize allPositions.foldl (fun s _ => reportEvent s) v = t at *
  have freq : t.freq = u.freq := (reports.freq (by decide)).trans (parts.freq (by decide))
  have record (q : Position) : t.freqOf q = u.freqOf q := by rw [State.freqOf, freq, State.freqOf]
  refine ⟨whole, fun q => record q ▸ sent q, (told.trans causes).trans reported, fun q tuned => ?_⟩
  rw [record] at tuned
  rw [State.filterOf, reports.chain (by decide), ← State.filterOf, targets q tuned]
  exact (bandFilter_of_same freq ((reports.table (by decide)).trans (parts.table (by decide))) q).symm

end

theorem steered_startRule_filters (v : State) (q : Position) : (startRule v).filterOf q = v.filterOf q := by
  rw [State.filterOf, (startKept_startRule v).filters, State.filterOf]

theorem target_closeStep {b s : State} (ready : s.store.ready = b.store.ready) (q : Position) :
    ((closeStep b s).filterOf q).target = (s.filterOf q).target := by
  rw [closeStep, watchPin_same b s ready, steered_startRule_filters, target_of_steered (steered_deliverQuiet b s)]

/-- Settles O34: nobody is on the air, so that the band changes revoke nobody. -/
theorem bandWriteRedecodes : Obligations.BandWriteRedecodes := by
  intro s p f i e cs offered writable kind lower upper six label payload after consistent
  have taken := exec_write_of_open offered writable kind 0
    (bs := byte i.val :: (bigEndian 3 e.lower ++ bigEndian 3 e.upper ++ [byte e.filter.val] ++ cs ++ [flag e.enabled])) (payload.trans (by simp; rfl))
    (by simp [writeLength, six])
  rw [if_pos (by decide)] at taken
  change exec (.bandWrite p) s = _ at taken
  have valid : (e.valid && s.table.bandClear i e && s.fits after) = true ↔ consistent := by
    rw [Bool.and_eq_true, Bool.and_eq_true, bandClear_iff, bandValid_iff, and_assoc, and_assoc, and_assoc, and_assoc]
  have index : below 12 (byteAt (byte i.val :: (bigEndian 3 e.lower ++ bigEndian 3 e.upper ++ [byte e.filter.val] ++ cs ++ [flag e.enabled])) 0) = some i :=
    below_byte i (by decide)
  have accepted : writeAccept 0 p f
      (byte i.val :: (bigEndian 3 e.lower ++ bigEndian 3 e.upper ++ [byte e.filter.val] ++ cs ++ [flag e.enabled])) s =
      if !(e.valid && s.table.bandClear i e && s.fits after) then answer p f .invalid s
      else if s.anyOnAir then answer p f .busy s
      else redecode s (answer p f .ok (s.mapTable fun t => t.setBand i e)) := by
    show acceptBand p f _ s = _
    rw [acceptBand, index]
    dsimp only
    rw [List.drop_succ_cons, List.drop_zero, bandOf_bytes lower upper six label]
    rfl
  rw [accepted] at taken
  clear accepted
  refine ⟨fun bad => ?_, fun good air => ?_, fun good quiet => ?_⟩
  · rw [taken, if_pos (by rw [Bool.eq_false_iff.2 (mt valid.1 bad)]; rfl), freeSlot_answer, closeStep_answered]
  · rw [taken, if_neg (by rw [valid.2 good]; decide), if_pos air, freeSlot_answer, closeStep_answered]
  · rw [if_neg (by rw [valid.2 good]; decide), if_neg (by simp [quiet])] at taken
    have off : ∀ q, s.onAir q = false := by simpa [State.anyOnAir, mem_allPositions] using quiet
    obtain ⟨moved, records, causes, targets⟩ := redecoded_redecode (s := answer p f .ok (s.mapTable fun t => t.setBand i e)) off s
    have written := moved_mapTable s fun t => t.setBand i e
    generalize redecode s (answer p f .ok (s.mapTable fun t => t.setBand i e)) = r at *
    have ready : (freeSlot p r).store.ready = s.store.ready := congrArg Store.ready (moved.store (by decide))
    have closed := moved_closeStep s (freeSlot p r) ready
    have table : (closeStep s (freeSlot p r)).table = after := (closed.table (by decide)).trans (moved.table (by decide))
    have record (q : Position) : (closeStep s (freeSlot p r)).freqOf q = r.freqOf q := by
      rw [State.freqOf, closed.freq (by decide)]
      rfl
    refine ⟨_, taken, served_of_moved (a := s.mapTable fun t => t.setBand i e) (b := r) (written.mono (by decide)) rfl (moved.mono (by decide))
      (closed.mono (by decide)), table, fun q => ?_, fun q => ?_⟩
    · exact (sameCauses_closeStep (s := freeSlot p r) ready q).trans (causes q)
    · have target : ((closeStep s (freeSlot p r)).filterOf q).target = (r.filterOf q).target := target_closeStep (s := freeSlot p r) ready q
      have tuned := targets q
      obtain ⟨b, o, st, same⟩ := records q
      have bands : (answer p f .ok (s.mapTable fun t => t.setBand i e)).table.bands = after.bands := rfl
      have was : (answer p f .ok (s.mapTable fun t => t.setBand i e)).freqOf q = s.freqOf q := rfl
      rw [bands, was, redecoded_spec] at same
      rw [record, target]
      refine ⟨by rw [same], by rw [same], by rw [same], by rw [same], by rw [same], by rw [same], by rw [same],
        (congrArg FreqRecord.band same).trans (by cases (s.freqOf q).transmit <;> rfl),
        (congrArg FreqRecord.outOfBand same).trans (by cases (s.freqOf q).transmit <;> rfl), fun here => ?_⟩
      rw [tuned here, State.bandFilter, moved.table (by decide)]
      rfl

end Sys2Proof.Machine
end

section
/-! A kind's part of a band change, from the kind's start to the end of the step (R79 to R84, R86). -/

namespace Sys2Proof.Machine

variable {p : Position} {k : PortKind} {b : Band} {n : Notice} {r : Route} {s t u : State} {w v : Work}

/-! ## The part of a kind (R84) -/

theorem followBand_of_off (off : (w.s.standing p k).follow = false) : followBand p k w = w := by
  rw [followBand, off]
  exact if_neg Bool.false_ne_true

theorem followBand_of_unneeded (on : (w.s.standing p k).follow = true) (band : (w.s.freqOf p).band = some b)
    (unneeded : w.s.claimNeeded p k b = false) : followBand p k w = setDue p k false w := by
  rw [followBand, on, band]
  simp only [unneeded, Bool.false_eq_true, if_true, if_false]

theorem followBand_of_needed (on : (w.s.standing p k).follow = true) (band : (w.s.freqOf p).band = some b)
    (needed : w.s.claimNeeded p k b = true) : followBand p k w = calledClaim p k b w := by
  rw [followBand, on, band]
  simp only [needed, if_true]

theorem calledClaim_of_safe (safe : w.s.safe = true) : calledClaim p k b w = setDue p k true w := if_pos safe

theorem calledClaim_of_ready (out : w.s.safe = false) (ready : w.s.isReady = true) : calledClaim p k b w = (ringClaim p k b true w).1 := by
  rw [calledClaim, out, ready]
  rfl

/-- What a kind's part of a band change leaves of a work. -/
structure BandStage (p : Position) (k : PortKind) (w v : Work) : Prop where
  worked : Worked w v
  settled : v.s.Settled nobody
  beyond : w.freed = [] → Beyond k w v
  passes : ∀ j, j ≠ k → w.s.Settled (only p j) →
    v.s.Settled (only p j) ∧ ∀ i, w.s.portOf i = j → Option.Rel Holder.Later (w.s.recordAt p i) (v.s.recordAt p i)
  standing : ∀ j, j ≠ k → v.s.standing p j = w.s.standing p j
  notes : w.notes <+: v.notes

theorem RingStage.band (stage : RingStage p k w v) : BandStage p k w v where
  worked := stage.worked
  settled := stage.settled
  beyond := stage.beyond
  passes := stage.passes
  standing j other := (stage.standing p j).resolve_right fun here => other here.2.1
  notes := by
    obtain ⟨ns, notes, -⟩ := stage.notes
    exact ⟨ns, notes.symm⟩

theorem bandStage_setDue (keyed : w.s.AllocationKeyed) (held : w.s.ReclaimsHeld) (on : Bool) : BandStage p k w (setDue p k on w) where
  worked := worked_setDue p k on w
  settled := settled_mapStanding (settled_nobody keyed held) p k (f := fun x => { x with due := on }) fun _ => .inr rfl
  beyond _ := ⟨⟨rfl, fun _ _ => rfl⟩, rfl⟩
  passes _ _ settled := ⟨settled_mapStanding settled p k (f := fun x => { x with due := on }) fun _ => .inr rfl, fun _ _ => optionRel_refl (fun _ => .refl) _⟩
  standing j other := (standing_mapStanding w.s p k (fun x => { x with due := on }) p j).trans (if_neg fun here => other here.2)
  notes := List.prefix_refl _

theorem bandStage_calledClaim (present : w.s.present p = true) (keyed : w.s.AllocationKeyed) (held : w.s.ReclaimsHeld)
    (freed : k = .main → w.freed = []) : BandStage p k w (calledClaim p k b w) := by
  unfold calledClaim
  split
  · exact bandStage_setDue keyed held true
  · split
    · exact (ringStage_refl keyed held).band
    · exact (ringStage_ringClaim true present keyed held freed).band

theorem bandStage_followBand (keyed : w.s.AllocationKeyed) (held : w.s.ReclaimsHeld) (freed : k = .main → w.freed = []) :
    BandStage p k w (followBand p k w) := by
  unfold followBand
  split
  · split
    · split
      · next needed => exact bandStage_calledClaim (Bool.and_eq_true_iff.1 needed).1 keyed held freed
      · exact bandStage_setDue keyed held false
    · exact bandStage_setDue keyed held false
  · exact (ringStage_refl keyed held).band

/-! ## Standing routes of a position that waits for no line of the kind -/

theorem standing_of_unwaited (waits : ∀ l, s.portOf l = k → ∀ e ∈ s.listOf l, e.pos ≠ p) :
    s.standingRoutes p k = ((s.recordsOf p k).filter fun x => x.state ≠ .breaking).map fun x => x.reroute.getD x.route := by
  rw [State.standingRoutes, List.append_right_eq_self, List.flatMap_eq_nil_iff]
  intro l _
  split
  · next port =>
    rw [List.filter_eq_nil_iff.2 fun e mem => by simpa using waits l port e mem]
    rfl
  · rfl

theorem mem_standers (keyed : s.AllocationKeyed) {x : Holder} : x ∈ (s.recordsOf p k).filter (fun x => x.state ≠ .breaking) ↔
    s.portOf x.line = k ∧ s.recordAt p x.line = some x ∧ x.state ≠ .breaking := by
  rw [List.mem_filter, mem_recordsOf, recordAt_eq_some_iff keyed.records, decide_eq_true_eq]
  constructor
  · rintro ⟨⟨mem, pos, kind⟩, stands⟩
    exact ⟨by rw [← kind, (keyed.routed x mem).2.1], ⟨mem, pos, rfl⟩, stands⟩
  · rintro ⟨port, ⟨mem, pos, -⟩, stands⟩
    exact ⟨⟨mem, pos, by rw [(keyed.routed x mem).2.1, port]⟩, stands⟩

/-- At most one record of the kind stands (section 3.1). -/
def State.Single (s : State) (p : Position) (k : PortKind) : Prop :=
  ∀ x ∈ (s.recordsOf p k).filter (fun x => x.state ≠ .breaking), ∀ y ∈ (s.recordsOf p k).filter (fun x => x.state ≠ .breaking), x.line = y.line

theorem State.OneHeld.single (one : s.OneHeld) (p : Position) (k : PortKind) : s.Single p k := fun x mem y mem' => by
  obtain ⟨own, stands⟩ := List.mem_filter.1 mem
  obtain ⟨own', stands'⟩ := List.mem_filter.1 mem'
  obtain ⟨mem, pos, kind⟩ := (mem_recordsOf ..).1 own
  obtain ⟨mem', pos', kind'⟩ := (mem_recordsOf ..).1 own'
  exact one.records x mem y mem' (pos.trans pos'.symm) (kind.trans kind'.symm) (by simpa using stands) (by simpa using stands')

theorem State.Single.of_alike (single : s.Single p k) (alike : s.Alike t k) : t.Single p k := by
  unfold State.Single
  rw [alike.recordsOf]
  exact single

/-- A position's standing record of the kind, if any, is the only one. -/
theorem standers_of_single (keyed : s.AllocationKeyed) (single : s.Single p k) {x : Holder}
    (mem : x ∈ (s.recordsOf p k).filter fun x => x.state ≠ .breaking) : ((s.recordsOf p k).filter fun x => x.state ≠ .breaking) = [x] := by
  have same (y : Holder) (mem' : y ∈ (s.recordsOf p k).filter fun x => x.state ≠ .breaking) : y = x := by
    have one := ((mem_standers keyed).1 mem).2.1
    have two := ((mem_standers keyed).1 mem').2.1
    rw [single y mem' x mem, one] at two
    exact (Option.some.inj two).symm
  have once : ((s.recordsOf p k).filter fun x => x.state ≠ .breaking).Nodup := (keyed.records.of_map.filter _).filter _
  exact List.perm_singleton.1 ((List.perm_ext_iff_of_nodup once (List.nodup_singleton x)).2 fun y =>
    ⟨fun mem' => List.mem_singleton.2 (same y mem'), fun here => List.mem_singleton.1 here ▸ mem⟩)

/-- The records of a position that waits for no line of the kind have gone on, and it still waits for none. -/
structure GoneOn (p : Position) (k : PortKind) (s t : State) : Prop where
  settled : t.Settled (only p k)
  table : t.table = s.table
  own : ∀ i, s.portOf i = k → Option.Rel Holder.Later (s.recordAt p i) (t.recordAt p i)

theorem GoesOn.gone (goes : GoesOn (only p k) s t) : GoneOn p k s t := ⟨goes.settled, goes.table, goes.own⟩

theorem GoneOn.trans (one : GoneOn p k s u) (two : GoneOn p k u t) : GoneOn p k s t :=
  ⟨two.settled, two.table.trans one.table, fun i port =>
    optionRel_trans (fun _ _ _ => .trans) (one.own i port) (two.own i ((portOf_of_table one.table i).trans port))⟩

theorem BandStage.gone {j : PortKind} (stage : BandStage p k w v) (other : j ≠ k) (settled : w.s.Settled (only p j)) : GoneOn p j w.s v.s :=
  ⟨(stage.passes j other settled).1, stage.worked.moved.table (by decide), (stage.passes j other settled).2⟩

/-- Records that only go on keep the standing routes. -/
theorem standingRoutes_goneOn (single : s.Single p k) (settled : s.Settled (only p k)) (goes : GoneOn p k s t) :
    t.standingRoutes p k = s.standingRoutes p k := by
  have port := portOf_of_table goes.table
  rw [standing_of_unwaited goes.settled.apart, standing_of_unwaited settled.apart]
  have back {y : Holder} (mem : y ∈ (t.recordsOf p k).filter fun x => x.state ≠ .breaking) :
      ∃ x, x ∈ ((s.recordsOf p k).filter fun x => x.state ≠ .breaking) ∧ y.line = x.line ∧ y.reroute.getD y.route = x.reroute.getD x.route := by
    obtain ⟨own, at', stands⟩ := (mem_standers goes.settled.keyed).1 mem
    rw [port] at own
    have rel := goes.own y.line own
    rw [at'] at rel
    cases was : s.recordAt p y.line with
    | none => rw [was] at rel; cases rel
    | some x =>
      rw [was] at rel
      obtain ⟨z, eq, later⟩ := some_of_rel rel
      cases eq
      have line := (mem_of_recordAt was).2.2
      refine ⟨x, (mem_standers settled.keyed).2 ?_, line.symm, later.wanted⟩
      rw [line]
      exact ⟨own, was, fun breaking => stands (later.breaking.2 breaking)⟩
  have single' : t.Single p k := fun x mem y mem' => by
    obtain ⟨x', was, line, -⟩ := back mem
    obtain ⟨y', was', line', -⟩ := back mem'
    rw [line, line']
    exact single x' was y' was'
  cases here : (s.recordsOf p k).filter fun x => x.state ≠ .breaking with
  | nil =>
    have none : ((t.recordsOf p k).filter fun x => x.state ≠ .breaking) = [] := List.eq_nil_iff_forall_not_mem.2 fun y mem => by
      obtain ⟨x, was, -⟩ := back mem
      rw [here] at was
      cases was
    rw [none]
  | cons x xs =>
    have mem : x ∈ (s.recordsOf p k).filter fun x => x.state ≠ .breaking := here ▸ List.mem_cons_self
    obtain ⟨own, at', stands⟩ := (mem_standers settled.keyed).1 mem
    have rel := goes.own x.line own
    rw [at'] at rel
    obtain ⟨y, held, later⟩ := some_of_rel rel
    have line := later.placed.2.1
    have mem' : y ∈ (t.recordsOf p k).filter fun x => x.state ≠ .breaking := by
      refine (mem_standers goes.settled.keyed).2 ?_
      rw [line, port]
      exact ⟨own, held, fun breaking => stands (later.breaking.1 breaking)⟩
    rw [← here, standers_of_single settled.keyed single mem, standers_of_single goes.settled.keyed single' mem', List.map_singleton, List.map_singleton,
      later.wanted]

end Sys2Proof.Machine
end

section
/-! What the ring claims of a band change have come to at the end of the step (R81 to R84, R86). -/

namespace Sys2Proof.Machine

variable {p : Position} {k : PortKind} {b : Band} {n : Notice} {r : Route} {s t u : State} {w v : Work}

/-! ## From a kind's part to the end of the step -/

/-- What the rest of the step leaves of a kind's part of a band change. -/
structure Ends (p : Position) (k : PortKind) (b : Band) (v : Work) (t : State) : Prop where
  goes : v.s.Settled (only p k) → GoneOn p k v.s t
  standing : t.standing p k = v.s.standing p k
  onBand : ∀ C m, v.s.OnBand p k b C m → t.OnBand p k b C m
  tells : v.s.present p = true → ∀ n, Noted p n v → t.Tells p n.frame

/-- The part of the other kind comes between. -/
theorem Ends.before {j : PortKind} (ends : Ends p k b (followBand p j w) t) (stage : BandStage p j w (followBand p j w)) (other : k ≠ j) :
    Ends p k b w t where
  goes settled := (stage.gone other settled).trans (ends.goes (stage.gone other settled).settled)
  standing := ends.standing.trans (stage.standing k other)
  onBand C m on := ends.onBand C m (onBand_of_worked stage.worked on.band on.covering
    ((claimsKeep_anchored fun here => other here.2.symm).followBand on.anchored))
  tells present n noted := ends.tells ((stage.worked.moved.links p).present.trans present) n ⟨stage.settled.keyed, (safe_of_worked stage.worked).trans noted.out, stage.notes.subset noted.noted⟩

theorem State.Tells.of_queue {f : Frame} (tells : s.Tells p f) (queue : (t.link p).queue = (s.link p).queue) : t.Tells p f := by
  unfold State.Tells
  rw [queue]
  exact tells

theorem tells_freeSlot {f : Frame} (tells : s.Tells p f) (q : Position) : (freeSlot q s).Tells p f := tells.of_queue (by
  rw [link_freeSlot]
  split
  · next here => rw [here]
  · rfl)

/-- The rest of a FREQ behind the ring claims of its band change. -/
abbrev bandEnd (p : Position) (before u : State) (v : Work) : State :=
  closeStep before (freeSlot p (reportEvent (handOn (closeWork u (reclaims (admitFreed v))))))

theorem passes_bandEnd {P : Position → PortKind → Line → Prop} {before : State}
    (ready : (freeSlot p (reportEvent (handOn (closeWork u (reclaims (admitFreed v)))))).store.ready = before.store.ready) :
    Passes P v.s (bandEnd p before u v) := fun settled => by
  have first := passes_admitFreed v settled
  have event : Passes P (admitFreed v).s (handOn (closeWork u (reclaims (admitFreed v)))) := by
    rw [reclaims_of_held first.settled.held]
    exact (passes_closeWork u _).trans (passes_handOn _)
  exact ((((passes_admitFreed v).trans event).trans (passes_of_moved (moved_reportEvent _) (by decide) (by decide))).trans
    (passes_freeSlot p _)).trans (passes_closeStep ready) settled

theorem ends_bandEnd {before : State} (settled : v.s.Settled nobody)
    (ready : (freeSlot p (reportEvent (handOn (closeWork u (reclaims (admitFreed v)))))).store.ready = before.store.ready) :
    Ends p k b v (bandEnd p before u v) where
  goes settled := (passes_bandEnd ready settled).gone
  standing := standing_of_standings (passes_bandEnd ready settled).standings p k
  onBand C m on := by
    have event := eventsKeep_onBand.handOn (eventsKeep_onBand.closeWork u (eventsKeep_onBand.reclaimed (eventsKeep_onBand.admits v on)))
    have told := eventsKeep_onBand.moved (moved_reportEvent _) (by decide) event
    exact eventsKeep_onBand.closeStep ready (eventsKeep_onBand.same _ _ (resembles_freeSlot p _) told)
  tells present n noted := by
    have still : (reclaims (admitFreed v)).s.present p = true :=
      ((worked_reclaims _).moved.links p).present.trans (((worked_admitFreed v).moved.links p).present.trans present)
    have event := (tells_closed noted.admitFreed.reclaims still u).moved (moved_reportEvent _)
    exact (tells_freeSlot event p).moved (moved_closeStep before _ ready)

/-! ## The ring claim made (R81 to R83) -/

/-- A claim NOW of a qualifying candidate leaves the position no other line of the kind. -/
theorem heldLines_claimNow (keyed : w.s.AllocationKeyed) (held : w.s.ReclaimsHeld) (single : w.s.Single p k) (candidate : w.s.candidateEntry p k r = true)
    (qualifies : w.s.qualifies p r = true) {i : Line} (was : i ∈ w.s.heldLines p k) (other : i ≠ (w.s.routeOf r).line) :
    i ∉ (claimRoute p r .now w).1.s.heldLines p k := fun mem => by
  obtain ⟨port, -, -, stands⟩ := candidate_spec candidate
  obtain ⟨x, standing, rfl⟩ := List.mem_map.1 was
  obtain ⟨own, held', unbroken⟩ := (mem_standers keyed).1 standing
  cases at' : w.s.recordAt p (w.s.routeOf r).line with
  | some h =>
    have line := (mem_of_recordAt at').2.2
    refine other (line ▸ single x standing h ((mem_standers keyed).2 ?_))
    rw [line]
    exact ⟨port, at', (stands h at').1⟩
  | none =>
    have had : w.s.canBeHad (w.s.routeOf r).line r = true := by simpa [State.qualifies, at'] using qualifies
    rw [claimRoute_of_free at' had .now] at mem
    have settled := settled_assign keyed held at' had
    rw [port] at settled
    have goes := passes_admitFreed (assign p r w) settled
    have table : (assign p r w).s.table = w.s.table := (worked_assign p r w).moved.table (by decide)
    obtain ⟨y, standing', line⟩ := List.mem_map.1 mem
    obtain ⟨-, held'', unbroken'⟩ := (mem_standers goes.settled.keyed).1 standing'
    have rel := goes.own x.line ((portOf_of_table table x.line).trans own)
    have vacated : x ∈ w.others p r := List.mem_filter.2 ⟨by rw [port]; exact (List.mem_filter.1 standing).1, by simpa using other⟩
    rw [recordAt_assign at', if_neg (fun here => other here.2), recordAt_vacated, if_pos ⟨rfl, x, vacated, rfl⟩, held', Option.bind_some, ← line, held''] at rel
    cases left : Holder.leaving w.s x with
    | none => rw [left] at rel; cases rel
    | some z =>
      rw [left] at rel
      obtain ⟨z', eq, later⟩ := some_of_rel rel
      cases eq
      exact unbroken' (later.breaking.2 (leaving_breaking left).1)

/-- What a ring claim called for unasked has come to at the end of the step, by what it finds in `s`. -/
theorem ringClaimed_of_ends (alike : s.Alike w.s k) (keyed : s.AllocationKeyed) (single : s.Single p k) (settled : w.s.Settled nobody)
    (freed : k = .main → w.freed = []) (band : (w.s.freqOf p).band = some b) (present : w.s.present p = true) (out : w.s.safe = false)
    (ends : Ends p k b (ringClaim p k b true w).1 t) : RingClaimed p k b s t := by
  obtain ⟨keyed', held, -, -⟩ := settled
  have kinded := kinded_of_keyed keyed
  have kinded' := kinded_of_keyed keyed'
  have ring : w.s.ringOf p b k = s.ringOf p b k := alike.ring
  have candidates {r : Route} : w.s.RingCandidate p k b r ↔ s.RingCandidate p k b r := alike.ringCandidate kinded kinded'
  have fits {r : Route} (of : s.RingCandidate p k b r) : w.s.qualifies p r = s.qualifies p r :=
    alike.qualifies kinded kinded' (candidate_spec of.1).1
  have line (r : Route) : w.s.routeOf r = s.routeOf r := routeOf_of_table alike.table r
  have claimed := claimed_ringClaim (k := k) keyed' present b
  have out' := (safe_of_worked claimed.worked).trans out
  refine ⟨fun r before after split candidate qualifies first => ?_, fun r before after split candidate first none => ?_, fun none => ?_⟩
  · have candidate' := candidates.2 candidate
    have qualifies' := (fits candidate).trans qualifies
    have now := claimedNow keyed' held freed candidate'.1 qualifies'
    have still : (claimRoute p r .now w).1.s.present p = true := ((worked_claimRoute p r .now w).moved.links p).present.trans present
    have made := ringClaim_of_qualifying true (ring.trans split) candidate' qualifies' fun x mem both =>
      first x mem ⟨candidates.1 both.1, (fits (candidates.1 both.1)).symm.trans both.2⟩
    rw [if_pos rfl, loseFollowed_eq still] at made
    rw [made] at ends claimed out'
    obtain ⟨goes, standing, -, tells⟩ := ends
    obtain ⟨h, at', stands, wants⟩ := now.record
    have rel : Option.Rel Holder.Later ((claimRoute p r .now w).1.s.recordAt p (w.s.routeOf r).line) (t.recordAt p (w.s.routeOf r).line) :=
      (goes (settled_mapStanding now.settled p k (f := Standing.settled) fun _ => .inl rfl)).own (w.s.routeOf r).line
      ((portOf_of_table now.table _).trans (candidate_spec candidate'.1).1)
    rw [at', line] at rel
    obtain ⟨y, held', later⟩ := some_of_rel rel
    have settled' : t.standing p k = (w.s.standing p k).settled := by
      rw [standing, standing_settleRing, if_pos ⟨rfl, rfl⟩, standing_of_standings (s := w.s) now.standings]
    refine ⟨⟨y, held', fun breaking => stands (later.breaking.1 breaking), later.wanted.trans wants⟩, by rw [settled'], by rw [settled'],
      fun i mem other => tells (claimed.worked.moved.links p |>.present.trans present) (.lost k i .releasedByFollow) ⟨claimed.keyed, out', ?_⟩⟩
    rw [← line] at other
    have mem' : i ∈ w.s.heldLines p k := by
      rw [State.heldLines, alike.recordsOf]
      exact mem
    refine List.mem_append_right _ (List.mem_map.2 ⟨i, List.mem_filter.2 ⟨mem', ?_⟩, rfl⟩)
    have gone := heldLines_claimNow keyed' held (single.of_alike alike) candidate'.1 qualifies' mem' other
    simp [other, gone]
  · have candidate' := candidates.2 candidate
    have made := ringClaim_of_waiting true (ring.trans split) candidate' (fun x mem of => first x mem (candidates.1 of)) fun x mem of =>
      (fits (candidates.1 of)).trans (none x (ring ▸ mem) (candidates.1 of))
    have free := (occupied_of_not_qualifies ((fits candidate).trans (none r (by rw [split]; simp) candidate))).1
    have anchored : (settleRing p k (enqueueWait p r w)).s.Anchored p k (fun x => x = r) (w.s.routeOf r).line :=
      (anchored_enqueueWait keyed' (candidate_spec candidate'.1).1 free (C := fun x => x = r) rfl).restood p k _
    rw [made] at ends claimed
    obtain ⟨-, standing, onBand, -⟩ := ends
    have on := onBand _ _ (onBand_of_worked claimed.worked band (fun x (own : x = r) => own ▸ candidate'.2) anchored)
    have settled' : t.standing p k = (w.s.standing p k).settled := by
      rw [standing, standing_settleRing, if_pos ⟨rfl, rfl⟩]
      rfl
    obtain ⟨x, mem, rfl⟩ := on.anchored.covered
    exact ⟨mem, by rw [settled'], by rw [settled']⟩
  · have made := ringClaim_of_none (w := w) (p := p) (k := k) (b := b) true fun x mem of => none x (ring ▸ mem) (candidates.1 of)
    rw [noteNoRoute, if_pos present] at made
    rw [made] at ends claimed out'
    exact ends.tells present (.noRoute k b) ⟨claimed.keyed, out', List.mem_append_right _ (List.mem_singleton.2 rfl)⟩

end Sys2Proof.Machine
end

section
/-! The four ways in which a kind follows a band change, and the records of a FREQ (R28 to R33, R79 to R86). -/

namespace Sys2Proof.Machine

variable {p : Position} {k : PortKind} {b : Band} {s t : State} {w : Work}

/-! ## A kind that follows (R84) -/

/-- What a band change to `b` comes to for a kind, by what it finds in `s` (R79 to R86). -/
structure BandFollowed (p : Position) (k : PortKind) (b : Band) (s t : State) (kept : Prop) : Prop where
  off : (s.standing p k).follow = false → t.standing p k = s.standing p k ∧ kept
  unneeded : (s.standing p k).follow = true → s.claimNeeded p k b = false → (t.standing p k).due = false ∧ kept
  due : (s.standing p k).follow = true → s.claimNeeded p k b = true → s.safe = true → (t.standing p k).due = true ∧ kept
  made : (s.standing p k).follow = true → s.claimNeeded p k b = true → s.safe = false → s.isReady = true →
    RingClaimed p k b s t ∧ ((∀ x ∈ s.ringOf p b k, ¬s.RingCandidate p k b x) → kept)

/-- The work at the start of a kind's part of a band change, by the state `s` that the change found. -/
structure BandStart (p : Position) (k : PortKind) (b : Band) (s : State) (w : Work) : Prop where
  alike : s.Alike w.s k
  gone : s.Settled (only p k) → GoneOn p k s w.s
  standing : w.s.standing p k = s.standing p k
  settled : w.s.Settled nobody
  freed : k = .main → w.freed = []
  band : (w.s.freqOf p).band = some b
  safe : w.s.safe = s.safe
  ready : w.s.isReady = s.isReady

theorem setDue_settled (settled : w.s.Settled (only p k)) (on : Bool) : GoneOn p k w.s (setDue p k on w).s :=
  ⟨settled_mapStanding settled p k (f := fun x => { x with due := on }) fun _ => .inr rfl, rfl, fun _ _ => optionRel_refl (fun _ => .refl) _⟩

theorem goneOn_noteNoRoute (settled : w.s.Settled (only p k)) : GoneOn p k w.s (noteNoRoute p k b w).s := by
  have same : (noteNoRoute p k b w).s = w.s := by
    unfold noteNoRoute
    split <;> rfl
  rw [same]
  exact ⟨settled, rfl, fun _ _ => optionRel_refl (fun _ => .refl) _⟩

theorem due_setDue (on : Bool) : ((setDue p k on w).s.standing p k).due = on := by
  show ((w.s.mapStanding p k fun x => { x with due := on }).standing p k).due = on
  rw [standing_mapStanding, if_pos ⟨rfl, rfl⟩]

theorem bandFollowed_of_ends (start : BandStart p k b s w) (keyed : s.AllocationKeyed) (one : s.OneHeld) (held : s.ReclaimsHeld)
    (ends : Ends p k b (followBand p k w) t) :
    BandFollowed p k b s t (0 < s.policy.tTail → s.WaitsNowhere p → t.standingRoutes p k = s.standingRoutes p k) := by
  obtain ⟨alike, gone, standing, settled, freed, band, safe, ready⟩ := start
  have needed : w.s.claimNeeded p k b = s.claimNeeded p k b := alike.claimNeeded
  have kept (stage : w.s.Settled (only p k) → GoneOn p k w.s (followBand p k w).s) (_ : 0 < s.policy.tTail) (waits : s.WaitsNowhere p) :
      t.standingRoutes p k = s.standingRoutes p k := by
    have first : s.Settled (only p k) := settled_only keyed held fun j _ e mem => waits j e mem
    have second := gone first
    have third := stage second.settled
    exact standingRoutes_goneOn (one.single p k) first ((second.trans third).trans (ends.goes third.settled))
  have follow : (w.s.standing p k).follow = (s.standing p k).follow := by rw [standing]
  refine ⟨fun off => ?_, fun on unneeded => ?_, fun on calls inSafe => ?_, fun on calls out starts => ?_⟩
  · have same := followBand_of_off (follow.trans off)
    refine ⟨?_, kept fun settled => ?_⟩
    · rw [ends.standing, same, standing]
    · rw [same]
      exact ⟨settled, rfl, fun _ _ => optionRel_refl (fun _ => .refl) _⟩
  · have same := followBand_of_unneeded (follow.trans on) band (needed.trans unneeded)
    refine ⟨?_, kept fun settled => by rw [same]; exact setDue_settled settled false⟩
    rw [ends.standing, same, due_setDue]
  · have same := (followBand_of_needed (follow.trans on) band (needed.trans calls)).trans (calledClaim_of_safe (safe.trans inSafe))
    refine ⟨?_, kept fun settled => by rw [same]; exact setDue_settled settled true⟩
    rw [ends.standing, same, due_setDue]
  · have same := (followBand_of_needed (follow.trans on) band (needed.trans calls)).trans (calledClaim_of_ready (safe.trans out) (ready.trans starts))
    have present : w.s.present p = true := (Bool.and_eq_true_iff.1 (needed.trans calls)).1
    refine ⟨?_, fun none => kept fun settled => ?_⟩
    · rw [same] at ends
      exact ringClaimed_of_ends alike keyed (one.single p k) settled freed band present (safe.trans out) ends
    · have made := ringClaim_of_none (w := w) (p := p) (k := k) (b := b) true fun x mem of =>
        none x (alike.ring ▸ mem) ((alike.ringCandidate (kinded_of_keyed keyed) (kinded_of_keyed settled.keyed)).1 of)
      rw [same, made]
      exact goneOn_noteNoRoute settled

/-! ## The record (R28 to R33) -/

/-- The fields that a decoding leaves. -/
theorem decoded_keeps (r : FreqRecord) (bands : Vector BandEntry 12) (need : Nat) : ∃ b o c n,
    r.decoded bands need = { r with band := b, outOfBand := o, candidate := c, count := n } := by
  have report (c : Band) : ∃ b o x n, r.report need c = { r with band := b, outOfBand := o, candidate := x, count := n } := by
    unfold FreqRecord.report
    split
    · exact ⟨_, _, _, _, rfl⟩
    · split <;> exact ⟨_, _, _, _, rfl⟩
  unfold FreqRecord.decoded
  split
  · exact ⟨_, _, _, _, rfl⟩
  · split
    · exact ⟨_, _, _, _, rfl⟩
    · exact report _

/-- A decoding looks at no other field. -/
theorem decoded_with (r : FreqRecord) (bands : Vector BandEntry 12) (need w : Nat) (st : Bool) (tm : Option Nat) :
    FreqRecord.decoded { r with width := w, stale := st, staleTimer := tm } bands need =
      { r.decoded bands need with width := w, stale := st, staleTimer := tm } := by
  have report (c : Band) : FreqRecord.report { r with width := w, stale := st, staleTimer := tm } need c =
      { r.report need c with width := w, stale := st, staleTimer := tm } := by
    simp only [FreqRecord.report, FreqRecord.countOf]
    split_ifs <;> rfl
  have same : FreqRecord.transmit { r with width := w, stale := st, staleTimer := tm } = r.transmit := rfl
  unfold FreqRecord.decoded
  rw [same]
  cases r.transmit with
  | none => rfl
  | some f =>
    dsimp only
    cases decodeBand bands f with
    | none => rfl
    | some c => exact report c

end Sys2Proof.Machine
end

section
/-! Frequency reports (chapter 2, R27 to R39; R84). -/

namespace Sys2Proof.Machine

variable {p : Position} {k : PortKind} {b : Band} {f : Frame} {x : FreqFields} {s t u : State} {w : Work}

/-! ## A band change on both kinds (R84) -/

/-- The band change finds the state `s` but for frequency records. -/
structure BandFound (p : Position) (b : Band) (s u : State) : Prop where
  table : u.table = s.table
  alloc : u.alloc = s.alloc
  present : ∀ q, u.present q = s.present q
  safe : u.safe = s.safe
  store : u.store = s.store
  band : (u.freqOf p).band = some b

/-- The state `s` with the frequency records of `u`. -/
abbrev State.retuned (s u : State) : State := { s with freq := u.freq }

variable (found : BandFound p b s u) (keyed : s.AllocationKeyed) (held : s.ReclaimsHeld)

include found keyed held

theorem BandFound.start (k : PortKind) : BandStart p k b (s.retuned u) (Work.start u) where
  alike := ⟨found.table, rfl, found.present, by rw [State.those, State.those, show (Work.start u).s.alloc = s.alloc from found.alloc],
    fun j _ => by rw [listOf_of_alloc (s := s.retuned u) (t := (Work.start u).s) (congrArg _ found.alloc)]⟩
  gone settled := ((passes_of_same found.table found.alloc : Passes _ (s.retuned u) u) settled).gone
  standing := standing_of_standings (s := s.retuned u) (congrArg _ found.alloc) p k
  settled := settled_nobody (allocationKeyed_of_same keyed found.table found.alloc) (reclaimsHeld_of_alloc held found.alloc)
  freed _ := rfl
  band := found.band
  safe := found.safe
  ready := by
    rw [State.isReady, State.isReady]
    exact congrArg (fun x : Store => decide (x.ready = .ready)) found.store

/-- What is left of the band change behind MAIN is AUX's part. -/
theorem BandFound.startAux : BandStart p .aux b (s.retuned u) (followBand p .main (Work.start u)) := by
  have main := found.start keyed held .main
  have stage := bandStage_followBand (p := p) (k := .main) main.settled.keyed main.settled.held main.freed
  obtain ⟨alike, gone, standing, -, -, -, safe, ready⟩ := found.start keyed held .aux
  refine ⟨alike.trans (alike_of_beyond (stage.beyond rfl) stage.worked nofun), fun settled => ?_, (stage.standing .aux nofun).trans standing,
    stage.settled, nofun, ?_, (safe_of_worked stage.worked).trans safe, ?_⟩
  · exact (gone settled).trans (stage.gone nofun (gone settled).settled)
  · rw [State.freqOf, stage.worked.moved.freq (by decide)]
    exact found.band
  · rw [← ready, State.isReady, stage.worked.moved.store (by decide)]
    rfl

theorem BandFound.followed (one : s.OneHeld) {before : State}
    (ready : ∀ v, Worked (Work.start u) v →
      (freeSlot p (reportEvent (handOn (closeWork u (reclaims (admitFreed v)))))).store.ready = before.store.ready) (k : PortKind) :
    BandFollowed p k b (s.retuned u) (bandEnd p before u (followBand p .aux (followBand p .main (Work.start u))))
      (0 < s.policy.tTail → s.WaitsNowhere p → (bandEnd p before u (followBand p .aux (followBand p .main (Work.start u)))).standingRoutes p k =
        s.standingRoutes p k) := by
  have main := found.start keyed held .main
  have aux := found.startAux keyed held
  have stage := bandStage_followBand (p := p) (k := .main) main.settled.keyed main.settled.held main.freed
  have stage' := bandStage_followBand (p := p) (k := .aux) aux.settled.keyed aux.settled.held aux.freed
  have worked := stage.worked.trans stage'.worked
  have keyed' : (s.retuned u).AllocationKeyed := allocationKeyed_of_same keyed rfl rfl
  have one' : (s.retuned u).OneHeld := ⟨one.records, one.moves⟩
  have held' : (s.retuned u).ReclaimsHeld := held
  have ends (j : PortKind) : Ends p j b _ (bandEnd p before u _) :=
    ends_bandEnd stage'.settled (ready _ worked)
  cases k with
  | main => exact bandFollowed_of_ends main keyed' one' held' ((ends .main).before stage' nofun)
  | aux => exact bandFollowed_of_ends aux keyed' one' held' (ends .aux)

end Sys2Proof.Machine
end

section
/-! FREQ as it is served: the record, its notice, the band-change event (R27 to R39, R84). -/

namespace Sys2Proof.Machine

variable {p : Position} {k : PortKind} {b : Band} {f : Frame} {x : FreqFields} {s t u : State}

/-! ## The request (R28, R186) -/

theorem freqFieldsOf_bytes {rx w : Nat} {tx : Option Nat} (small : rx < 2 ^ 32) (width : w < 256) (send : ∀ n, tx = some n → n < 2 ^ 32) :
    freqFieldsOf (bigEndian 4 rx ++ [byte w] ++ tx.elim [] (bigEndian 4)) = some { rx, width := w, tx } := by
  have first (rest : List Byte) : field (bigEndian 4 rx ++ [byte w] ++ rest) 0 4 = bigEndian 4 rx := by simp [field]
  have fifth (rest : List Byte) : byteAt (bigEndian 4 rx ++ [byte w] ++ rest) 4 = w := by
    simp [byteAt, bigEndian, Nat.mod_eq_of_lt width]
  have value {n : Nat} (small : n < 2 ^ 32) : ofBigEndian (bigEndian 4 n) = n := (ofBigEndian_bigEndian 4 n).trans (Nat.mod_eq_of_lt small)
  cases tx with
  | none => simp only [freqFieldsOf, Option.elim_none, first, fifth, value small]; simp
  | some n =>
    have last : field (bigEndian 4 rx ++ [byte w] ++ bigEndian 4 n) 5 4 = bigEndian 4 n := by
      rw [field, List.drop_left' (by simp), List.take_of_length_le (by simp)]
    simp only [freqFieldsOf, Option.elim_some, first, fifth, last, value small, value (send n rfl)]; simp

/-- The record, the reply, and the BAND notice of a FREQ. -/
abbrev freqTold (p : Position) (f : Frame) (x : FreqFields) (s : State) : State :=
  bandNotice p (answer p f (if x.lowered then .adjusted else .ok) (s.mapFreq p fun _ => s.reported p x))

theorem exec_freq_of_offers (offered : Offers s p f 1) (kind : f.kind = 0x02) :
    exec (.freq p) s = .next (closeStep s (freeSlot p (serveFreq p f s))) :=
  wholeStep_takeRequest_of_offers (need := fun _ => 1) offered (by simp [isKind, kind, kindFreq]) _

theorem serveFreq_of_fields (fields : freqFieldsOf f.payload = some x) :
    serveFreq p f s = reportEvent (bandChangeFrom (s.freqOf p).band p (freqTold p f x s)) := by
  rw [serveFreq, fields]

/-- The end of the step of a FREQ. -/
abbrev freqEnd (p : Position) (s n : State) : State := closeStep s (freeSlot p (reportEvent (bandChangeFrom (s.freqOf p).band p n)))

/-! ## The record (R28) -/

theorem freqOf_freqTold (p : Position) (f : Frame) (x : FreqFields) (s : State) (q : Position) : (freqTold p f x s).freqOf q =
    if q = p then (if s.present p = true then (s.reported p x).told else s.reported p x) else s.freqOf q := by
  have record : (answer p f (if x.lowered then .adjusted else .ok) (s.mapFreq p fun _ => s.reported p x)).freqOf q =
      if q = p then s.reported p x else s.freqOf q := freqOf_mapFreq s p q fun _ => s.reported p x
  have own : (answer p f (if x.lowered then .adjusted else .ok) (s.mapFreq p fun _ => s.reported p x)).freqOf p = s.reported p x :=
    (freqOf_mapFreq s p p fun _ => s.reported p x).trans (if_pos rfl)
  have present : (answer p f (if x.lowered then .adjusted else .ok) (s.mapFreq p fun _ => s.reported p x)).present p = s.present p :=
    ((moved_answer p f _ (s.mapFreq p fun _ => s.reported p x)).links p).present
  rw [freqTold, freqOf_bandNotice, record, own, present]
  by_cases here : q = p <;> simp [here]

/-- The record as stored, with what the decoding has made of it. -/
theorem reported_eq (s : State) (p : Position) (x : FreqFields) :
    let r := { s.freqOf p with rx := storedCount x.rx, tx := x.tx.bind storedCount }
    s.reported p x = { r.decoded s.table.bands s.policy.c with
      width := min x.width 30, stale := false, staleTimer := some (s.policy.tStale * 1000) } :=
  decoded_with { s.freqOf p with rx := storedCount x.rx, tx := x.tx.bind storedCount } s.table.bands s.policy.c (min x.width 30) false
    (some (s.policy.tStale * 1000))

/-! ## The parts of the state that a FREQ changes -/

theorem moved_freqTold (p : Position) (f : Frame) (x : FreqFields) (s : State) : Moved [.freq, .links, .inbox] s (freqTold p f x s) :=
  (((moved_mapFreq s p _).mono (by decide)).trans ((moved_answer p f _ _).mono (by decide))).trans (moved_bandNotice p _)

theorem moved_freqChange (old : Option Band) (p : Position) (n : State) : Moved allocParts n (reportEvent (bandChangeFrom old p n)) :=
  (moved_bandChangeFrom old p n).trans ((moved_reportEvent _).mono (by decide))

theorem ready_freqChange {n : State} (store : n.store = s.store) (old : Option Band) :
    (freeSlot p (reportEvent (bandChangeFrom old p n))).store.ready = s.store.ready :=
  congrArg Store.ready (((moved_freqChange old p n).store (by decide)).trans store)

theorem freqOf_freqEnd {n : State} (store : n.store = s.store) (q : Position) : (freqEnd p s n).freqOf q = n.freqOf q := by
  have closed := moved_closeStep s (freeSlot p (reportEvent (bandChangeFrom (s.freqOf p).band p n))) (ready_freqChange store _)
  rw [State.freqOf, closed.freq (by decide)]
  exact congrArg (fun v : Vector FreqRecord 6 => v.get q) ((moved_freqChange (s.freqOf p).band p n).freq (by decide))

/-! ## The band-change event (R37, R84) -/

/-- The state that the ring claims of a band change find. -/
abbrev bandSteered (p : Position) (n : State) : State := setTarget p ((arbiter (revoke p .band n)).bandFilter p) (arbiter (revoke p .band n))

theorem moved_bandSteered (p : Position) (n : State) : Moved (.chain :: airParts) n (bandSteered p n) :=
  (((moved_revoke p .band n).trans (moved_arbiter _)).mono (by decide)).trans ((moved_setTarget _ _ _).mono (by decide))

theorem freqEnd_of_changed {n : State} (changed : (n.freqOf p).band ≠ (s.freqOf p).band) : freqEnd p s n =
    bandEnd p s (bandSteered p n) (followBand p .aux (followBand p .main (Work.start (bandSteered p n)))) := by
  rw [freqEnd, bandChangeFrom, if_neg changed]
  rfl

theorem target_freqEnd {n : State} (chain : n.chain = s.chain) (table : n.table = s.table) (store : n.store = s.store) :
    ((freqEnd p s n).filterOf p).target = if (n.freqOf p).band = (s.freqOf p).band then (s.filterOf p).target else n.bandFilter p := by
  have kept (v : State) : ((freeSlot p (reportEvent v)).filterOf p).target = (v.filterOf p).target :=
    congrArg (fun c : Chain => (c.filters.get p).target) ((moved_reportEvent v).chain (by decide))
  rw [freqEnd, target_closeStep (ready_freqChange store _), kept]
  unfold bandChangeFrom
  split
  · rw [State.filterOf, chain, State.filterOf]
  · have revoked := moved_revoke p .band n
    rw [bandChange, target_bandTaken, if_pos rfl, bandFilter_of_same (revoked.freq (by decide)) (revoked.table (by decide))]

/-- A transmission on the air before a band change is revoked with cause BAND (R107). -/
theorem revoked_freqEnd {n : State} (tx : n.tx = s.tx) (waiting : n.waiting = s.waiting) (store : n.store = s.store) (coherent : s.TransmitCoherent)
    (on : s.onAir p = true) (changed : (n.freqOf p).band ≠ (s.freqOf p).band) :
    ((freqEnd p s n).txOf p).state = (s.txOf p).state.withdrawn ∧ ((freqEnd p s n).txOf p).lastRevocation = some .band := by
  have same : n.txOf p = s.txOf p := by rw [State.txOf, tx, State.txOf]
  have on' : n.onAir p = true := by rw [State.onAir, same]; exact on
  have left := revoke_of_onAir on' .band
  have record : (revoke p .band n).txOf p = { n.txOf p with lastRevocation := some .band }.leave (n.txOf p).state.withdrawn n.policy := by
    rw [left, txOf_leaveAir_self, txOf_mapTx_self]
    rfl
  have out : p ∉ (revoke p .band n).waiting := by
    rw [left, leaveAir, (moved_evaluateAdvisories _).waiting (by decide), (moved_leaveSlot ..).waiting (by decide)]
    show p ∉ n.waiting
    rw [waiting]
    exact out_of_onAir coherent on
  have off : (revoke p .band n).onAir p = false := by
    rw [State.onAir, record]
    exact (n.txOf p).state.off_withdrawn
  have ready := ready_freqChange (p := p) store (s.freqOf p).band
  have rest : Grounds p (revoke p .band n) (freqEnd p s n) := by
    rw [freqEnd, bandChangeFrom, if_neg changed] at *
    have taken : Grounds p (revoke p .band n) (bandTaken p (revoke p .band n)) :=
      ((aloof_arbiter p _).trans (aloof_of_moved (moved_setTarget _ _ _) (by decide) (by decide))).grounds.trans
        (grounds_allocEvent (f := fun w => followBand p .aux (followBand p .main w)) (fun w => (worked_followBand p .main w).trans (worked_followBand _ _ _))
          p _)
    have told : Aloof p (bandChange p n) (reportEvent (bandChange p n)) :=
      (aloof_arbiter p _).trans (aloof_evaluateAdvisories p _)
    exact ((taken.trans told.grounds).trans (aloof_freeSlot p p _).grounds).trans (grounds_closeStep p ready)
  obtain ⟨kept, -⟩ := rest off out
  rw [kept, record, same]
  exact ⟨rfl, rfl⟩

/-! ## What the event leaves (R35, R39) -/

/-- What a FREQ's record, notice and band change find in place of `s`. -/
theorem found_bandSteered (p : Position) (f : Frame) (x : FreqFields) (s : State) (band : ((freqTold p f x s).freqOf p).band = some b) :
    BandFound p b s (bandSteered p (freqTold p f x s)) := by
  have first := moved_freqTold p f x s
  have second := moved_bandSteered p (freqTold p f x s)
  have both : Moved (.freq :: allocParts) s (bandSteered p (freqTold p f x s)) := (first.mono (by decide)).trans (second.mono (by decide))
  refine ⟨both.table (by decide), (second.alloc (by decide)).trans (first.alloc (by decide)), fun q => (both.links q).present,
    congrArg FaultLog.safe (both.log (by decide)), both.store (by decide), ?_⟩
  rw [State.freqOf, second.freq (by decide)]
  exact band

/-- The BAND notice stands directly behind the reply (R39). -/
theorem queue_freqTold (present : s.present p = true) (room : (s.link p).queue.length < 5) (untold : (s.reported p x).untold) :
    ((freqTold p f x s).link p).queue = (s.link p).queue ++ [f.reply (if x.lowered then .adjusted else .ok) [],
      (Notice.band (s.reported p x).band (s.reported p x).outOfBand (s.reported p x).stale).frame] := by
  have own : (answer p f (if x.lowered then .adjusted else .ok) (s.mapFreq p fun _ => s.reported p x)).freqOf p = s.reported p x :=
    (freqOf_mapFreq s p p fun _ => s.reported p x).trans (if_pos rfl)
  have queue : ((answer p f (if x.lowered then .adjusted else .ok) (s.mapFreq p fun _ => s.reported p x)).link p).queue =
      (s.link p).queue ++ [f.reply (if x.lowered then .adjusted else .ok) []] := by
    rw [answer, link_reply, if_pos rfl]
    rfl
  have present' : (answer p f (if x.lowered then .adjusted else .ok) (s.mapFreq p fun _ => s.reported p x)).present p = true :=
    ((moved_answer p f _ (s.mapFreq p fun _ => s.reported p x)).links p).present.trans present
  rw [freqTold]
  generalize answer p f (if x.lowered then .adjusted else .ok) (s.mapFreq p fun _ => s.reported p x) = a at *
  rw [bandNotice_of_room present' (own ▸ untold) (by rw [queue, List.length_append, List.length_singleton]; omega), sendFrame, link_mapLink_self, own]
  show (a.link p).queue ++ _ = _
  rw [queue, List.append_assoc]
  rfl

theorem BandFollowed.of_retuned {kept : Prop} (followed : BandFollowed p k b (s.retuned u) t kept) : BandFollowed p k b s t kept :=
  ⟨followed.off, followed.unneeded, followed.due, fun on calls out ready => ⟨⟨(followed.made on calls out ready).1.assigned,
    (followed.made on calls out ready).1.queued, (followed.made on calls out ready).1.noRoute⟩, (followed.made on calls out ready).2⟩⟩

theorem store_closed (u : State) {v : Work} (worked : Worked (Work.start u) v) :
    (freeSlot p (reportEvent (handOn (closeWork u (reclaims (admitFreed v)))))).store = u.store := by
  have first := (((worked.trans (worked_admitFreed v)).trans (worked_reclaims _)).moved).store (by decide)
  have closed := (moved_closeWork u (reclaims (admitFreed v))).store (by decide)
  have handed := (moved_handOn (closeWork u (reclaims (admitFreed v)))).store (by decide)
  have slot (x : State) : (freeSlot p x).store = x.store := rfl
  rw [slot, (moved_reportEvent _).store (by decide), handed, closed, first]
  rfl

/-- A kind that follows on the band change of a FREQ. -/
theorem followed_freqEnd {n : State} (found : BandFound p b s (bandSteered p n)) (keyed : s.AllocationKeyed) (held : s.ReclaimsHeld) (one : s.OneHeld)
    (changed : (n.freqOf p).band ≠ (s.freqOf p).band) (k : PortKind) : BandFollowed p k b s (freqEnd p s n)
      (0 < s.policy.tTail → s.WaitsNowhere p → (freqEnd p s n).standingRoutes p k = s.standingRoutes p k) := by
  rw [freqEnd_of_changed changed]
  exact (found.followed keyed held one (fun v worked => congrArg Store.ready ((store_closed _ worked).trans found.store)) k).of_retuned

/-! ## Decoding by cases (R29 to R33) -/

theorem decoded_of_out (r : FreqRecord) (bands : Vector BandEntry 12) (need : Nat) {n : Nat} (sends : r.transmit = some n)
    (off : decodeBand bands n = none) : r.decoded bands need = { r with outOfBand := true, candidate := none, count := 0 } := by
  rw [FreqRecord.decoded, sends]
  dsimp only
  rw [off]

theorem decoded_of_found (r : FreqRecord) (bands : Vector BandEntry 12) (need : Nat) {n : Nat} {c : Band} (sends : r.transmit = some n)
    (found : decodeBand bands n = some c) : r.decoded bands need = r.report need c := by
  rw [FreqRecord.decoded, sends]
  dsimp only
  rw [found]

theorem decoded_cases (r : FreqRecord) (bands : Vector BandEntry 12) (need : Nat) :
    (r.tx = none → r.rx = none → r.decoded bands need = { r with candidate := none, count := 0 }) ∧
    ∀ x, (r.tx = some x ∨ (r.tx = none ∧ r.rx = some x)) →
      (decodeBand bands x = none → r.decoded bands need = { r with outOfBand := true, candidate := none, count := 0 }) ∧
      ∀ c, decodeBand bands x = some c →
        let n := if r.candidate = some c then r.count + 1 else 1
        (r.outOfBand = false → r.band = some c → r.decoded bands need = { r with candidate := none, count := 0 }) ∧
        (r.outOfBand = true ∨ r.band ≠ some c → need ≤ n →
          r.decoded bands need = { r with band := some c, outOfBand := false, candidate := none, count := 0 }) ∧
        (r.outOfBand = true ∨ r.band ≠ some c → n < need → r.decoded bands need = { r with candidate := some c, count := n }) := by
  refine ⟨fun tx rx => ?_, fun n sends => ?_⟩
  · have silent : r.transmit = none := by simp [FreqRecord.transmit, tx, rx]
    rw [FreqRecord.decoded, silent]
  · have sends : r.transmit = some n := by
      obtain tx | ⟨tx, rx⟩ := sends
      · simp [FreqRecord.transmit, tx]
      · simp [FreqRecord.transmit, tx, rx]
    refine ⟨decoded_of_out r bands need sends, fun c found => ?_⟩
    have report := decoded_of_found r bands need sends found
    have other (differs : r.outOfBand = true ∨ r.band ≠ some c) : ¬(!r.outOfBand && decide (r.band = some c)) = true := by
      simpa [or_iff_not_imp_left] using differs
    rw [report]
    refine ⟨fun inBand same => if_pos (by simp [inBand, same]), fun differs enough => ?_, fun differs few => ?_⟩
    · exact (if_neg (other differs)).trans (if_pos enough)
    · exact (if_neg (other differs)).trans (if_neg (Nat.not_le.2 few))

/-- Settles O37: the record, the reply and the notice first; then the band change, on each kind as its ring claim comes to, whose record only
goes on to the end of the step. -/
theorem freqReportTaken : Obligations.FreqReportTaken := by
  refine ⟨fun s p f rx w tx offered kind small width send payload => ?_, fun s p f offered kind five nine => ?_, decoded_cases⟩
  · intro lowered
    have fields : freqFieldsOf f.payload = some { rx, width := w, tx } := by rw [payload]; exact freqFieldsOf_bytes small width send
    generalize eq : ({ rx, width := w, tx } : FreqFields) = x at fields
    have low : x.lowered = true ↔ lowered := by
      rw [← eq, FreqFields.lowered, Bool.or_eq_true, Bool.or_eq_true, decide_eq_true_iff, decide_eq_true_iff, decide_eq_true_iff, or_assoc]
      exact or_congr_right or_comm
    have code : (if x.lowered then Code.adjusted else .ok) = if lowered then .adjusted else .ok := by simp only [low]
    have taken := exec_freq_of_offers offered kind
    rw [serveFreq_of_fields fields] at taken
    have told := moved_freqTold p f x s
    have store : (freqTold p f x s).store = s.store := told.store (by decide)
    have record (q : Position) := (freqOf_freqEnd (p := p) store q).trans (freqOf_freqTold p f x s q)
    have own := record p
    rw [if_pos rfl] at own
    have stored := reported_eq s p x
    obtain ⟨b₁, o₁, c₁, n₁, decoded⟩ := decoded_keeps { s.freqOf p with rx := storedCount x.rx, tx := x.tx.bind storedCount } s.table.bands s.policy.c
    obtain ⟨sb, so, st, sent⟩ : (s.reported p x).SentAgain ((freqEnd p s (freqTold p f x s)).freqOf p) := by
      rw [own]
      split
      · exact ⟨_, _, _, rfl⟩
      · exact ⟨_, _, _, rfl⟩
    dsimp only at stored
    rw [decoded] at stored
    have band : ((freqTold p f x s).freqOf p).band = b₁ := by
      rw [← freqOf_freqEnd (p := p) store p, sent, stored]
    have target := target_freqEnd (p := p) (told.chain (by decide)) (told.table (by decide)) store
    have rx' : (s.reported p x).rx = storedCount x.rx := by rw [stored]
    have tx' : (s.reported p x).tx = x.tx.bind storedCount := by rw [stored]
    refine ⟨_, taken, ?_, ?_, ?_, ?_, ?_, ?_, fun q other => ?_, ?_, fun same => ?_, fun changed => ⟨?_, fun coherent => ⟨fun state => ?_, fun state => ?_⟩⟩,
      fun present room untold => ?_, fun present => ?_, fun b k now before keyed one held => ?_⟩
    · rw [← code]
      exact served_of_moved (a := s.mapFreq p fun _ => s.reported p x) (b := reportEvent (bandChangeFrom (s.freqOf p).band p (freqTold p f x s)))
        ((moved_mapFreq s p _).mono (by decide)) rfl
        (((moved_bandNotice p _).mono (by decide)).trans ((moved_freqChange _ p _).mono (by decide)))
        ((moved_closeStep s _ (ready_freqChange store _)).mono (by decide))
    · rw [sent, rx', ← eq]
      rfl
    · rw [sent, tx', ← eq]
      rfl
    · rw [sent, stored, ← eq]
    · rw [sent, stored]
    · rw [sent, stored]
    · exact (record q).trans (if_neg other)
    · simp only [sent, rx', tx', decoded, stored, and_self]
    · rw [sent, stored] at same
      rw [target, if_pos (band.trans same)]
    · rw [sent, stored] at changed ⊢
      rw [target, if_neg (by rw [band]; exact changed), State.bandFilter, band, told.table (by decide)]
    · rw [sent, stored] at changed
      have ended := revoked_freqEnd (told.tx (by decide)) (told.waiting (by decide)) store coherent (by rw [State.onAir, state]; rfl) (by rw [band]; exact changed)
      rw [state] at ended
      exact ended
    · rw [sent, stored] at changed
      have ended := revoked_freqEnd (told.tx (by decide)) (told.waiting (by decide)) store coherent (by rw [State.onAir, state]; rfl) (by rw [band]; exact changed)
      rw [state] at ended
      exact ended
    · have unsent : (s.reported p x).untold := by
        rw [sent, stored] at untold
        rw [stored]
        exact untold.imp_right (Or.imp_right fun on => by simp [on])
      have queue := queue_freqTold (f := f) present room unsent
      have change := ((moved_freqChange (s.freqOf p).band p (freqTold p f x s)).links p).queue
      have close := ((moved_closeStep s _ (ready_freqChange (p := p) store (s.freqOf p).band)).links p).queue
      rw [link_freeSlot, if_pos rfl] at close
      rw [sent, ← code]
      refine List.IsPrefix.trans ?_ (change.trans close)
      rw [queue, stored]
      exact List.prefix_rfl
    · rw [own, if_pos present, stored]
      exact ⟨rfl, rfl, rfl⟩
    · rw [sent, stored] at now
      have band := band.trans now
      have changed : ((freqTold p f x s).freqOf p).band ≠ (s.freqOf p).band := by
        rw [band]
        exact Ne.symm before
      obtain ⟨off, unneeded, due, made⟩ := followed_freqEnd (found_bandSteered p f x s band) keyed held one changed k
      exact ⟨off, unneeded, due, made⟩
  · have bad : freqFieldsOf f.payload = none := by simp [freqFieldsOf, five, nine]
    rw [exec_freq_of_offers offered kind, serveFreq, bad]
    exact congrArg Host.Outcome.next (by rw [freeSlot_answer, closeStep_answered])

end Sys2Proof.Machine
end

section
/-! The driver's part of a CHANGE's completion (R140, R142, R149, R152, R194). -/

namespace Sys2Proof.Machine

variable {s u v : State} {o : Operation}

/-! ## Latching (R142, steps 1 to 3) -/

/-- The driver behind the completion of the CHANGE `o`. -/
structure Chain.Latches (c : Chain) (o : Operation) (d : Chain) : Prop where
  latched : d.latched = o.image
  refreshDue : d.refreshDue = c.lengthDue
  content : d.content = if c.lengthDue then none else c.content
  settle : d.settleTimer = none
  restartHold : d.restartHold = (c.restartHold && decide (o.purpose ≠ .restart))
  filters : ∀ q, (d.filters.get q).current = latchedFilter o.image q

theorem Chain.Latches.steered {c d e : Chain} (latches : c.Latches o d) (steered : Steered d e) : c.Latches o e where
  latched := steered.latched.trans latches.latched
  refreshDue := steered.refreshDue.trans latches.refreshDue
  content := steered.content.trans latches.content
  settle := steered.settle.trans latches.settle
  restartHold := steered.restartHold.trans latches.restartHold
  filters q := (steered.filters q).2.trans (latches.filters q)

theorem Chain.Latches.started {c : Chain} (latches : c.Latches o v.chain) : c.Latches o (startRule v).chain := by
  have kept := startKept_startRule v
  exact ⟨kept.latched.trans latches.latched, kept.refreshDue.trans latches.refreshDue, kept.content.trans latches.content,
    kept.settle.trans latches.settle, kept.restartHold.trans latches.restartHold, fun q => by rw [kept.filters]; exact latches.filters q⟩

theorem latches_latchChange (op : s.chain.op = some o) : s.chain.Latches o (latchChange s).chain := by
  have purpose : s.purpose = some o.purpose := by rw [State.purpose, op]; rfl
  have hold : (s.chain.restartHold && decide (s.purpose ≠ some .restart)) = (s.chain.restartHold && decide (o.purpose ≠ .restart)) := by
    rw [purpose]
    simp
  have taken (q : Position) (c : Chain) : (mapFin (fun p (f : FilterRecord) => { f with current := latchedFilter c.latched p }) c.filters).get q =
      { c.filters.get q with current := latchedFilter c.latched q } := get_mapFin _ _ _
  cases due : s.chain.lengthDue <;>
    refine ⟨?_, ?_, ?_, ?_, ?_, fun q => ?_⟩ <;>
    simp [latchChange, refreshFilters, endOperation, markLength, due, op, hold, purpose, taken]

theorem latchedFilter_iff (im : Image) (q : Position) (g : FilterNo) :
    latchedFilter im q = some g ↔ ∀ i, im.getLsbD (filterBit q i) = decide (i = g) := by
  have once : ((List.finRange 8).filter fun f => im.getLsbD (filterBit q f)).Nodup := (List.nodup_finRange 8).filter _
  have only : latchedFilter im q = some g ↔ ((List.finRange 8).filter fun f => im.getLsbD (filterBit q f)) = [g] := by
    unfold latchedFilter
    split
    · next f eq => rw [eq, Option.some.injEq, List.singleton_inj]
    · next other => exact ⟨nofun, fun one => absurd one (other g)⟩
  rw [only, ← List.perm_singleton, List.perm_ext_iff_of_nodup once (List.nodup_singleton g)]
  refine forall_congr' fun i => ?_
  by_cases here : i = g <;> simp [here]

/-! ## The rest of the step (R142, steps 4 to 8; R152, R194) -/

/-- The blocks have taken the completion. -/
abbrev completed (s : State) : State := arbiter (allocCompletion (latchChange s))

theorem steered_completed (s : State) : Steered (latchChange s).chain (completed s).chain :=
  (steered_allocEvent worked_allocCompletion _).trans (steered_of_moved (moved_arbiter _) (by decide))

theorem moved_completed (s : State) : Moved allocParts s (completed s) :=
  (((moved_latchChange s).mono (by decide)).trans (moved_allocCompletion _)).trans ((moved_arbiter _).mono (by decide))

theorem moved_afterChange (why : Option Purpose) (s : State) : Moved [.store, .chain] s (afterChange why s) := by
  have closes (u : State) : Moved [.store, .chain] u (closeAttempt u) := (moved_closeAttempt u).mono (by decide)
  unfold afterChange
  split
  · exact (((moved_restartChainEvent s).mono (by decide)).trans (closes _)).trans ((moved_filterMoveAll _).mono (by decide))
  · refine (closes s).trans ?_
    unfold afterStartUp
    split
    · exact (moved_endStartUp _).mono (by decide)
    · exact (moved_mapChain _ _).mono (by decide)
  · exact closes s

theorem Chain.Latches.closeAttempt {c : Chain} (latches : c.Latches o u.chain) : c.Latches o (closeAttempt u).chain :=
  ⟨latches.latched, latches.refreshDue, latches.content, latches.settle, latches.restartHold, latches.filters⟩

theorem latches_afterChange {c : Chain} (latches : c.Latches o u.chain) (why : Option Purpose) :
    c.Latches o (afterChange why u).chain ∧ (afterChange why u).chain.attempt = none := by
  unfold afterChange
  split
  · have steered := steered_filterMoveAll (closeAttempt (restartChainEvent u))
    exact ⟨Chain.Latches.steered (Chain.Latches.closeAttempt (u := restartChainEvent u) latches) steered, steered.attempt⟩
  · unfold afterStartUp
    split
    · exact ⟨latches.closeAttempt, rfl⟩
    · exact ⟨⟨latches.latched, latches.refreshDue, latches.content, latches.settle, latches.restartHold, latches.filters⟩, rfl⟩
  · exact ⟨latches.closeAttempt, rfl⟩

theorem ready_afterRestart (started : u.store.ready ≠ .starting) : (afterChange (some .restart) u).store.ready = .ready := by
  have event : afterChange (some .restart) u = filterMoveAll (closeAttempt (restartChainEvent u)) := rfl
  have closes : (closeAttempt (restartChainEvent u)).store = (restartChainEvent u).store := rfl
  rw [event, (moved_filterMoveAll _).store (by decide), closes]
  cases ready : u.store.ready <;> simp_all [restartChainEvent]

theorem afterStartUp_of_out (out : u.safe = false) : afterChange (some .startUp) u = startVerify .startUp (closeAttempt u) := by
  have out' : (closeAttempt u).safe = false := out
  show afterStartUp (closeAttempt u) = _
  rw [afterStartUp, out']
  exact if_neg Bool.false_ne_true

theorem started_afterStartUp (safe : u.safe = true) : (afterChange (some .startUp) u).store.ready ≠ .starting := by
  have safe' : (closeAttempt u).safe = true := safe
  show (afterStartUp (closeAttempt u)).store.ready ≠ _
  rw [afterStartUp, safe', if_pos rfl]
  exact started_endStartUp _

/-- What the completion of a CHANGE leaves of the driver and the store. -/
structure ChangeLeft (s : State) (o : Operation) (t : State) : Prop where
  moved : Moved (.store :: allocParts) s t
  latches : s.chain.Latches o t.chain
  attempt : t.chain.attempt = none
  restarted : o.purpose = .restart → s.store.ready ≠ .starting → t.store.ready = .ready
  verifies : o.purpose = .startUp → s.safe = false → t.store.ready = s.store.ready ∧ t.chain.op = some
    { kind := .verify, purpose := .startUp, phase := .shifting, image := o.image, changeSet := 0, length := s.policy.chainLength }
  ended : o.purpose = .startUp → s.safe = true → t.store.ready ≠ .starting

theorem changeLeft_of_closed (op : s.chain.op = some o) (closed : Closed (afterChange (some o.purpose) (completed s)) v) : ChangeLeft s o (startRule v) := by
  have moved := moved_completed s
  have store : (completed s).store = s.store := moved.store (by decide)
  have safe : (completed s).safe = s.safe := congrArg FaultLog.safe (moved.log (by decide))
  have table : (completed s).table = s.table := moved.table (by decide)
  have latches := (latches_latchChange op).steered (steered_completed s)
  have whole : Moved (.store :: allocParts) s (startRule v) :=
    ((moved.mono (by decide)).trans ((moved_afterChange (some o.purpose) (completed s)).mono (by decide))).trans closed.started
  generalize completed s = u at *
  obtain ⟨latches', attempt⟩ := latches_afterChange latches (some o.purpose)
  have ready : (startRule v).store.ready = (afterChange (some o.purpose) u).store.ready := (ready_startRule v).trans closed.ready
  refine ⟨whole, (latches'.steered closed.steered).started, attempt_startRule_of_none (closed.steered.attempt.trans attempt), fun restart started => ?_,
    fun startUp out => ?_, fun startUp inSafe => ?_⟩
  · rw [ready, restart]
    exact ready_afterRestart (by rw [store]; exact started)
  · have verifies := afterStartUp_of_out (u := u) (safe.trans out)
    have op' := closed.steered.op
    rw [startUp, verifies] at ready op'
    have begun : v.chain.op = some
        { kind := .verify, purpose := .startUp, phase := .shifting, image := o.image, changeSet := 0, length := s.policy.chainLength } := by
      rw [op', ← latches.latched, State.policy, ← table]
      rfl
    rw [startRule_of_blocked (.inl (by rw [begun]; rfl))] at ready ⊢
    exact ⟨ready.trans (congrArg Store.ready store), begun⟩
  · rw [ready, startUp]
    exact started_afterStartUp (safe.trans inSafe)

end Sys2Proof.Machine
end

section
/-! The records at the completion of a CHANGE (R43, R45, R46). -/

namespace Sys2Proof.Machine

variable {s c : State} {w : Work} {x y : Holder} {l : Line} {p : Position}

/-! ## Connections and removals over the records -/

/-- The same position's record of the same line. -/
abbrev Holder.at (x y : Holder) : Bool := x.pos = y.pos && x.line = y.line

abbrev Holder.connect (x : Holder) : Holder := { x with state := .connected }

theorem records_connects : ∀ (xs : List Holder) (w : Work), (xs.foldl (fun w r => connectOne r w) w).s.alloc.records =
    w.s.alloc.records.map fun y => if xs.any (fun x => x.at y) then y.connect else y
  | [], w => by simp
  | x :: xs, w => by
    have one : (connectOne x w).s.alloc.records = w.s.alloc.records.map fun y => if x.at y then y.connect else y := by
      show w.s.alloc.records.map (fun y => if y.pos = x.pos && y.line = x.line then y.connect else y) = _
      refine List.map_congr_left fun y _ => ?_
      simp only [Holder.at, eq_comm]
    rw [List.foldl_cons, records_connects xs, one, List.map_map]
    refine List.map_congr_left fun y _ => ?_
    rw [Function.comp, List.any_cons]
    by_cases here : x.at y = true
    · rw [if_pos here, here, Bool.true_or, if_pos rfl]
      exact ite_self _
    · rw [if_neg here, Bool.eq_false_iff.2 here, Bool.false_or]

theorem records_removes : ∀ (xs : List Holder) (w : Work), (xs.foldl (fun w r => removeRecord r.pos r.line w) w).s.alloc.records =
    w.s.alloc.records.filter fun y => !xs.any (fun x => x.at y)
  | [], w => by simp
  | x :: xs, w => by
    have one : (removeRecord x.pos x.line w).s.alloc.records = w.s.alloc.records.filter fun y => !x.at y := by
      show w.s.alloc.records.filter (fun y => !(y.pos = x.pos && y.line = x.line)) = _
      refine List.filter_congr fun y _ => ?_
      simp only [Holder.at, eq_comm]
    rw [List.foldl_cons, records_removes xs, one, List.filter_filter]
    refine List.filter_congr fun y _ => ?_
    rw [List.any_cons, Bool.not_or, Bool.and_comm]

/-- Among records that each stand once, a test that picks the records picks them where they stand. -/
theorem any_at_filter {rs : List Holder} (once : (rs.map fun r => (r.pos, r.line)).Nodup) (t : Holder → Bool) (mem : y ∈ rs) :
    (rs.filter t).any (fun x => x.at y) = t y := by
  cases test : t y with
  | true => exact List.any_eq_true.2 ⟨y, List.mem_filter.2 ⟨mem, test⟩, by simp⟩
  | false =>
    refine List.any_eq_false.2 fun x mem' here => ?_
    obtain ⟨mem', test'⟩ := List.mem_filter.1 mem'
    simp only [Bool.and_eq_true, decide_eq_true_eq] at here
    have same : x = y := List.inj_on_of_nodup_map once mem' mem (Prod.ext here.1 here.2)
    rw [same, test] at test'
    cases test'

theorem records_connectMade (once : (w.s.alloc.records.map fun r => (r.pos, r.line)).Nodup) : (connectMade w).s.alloc.records =
    w.s.alloc.records.map fun y => if y.state = .making && w.s.latchedAs y then y.connect else y := by
  rw [connectMade, records_connects]
  exact List.map_congr_left fun y mem => by rw [any_at_filter once _ mem]

theorem records_removeWhere (once : (w.s.alloc.records.map fun r => (r.pos, r.line)).Nodup) (t : Holder → Bool) :
    (removeWhere t w).s.alloc.records = w.s.alloc.records.filter fun y => !t y := by
  rw [removeWhere, records_removes]
  exact List.filter_congr fun y mem => by rw [any_at_filter once _ mem]

/-! ## The completion -/

/-- The work of a completion before its admissions. -/
abbrev completionWork (c : State) : Work := removeWhere (fun r => r.state = .breaking && !r.latched) (connectMade (takeFlags (Work.start c)))

/-- What a completion makes of a record that stays: its crosspoint flag is that of the latched image, and a MAKING record latched as it needs is
CONNECTED. -/
def Holder.landed (c : State) (x : Holder) : Holder :=
  let y := { x with latched := c.chain.latched.getLsbD (crosspointBit x.pos x.line) }
  if x.state = .making && c.latchedAs x then y.connect else y

theorem landed_placed (c : State) (x : Holder) : (x.landed c).pos = x.pos ∧ (x.landed c).line = x.line ∧ (x.landed c).kind = x.kind ∧
    (x.landed c).route = x.route ∧ (x.landed c).reroute = x.reroute := by
  unfold Holder.landed
  dsimp only
  split <;> exact ⟨rfl, rfl, rfl, rfl, rfl⟩

theorem latched_landed (c : State) (x : Holder) : (x.landed c).latched = c.chain.latched.getLsbD (crosspointBit x.pos x.line) := by
  unfold Holder.landed
  dsimp only
  split <;> rfl

theorem landed_of_unmade (out : ¬(x.state = .making ∧ c.latchedAs x = true)) :
    x.landed c = { x with latched := c.chain.latched.getLsbD (crosspointBit x.pos x.line) } := by
  refine if_neg ?_
  simpa using out

theorem landed_of_made (making : x.state = .making) (fits : c.latchedAs x = true) :
    x.landed c = { x with latched := c.chain.latched.getLsbD (crosspointBit x.pos x.line), state := .connected } := by
  refine if_pos ?_
  simp [making, fits]

theorem breaking_landed (c : State) (x : Holder) : (x.landed c).state = .breaking ↔ x.state = .breaking := by
  by_cases made : x.state = .making ∧ c.latchedAs x = true
  · rw [landed_of_made made.1 made.2]
    simp [made.1]
  · rw [landed_of_unmade made]

/-- The record stays at a completion. -/
abbrev Holder.stays (y : Holder) : Bool := !(y.state = .breaking && !y.latched)

theorem records_completionWork (keyed : c.AllocationKeyed) :
    (completionWork c).s.alloc.records = (c.alloc.records.map (Holder.landed c)).filter Holder.stays := by
  have flags : (takeFlags (Work.start c)).s.alloc.records =
      c.alloc.records.map fun r => { r with latched := c.chain.latched.getLsbD (crosspointBit r.pos r.line) } := rfl
  have once : ((takeFlags (Work.start c)).s.alloc.records.map fun r => (r.pos, r.line)).Nodup := by
    rw [flags, List.map_map]
    exact keyed.records
  have landed : (connectMade (takeFlags (Work.start c))).s.alloc.records = c.alloc.records.map (Holder.landed c) := by
    rw [records_connectMade once, flags, List.map_map]
    exact List.map_congr_left fun x _ => rfl
  rw [completionWork, records_removeWhere (by rw [landed, List.map_map]; simpa [Function.comp_def, landed_placed] using keyed.records), landed]

theorem recordsOn_completionWork (keyed : c.AllocationKeyed) (l : Line) :
    (completionWork c).s.recordsOn l = ((c.recordsOn l).map (Holder.landed c)).filter Holder.stays := by
  rw [State.recordsOn, records_completionWork keyed, State.recordsOn, List.filter_filter, List.filter_map, List.filter_map, List.filter_filter]
  congr 1
  refine List.filter_congr fun x _ => ?_
  simp [landed_placed, Bool.and_comm]

theorem keyed_completionWork (idle : c.chain.op = none) (keyed : c.AllocationKeyed) : (completionWork c).s.AllocationKeyed :=
  allocationKeyed_moves (deals_completion (A := fun _ _ => True) (B := True) (w := takeFlags (Work.start c)) trivial (fun _ _ => trivial) idle
    ⟨allocationKeyed_flagged keyed, cover_true _⟩) (allocationKeyed_flagged keyed)

theorem mem_completionWork (keyed : c.AllocationKeyed) : y ∈ (completionWork c).s.alloc.records ↔
    ∃ x ∈ c.alloc.records, (x.landed c).stays = true ∧ x.landed c = y := by
  rw [records_completionWork keyed, List.mem_filter, List.mem_map]
  constructor
  · rintro ⟨⟨x, mem, rfl⟩, stays⟩
    exact ⟨x, mem, stays, rfl⟩
  · rintro ⟨x, mem, stays, rfl⟩
    exact ⟨⟨x, mem, rfl⟩, stays⟩

section

variable (idle : c.chain.op = none) (keyed : c.AllocationKeyed)

include idle keyed

theorem recordAt_completionWork (p : Position) (l : Line) : (completionWork c).s.recordAt p l =
    ((c.recordAt p l).map (Holder.landed c)).filter Holder.stays := by
  have once := (keyed_completionWork idle keyed).records
  ext y
  rw [recordAt_eq_some_iff once, mem_completionWork keyed]
  constructor
  · rintro ⟨⟨x, mem, stays, rfl⟩, pos, line⟩
    obtain ⟨pos', line', -⟩ := landed_placed c x
    have held := (recordAt_eq_some_iff keyed.records).2 ⟨mem, pos'.symm.trans pos, line'.symm.trans line⟩
    simp [held, stays]
  · intro eq
    cases held : c.recordAt p l with
    | none => simp [held] at eq
    | some x =>
      obtain ⟨mem, pos, line⟩ := mem_of_recordAt held
      obtain ⟨pos', line', -⟩ := landed_placed c x
      rw [held, Option.map_some, Option.filter_eq_some_iff, Option.some.injEq] at eq
      obtain ⟨rfl, stays⟩ := eq
      exact ⟨⟨x, mem, stays, rfl⟩, pos'.trans pos, line'.trans line⟩

end

/-! ## What a completion leaves besides -/

theorem connects_keeps : ∀ (xs : List Holder) (w : Work), (xs.foldl (fun w r => connectOne r w) w).s.alloc.lists = w.s.alloc.lists ∧
    (xs.foldl (fun w r => connectOne r w) w).s.alloc.standings = w.s.alloc.standings ∧
    (xs.foldl (fun w r => connectOne r w) w).s.table = w.s.table ∧
    (xs.foldl (fun w r => connectOne r w) w).freed = w.freed ∧
    (xs.foldl (fun w r => connectOne r w) w).notes = w.notes ++ xs.map (fun r => (r.pos, .granted r.kind r.line r.route)) ∧
    (xs.foldl (fun w r => connectOne r w) w).events = w.events ++ xs.map fun r => .connected r.pos
  | [], w => by simp
  | x :: xs, w => by
    obtain ⟨lists, standings, table, freed, notes, events⟩ := connects_keeps xs (connectOne x w)
    refine ⟨lists, standings, table, freed, notes.trans ?_, events.trans ?_⟩
    · simp [connectOne, Work.event, Work.note, Work.mapRecord, Work.map]
    · simp [connectOne, Work.event, Work.note, Work.mapRecord, Work.map]

theorem removes_keeps : ∀ (xs : List Holder) (w : Work),
    (∀ l, ((xs.foldl (fun w r => removeRecord r.pos r.line w) w).s.listOf l).map WaitEntry.still = (w.s.listOf l).map WaitEntry.still) ∧
    (xs.foldl (fun w r => removeRecord r.pos r.line w) w).s.alloc.standings = w.s.alloc.standings ∧
    (xs.foldl (fun w r => removeRecord r.pos r.line w) w).s.table = w.s.table ∧
    (xs.foldl (fun w r => removeRecord r.pos r.line w) w).freed = w.freed ++ xs.map (fun r => r.line) ∧
    (xs.foldl (fun w r => removeRecord r.pos r.line w) w).notes = w.notes ∧
    (xs.foldl (fun w r => removeRecord r.pos r.line w) w).events = w.events
  | [], w => by simp
  | x :: xs, w => by
    obtain ⟨lists, standings, table, freed, notes, events⟩ := removes_keeps xs (removeRecord x.pos x.line w)
    refine ⟨fun l => (lists l).trans (lists_without w.s x.pos x.line l), standings, table, freed.trans ?_, notes, events⟩
    simp [removeRecord, Work.free, Work.map]

/-- What the completion's own work leaves, and hands on. -/
structure CompletionWork (c : State) (w : Work) : Prop where
  lists : ∀ l, (w.s.listOf l).map WaitEntry.still = (c.listOf l).map WaitEntry.still
  standings : w.s.alloc.standings = c.alloc.standings
  table : w.s.table = c.table
  freed : ∀ x ∈ c.alloc.records, (x.landed c).stays = false → x.line ∈ w.freed
  notes : ∀ x ∈ c.alloc.records, x.state = .making → c.latchedAs x = true → (x.pos, Notice.granted x.kind x.line x.route) ∈ w.notes
  events : ∀ e ∈ w.events, ∃ q, e = .connected q

theorem completionWork_leaves (keyed : c.AllocationKeyed) : CompletionWork c (completionWork c) := by
  have landed : (connectMade (takeFlags (Work.start c))).s.alloc.records = c.alloc.records.map (Holder.landed c) := by
    rw [records_connectMade (by
      show (List.map _ (List.map _ c.alloc.records)).Nodup
      rw [List.map_map]
      exact keyed.records)]
    show List.map _ (List.map _ c.alloc.records) = _
    rw [List.map_map]
    exact List.map_congr_left fun x _ => rfl
  obtain ⟨lists, standings, table, freed, notes, events⟩ := removes_keeps
    ((connectMade (takeFlags (Work.start c))).s.alloc.records.filter fun r => r.state = .breaking && !r.latched) (connectMade (takeFlags (Work.start c)))
  obtain ⟨lists', standings', table', freed', notes', events'⟩ := connects_keeps
    ((takeFlags (Work.start c)).s.alloc.records.filter fun r => r.state = .making && (takeFlags (Work.start c)).s.latchedAs r) (takeFlags (Work.start c))
  refine ⟨fun l => (lists l).trans (by rw [connectMade, listOf_of_alloc lists']; rfl), standings.trans standings', table.trans table', fun x mem gone => ?_,
    fun x mem making fits => ?_, fun e mem => ?_⟩
  · refine freed.symm ▸ List.mem_append_right _ (List.mem_map.2 ⟨x.landed c, List.mem_filter.2 ⟨?_, ?_⟩, (landed_placed c x).2.1⟩)
    · rw [landed]
      exact List.mem_map_of_mem mem
    · simpa using gone
  · refine notes.symm ▸ notes'.symm ▸ List.mem_append_right _ (List.mem_map.2
      ⟨{ x with latched := c.chain.latched.getLsbD (crosspointBit x.pos x.line) }, List.mem_filter.2 ⟨List.mem_map_of_mem mem, ?_⟩, rfl⟩)
    have fits' : (takeFlags (Work.start c)).s.latchedAs { x with latched := c.chain.latched.getLsbD (crosspointBit x.pos x.line) } = true := fits
    exact Bool.and_eq_true_iff.2 ⟨decide_eq_true making, fits'⟩
  · rw [completionWork, removeWhere, events, connectMade, events'] at mem
    obtain ⟨x, -, rfl⟩ := List.mem_map.1 ((List.mem_append.1 mem).resolve_left nofun)
    exact ⟨x.pos, rfl⟩

end Sys2Proof.Machine
end

section
/-! A position that awaits no line, through the allocator's events: no other's event ends its transmission, so its path does not become quiet. -/

namespace Sys2Proof.Machine

variable {w v : Work} {p q : Position} {s t : State}

/-! ## Works that hand on no event of the position -/

/-- The position awaits no line, and no event of it that ends a transmission is to be handed on. -/
structure Clear (p : Position) (w : Work) : Prop where
  awaits : w.s.AwaitsNoLine p
  events : ∀ e ∈ w.events, ¬e.Ends p

/-- Nothing is added to the lists or the re-claim lines of `p`, and no event of it that ends a transmission. -/
structure Averts (p : Position) (w v : Work) : Prop where
  lists : ∀ l, ∀ e ∈ v.s.listOf l, e.pos = p → ∃ e' ∈ w.s.listOf l, e'.pos = p
  reclaims : ∀ k, (v.s.standing p k).reclaim ≠ none → (w.s.standing p k).reclaim ≠ none
  events : ∃ es, v.events = w.events ++ es ∧ ∀ e ∈ es, ¬e.Ends p

theorem Averts.clear (averts : Averts p w v) (clear : Clear p w) : Clear p v := by
  refine ⟨⟨fun l e mem own => ?_, fun k => ?_⟩, fun e mem => ?_⟩
  · obtain ⟨e', mem', own'⟩ := averts.lists l e mem own
    exact clear.awaits.1 l e' mem' own'
  · by_contra named
    exact averts.reclaims k named (clear.awaits.2 k)
  · obtain ⟨es, events, apart⟩ := averts.events
    rw [events] at mem
    exact (List.mem_append.1 mem).elim (clear.events e) (apart e)

theorem averts_of_same (lists : v.s.alloc.lists = w.s.alloc.lists) (standings : v.s.alloc.standings = w.s.alloc.standings)
    (events : v.events = w.events) : Averts p w v where
  lists l e mem own := ⟨e, listOf_of_alloc lists l ▸ mem, own⟩
  reclaims k := by rw [State.standing, standings]; exact id
  events := ⟨[], by rw [events, List.append_nil], by simp⟩

theorem averts_withdraw (k : PortKind) (keep : Option Line) (w : Work) : Averts p w (withdraw q k keep w) where
  lists l e mem own := by
    have mem' : e ∈ (w.s.withdrawn q k keep).listOf l := mem
    rw [listOf_withdrawn] at mem'
    split at mem'
    · exact ⟨e, List.mem_of_mem_filter mem', own⟩
    · exact ⟨e, mem', own⟩
  reclaims _ := id
  events := ⟨[], (List.append_nil _).symm, by simp⟩

theorem averts_mapStanding (other : q ≠ p) (k : PortKind) (f : Standing → Standing) (w : Work) : Averts p w (w.mapStanding q k f) where
  lists l e mem own := ⟨e, mem, own⟩
  reclaims j named := by
    have same : (w.s.mapStanding q k f).standing p j = w.s.standing p j := by
      rw [standing_mapStanding, if_neg fun both => other both.1.symm]
    rw [← same]
    exact named
  events := ⟨[], (List.append_nil _).symm, by simp⟩

theorem averts_goBreaking (other : q ≠ p) (l : Line) (w : Work) : Averts p w (goBreaking q l w) where
  lists j e mem own := by
    have still := lists_left w.s q l j
    rw [← goBreaking_s] at still
    have mem' : e.still ∈ ((goBreaking q l w).s.listOf j).map WaitEntry.still := List.mem_map_of_mem mem
    rw [still] at mem'
    obtain ⟨e', there, same⟩ := List.mem_map.1 mem'
    have pos : e'.still.pos = e.still.pos := by rw [same]
    exact ⟨e', there, pos.trans own⟩
  reclaims k := by rw [goBreaking_s, standing_left]; exact id
  events := by
    obtain ⟨-, es, events, own⟩ := goBreaking_hands q l w
    exact ⟨es, events, fun e mem => by rw [own e mem]; exact other⟩

theorem Averts.trans {u : Work} (one : Averts p w v) (two : Averts p v u) : Averts p w u where
  lists l e mem own := by
    obtain ⟨e', mem', own'⟩ := two.lists l e mem own
    exact one.lists l e' mem' own'
  reclaims k named := one.reclaims k (two.reclaims k named)
  events := by
    obtain ⟨es, first, out⟩ := one.events
    obtain ⟨fs, second, out'⟩ := two.events
    exact ⟨es ++ fs, by rw [second, first, List.append_assoc], fun e mem => (List.mem_append.1 mem).elim (out e) (out' e)⟩

theorem averts_foldl {α : Type} {f : Work → α → Work} (each : ∀ w a, Averts p w (f w a)) : ∀ (xs : List α) (w : Work), Averts p w (xs.foldl f w)
  | [], w => averts_of_same rfl rfl rfl
  | x :: xs, w => (each w x).trans (averts_foldl each xs _)

theorem averts_lose (other : q ≠ p) (k : PortKind) (l : Line) (why : LostReason) (w : Work) : Averts p w (lose q k l why w) := by
  unfold lose
  split
  · exact averts_of_same rfl rfl rfl
  · exact averts_mapStanding other k _ w

theorem averts_enqueueWait (other : q ≠ p) (r : Route) (w : Work) : Averts p w (enqueueWait q r w) where
  lists l e mem own := by
    rw [enqueueWait_s, listOf_enqueued] at mem
    split at mem
    · unfold State.queueFor at mem
      split at mem
      · obtain ⟨e', mem', rfl⟩ := List.mem_map.1 mem
        refine ⟨e', mem', ?_⟩
        split at own
        · exact own
        · exact own
      · refine ⟨e, ?_, own⟩
        obtain ⟨front, back, split, inserted, -⟩ := insertWait_split (newEntry q r .wait w.s) (w.s.listOf l)
        have mem' : e ∈ insertWait (newEntry q r .wait w.s) (w.s.listOf l) := mem
        rw [split]
        rw [inserted, List.mem_append, List.mem_cons] at mem'
        obtain inFront | new | inBack := mem'
        · exact List.mem_append_left _ inFront
        · exact absurd ((congrArg WaitEntry.pos new).symm.trans own) other
        · exact List.mem_append_right _ inBack
    · split at mem
      · exact ⟨e, List.mem_of_mem_filter mem, own⟩
      · exact ⟨e, mem, own⟩
  reclaims k := id
  events := ⟨[], (List.append_nil _).symm, by simp⟩

theorem admissionsKeep_clear (p : Position) : AdmissionsKeep (fun _ => True) (Clear p) (fun _ e => e.pos ≠ p) where
  entries w clear l _ := clear.awaits.1 l
  takes w clear l e _ _ := by
    have withdrawn := (averts_withdraw (q := e.pos) (w.s.portOf l) none w).clear clear
    exact ⟨withdrawn.awaits, withdrawn.events⟩
  leave w clear v _ l e _ other x _ _ _ _ := (averts_goBreaking other x.line w).clear clear

theorem clear_admitFreed (clear : Clear p w) : Clear p (admitFreed w) :=
  (admissionsKeep_clear p).admitAll (fun _ => trivial) (fun _ _ at' => ⟨at'.awaits, at'.events⟩) _ clear

theorem averts_freeIfAux (l : Line) (w : Work) : Averts p w (freeIfAux l w) := by
  unfold freeIfAux
  split <;> exact averts_of_same rfl rfl rfl

theorem averts_assign (other : q ≠ p) (r : Route) (w : Work) : Averts p w (assign q r w) :=
  ((averts_withdraw (w.s.portOf (w.s.routeOf r).line) none w).trans
    (averts_foldl (fun v (x : Holder) => averts_goBreaking other x.line v) _ _)).trans (averts_of_same rfl rfl rfl)

theorem clear_replaceRoute (l : Line) (r : Route) (st : HolderState) (clear : Clear p w) : Clear p (replaceRoute q l r st w) :=
  clear_admitFreed (((averts_of_same rfl rfl rfl : Averts p w (w.mapRecord q l fun x => { x with route := r, reroute := none, state := st })).trans
    (averts_freeIfAux l _)).clear clear)

theorem clear_rerouteBy (r : Route) (h : Holder) (clear : Clear p w) : Clear p (rerouteBy q r h w).1 := by
  unfold rerouteBy
  split
  · exact clear_replaceRoute _ _ _ clear
  · exact clear_replaceRoute _ _ _ clear
  · split
    · exact clear_replaceRoute _ _ _ clear
    · exact ⟨clear.awaits, clear.events⟩
  · exact clear

/-- A claim of another position that is no TAKE. -/
theorem clear_claimRoute (other : q ≠ p) (r : Route) {m : Manner} (manner : m ≠ .take) (clear : Clear p w) : Clear p (claimRoute q r m w).1 := by
  unfold claimRoute
  dsimp only
  split
  · next h _ =>
    split
    · exact ((averts_of_same rfl rfl rfl : Averts p w (w.mapRecord q (w.s.routeOf r).line fun x => { x with reroute := none })).trans
        (averts_withdraw h.kind none _)).clear clear
    · unfold rerouteRecord
      split
      · exact clear
      · exact clear_rerouteBy r h ((averts_withdraw h.kind none w).clear clear)
  · split
    · exact clear_admitFreed ((averts_assign other r w).clear clear)
    · cases m with
      | wait => exact (averts_enqueueWait other r w).clear clear
      | now => exact clear
      | take => exact absurd rfl manner

theorem clear_ringClaim (other : q ≠ p) (k : PortKind) (b : Band) (told : Bool) (clear : Clear p w) : Clear p (ringClaim q k b told w).1 := by
  unfold ringClaim
  dsimp only
  split
  · next r _ =>
    have claimed := clear_claimRoute other r (m := .now) nofun clear
    split
    · exact ((averts_foldl (fun v i => averts_lose other k i _ v) _ _).trans (averts_mapStanding other k _ _)).clear claimed
    · exact (averts_mapStanding other k _ _).clear claimed
  · split
    · next r _ _ => exact (averts_mapStanding other k _ _).clear (clear_claimRoute other r (m := .wait) nofun clear)
    · unfold noteNoRoute
      split
      · exact ⟨clear.awaits, clear.events⟩
      · exact clear

theorem clear_claimIfNeeded (other : q ≠ p) (k : PortKind) (clear : Clear p w) : Clear p (claimIfNeeded q k w) := by
  unfold claimIfNeeded
  split
  · split
    · unfold calledClaim
      split
      · exact (averts_mapStanding other k _ _).clear clear
      · split
        · exact clear
        · exact clear_ringClaim other k _ true clear
    · exact clear
  · exact clear

/-- The re-claim of whichever position: `p` names no line. -/
theorem clear_reclaimOne (q : Position) (k : PortKind) (clear : Clear p w) : Clear p (reclaimOne q k w) := by
  unfold reclaimOne
  split
  · next l named =>
    have other : q ≠ p := by
      rintro rfl
      rw [clear.awaits.2 k] at named
      cases named
    split
    · have cleared := (averts_mapStanding other k (fun x => { x with reclaim := none }) w).clear clear
      dsimp only
      split
      · exact (averts_mapStanding other k _ _).clear cleared
      · exact clear_claimIfNeeded other k cleared
    · exact clear
  · exact clear

theorem clear_reclaims (clear : Clear p w) : Clear p (reclaims w) := by
  show Clear p (eachPort reclaimOne w)
  unfold eachPort
  generalize allPositions = qs
  induction qs generalizing w with
  | nil => exact clear
  | cons q qs ih => exact ih (clear_reclaimOne q .aux (clear_reclaimOne q .main clear))

theorem clear_closeWork (b : State) (clear : Clear p w) : Clear p (closeWork b w) := by
  obtain ⟨es, events, -, ended⟩ := closeWork_eq b w
  have admitted := clear_admitFreed clear
  refine ⟨?_, fun e mem => ?_⟩
  · rw [closeWork_s]
    exact admitted.awaits
  · rw [events] at mem
    obtain mem | mem := List.mem_append.1 mem
    · exact admitted.events e mem
    · obtain ⟨q, rfl, -⟩ := ended e mem
      exact id

/-! ## The position's path becomes quiet in no such event -/

/-- The path of `p` does not become quiet. -/
def Shy (p : Position) (s t : State) : Prop := t.pathQuiet p = true → s.pathQuiet p = true

theorem Shy.trans {u : State} (one : Shy p s t) (two : Shy p t u) : Shy p s u := fun quiet => one (two quiet)

theorem shy_of_txOf (same : t.txOf p = s.txOf p) : Shy p s t := by
  rw [Shy, State.pathQuiet, same]
  exact id

theorem shy_of_moved {ps : List Part} (moved : Moved ps s t) (out : Part.tx ∉ ps) : Shy p s t :=
  shy_of_txOf (by rw [State.txOf, moved.tx out]; rfl)

theorem shy_mapTx {f : TxRecord → TxRecord} (keeps : ∀ x, (f x).state.onAir = false → (f x).tailTimer = none → (f x).rf = false →
    x.state.onAir = false ∧ x.tailTimer = none ∧ x.rf = false) (q : Position) (s : State) : Shy p s (s.mapTx q f) := by
  intro quiet
  simp only [State.pathQuiet, Bool.and_eq_true, Bool.not_eq_true', Option.isNone_iff_eq_none] at quiet ⊢
  rw [txOf_mapTx] at quiet
  split at quiet
  · next here =>
    obtain ⟨air, tail, rf⟩ := keeps _ quiet.1.1 quiet.1.2 quiet.2
    rw [here]
    exact ⟨⟨air, tail⟩, rf⟩
  · exact quiet

theorem shy_arbiterPass : ∀ (ps : List Position) (s : State), Shy p s (arbiterPass ps s).1
  | [], s => id
  | q :: ps, s => by
    unfold arbiterPass
    split
    · have air : Shy p s (putOnAir q s) :=
        shy_mapTx (f := fun x => { x with state := .granted, tailTimer := none, skipHang := false }) (fun _ on => nomatch on) q s
      exact (air.trans (shy_of_moved (moved_evaluateAdvisories _) (by decide))).trans (shy_arbiterPass ps _)
    · next r _ => exact (shy_mapTx (f := fun x => { x with reason := some r }) (fun _ air tail rf => ⟨air, tail, rf⟩) q s).trans (shy_arbiterPass ps _)

theorem shy_arbiterPasses : ∀ (n : Nat) (s : State), Shy p s (arbiterPasses n s)
  | 0, s => id
  | n + 1, s => by
    have one := shy_arbiterPass (p := p) s.waiting s
    unfold arbiterPasses
    split
    · next t pass =>
      rw [pass] at one
      exact one.trans (shy_arbiterPasses n t)
    · next t pass =>
      rw [pass] at one
      exact one

theorem shy_arbiter (p : Position) (s : State) : Shy p s (arbiter s) := shy_arbiterPasses _ s

theorem shy_leaveAir (other : q ≠ p) (next : TxState) (s : State) : Shy p s (leaveAir q next s) := by
  refine shy_of_txOf ?_
  rw [State.txOf, leaveAir, (moved_evaluateAdvisories _).tx (by decide), tx_leaveSlot, get_put_ne _ _ (Ne.symm other)]
  rfl

theorem shy_revoke (other : q ≠ p) (cause : RevocationCause) (s : State) : Shy p s (revoke q cause s) := by
  unfold revoke
  split
  · exact (shy_of_txOf (txOf_withdrawGrant_of_ne (Ne.symm other) cause s)).trans (shy_of_moved (moved_evaluateAdvisories _) (by decide))
  · exact id

theorem shy_takeTxiEvent {e : TxiEvent} (apart : ¬e.Ends p) (s : State) : Shy p s (takeTxiEvent e s) := by
  cases e with
  | connected q => exact shy_arbiter p s
  | switchingEnded q => exact shy_arbiter p s
  | mainRelease q =>
    show Shy p s (takeMainRelease q s)
    unfold takeMainRelease
    split
    · exact shy_mapTx (f := fun x => { x with skipHang := true }) (fun _ air tail rf => ⟨air, tail, rf⟩) q s
    · exact (shy_leaveAir apart .idle s).trans (shy_arbiter p _)
    · exact id
  | revoke q =>
    show Shy p s (revokeAndRun q .taken s)
    unfold revokeAndRun
    split
    · exact (shy_revoke apart .taken s).trans (shy_arbiter p _)
    · exact id

theorem shy_takeTxiEvents : ∀ (es : List TxiEvent) (s : State), (∀ e ∈ es, ¬e.Ends p) → Shy p s (takeTxiEvents es s)
  | [], s, _ => id
  | e :: es, s, apart => (shy_takeTxiEvent (apart e List.mem_cons_self) s).trans
      (shy_takeTxiEvents es _ fun e mem => apart e (List.mem_cons_of_mem _ mem))

theorem shy_handOn (clear : Clear p w) : Shy p w.s (handOn w) :=
  ((shy_of_moved (moved_notifyEach _ _) (by decide)).trans (shy_takeTxiEvents _ _ clear.events)).trans (shy_of_moved (moved_notifyEach _ _) (by decide))

/-! ## Path-quiet events of the others -/

theorem clear_start (awaits : s.AwaitsNoLine p) : Clear p (Work.start s) := ⟨awaits, nofun⟩

theorem clear_quietWork (q : Position) (awaits : s.AwaitsNoLine p) : Clear p (quietWork q s) := by
  refine Averts.clear ?_ (clear_start awaits)
  show Averts p _ (applyReroutes q (requestBreaks q (Work.start s)))
  refine Averts.trans (v := requestBreaks q (Work.start s)) (averts_of_same rfl rfl rfl) ?_
  unfold applyReroutes
  split
  · exact averts_of_same rfl rfl rfl
  · exact averts_foldl (fun v (x : Holder) => (averts_of_same rfl rfl rfl : Averts p v (v.mapRecord q x.line Holder.takeReroute)).trans
      (averts_freeIfAux ..)) _ _

/-- The kinds of the other positions. -/
abbrev AllBut (p : Position) (q : Position) (_ : PortKind) : Prop := q ≠ p

theorem cover_allBut : Cover (AllBut p) s ↔ s.AwaitsNoLine p := by
  constructor
  · exact fun cover => ⟨cover.waits, fun k => by_contra fun named => cover.reclaims p k named rfl⟩
  · exact fun awaits => ⟨awaits.1, fun q k named own => named (own ▸ awaits.2 k)⟩

/-- What an event of the others leaves of a position that awaits no line. -/
structure Beside (p : Position) (s t : State) : Prop where
  keyed : t.AllocationKeyed
  awaits : t.AwaitsNoLine p
  table : t.table = s.table
  spared : ∀ k, s.Spared t p k
  shy : Shy p s t

theorem Beside.trans {u : State} (one : Beside p s t) (two : Beside p t u) : Beside p s u :=
  ⟨two.keyed, two.awaits, two.table.trans one.table, fun k => (one.spared k).trans (portOf_of_table one.table) (two.spared k), one.shy.trans two.shy⟩

theorem beside_of_same (keyed : s.AllocationKeyed) (awaits : s.AwaitsNoLine p) (table : t.table = s.table) (alloc : t.alloc = s.alloc)
    (shy : Shy p s t) : Beside p s t := by
  have lists (l : Line) : t.listOf l = s.listOf l := listOf_of_alloc (by rw [alloc]) l
  have standing (k : PortKind) : t.standing p k = s.standing p k := by rw [State.standing, alloc]; rfl
  refine ⟨allocationKeyed_of_same keyed table alloc, ⟨fun l => by rw [lists]; exact awaits.1 l, fun k => by rw [standing]; exact awaits.2 k⟩, table,
    fun k => ⟨?_, fun l _ => by rw [lists], standing k⟩, shy⟩
  rw [State.recordsOf, State.recordsOf, alloc]
  exact forall₂_keeps_refl _

theorem beside_of_moved {ps : List Part} (keyed : s.AllocationKeyed) (awaits : s.AwaitsNoLine p) (moved : Moved ps s t)
    (out : ∀ x ∈ [Part.table, .alloc, .tx], x ∉ ps) : Beside p s t :=
  beside_of_same keyed awaits (moved.table (out _ (by decide))) (moved.alloc (out _ (by decide))) (shy_of_moved moved (out _ (by decide)))

theorem beside_of_moves (keyed : s.AllocationKeyed) (awaits : s.AwaitsNoLine p) (moves : Moves (AllBut p) True s t) (shy : Shy p s t) : Beside p s t :=
  ⟨allocationKeyed_moves moves keyed, cover_allBut.1 (cover_moves moves (cover_allBut.2 awaits)), table_of_moves moves,
    fun k => spared_moves moves keyed (k := k) (not_not.2 rfl), shy⟩

theorem beside_handOn (keyed : w.s.AllocationKeyed) (clear : Clear p w) : Beside p w.s (handOn w) :=
  beside_of_same keyed clear.awaits ((moved_handOn w).table (by decide)) ((moved_handOn w).alloc (by decide)) (shy_handOn clear)

theorem beside_closeWork (b : State) (keyed : w.s.AllocationKeyed) (awaits : w.s.AwaitsNoLine p) : Beside p w.s (closeWork b w).s := by
  have admitted := moves_admitFreed (B := True) keyed (cover_allBut.2 awaits)
  have moves := admitted.tail (.make _)
  have still : (admitFreed w).s.tx = w.s.tx := (worked_admitFreed w).moved.tx (by decide)
  have beside := beside_of_moves keyed awaits moves (shy_of_txOf (congrArg (fun tx => tx.get p) still))
  rw [closeWork_s]
  exact beside.trans (beside_of_same beside.keyed beside.awaits rfl rfl id)

theorem beside_work {f : Work → Work} (worked : ∀ w, Worked w (f w)) (deals : Deals (AllBut p) True w (f w)) (keyed : w.s.AllocationKeyed)
    (awaits : w.s.AwaitsNoLine p) : Beside p w.s (f w).s :=
  beside_of_moves keyed awaits (deals ⟨keyed, cover_allBut.2 awaits⟩) (shy_of_moved (worked w).moved (by decide))

/-- What the allocator does once the work of an event is done. -/
theorem beside_event (b : State) (keyed : w.s.AllocationKeyed) (clear : Clear p w) :
    Beside p w.s (handOn (closeWork b (reclaims (admitFreed w)))) := by
  have admitted := beside_work worked_admitFreed (deals_admitFreed w) keyed clear.awaits
  have reclaimed := admitted.trans (beside_work worked_reclaims (deals_reclaims _) admitted.keyed admitted.awaits)
  have closed := reclaimed.trans (beside_closeWork b reclaimed.keyed reclaimed.awaits)
  exact closed.trans (beside_handOn closed.keyed (clear_closeWork b (clear_reclaims (clear_admitFreed clear))))

/-- An allocator event that begins with something that other positions do. -/
theorem beside_allocEvent {f : Work → Work} (worked : ∀ w, Worked w (f w)) (deals : Deals (AllBut p) True (Work.start s) (f (Work.start s)))
    (keyed : s.AllocationKeyed) (clear : Clear p (f (Work.start s))) (awaits : s.AwaitsNoLine p) : Beside p s (allocEvent f s) := by
  have own := beside_work worked deals keyed awaits
  exact own.trans (beside_event s own.keyed clear)

theorem beside_pathQuietEvent (other : q ≠ p) (quiet : s.pathQuiet q = true) (keyed : s.AllocationKeyed) (awaits : s.AwaitsNoLine p) :
    Beside p s (pathQuietEvent q s) := by
  have event := beside_allocEvent (f := fun w => applyReroutes q (requestBreaks q w)) (s := s)
    (fun w => (worked_requestBreaks q w).trans (worked_applyReroutes q _)) (deals_pathQuiet (fun _ => other) quiet) keyed
    (clear_quietWork q awaits) awaits
  exact event.trans (beside_of_moved event.keyed event.awaits (moved_filterMove q _) (by decide))

theorem beside_quietEvents {b : State} : ∀ (n : Nat) (d : List Position) {s : State}, s.AllocationKeyed → s.AwaitsNoLine p → Shy p b s →
    Beside p s (quietEvents b n d s)
  | 0, _, s, keyed, awaits, _ => beside_of_same keyed awaits rfl rfl id
  | n + 1, d, s, keyed, awaits, shy => by
    unfold quietEvents
    split
    · next q found =>
      have spec := List.find?_some found
      simp only [Bool.and_eq_true, Bool.not_eq_true'] at spec
      have other : q ≠ p := by
        rintro rfl
        rw [shy spec.2] at spec
        cases spec.1.2
      have event := beside_pathQuietEvent other spec.2 keyed awaits
      exact event.trans (beside_quietEvents n _ event.keyed event.awaits (shy.trans event.shy))
    · exact beside_of_same keyed awaits rfl rfl id

/-- From the end of a step's own work on, a position whose path the work has not quieted keeps its records. -/
theorem beside_closeStep {b : State} (released : b.store.ready = .starting → s.store.restartRaw = false) (keyed : s.AllocationKeyed)
    (awaits : s.AwaitsNoLine p) (shy : Shy p b s) : Beside p s (closeStep b s) := by
  have watched : Beside p s (watchPin b s) := by
    obtain same | ends := watchPin_of_released released
    · rw [same]
      exact beside_of_same keyed awaits rfl rfl id
    · rw [ends]
      exact beside_of_same keyed awaits rfl rfl id
  have events := watched.trans (beside_quietEvents allPositions.length [] watched.keyed watched.awaits (shy.trans watched.shy))
  exact events.trans (beside_of_moved events.keyed events.awaits (moved_startRule _) (by decide))

end Sys2Proof.Machine
end

section
/-! The end of a CHANGE's completion, and the records of positions that wait for no line through it (R43, R46). -/

namespace Sys2Proof.Machine

variable {I : State → Prop} {s b u : State} {o : Operation} {x y : Holder} {l : Line} {p : Position}

/-! ## The completion's step -/

/-- The step of the completion of the CHANGE `o`. -/
abbrev changed (s : State) (o : Operation) : State := closeStep s (afterChange (some o.purpose) (completed s))

theorem EventsKeep.closeReleased (keep : EventsKeep I) (released : b.store.ready = .starting → u.store.restartRaw = false) (at' : I u) :
    I (Machine.closeStep b u) := by
  refine keep.moved (moved_startRule _) (by decide) (keep.quietEvents b allPositions.length [] ?_)
  obtain same | ends := watchPin_of_released released
  · rw [same]
    exact at'
  · rw [ends]
    exact keep.same u _ ⟨rfl, rfl, rfl, rfl, fun _ => rfl⟩ at'

theorem restartRaw_afterChange (why : Option Purpose) (s : State) : (afterChange why (completed s)).store.restartRaw = s.store.restartRaw :=
  (readies_afterChange why _).2.trans (congrArg Store.restartRaw ((moved_completed s).store (by decide)))

theorem EventsKeep.changed (keep : EventsKeep I) (released : s.store.ready = .starting → s.store.restartRaw = false)
    (at' : I (allocCompletion (latchChange s))) : I (Machine.changed s o) := by
  refine keep.closeReleased (by rw [restartRaw_afterChange]; exact released) ?_
  exact keep.moved (moved_afterChange (some o.purpose) _) (by decide) (keep.moved (moved_arbiter _) (by decide) at')

theorem exec_change (powered : s.powered = true) (op : s.chain.op = some o) (kind : o.kind = .change) (phase : o.phase = .settling)
    (settles : s.chain.settleTimer.isSome = true) : exec .changeCompletion s = .next (changed s o) := by
  have purpose : s.purpose = some o.purpose := by rw [State.purpose, op]; rfl
  have inPhase : s.inPhase .change .settling = true := (inPhase_iff s _ _).2 ⟨o, op, kind, phase⟩
  rw [exec_changeCompletion powered, inPhase, settles, purpose]
  rfl

theorem tells_changed {f : Frame} (released : s.store.ready = .starting → s.store.restartRaw = false)
    (tells : (allocCompletion (latchChange s)).Tells p f) : (changed s o).Tells p f := by
  obtain ⟨v, eq, moved, -⟩ := closeStep_of_released (b := s) (s := afterChange (some o.purpose) (completed s))
    (by rw [restartRaw_afterChange]; exact released)
  rw [changed, eq]
  exact ((((tells.moved (moved_arbiter _)).moved (moved_afterChange _ _)).moved moved).moved (moved_startRule _))

/-! ## The state that the completion's work begins in -/

section

variable (op : s.chain.op = some o)

include op

theorem latched_latchChange : (latchChange s).chain.latched = o.image := (latches_latchChange op).latched

end

theorem alloc_latchChange (s : State) : (latchChange s).alloc = s.alloc := (moved_latchChange s).alloc (by decide)

theorem table_latchChange (s : State) : (latchChange s).table = s.table := (moved_latchChange s).table (by decide)

theorem listOf_latchChange (s : State) (l : Line) : (latchChange s).listOf l = s.listOf l := listOf_of_alloc (by rw [alloc_latchChange]) l

theorem recordAt_latchChange (s : State) (p : Position) (l : Line) : (latchChange s).recordAt p l = s.recordAt p l :=
  recordAt_of_alloc (by rw [alloc_latchChange]) p l

theorem keyed_latchChange (keyed : s.AllocationKeyed) : (latchChange s).AllocationKeyed :=
  allocationKeyed_of_same keyed (table_latchChange s) (alloc_latchChange s)

/-- The state of the completion's own work. -/
abbrev landedState (s : State) : State := (completionWork (latchChange s)).s

theorem worked_completionWork (c : State) : Worked (Work.start c) (completionWork c) :=
  ((worked_takeFlags _).trans (worked_connectMade _)).trans (worked_removeWhere _ _)

/-! ## A position that awaits no line -/

theorem awaits_landed (keyed : s.AllocationKeyed) (awaits : s.AwaitsNoLine p) : (landedState s).AwaitsNoLine p := by
  have leaves := completionWork_leaves (keyed_latchChange keyed)
  refine ⟨fun l e mem => ?_, fun k => ?_⟩
  · have still : e.still ∈ ((landedState s).listOf l).map WaitEntry.still := List.mem_map_of_mem mem
    rw [leaves.lists l, listOf_latchChange] at still
    obtain ⟨e', mem', same⟩ := List.mem_map.1 still
    have pos : e'.still.pos = e.still.pos := by rw [same]
    exact fun own => awaits.1 l e' mem' (pos.trans own)
  · rw [State.standing, leaves.standings, alloc_latchChange]
    exact awaits.2 k

theorem beside_changed (released : s.store.ready = .starting → s.store.restartRaw = false) (keyed : s.AllocationKeyed) (awaits : s.AwaitsNoLine p) :
    Beside p (landedState s) (changed s o) := by
  have keyed' := keyed_completionWork (op_latchChange s) (keyed_latchChange keyed)
  have leaves := completionWork_leaves (keyed_latchChange keyed)
  have clear : Clear p (completionWork (latchChange s)) := ⟨awaits_landed keyed awaits, fun e mem => by
    obtain ⟨q, rfl⟩ := leaves.events e mem
    exact id⟩
  have event : Beside p (landedState s) (allocCompletion (latchChange s)) := beside_event (latchChange s) keyed' clear
  have run := event.trans (beside_of_same event.keyed event.awaits ((moved_arbiter _).table (by decide)) ((moved_arbiter _).alloc (by decide))
    (shy_arbiter p _))
  have after := run.trans (beside_of_moved run.keyed run.awaits (moved_afterChange (some o.purpose) _) (by decide))
  have tx : (landedState s).tx = s.tx := ((worked_completionWork _).moved.tx (by decide)).trans ((moved_latchChange s).tx (by decide))
  have shy : Shy p s (landedState s) := shy_of_txOf (congrArg (fun tx => tx.get p) tx)
  exact after.trans (beside_closeStep (by rw [restartRaw_afterChange]; exact released) after.keyed after.awaits (shy.trans after.shy))

/-- The record of a position that awaits no line, behind the step. -/
theorem own_changed (released : s.store.ready = .starting → s.store.restartRaw = false) (keyed : s.AllocationKeyed) (mem : x ∈ s.alloc.records)
    (awaits : s.AwaitsNoLine x.pos) :
    ((x.landed (latchChange s)).stays = true → ∃ y, (changed s o).recordAt x.pos x.line = some y ∧ (x.landed (latchChange s)).Keeps y) ∧
      ((x.landed (latchChange s)).stays = false → (changed s o).recordAt x.pos x.line = none) := by
  have keyed' := keyed_completionWork (op_latchChange s) (keyed_latchChange keyed)
  have beside := beside_changed (o := o) released keyed awaits
  obtain ⟨found, unfound⟩ := (beside.spared ((landedState s).portOf x.line)).recordAt keyed' beside.keyed (portOf_of_table beside.table) rfl
  have held : (latchChange s).recordAt x.pos x.line = some x := by
    rw [recordAt_latchChange]
    exact recordAt_of_mem keyed.records mem
  have landed := recordAt_completionWork (op_latchChange s) (keyed_latchChange keyed) x.pos x.line
  rw [held, Option.map_some] at landed
  constructor
  · intro stays
    rw [Option.filter_some_pos (p := Holder.stays) stays] at landed
    exact found _ landed
  · intro gone
    rw [Option.filter_some_neg (p := Holder.stays) gone] at landed
    exact unfound landed

/-! ## The records, by their state -/

/-- The CHANGE `o` closes the record's crosspoint. -/
abbrev Operation.closes (o : Operation) (x : Holder) : Bool := o.image.getLsbD (crosspointBit x.pos x.line)

/-- The CHANGE `o` latches the record's path as it needs. -/
abbrev State.Fits (s : State) (o : Operation) (x : Holder) : Prop :=
  o.closes x = true ∧ o.image &&& selectMask x.line = s.routeSelects x.route x.line

theorem latchedAs_latchChange (op : s.chain.op = some o) (x : Holder) : (latchChange s).latchedAs x = true ↔ s.Fits o x := by
  have selects : (latchChange s).routeSelects x.route x.line = s.routeSelects x.route x.line := by
    unfold State.routeSelects State.routeOf
    rw [table_latchChange]
  rw [State.latchedAs, latched_latchChange op, selects, Bool.and_eq_true, decide_eq_true_eq]

theorem closes_landed (op : s.chain.op = some o) (x : Holder) : (x.landed (latchChange s)).latched = o.closes x := by
  rw [latched_landed, latched_latchChange op]

theorem landed_of_unfit (op : s.chain.op = some o) (out : ¬(x.state = .making ∧ s.Fits o x)) :
    x.landed (latchChange s) = { x with latched := o.closes x } := by
  rw [landed_of_unmade (by rw [latchedAs_latchChange op]; exact out), latched_latchChange op]

theorem landed_of_fit (op : s.chain.op = some o) (making : x.state = .making) (fits : s.Fits o x) :
    x.landed (latchChange s) = { x with latched := true, state := .connected } := by
  rw [landed_of_made making ((latchedAs_latchChange op x).2 fits), latched_latchChange op]
  have closed := fits.1
  unfold Operation.closes at closed
  rw [closed]

/-- What the record `x` of a position that awaits no line has come to behind the CHANGE `o`. -/
structure OwnChanged (s : State) (o : Operation) (t : State) (x : Holder) : Prop where
  connected : x.state = .making → s.Fits o x → t.recordAt x.pos x.line = some { x with state := .connected, latched := true }
  told : x.state = .making → s.Fits o x → s.present x.pos = true → t.Tells x.pos (Notice.granted x.kind x.line x.route).frame
  unmade : x.state = .making → ¬s.Fits o x → t.recordAt x.pos x.line = some { x with latched := o.closes x }
  removed : x.state = .breaking → o.closes x = false → t.recordAt x.pos x.line = none
  breaks : x.state = .breaking → o.closes x = true → t.recordAt x.pos x.line = some { x with latched := true }
  stands : x.state = .connected → t.recordAt x.pos x.line = some { x with latched := o.closes x }
  waits : x.state = .pending → t.recordAt x.pos x.line = some { x with latched := o.closes x } ∨
    t.recordAt x.pos x.line = some { x with latched := o.closes x, state := .making }

theorem noted_reclaims {n : Notice} {w : Work} (keyed : w.s.AllocationKeyed) (mem : (p, n) ∈ w.notes) : (p, n) ∈ (reclaims (admitFreed w)).notes := by
  cases safe : w.s.safe with
  | true =>
    have safe' : (admitFreed w).s.safe = true := (safe_of_worked (worked_admitFreed w)).trans safe
    rw [notes_reclaims_of_safe safe', notes_admitFreed]
    exact mem
  | false => exact (Noted.admitFreed ⟨keyed, safe, mem⟩).reclaims.noted

/-- A notice of the work is told by the end of the event. -/
theorem tells_event {n : Notice} {w : Work} (b : State) (keyed : w.s.AllocationKeyed) (mem : (p, n) ∈ w.notes) (present : w.s.present p = true) :
    (handOn (closeWork b (reclaims (admitFreed w)))).Tells p n.frame := by
  obtain ⟨es, -, notes, -⟩ := closeWork_eq b (reclaims (admitFreed w))
  have worked := (worked_admitFreed w).trans (worked_reclaims _)
  refine tells_handOn (((moved_closeWork b _).links p).present.trans ((worked.moved.links p).present.trans present)) ?_
  rw [notes, notes_admitFreed]
  exact noted_reclaims keyed mem

theorem ownChanged (op : s.chain.op = some o) (released : s.store.ready = .starting → s.store.restartRaw = false) (keyed : s.AllocationKeyed)
    (mem : x ∈ s.alloc.records) (awaits : s.AwaitsNoLine x.pos) : OwnChanged s o (changed s o) x := by
  obtain ⟨found, unfound⟩ := own_changed (o := o) released keyed mem awaits
  have kept (h : Holder) (landed : x.landed (latchChange s) = h) (stays : h.stays = true) (settled : h.state ≠ .pending) :
      (changed s o).recordAt x.pos x.line = some h := by
    subst landed
    obtain ⟨y, held, same | ⟨pending, -⟩⟩ := found stays
    · rw [held, same]
    · exact absurd pending settled
  have unfit (out : x.state ≠ .making) : x.landed (latchChange s) = { x with latched := o.closes x } := landed_of_unfit op fun both => out both.1
  refine ⟨fun making fits => kept _ (landed_of_fit op making fits) rfl nofun, fun making fits present => ?_,
    fun making out => kept _ (landed_of_unfit op fun both => out both.2) (by simp [making]) (by simp [making]), fun breaking opens => unfound ?_,
    fun breaking closes => kept _ (by rw [unfit (by simp [breaking]), closes]) (by simp) (by simp [breaking]),
    fun connected => kept _ (unfit (by simp [connected])) (by simp [connected]) (by simp [connected]), fun pending => ?_⟩
  · have leaves := completionWork_leaves (keyed_latchChange keyed)
    have noted := leaves.notes x (by rw [alloc_latchChange]; exact mem) making ((latchedAs_latchChange op x).2 fits)
    have present' : (landedState s).present x.pos = true :=
      ((worked_completionWork _).moved.links x.pos).present.trans (((moved_latchChange s).links x.pos).present.trans present)
    exact tells_changed released (tells_event (latchChange s) (keyed_completionWork (op_latchChange s) (keyed_latchChange keyed)) noted present')
  · rw [unfit (by simp [breaking])]
    simp [breaking, opens]
  · have landed := unfit (by simp [pending])
    obtain ⟨y, held, same | ⟨-, made⟩⟩ := found (by rw [landed]; simp [pending])
    · exact .inl (by rw [held, same, landed])
    · exact .inr (by rw [held, made, landed])

end Sys2Proof.Machine
end

section
/-! The re-claims that a completion's removals call for (R85, R86). -/

namespace Sys2Proof.Machine

variable {p : Position} {k : PortKind} {l : Line} {S : Standing → Prop} {A : Prop} {s t b : State} {w v : Work} {o : Operation} {x : Holder}

/-! ## A re-claim line whose record is gone -/

/-- The line `l` is the re-claim line of the position and kind, which has neither a record nor an entry on it; under `A` it waits for no line of
the kind. -/
structure State.Vacant (s : State) (p : Position) (k : PortKind) (l : Line) (A : Prop) : Prop where
  idles : s.Idles p k (fun x => x.reclaim = some l) A
  port : s.portOf l = k
  gone : s.recordAt p l = none
  apart : ∀ e ∈ s.listOf l, e.pos ≠ p

theorem State.Vacant.spared (vacant : s.Vacant p k l A) (keyed : t.AllocationKeyed) (table : t.table = s.table) (spared : s.Spared t p k) :
    t.Vacant p k l A where
  idles := by
    refine ⟨keyed, by rw [spared.standing]; exact vacant.idles.stands, fun alone j port => ?_⟩
    rw [portOf_of_table table] at port
    exact spared.waitsNot port (vacant.idles.waits alone j port)
  port := (portOf_of_table table l).trans vacant.port
  gone := (spared.recordAt vacant.idles.keyed keyed (portOf_of_table table) vacant.port).2 vacant.gone
  apart := spared.waitsNot vacant.port vacant.apart

theorem State.Vacant.moves {P : Position → PortKind → Prop} {B : Prop} (vacant : s.Vacant p k l A) (moves : Moves P B s t) (out : ¬P p k) :
    t.Vacant p k l A :=
  vacant.spared (allocationKeyed_moves moves vacant.idles.keyed) (table_of_moves moves) (spared_moves moves vacant.idles.keyed out)

theorem vacant_admitFreed (vacant : w.s.Vacant p k l A) : (admitFreed w).s.Vacant p k l A := by
  have table : (admitFreed w).s.table = w.s.table := (worked_admitFreed w).moved.table (by decide)
  obtain ⟨lists, records⟩ := admitFreed_leaves (P := spentOn p fun j => j = l) w vacant.idles.keyed
    (fun j e mem own => vacant.apart e (own.2 ▸ mem) own.1)
    fun q j own => .inl fun h held => by
      rw [own.1, own.2, vacant.gone] at held
      cases held
  refine ⟨idles_admitFreed vacant.idles, (portOf_of_table table l).trans vacant.port, (records p l ⟨rfl, rfl⟩).trans vacant.gone, fun e mem own => ?_⟩
  obtain ⟨x, was, pos⟩ := lists l e mem
  exact vacant.apart x was (pos.trans own)

theorem claimsKeep_vacant {q : Position} {j : PortKind} (other : Others p k q j) : ClaimsKeep q j (fun s => s.Vacant p k l A) where
  keyed _ vacant := vacant.idles.keyed
  admits _ := vacant_admitFreed
  assigns w r vacant port none had :=
    vacant.moves (moves_assign (A := Others p k) (B := False) vacant.idles.keyed (port ▸ other) none (roomy_of_canBeHad had)) (not_not.2 ⟨rfl, rfl⟩)
  queues w r vacant port none :=
    vacant.moves (t := (enqueueWait q r w).s) (P := Others p k) (B := False) (.single (.enqueue (port ▸ other) none)) (not_not.2 ⟨rfl, rfl⟩)
  changes w r h g vacant port held stands placed moves :=
    vacant.spared (allocationKeyed_moves moves vacant.idles.keyed) rfl (spared_reclaimed vacant.idles.keyed placed (port ▸ other))
  standing w f vacant :=
    vacant.moves (t := (w.mapStanding q j f).s) (P := Others p k) (B := False) (.single (.standing f other)) (not_not.2 ⟨rfl, rfl⟩)

/-! ## Its re-claim, in an event (R85, R86) -/

/-- The re-claim of a vacant line is yet to be made, in an event that has begun in `s`. -/
structure Work.Bereft (w : Work) (p : Position) (k : PortKind) (l : Line) (A : Prop) (s : State) : Prop where
  vacant : w.s.Vacant p k l A
  worked : Worked (Work.start s) w

/-- The standing names no re-claim line. -/
abbrev Standing.Freed (x : Standing) : Prop := x.reclaim = none

theorem Work.Bereft.others (bereft : w.Bereft p k l A s) {q : Position} {j : PortKind} (other : Others p k q j) : (reclaimOne q j w).Bereft p k l A s :=
  ⟨(claimsKeep_vacant other).reclaimOne bereft.vacant, bereft.worked.trans (worked_reclaimOne q j w)⟩

/-- Out of safe state the ring claim is made (R85). -/
theorem Work.Bereft.paid (bereft : w.Bereft p k l A s) (out : s.safe = false) :
    (reclaimOne p k w).Paid p k Standing.Freed (A ∧ s.isReady = true) s := by
  have safe : (w.mapStanding p k fun x => { x with reclaim := none }).s.safe = false := (safe_of_worked bereft.worked).trans out
  have claim : reclaimOne p k w = claimIfNeeded p k (w.mapStanding p k fun x => { x with reclaim := none }) := by
    simp only [reclaimOne, bereft.vacant.idles.stands, bereft.vacant.gone, Option.isNone_none, if_true, safe, Bool.false_eq_true, if_false]
  rw [claim]
  exact paid_claimIfNeeded (bereft.vacant.idles.restood fun _ _ => rfl) (fun _ _ => rfl) (bereft.worked.trans (worked_mapStanding p k _ w)) out

theorem Work.Paid.reclaimed (paid : w.Paid p k Standing.Freed A s) {q : Position} {j : PortKind} (other : Others p k q j) :
    (reclaimOne q j w).Paid p k Standing.Freed A s := by
  refine ⟨?_, fun alone b band present => ?_, paid.worked.trans (worked_reclaimOne q j w)⟩
  · obtain same | claim := reclaimOne_eq q j w paid.stood.out
    · rw [same]
      exact paid.stood
    · rw [claim]
      have restood : (w.mapStanding q j fun x => { x with reclaim := none }).s.Stood p k Standing.Freed := paid.stood.restood fun _ _ _ _ => rfl
      exact restood.claimed (fun _ _ => rfl) (claimed_claimIfNeeded restood.keyed restood.out)
  · refine (paid.served alone b band present).imp ?_ Noted.reclaimOne
    rintro ⟨C, m, on⟩
    exact ⟨C, m, onBand_of_worked (worked_reclaimOne q j w) on.band on.covering ((claimsKeep_anchored other).reclaimOne on.anchored)⟩

/-- An event out of safe state that has removed the record on the re-claim line. -/
theorem reclaimed_event (b : State) (bereft : w.Bereft p k l A s) (out : s.safe = false) :
    (handOn (closeWork b (reclaims (admitFreed w)))).Stood p k Standing.Freed ∧
      (A → s.isReady = true → ∀ c, (s.freqOf p).band = some c → s.present p = true →
        (handOn (closeWork b (reclaims (admitFreed w)))).ServedOn p k c) := by
  have admitted : (admitFreed w).Bereft p k l A s := ⟨vacant_admitFreed bereft.vacant, bereft.worked.trans (worked_admitFreed w)⟩
  have paid : (reclaims (admitFreed w)).Paid p k Standing.Freed (A ∧ s.isReady = true) s :=
    eachPort_turn (I := fun w => w.Bereft p k l A s) (J := fun w => w.Paid p k Standing.Freed (A ∧ s.isReady = true) s)
      (fun _ _ _ other bereft => bereft.others other) (fun _ bereft => bereft.paid out) (fun _ _ _ other paid => paid.reclaimed other) admitted
  have keep := eventsKeep_stood (p := p) (k := k) (S := Standing.Freed) (fun _ _ => rfl) fun _ _ => rfl
  refine ⟨keep.handOn (keep.closeWork b paid.stood), fun alone ready c band present => ?_⟩
  exact servedOn_of_closed (paid.served ⟨alone, ready⟩ c band present) ((paid.worked.moved.links p).present.trans present) b

/-- The standing names no re-claim line, and its follow is due. -/
abbrev Standing.FollowDue (x : Standing) : Prop := x.reclaim = none ∧ x.due = true

theorem eventsKeep_followDue : EventsKeep (fun s => s.safe = true ∧ s.Idles p k Standing.FollowDue A) :=
  eventsKeep_idles_safe (fun _ freed => ⟨rfl, freed.2⟩) fun _ freed => ⟨freed.1, rfl⟩

/-- An event in safe state that has removed the record on the re-claim line. -/
theorem due_event (b : State) (bereft : w.Bereft p k l A s) (inSafe : s.safe = true) :
    (handOn (closeWork b (reclaims (admitFreed w)))).safe = true ∧ (handOn (closeWork b (reclaims (admitFreed w)))).Idles p k Standing.FollowDue A := by
  have admitted : (admitFreed w).Bereft p k l A s := ⟨vacant_admitFreed bereft.vacant, bereft.worked.trans (worked_admitFreed w)⟩
  have due : (reclaims (admitFreed w)).s.safe = true ∧ (reclaims (admitFreed w)).s.Idles p k Standing.FollowDue A := by
    refine eachPort_turn (I := fun w => w.Bereft p k l A s) (J := fun w => w.s.safe = true ∧ w.s.Idles p k Standing.FollowDue A)
      (fun _ _ _ other bereft => bereft.others other) (fun v bereft => ?_) (fun q j v _ at' => eventsKeep_followDue.reclaimOne q j at') admitted
    have safe : v.s.safe = true := (safe_of_worked bereft.worked).trans inSafe
    refine ⟨(safe_of_worked (worked_reclaimOne p k v)).trans safe, ?_⟩
    rw [reclaimOne_of_safe safe bereft.vacant.idles.stands bereft.vacant.gone]
    have cleared : (v.mapStanding p k fun x => { x with reclaim := none }).s.Idles p k Standing.Freed A := bereft.vacant.idles.restood fun _ _ => rfl
    exact cleared.restood fun _ freed => ⟨freed, rfl⟩
  exact eventsKeep_followDue.handOn (eventsKeep_followDue.closeWork b due)

/-! ## At a completion -/

theorem mem_landed_of_mem {e : WaitEntry} (keyed : s.AllocationKeyed) (mem : e ∈ (landedState s).listOf l) :
    ∃ e' ∈ s.listOf l, e'.pos = e.pos ∧ e'.route = e.route := by
  have lists := (completionWork_leaves (keyed_latchChange keyed)).lists l
  rw [listOf_latchChange] at lists
  exact mem_listOf_of_still lists mem

/-- A removed record's position has neither a record nor an entry on its line behind the completion's own work. -/
theorem bereft_completionWork (op : s.chain.op = some o) (keyed : s.AllocationKeyed) (mem : x ∈ s.alloc.records) (breaking : x.state = .breaking)
    (opens : o.closes x = false) (named : (s.standing x.pos x.kind).reclaim = some x.line) :
    (completionWork (latchChange s)).Bereft x.pos x.kind x.line (s.WaitsNowhere x.pos) (latchChange s) := by
  have keyed' := keyed_latchChange keyed
  have leaves := completionWork_leaves keyed'
  have held : s.recordAt x.pos x.line = some x := recordAt_of_mem keyed.records mem
  refine ⟨⟨⟨keyed_completionWork (op_latchChange s) keyed', ?_, fun alone j _ e mem own => ?_⟩, ?_, ?_, fun e mem own => ?_⟩, worked_completionWork _⟩
  · have same : (landedState s).standing x.pos x.kind = s.standing x.pos x.kind := standing_of_standings (leaves.standings.trans (by rw [alloc_latchChange])) _ _
    rw [same]
    exact named
  · obtain ⟨e', mem', pos, -⟩ := mem_landed_of_mem keyed mem
    exact alone j e' mem' (pos.trans own)
  · have table : (landedState s).table = s.table := leaves.table.trans (table_latchChange s)
    rw [portOf_of_table table]
    exact (keyed.routed x mem).2.1.symm
  · have landed := recordAt_completionWork (op_latchChange s) keyed' x.pos x.line
    have gone : Holder.stays (x.landed (latchChange s)) = false := by
      rw [landed_of_unfit op fun both => by simp [breaking] at both]
      simp [breaking, opens]
    rw [recordAt_latchChange, held, Option.map_some, Option.filter_some_neg (p := Holder.stays) gone] at landed
    exact landed
  · obtain ⟨e', mem', pos, -⟩ := mem_landed_of_mem keyed mem
    have empty := keyed.apart x.line e' mem'
    rw [pos, own, held] at empty
    cases empty

theorem State.ServedOn.changed (released : s.store.ready = .starting → s.store.restartRaw = false) {c : Band}
    (served : (allocCompletion (latchChange s)).ServedOn p k c) : (changed s o).ServedOn p k c :=
  served.imp (fun ⟨C, m, on⟩ => ⟨C, m, eventsKeep_onBand.changed released on⟩) fun tells => tells_changed released tells

/-- A position whose record on its re-claim line a completion has removed (R85, R86). -/
theorem reclaimed_changed (op : s.chain.op = some o) (released : s.store.ready = .starting → s.store.restartRaw = false) (keyed : s.AllocationKeyed)
    (mem : x ∈ s.alloc.records) (breaking : x.state = .breaking) (opens : o.closes x = false)
    (named : (s.standing x.pos x.kind).reclaim = some x.line) :
    ((changed s o).standing x.pos x.kind).reclaim = none ∧ (s.safe = true → ((changed s o).standing x.pos x.kind).due = true) ∧
      (s.safe = false → s.isReady = true → s.WaitsNowhere x.pos → ∀ c, (s.freqOf x.pos).band = some c → s.present x.pos = true →
        (changed s o).ServedOn x.pos x.kind c) := by
  have bereft := bereft_completionWork op keyed mem breaking opens named
  have moved := moved_latchChange s
  have safe : (latchChange s).safe = s.safe := congrArg FaultLog.safe (moved.log (by decide))
  cases safe' : s.safe with
  | true =>
    have due := eventsKeep_followDue.changed (o := o) released (due_event (latchChange s) bereft (safe.trans safe'))
    exact ⟨due.2.stands.1, fun _ => due.2.stands.2, nofun⟩
  | false =>
    obtain ⟨stood, served⟩ := reclaimed_event (latchChange s) bereft (safe.trans safe')
    have keep := eventsKeep_stood (p := x.pos) (k := x.kind) (S := Standing.Freed) (fun _ _ => rfl) fun _ _ => rfl
    refine ⟨(keep.changed (o := o) released stood).stands, nofun, fun _ ready alone c band present => State.ServedOn.changed released ?_⟩
    refine served alone ?_ c ?_ ((moved.links x.pos).present.trans present)
    · rw [State.isReady, moved.store (by decide)]
      exact ready
    · rw [State.freqOf, moved.freq (by decide)]
      exact band

end Sys2Proof.Machine
end

section
/-! Who joins the records of a line at its turn among the admissions (R65, R66). -/

namespace Sys2Proof.Machine

variable {s t u : State} {w : Work} {l : Line} {e x : WaitEntry} {r : Route} {qs : List (Position × Route)}

/-! ## Entries by position and route -/

/-- Who waits, and for which route. -/
abbrev WaitEntry.key (e : WaitEntry) : Position × Route := (e.pos, e.route)

theorem key_of_still (same : x.still = e.still) : x.key = e.key := by
  obtain ⟨pos, route, -⟩ := pos_of_still same
  exact Prod.ext pos route

theorem keys_of_still {xs ys : List WaitEntry} (same : xs.map WaitEntry.still = ys.map WaitEntry.still) : xs.map WaitEntry.key = ys.map WaitEntry.key := by
  have key (zs : List WaitEntry) : zs.map WaitEntry.key = (zs.map WaitEntry.still).map WaitEntry.key := by rw [List.map_map]; rfl
  rw [key, same, ← key]

theorem mem_key_of_still {xs ys : List WaitEntry} (same : ys.map WaitEntry.still = xs.map WaitEntry.still) (mem : x ∈ xs) :
    ∃ y ∈ ys, y.key = x.key := by
  obtain ⟨y, mem', still⟩ := mem_still same.symm mem
  exact ⟨y, mem', key_of_still still⟩

/-! ## Admissions to a line -/

theorem newRecord_of_table (table : t.table = s.table) (p : Position) (r : Route) : t.newRecord p r = s.newRecord p r := by
  rw [State.newRecord, State.newRecord, routeOf_of_table table, portOf_of_table table]

/-- Those in `qs`, in order, have been admitted to `l`. -/
structure Joins (l : Line) (qs : List (Position × Route)) (s t : State) : Prop where
  table : t.table = s.table
  records : t.recordsOn l = s.recordsOn l ++ qs.map fun q => s.newRecord q.1 q.2
  others : ∀ p, p ∉ qs.map Prod.fst → t.recordAt p l = s.recordAt p l
  lists : ∀ j, ∀ e ∈ t.listOf j, ∃ x ∈ s.listOf j, x.pos = e.pos
  stays : ∀ x ∈ s.listOf l, x.pos ∉ qs.map Prod.fst → ∃ y ∈ t.listOf l, y.key = x.key
  admitted : ∀ q ∈ qs, AdmittedTo s q.1 q.2 l t

theorem joins_nil (l : Line) (s : State) : Joins l [] s s :=
  ⟨rfl, (List.append_nil _).symm, fun _ _ => rfl, fun _ e mem => ⟨e, mem, rfl⟩, fun x mem _ => ⟨x, mem, rfl⟩, nofun⟩

theorem joins_cons (first : Admitted l e s u) (rest : Joins l qs u t) (own : AdmittedTo s e.pos e.route l t) : Joins l (e.key :: qs) s t where
  table := rest.table.trans first.table
  records := by
    rw [rest.records, first.records, List.append_assoc]
    simp only [newRecord_of_table first.table]
    rfl
  others p out := by
    rw [List.map_cons, List.mem_cons, not_or] at out
    exact (rest.others p out.2).trans (first.recordAt out.1)
  lists j x mem := by
    obtain ⟨y, mem', pos⟩ := rest.lists j x mem
    obtain ⟨z, mem'', same⟩ := mem_still (first.lists j) mem'
    exact ⟨z, (List.mem_filter.1 mem'').1, (pos_of_still same).1.trans pos⟩
  stays x mem out := by
    rw [List.map_cons, List.mem_cons, not_or] at out
    obtain ⟨y, mem', key⟩ := mem_key_of_still (first.lists l) (List.mem_filter.2 ⟨mem, by simpa using out.1⟩)
    have pos : y.pos = x.pos := congrArg Prod.fst key
    obtain ⟨z, mem'', key'⟩ := rest.stays y mem' (pos ▸ out.2)
    exact ⟨z, mem'', key'.trans key⟩
  admitted q mem := by
    obtain rfl | mem := List.mem_cons.1 mem
    · exact own
    · obtain ⟨record, out⟩ := rest.admitted q mem
      exact ⟨newRecord_of_table first.table q.1 q.2 ▸ record, out⟩

/-- The first of those with the route, as many as there are splitter ports left. -/
def State.roomFor (s : State) (l : Line) (r : Route) (es : List WaitEntry) : List (Position × Route) :=
  ((es.map WaitEntry.key).filter fun q => q.2 = r).take ((s.lineOf l).ports - (s.recordsOn l).length)

theorem joins_admitSame : ∀ (es : List WaitEntry) {w : Work}, w.s.AllocationKeyed → w.s.portOf l = .aux → w.s.Names l r →
    (∀ e ∈ es, w.s.Waiter (fun _ _ => True) l e) → (es.map fun e => e.pos).Nodup → Joins l (w.s.roomFor l r es) w.s (admitSame l r es w).s
  | [], w, _, _, _, _, _ => by
    have none : w.s.roomFor l r [] = [] := List.take_nil
    rw [none]
    exact joins_nil l w.s
  | e :: es, w, keyed, aux, names, waiters, once => by
    obtain ⟨fresh, once⟩ := List.nodup_cons.1 once
    have waiter := waiters e List.mem_cons_self
    have aside : ∀ x ∈ es, x.pos ≠ e.pos := fun x mem same => fresh (List.mem_map.2 ⟨x, mem, same⟩)
    have others : ∀ x ∈ es, w.s.Waiter (fun _ _ => True) l x := fun x mem => waiters x (List.mem_cons_of_mem _ mem)
    unfold admitSame
    split
    · next admits =>
      have rest := joins_admitSame es (w := admitEntry l e w)
      simp only [Bool.and_eq_true, decide_eq_true_eq] at admits
      obtain ⟨rfl, room⟩ := admits
      have admitted := admitted_admitEntry (w := w) waiter.line
      have roomy : w.s.Roomy e.route := .inr (.inr ⟨by rw [waiter.line]; exact aux, by rw [waiter.line]; exact names⟩)
      have moves : Moves (fun _ _ => True) False w.s (admitEntry l e w).s := moves_admitEntry keyed trivial waiter.line waiter.apart roomy
      have keyed' := allocationKeyed_moves moves keyed
      have aux' : (admitEntry l e w).s.portOf l = .aux := by rw [portOf_of_table admitted.table]; exact aux
      have waiters' : ∀ x ∈ es, (admitEntry l e w).s.Waiter (fun _ _ => True) l x := fun x mem => admitted.waiter (others x mem) (aside x mem)
      have first : w.s.roomFor l e.route (e :: es) = e.key :: (admitEntry l e w).s.roomFor l e.route es := by
        have count : (w.s.lineOf l).ports - (w.s.recordsOn l).length = (w.s.lineOf l).ports - ((w.s.recordsOn l).length + 1) + 1 := by omega
        have line : (admitEntry l e w).s.lineOf l = w.s.lineOf l := by rw [State.lineOf, admitted.table]; rfl
        rw [State.roomFor, State.roomFor, line, admitted.records, List.length_append, List.length_singleton, count, List.map_cons,
          List.filter_cons_of_pos (by simp), List.take_succ_cons]
      rw [first]
      refine joins_cons admitted (rest keyed' aux' (admitted.names names) waiters' once) ?_
      exact (admittedTo_admitEntry waiter.line waiter.apart).admitSame keyed' aux' (admitted.names names) waiters' once aside
    · next refused =>
      have same : w.s.roomFor l r (e :: es) = w.s.roomFor l r es := by
        simp only [Bool.and_eq_true, decide_eq_true_eq, not_and, not_lt] at refused
        by_cases own : e.route = r
        · rw [State.roomFor, State.roomFor, Nat.sub_eq_zero_of_le (refused own), List.take_zero, List.take_zero]
        · rw [State.roomFor, State.roomFor, List.map_cons, List.filter_cons_of_neg (by simpa using own)]
      rw [same]
      exact joins_admitSame es keyed aux names others once

/-! ## The turn of a line -/

/-- The turn of a line without records: the head of its list, and on an RX line those behind it with its route. -/
theorem joins_admitLine_of_empty (keyed : w.s.AllocationKeyed) (empty : w.s.recordsOn l = []) {es : List WaitEntry} (list : w.s.listOf l = e :: es) :
    Joins l (e.key :: if w.s.portOf l = .aux then ((es.map WaitEntry.key).filter fun q => q.2 = e.route).take ((w.s.lineOf l).ports - 1) else [])
      w.s (admitLine l w).s := by
  have waiters : ∀ x ∈ e :: es, w.s.Waiter (fun _ _ => True) l x := fun x mem =>
    ⟨trivial, keyed.placed l x (list ▸ mem), keyed.apart l x (list ▸ mem)⟩
  have once := keyed.lists l
  rw [list] at once
  obtain ⟨fresh, once⟩ := List.nodup_cons.1 once
  have head := waiters e List.mem_cons_self
  have own := head_admitLine keyed empty list
  have admitted := admitted_admitEntry (w := w) head.line
  have moves : Moves (fun _ _ => True) False w.s (admitEntry l e w).s :=
    moves_admitEntry keyed trivial head.line head.apart (.inl (by rw [head.line]; exact empty))
  unfold admitLine at own ⊢
  simp only [list, empty, List.isEmpty_nil, if_true] at own ⊢
  have port : (admitEntry l e w).s.portOf l = w.s.portOf l := portOf_of_table admitted.table l
  rw [port] at own ⊢
  split
  · next aux =>
    rw [if_pos aux] at own
    have names : (admitEntry l e w).s.Names l e.route := fun x mem => by
      rw [admitted.records, empty, List.nil_append, List.mem_singleton] at mem
      rw [mem]
      rfl
    have joins := joins_admitSame es (allocationKeyed_moves moves keyed) (port.trans aux) names
      (fun x mem => admitted.waiter (waiters x (List.mem_cons_of_mem _ mem)) fun same => fresh (List.mem_map.2 ⟨x, mem, same⟩)) once
    have line : (admitEntry l e w).s.lineOf l = w.s.lineOf l := by rw [State.lineOf, admitted.table]; rfl
    rw [State.roomFor, line, admitted.records, empty, List.nil_append, List.length_singleton] at joins
    exact joins_cons admitted joins own
  · next main =>
    rw [if_neg main] at own
    exact joins_cons admitted (joins_nil l _) own

theorem namedRoute_of_names (names : s.Names l r) (some : s.recordsOn l ≠ []) : s.namedRoute l = .some r := by
  unfold State.namedRoute
  unfold State.Names at names
  split
  · next empty => exact absurd empty some
  · next y ys eq =>
    rw [eq] at names
    have first := names y List.mem_cons_self
    rw [if_pos, first]
    exact List.all_eq_true.2 fun x mem => decide_eq_true ((names x (List.mem_cons_of_mem _ mem)).trans first.symm)

/-- The turn of an RX line whose records all name the route. -/
theorem joins_admitLine_of_shared (keyed : w.s.AllocationKeyed) (aux : w.s.portOf l = .aux) (some : w.s.recordsOn l ≠ []) (names : w.s.Names l r)
    (waits : ∀ e ∈ w.s.listOf l, e.manner ≠ .take) : Joins l (w.s.roomFor l r (w.s.listOf l)) w.s (admitLine l w).s := by
  have joins := joins_admitSame (r := r) (w.s.listOf l) keyed aux names (fun e mem => waiter_of_keyed keyed (cover_true _) mem) (keyed.lists l)
  unfold admitLine
  split
  · next list =>
    rw [list] at joins ⊢
    exact joins
  · next e es list =>
    rw [list] at joins waits ⊢
    have manner := waits e List.mem_cons_self
    simp only [List.isEmpty_iff, some, if_false, aux, decide_true, Bool.true_and, manner, ne_eq, not_false_eq_true, if_true,
      namedRoute_of_names names some]
    exact joins

end Sys2Proof.Machine
end

section
/-! The turn of a freed line in an event, and what comes of those whom it admits (R45, R65, R66). -/

namespace Sys2Proof.Machine

variable {s b : State} {w v u : Work} {l : Line} {e : WaitEntry} {r : Route} {p : Position} {k : PortKind} {qs : List (Position × Route)} {o : Operation}

/-! ## The turn -/

/-- Those in `qs` have been admitted to `l` at its turn, which began with the records and the list of `l` as in `b`. -/
structure Turned (b : State) (l : Line) (qs : List (Position × Route)) (v : Work) : Prop where
  keyed : v.s.AllocationKeyed
  table : v.s.table = b.table
  records : v.s.recordsOn l = b.recordsOn l ++ qs.map fun q => b.newRecord q.1 q.2
  lists : ∀ j, ∀ e ∈ v.s.listOf j, ∃ x ∈ b.listOf j, x.pos = e.pos
  stays : ∀ x ∈ b.listOf l, x.pos ∉ qs.map Prod.fst → ∃ y ∈ v.s.listOf l, y.key = x.key
  admitted : ∀ q ∈ qs, AdmittedTo b q.1 q.2 l v.s

theorem AdmittedTo.of_table {c t : State} (admitted : AdmittedTo c p r l t) (table : c.table = b.table) : AdmittedTo b p r l t :=
  ⟨newRecord_of_table table p r ▸ admitted.record, admitted.out⟩

theorem Untouched.turned (untouched : Untouched b l u) (keyed : v.s.AllocationKeyed) (joins : Joins l qs u.s v.s) : Turned b l qs v where
  keyed := keyed
  table := joins.table.trans untouched.table
  records := by
    rw [joins.records, untouched.records]
    simp only [newRecord_of_table untouched.table]
  lists j x mem := by
    obtain ⟨y, mem', pos⟩ := joins.lists j x mem
    obtain ⟨z, mem'', pos'⟩ := untouched.fewer j y mem'
    exact ⟨z, mem'', pos'.trans pos⟩
  stays x mem out := by
    obtain ⟨y, mem', key⟩ := mem_key_of_still untouched.list mem
    have pos : y.pos = x.pos := congrArg Prod.fst key
    obtain ⟨z, mem'', key'⟩ := joins.stays y mem' (pos ▸ out)
    exact ⟨z, mem'', key'.trans key⟩
  admitted q mem := (joins.admitted q mem).of_table untouched.table

/-- A freed line has its turn, whatever the admissions before it have been. -/
theorem turned_admitFreed (keyed : w.s.AllocationKeyed) (freed : l ∈ w.freed) (start : Untouched w.s l w)
    (joins : ∀ u, Untouched w.s l u → u.s.AllocationKeyed → Joins l qs u.s (admitLine l u).s) :
    ∃ n v, admitFreed w = admitAll n v ∧ Turned w.s l qs v := by
  obtain ⟨n, u, ls, eq, untouched, keyed'⟩ := turn_admitFreed (kinds_recordsOn keyed l) freed keyed start
  have moves : Moves (fun _ _ => True) False u.s (admitLine l { u with freed := ls }).s :=
    moves_admitLine l (w := { u with freed := ls }) keyed' (cover_true _)
  have popped : Untouched w.s l { u with freed := ls } := ⟨untouched.table, untouched.records, untouched.list, untouched.entries, untouched.fewer⟩
  exact ⟨n, _, eq, popped.turned (allocationKeyed_moves moves keyed') (joins _ popped keyed')⟩

/-- Whom the turn of a line without records admits. -/
def State.joiners (s : State) (l : Line) (e : WaitEntry) (es : List WaitEntry) : List (Position × Route) :=
  e.key :: if s.portOf l = .aux then ((es.map WaitEntry.key).filter fun q => q.2 = e.route).take ((s.lineOf l).ports - 1) else []

theorem turned_of_empty (keyed : w.s.AllocationKeyed) (freed : l ∈ w.freed) (empty : w.s.recordsOn l = []) {es : List WaitEntry}
    (list : w.s.listOf l = e :: es) : ∃ n v, admitFreed w = admitAll n v ∧ Turned w.s l (w.s.joiners l e es) v := by
  refine turned_admitFreed keyed freed (untouched_refl keyed (by simp [empty])) fun u untouched keyed' => ?_
  have keys := keys_of_still untouched.list
  rw [list, List.map_cons] at keys
  obtain ⟨x, xs, list', key, rest⟩ := List.map_eq_cons_iff.1 keys
  have joins := joins_admitLine_of_empty keyed' (untouched.records.trans empty) list'
  have line : u.s.lineOf l = w.s.lineOf l := by rw [State.lineOf, untouched.table]; rfl
  have route : x.route = e.route := congrArg Prod.snd key
  rw [portOf_of_table untouched.table, line, key, rest, route] at joins
  exact joins

theorem turned_of_shared (keyed : w.s.AllocationKeyed) (freed : l ∈ w.freed) (aux : w.s.portOf l = .aux) (some : w.s.recordsOn l ≠ [])
    (names : w.s.Names l r) (waits : ∀ e ∈ w.s.listOf l, e.manner ≠ .take)
    (apart : ∀ x ∈ w.s.recordsOn l, ∀ m, w.s.portOf m = w.s.portOf l → ∀ e ∈ w.s.listOf m, e.pos ≠ x.pos) :
    ∃ n v, admitFreed w = admitAll n v ∧ Turned w.s l (w.s.roomFor l r (w.s.listOf l)) v := by
  refine turned_admitFreed keyed freed (untouched_refl keyed fun x on _ => apart x on) fun u untouched keyed' => ?_
  have line : u.s.lineOf l = w.s.lineOf l := by rw [State.lineOf, untouched.table]; rfl
  have waits' : ∀ e ∈ u.s.listOf l, e.manner ≠ .take := fun e mem => by
    obtain ⟨x, mem', still⟩ := mem_still untouched.list mem
    exact (pos_of_still still).2.2.1 ▸ waits x mem'
  have same : u.s.roomFor l r (u.s.listOf l) = w.s.roomFor l r (w.s.listOf l) := by
    rw [State.roomFor, State.roomFor, keys_of_still untouched.list, line, untouched.records]
  rw [← same]
  refine joins_admitLine_of_shared keyed' (by rw [portOf_of_table untouched.table]; exact aux) (by rw [untouched.records]; exact some) ?_ waits'
  intro x mem
  rw [untouched.records] at mem
  exact names x mem

/-! ## What comes of those admitted -/

/-- The positions of `F`, and the kind `k`. -/
abbrev among (F : Position → Prop) (k : PortKind) : Position → PortKind → Line → Prop := fun q j _ => F q ∧ j = k

/-- Positions that wait for no line of the kind and keep no re-claim line of it. -/
theorem calm_of_apart {F : Position → Prop} (keyed : s.AllocationKeyed) (out : ∀ j, s.portOf j = k → ∀ e ∈ s.listOf j, ¬F e.pos)
    (free : ∀ q, F q → (s.standing q k).reclaim = none) : s.Calm (among F k) := by
  refine ⟨keyed, fun j e mem own => out j own.2 e mem own.1, fun q j own => .inr fun i same => ⟨own.1, same.trans own.2⟩, fun _ q j i own named => ?_⟩
  rw [own.2, free q own.1] at named
  cases named

/-- The position has a record with the route, on its way to being CONNECTED, and waits for the line no more. -/
structure State.Joined (s : State) (p : Position) (r : Route) (l : Line) : Prop where
  record : ∃ h, s.recordAt p l = some h ∧ h.route = r ∧ (h.state = .pending ∨ h.state = .making)
  out : ∀ e ∈ s.listOf l, e.pos ≠ p

theorem joined_of_goesCalm {t : State} {F : Position → Prop} (goes : GoesCalm (among F (s.portOf l)) s t) (own : F p)
    (admitted : AdmittedTo b p r l s) : t.Joined p r l := by
  have rel := goes.records p l ⟨own, rfl⟩
  rw [admitted.record] at rel
  obtain ⟨h, held, later⟩ := some_of_rel rel
  refine ⟨⟨h, held, ?_⟩, fun e mem pos => goes.calm.out l e mem ⟨pos ▸ own, portOf_of_table goes.table l⟩⟩
  obtain rfl | ⟨-, rfl⟩ := later.eq_of_bare nofun rfl
  · exact ⟨rfl, .inl rfl⟩
  · exact ⟨rfl, .inr rfl⟩

/-! ## At a completion -/

/-- What the admissions of a completion leave, and every event keeps, stands at the end of the step. -/
theorem EventsKeep.landed {I : State → Prop} (keep : EventsKeep I) (released : s.store.ready = .starting → s.store.restartRaw = false)
    (at' : I (admitFreed (completionWork (latchChange s))).s) : I (Machine.changed s o) :=
  keep.changed released (keep.handOn (keep.closeWork (latchChange s) (keep.reclaimed at')))

theorem standing_landed (keyed : s.AllocationKeyed) (p : Position) (k : PortKind) : (landedState s).standing p k = s.standing p k :=
  standing_of_standings ((completionWork_leaves (keyed_latchChange keyed)).standings.trans (by rw [alloc_latchChange])) p k

theorem table_landed (keyed : s.AllocationKeyed) : (landedState s).table = s.table :=
  (completionWork_leaves (keyed_latchChange keyed)).table.trans (table_latchChange s)

theorem keyed_landed (keyed : s.AllocationKeyed) : (landedState s).AllocationKeyed :=
  keyed_completionWork (op_latchChange s) (keyed_latchChange keyed)

theorem standing_admitFreed (keyed : w.s.AllocationKeyed) (p : Position) (k : PortKind) : (admitFreed w).s.standing p k = w.s.standing p k :=
  standing_of_standings (yields_admitFreed (K := fun _ => True) (kinded_of_keyed keyed) fun _ _ => trivial).standings p k

/-- Whom the turn of a line admits has joined it at the end of the step. -/
theorem joined_changed (released : s.store.ready = .starting → s.store.restartRaw = false) (keyed : s.AllocationKeyed) {n : Nat}
    (eq : admitFreed (completionWork (latchChange s)) = admitAll n v) (turned : Turned (landedState s) l qs v) {q : Position × Route} (mem : q ∈ qs)
    (free : (s.standing q.1 (s.portOf l)).reclaim = none) : (changed s o).Joined q.1 q.2 l := by
  have admitted : AdmittedTo (landedState s) q.1 q.2 l (admitFreed (completionWork (latchChange s))).s := by
    rw [eq]
    exact (turned.admitted q mem).admitAll turned.keyed n
  have port : (admitFreed (completionWork (latchChange s))).s.portOf l = s.portOf l :=
    portOf_of_table (((worked_admitFreed _).moved.table (by decide)).trans (table_landed keyed)) l
  have calm : (admitFreed (completionWork (latchChange s))).s.Calm (among (fun p => p = q.1) ((admitFreed (completionWork (latchChange s))).s.portOf l)) := by
    refine calm_of_apart (keyed_of_deals (deals_admitFreed _) (keyed_landed keyed)) admitted.out fun p own => ?_
    rw [standing_admitFreed (keyed_landed keyed), standing_landed keyed, own, port]
    exact free
  exact joined_of_goesCalm ((eventsKeep_calm _ _).landed released calm.refl) rfl admitted

end Sys2Proof.Machine
end

section
/-! Who goes on waiting for a line that others hold: on a MAIN line, behind another route, or where no splitter port is left (R65, R66). -/

namespace Sys2Proof.Machine

variable {s t b c : State} {w v u : Work} {l : Line} {r : Route} {fs : List Position} {x : Position × Route}

/-! ## Admissions past a waiter -/

/-- The positions `fs` hold `l` with the route `r`, and have stored no reroute there. -/
abbrev State.HeldBare (s : State) (l : Line) (fs : List Position) (r : Route) : Prop :=
  ∀ f ∈ fs, ∃ h, s.recordAt f l = some h ∧ h.route = r ∧ h.reroute = none

/-- The positions `fs` hold `l` with the route `r`, and wait for no line of its kind; `x` waits for `l`, and for no other line of its kind. -/
structure Barred (c : State) (l : Line) (fs : List Position) (r : Route) (x : Position × Route) (w : Work) : Prop where
  table : w.s.table = c.table
  kinded : w.s.Kinded
  held : w.s.HeldBare l fs r
  apart : ∀ i, c.portOf i = c.portOf l → ∀ e ∈ w.s.listOf i, e.pos ∉ fs ∧ (i ≠ l → e.pos ≠ x.1)
  entry : ∃ y ∈ w.s.listOf l, y.key = x

theorem admissionsKeep_barred : AdmissionsKeep (fun i => i ≠ l) (Barred c l fs r x) (fun i e => c.portOf i = c.portOf l → e.pos ∉ fs ∧ e.pos ≠ x.1) where
  entries w at' i other e mem port := ⟨(at'.apart i port e mem).1, (at'.apart i port e mem).2 other⟩
  takes v at' i e _ own := by
    have port := portOf_of_table at'.table
    have fewer (j : Line) (y : WaitEntry)
        (mem : y ∈ (createRecord e.pos e.route (withdraw e.pos (v.s.portOf i) none v)).s.listOf j) : y ∈ v.s.listOf j := by
      rw [createRecord_s, listOf_withRecord, withdraw_s, listOf_withdrawn] at mem
      split at mem
      · exact (List.mem_filter.1 mem).1
      · exact mem
    have yields := (yields_withdraw (K := fun _ => True) at'.kinded e.pos (v.s.portOf i) none).trans
      (yields_createRecord (yields_withdraw (K := fun _ => True) at'.kinded e.pos (v.s.portOf i) none).kinded e.pos e.route)
    refine ⟨at'.table, yields.kinded, fun f mem => ?_, fun j same y mem => at'.apart j same y (fewer j y mem), ?_⟩
    · obtain ⟨h, held, route⟩ := at'.held f mem
      refine ⟨h, ?_, route⟩
      rw [createRecord_s, recordAt_withRecord, show (withdraw e.pos (v.s.portOf i) none v).s.recordAt f l = some h from held]
      rfl
    · obtain ⟨y, mem, key⟩ := at'.entry
      refine ⟨y, ?_, key⟩
      rw [createRecord_s, listOf_withRecord, withdraw_s, listOf_withdrawn]
      split
      · next same =>
        refine List.mem_filter.2 ⟨mem, ?_⟩
        have apart := (own (by rw [← port, ← port]; exact same.1.symm)).2
        have pos : y.pos = x.1 := congrArg Prod.fst key
        simpa [pos] using Ne.symm apart
      · exact mem
  leave w at' v from' i e _ own y mem pos kind _ := by
    have yields := yields_goBreaking (K := fun _ => True) at'.kinded e.pos (l := y.line) trivial
    have still (j : Line) : ((goBreaking e.pos y.line w).s.listOf j).map WaitEntry.still = (w.s.listOf j).map WaitEntry.still := by
      rw [goBreaking_s]
      exact lists_left ..
    refine ⟨yields.table.trans at'.table, yields.kinded, fun f holds => ?_, fun j same z mem => ?_, ?_⟩
    · obtain ⟨h, held, route⟩ := at'.held f holds
      refine ⟨h, ?_, route⟩
      rw [goBreaking_s, recordAt_left_of_ne]
      · exact held
      · rintro ⟨rfl, rfl⟩
        refine (own ?_).1 holds
        rw [← portOf_of_table from'.table i, ← kind, from'.kinded y mem, portOf_of_table from'.table]
    · obtain ⟨z', was, same'⟩ := mem_still (still j) mem
      exact (pos_of_still same').1 ▸ at'.apart j same z' was
    · obtain ⟨y', was, key⟩ := at'.entry
      obtain ⟨z, mem', key'⟩ := mem_key_of_still (still l) was
      exact ⟨z, mem', key'.trans key⟩

/-- The waiter `x` cannot be admitted while the positions `fs` hold `l` with the route `r`. -/
structure State.Bars (c : State) (l : Line) (fs : List Position) (r : Route) (x : Position × Route) : Prop where
  some : fs ≠ []
  once : fs.Nodup
  bars : c.portOf l = .main ∨ x.2 ≠ r ∨ (c.lineOf l).ports ≤ fs.length

theorem mem_recordsOn_of_recordAt {p : Position} {h : Holder} (held : s.recordAt p l = some h) : h ∈ s.recordsOn l ∧ h.pos = p :=
  ⟨(mem_recordsOn ..).2 ⟨(mem_of_recordAt held).1, (mem_of_recordAt held).2.2⟩, (mem_of_recordAt held).2.1⟩

theorem length_le_recordsOn (once : fs.Nodup) (held : s.HeldBare l fs r) : fs.length ≤ (s.recordsOn l).length := by
  rw [← List.length_map (f := fun h : Holder => h.pos)]
  refine (List.subperm_of_subset once fun f mem => ?_).length_le
  obtain ⟨h, held, -⟩ := held f mem
  obtain ⟨on, pos⟩ := mem_recordsOn_of_recordAt held
  exact List.mem_map.2 ⟨h, on, pos⟩

theorem Barred.joined {qs : List (Position × Route)} (barred : Barred c l fs r x w) (keyed : v.s.AllocationKeyed) (joins : Joins l qs w.s v.s)
    (holders : ∀ f ∈ fs, f ∉ qs.map Prod.fst) (waiter : x.1 ∉ qs.map Prod.fst) : Barred c l fs r x v := by
  refine ⟨joins.table.trans barred.table, kinded_of_keyed keyed, fun f mem => ?_, fun i same e mem => ?_, ?_⟩
  · rw [joins.others f (holders f mem)]
    exact barred.held f mem
  · obtain ⟨y, was, pos⟩ := joins.lists i e mem
    exact pos ▸ barred.apart i same y was
  · obtain ⟨y, mem, key⟩ := barred.entry
    have pos : y.pos = x.1 := congrArg Prod.fst key
    obtain ⟨z, mem', key'⟩ := joins.stays y mem (pos ▸ waiter)
    exact ⟨z, mem', key'.trans key⟩

theorem mem_roomFor {es : List WaitEntry} {q : Position} (mem : q ∈ (s.roomFor l r es).map Prod.fst) : ∃ e ∈ es, e.pos = q ∧ e.route = r := by
  obtain ⟨⟨p, r'⟩, taken, rfl⟩ := List.mem_map.1 mem
  obtain ⟨keys, route⟩ := List.mem_filter.1 (List.mem_of_mem_take taken)
  obtain ⟨e, waits, key⟩ := List.mem_map.1 keys
  exact ⟨e, waits, congrArg Prod.fst key, (congrArg Prod.snd key).trans (by simpa using route)⟩

/-- The line's own turn passes the waiter by. -/
theorem barred_turn (bars : c.Bars l fs r x) (keyed : w.s.AllocationKeyed) (barred : Barred c l fs r x w) : Barred c l fs r x (admitLine l w) := by
  obtain ⟨f, holds⟩ := List.exists_mem_of_ne_nil fs bars.some
  obtain ⟨h, held, route, -⟩ := barred.held f holds
  obtain ⟨on, -⟩ := mem_recordsOn_of_recordAt held
  have some : w.s.recordsOn l ≠ [] := List.ne_nil_of_mem on
  have port : w.s.portOf l = c.portOf l := portOf_of_table barred.table l
  have moves : Moves (fun _ _ => True) False w.s (admitLine l w).s := moves_admitLine l keyed (cover_true _)
  have keyed' := allocationKeyed_moves moves keyed
  unfold admitLine at keyed' ⊢
  split at keyed'
  · exact barred
  · next e es list =>
    simp only [List.isEmpty_iff, some, if_false] at keyed' ⊢
    split at keyed'
    · next shared =>
      rw [if_pos shared]
      simp only [Bool.and_eq_true, decide_eq_true_eq] at shared
      split at keyed'
      · next r' named =>
        have names := names_of_namedRoute named
        have same : r' = r := (names h on).symm.trans route
        subst same
        have joins := joins_admitSame (r := r') (e :: es) keyed shared.1 names (fun y mem => waiter_of_keyed keyed (cover_true _) (list ▸ mem)) (list ▸ keyed.lists l)
        refine barred.joined keyed' joins (fun f holds mem => ?_) fun mem => ?_
        · obtain ⟨y, waits, pos, -⟩ := mem_roomFor mem
          exact (barred.apart l rfl y (list ▸ waits)).1 (pos ▸ holds)
        · obtain ⟨y, waits, pos, route'⟩ := mem_roomFor mem
          obtain main | other | full := bars.bars
          · rw [port, main] at shared
            cases shared.1
          · obtain ⟨z, waits', rfl⟩ := barred.entry
            have one : y = z := List.inj_on_of_nodup_map (keyed.lists l) (list ▸ waits) waits' pos
            exact other (one ▸ route')
          · have line : w.s.lineOf l = c.lineOf l := by rw [State.lineOf, barred.table]; rfl
            have count := length_le_recordsOn bars.once barred.held
            rw [State.roomFor, line, Nat.sub_eq_zero_of_le (full.trans count), List.take_zero] at mem
            cases mem
      · exact barred
    · next alone =>
      rw [if_neg alone]
      exact barred

theorem barred_admitAll (bars : c.Bars l fs r x) : ∀ (n : Nat) {w : Work}, w.s.AllocationKeyed → Barred c l fs r x w → Barred c l fs r x (admitAll n w)
  | 0, _, _, barred => barred
  | n + 1, w, keyed, barred => by
    unfold admitAll
    split
    · exact barred
    · next i ls _ =>
      have popped : Barred c l fs r x { w with freed := ls } := ⟨barred.table, barred.kinded, barred.held, barred.apart, barred.entry⟩
      have moves : Moves (fun _ _ => True) False w.s (admitLine i { w with freed := ls }).s := moves_admitLine i (w := { w with freed := ls }) keyed (cover_true _)
      refine barred_admitAll bars n (allocationKeyed_moves moves keyed) ?_
      by_cases own : i = l
      · rw [own] at moves ⊢
        exact barred_turn bars keyed popped
      · exact admissionsKeep_barred.admitLine popped own

end Sys2Proof.Machine
end

section
/-! A waiter that is barred, through every event of a step (R46, R65, R81, R85). -/

namespace Sys2Proof.Machine

variable {s t b : State} {w : Work} {l : Line} {r : Route} {fs : List Position} {x : Position × Route} {q : Position} {j : PortKind}

theorem Holder.Later.route_of_bare {h y : Holder} (later : h.Later y) (bare : h.reroute = none) : y.route = h.route ∧ y.reroute = none := by
  induction later with
  | refl => exact ⟨rfl, bare⟩
  | tail _ goes ih =>
    cases goes with
    | make _ => exact ih
    | ask _ => exact ih
    | reroute _ =>
      unfold Holder.takeReroute
      rw [ih.2]
      exact ih

/-- From `b` on the positions `fs` have held `l`, and `x` has waited for it; it keeps no re-claim line of the kind. -/
structure Guarded (b : State) (l : Line) (fs : List Position) (x : Position × Route) (s : State) : Prop where
  goes : GoesCalm (among (fun p => p ∈ fs) (b.portOf l)) b s
  entry : ∃ y ∈ s.listOf l, y.key = x
  free : (s.standing x.1 (b.portOf l)).reclaim = none

theorem Guarded.barred (guarded : Guarded b l fs x w.s) (bare : b.HeldBare l fs r) : Barred b l fs r x w where
  table := guarded.goes.table
  kinded := kinded_of_keyed guarded.goes.calm.keyed
  held f mem := by
    obtain ⟨h, held, route, none⟩ := bare f mem
    have rel := guarded.goes.records f l ⟨mem, rfl⟩
    rw [held] at rel
    obtain ⟨y, held', later⟩ := some_of_rel rel
    obtain ⟨same, none'⟩ := later.route_of_bare none
    exact ⟨y, held', same.trans route, none'⟩
  apart i same e mem := by
    have port := portOf_of_table guarded.goes.table
    refine ⟨fun own => guarded.goes.calm.out i e mem ⟨own, (port i).trans same⟩, fun other own => ?_⟩
    obtain ⟨y, mem', key⟩ := guarded.entry
    have pos : y.pos = x.1 := congrArg Prod.fst key
    exact other (guarded.goes.calm.keyed.oneList i l e mem y mem' (own.trans pos.symm) (by rw [port, port]; exact same))
  entry := guarded.entry

theorem Guarded.spared (guarded : Guarded b l fs x s) (goes : GoesCalm (among (fun p => p ∈ fs) (b.portOf l)) b t) (spared : s.Spared t x.1 (b.portOf l)) :
    Guarded b l fs x t where
  goes := goes
  entry := by
    obtain ⟨y, mem, key⟩ := guarded.entry
    have pos : y.pos = x.1 := congrArg Prod.fst key
    have own : y ∈ (s.listOf l).filter fun e => e.pos = x.1 := List.mem_filter.2 ⟨mem, by simpa using pos⟩
    rw [← spared.entries l (portOf_of_table guarded.goes.table l)] at own
    exact ⟨y, (List.mem_filter.1 own).1, key⟩
  free := by
    rw [spared.standing]
    exact guarded.free

theorem Guarded.moves {A : Position → PortKind → Prop} {B : Prop} (guarded : Guarded b l fs x s)
    (goes : GoesCalm (among (fun p => p ∈ fs) (b.portOf l)) b t) (moves : Moves A B s t) (out : ¬A x.1 (b.portOf l)) : Guarded b l fs x t :=
  guarded.spared goes (spared_moves moves guarded.goes.calm.keyed out)

section

variable (bars : b.Bars l fs r x) (bare : b.HeldBare l fs r)

include bars bare

theorem guarded_admitFreed (guarded : Guarded b l fs x w.s) : Guarded b l fs x (admitFreed w).s where
  goes := goesCalm_admitFreed guarded.goes
  entry := (barred_admitAll bars _ guarded.goes.calm.keyed (guarded.barred bare)).entry
  free := by
    rw [standing_admitFreed guarded.goes.calm.keyed]
    exact guarded.free

theorem claimsKeep_guarded (other : Others x.1 (b.portOf l) q j) (out : Excludes (among (fun p => p ∈ fs) (b.portOf l)) b q j) :
    ClaimsKeep q j (Guarded b l fs x) where
  keyed _ guarded := guarded.goes.calm.keyed
  admits _ := guarded_admitFreed bars bare
  assigns w r guarded port none had := guarded.moves ((claimsKeep_calm out).assigns w r guarded.goes port none had)
    (moves_assign (A := Others x.1 (b.portOf l)) (B := False) guarded.goes.calm.keyed (port ▸ other) none (roomy_of_canBeHad had)) (not_not.2 ⟨rfl, rfl⟩)
  queues w r guarded port none := guarded.moves ((claimsKeep_calm out).queues w r guarded.goes port none)
    (t := (enqueueWait q r w).s) (A := Others x.1 (b.portOf l)) (B := False) (.single (.enqueue (port ▸ other) none)) (not_not.2 ⟨rfl, rfl⟩)
  changes w r h g guarded port held stands placed moves :=
    guarded.spared ((claimsKeep_calm out).changes w r h g guarded.goes port held stands placed moves)
      (spared_reclaimed guarded.goes.calm.keyed placed (port ▸ other))
  standing w f guarded := guarded.moves ((claimsKeep_calm out).standing w f guarded.goes)
    (t := (w.mapStanding q j f).s) (A := Others x.1 (b.portOf l)) (B := False) (.single (.standing f other)) (not_not.2 ⟨rfl, rfl⟩)

theorem eventsKeep_guarded : EventsKeep (Guarded b l fs x) where
  same s t alike guarded := by
    refine ⟨(eventsKeep_calm _ b).same s t alike guarded.goes, ?_, ?_⟩
    · rw [listOf_of_alloc (s := s) (t := t) (by rw [alike.alloc])]
      exact guarded.entry
    · rw [standing_of_standings (s := s) (t := t) (by rw [alike.alloc])]
      exact guarded.free
  admits w := guarded_admitFreed bars bare
  made s guarded := ⟨(eventsKeep_calm _ b).made s guarded.goes, guarded.entry, guarded.free⟩
  quiet s q quiet guarded := by
    refine ⟨(eventsKeep_calm _ b).quiet s q quiet guarded.goes, ?_, ?_⟩
    · rw [listOf_of_alloc (lists_quietWork q s)]
      exact guarded.entry
    · rw [standing_of_standings (yields_quietWork guarded.goes.calm.keyed q).standings]
      exact guarded.free
  reclaims w q j i guarded named none := by
    have other : Others x.1 (b.portOf l) q j := by
      rintro ⟨rfl, rfl⟩
      rw [guarded.free] at named
      cases named
    cases safe : w.s.safe with
    | false => exact (claimsKeep_guarded bars bare other (guarded.goes.excludes safe named none)).reclaimOne guarded
    | true =>
      have goes := (eventsKeep_calm _ b).reclaims w q j i guarded.goes named none
      have moves : Moves (Others x.1 (b.portOf l)) False w.s (reclaimOne q j w).s := by
        rw [reclaimOne_of_safe safe named none]
        have cleared : Moves (Others x.1 (b.portOf l)) False w.s (w.mapStanding q j fun y => { y with reclaim := Option.none }).s := .single (.standing (fun y => { y with reclaim := Option.none }) other)
        exact cleared.tail (Move.standing (s := (w.mapStanding q j fun y => { y with reclaim := Option.none }).s) (fun y => { y with due := true }) other)
      exact guarded.moves goes moves (not_not.2 ⟨rfl, rfl⟩)

end

end Sys2Proof.Machine
end

section
/-! Who is left in the list of a line at its turn in a completion (R65, R66). -/

namespace Sys2Proof.Machine

variable {s b : State} {w v : Work} {l : Line} {e : WaitEntry} {r : Route} {qs : List (Position × Route)} {o : Operation} {n : Nat}

theorem positions_recordsOn (keyed : s.AllocationKeyed) (l : Line) : ((s.recordsOn l).map fun h => h.pos).Nodup := by
  have once : ((s.recordsOn l).map fun h => (h.pos, h.line)).Nodup := keyed.records.sublist (List.filter_sublist.map _)
  refine List.Nodup.map_on (fun x on y on' same => ?_) once.of_map
  refine List.inj_on_of_nodup_map once on on' (Prod.ext same ?_)
  exact ((mem_recordsOn ..).1 on).2.trans ((mem_recordsOn ..).1 on').2.symm

/-- What holds before a line's turn of those who hold it and of those whom the turn admits, if it is to bar others: they have the route `r` and
no stored reroute, wait for no line of the kind, and keep no re-claim line of it. -/
structure State.Sole (b : State) (l : Line) (r : Route) (qs : List (Position × Route)) : Prop where
  names : b.Names l r
  routes : ∀ q ∈ qs, q.2 = r
  bare : ∀ h ∈ b.recordsOn l, h.reroute = none
  apart : ∀ h ∈ b.recordsOn l, ∀ m, b.portOf m = b.portOf l → ∀ e ∈ b.listOf m, e.pos ≠ h.pos
  some : b.recordsOn l ≠ [] ∨ qs ≠ []
  holders : ∀ h ∈ b.recordsOn l, (b.standing h.pos (b.portOf l)).reclaim = none
  joiners : ∀ q ∈ qs, (b.standing q.1 (b.portOf l)).reclaim = none

/-- A record on the line behind its turn. -/
theorem Turned.holder (turned : Turned b l qs v) {h : Holder} (on : h ∈ v.s.recordsOn l) :
    h ∈ b.recordsOn l ∨ ∃ q ∈ qs, h = b.newRecord q.1 q.2 := by
  rw [turned.records, List.mem_append] at on
  refine on.imp_right fun joined => ?_
  obtain ⟨q, mem, rfl⟩ := List.mem_map.1 joined
  exact ⟨q, mem, rfl⟩

theorem Turned.barred (turned : Turned b l qs v) (keyed : b.AllocationKeyed) (sole : b.Sole l r qs) (mem : e ∈ b.listOf l) (out : e.pos ∉ qs.map Prod.fst) :
    Barred v.s l ((v.s.recordsOn l).map fun h => h.pos) r e.key v where
  table := rfl
  kinded := kinded_of_keyed turned.keyed
  held f holds := by
    obtain ⟨h, on, rfl⟩ := List.mem_map.1 holds
    obtain ⟨stands, line⟩ := (mem_recordsOn ..).1 on
    refine ⟨h, (recordAt_eq_some_iff turned.keyed.records).2 ⟨stands, rfl, line⟩, ?_⟩
    obtain old | ⟨q, mem, rfl⟩ := turned.holder on
    · exact ⟨sole.names h old, sole.bare h old⟩
    · exact ⟨sole.routes q mem, rfl⟩
  apart i same y waits := by
    have port := portOf_of_table turned.table
    obtain ⟨z, was, pos⟩ := turned.lists i y waits
    refine ⟨fun holds => ?_, fun other own => ?_⟩
    · obtain ⟨h, on, own⟩ := List.mem_map.1 holds
      obtain old | ⟨q, joined, rfl⟩ := turned.holder on
      · exact sole.apart h old i (by rw [← port, ← port]; exact same) z was (pos.trans own.symm)
      · exact (turned.admitted q joined).out i same y waits own.symm
    · exact other (keyed.oneList i l z was e mem (pos.trans own) (by rw [← port, ← port]; exact same))
  entry := turned.stays e mem out

/-- The line's records bar the entry, which is not among those admitted. -/
theorem Turned.bars (turned : Turned b l qs v) (sole : b.Sole l r qs)
    (full : b.portOf l = .main ∨ e.route ≠ r ∨ (b.lineOf l).ports ≤ (b.recordsOn l).length + qs.length) :
    v.s.Bars l ((v.s.recordsOn l).map fun h => h.pos) r e.key where
  some empty := by
    have none := List.map_eq_nil_iff.1 empty
    rw [turned.records, List.append_eq_nil_iff, List.map_eq_nil_iff] at none
    exact sole.some.elim (fun held => held none.1) fun joined => joined none.2
  once := positions_recordsOn turned.keyed l
  bars := by
    rw [portOf_of_table turned.table, State.lineOf, turned.table, List.length_map, turned.records, List.length_append, List.length_map]
    exact full

/-- An entry that is barred at its line's turn in a completion waits at the end of the step. -/
theorem waits_changed (released : s.store.ready = .starting → s.store.restartRaw = false) (keyed : s.AllocationKeyed)
    (eq : admitFreed (completionWork (latchChange s)) = admitAll n v) (turned : Turned (landedState s) l qs v) (sole : (landedState s).Sole l r qs)
    (mem : e ∈ (landedState s).listOf l) (out : e.pos ∉ qs.map Prod.fst)
    (full : (landedState s).portOf l = .main ∨ e.route ≠ r ∨ ((landedState s).lineOf l).ports ≤ ((landedState s).recordsOn l).length + qs.length)
    (free : ((landedState s).standing e.pos ((landedState s).portOf l)).reclaim = none) :
    ∃ y ∈ (changed s o).listOf l, y.key = e.key := by
  have start := keyed_landed keyed
  have bars := turned.bars sole full
  have barred := barred_admitAll bars n turned.keyed (turned.barred start sole mem out)
  rw [← eq] at barred
  have standing := fun p => standing_admitFreed start p ((landedState s).portOf l)
  have keyed' : (admitFreed (completionWork (latchChange s))).s.AllocationKeyed := keyed_of_deals (deals_admitFreed _) start
  have port : (admitFreed (completionWork (latchChange s))).s.portOf l = (landedState s).portOf l :=
    portOf_of_table (barred.table.trans turned.table) l
  have bars' : (admitFreed (completionWork (latchChange s))).s.Bars l ((v.s.recordsOn l).map fun h => h.pos) r e.key := by
    refine ⟨bars.some, bars.once, ?_⟩
    rw [portOf_of_table barred.table, State.lineOf, barred.table]
    exact bars.bars
  have guarded : Guarded (admitFreed (completionWork (latchChange s))).s l ((v.s.recordsOn l).map fun h => h.pos) e.key
      (admitFreed (completionWork (latchChange s))).s := by
    refine ⟨(calm_of_apart keyed' (fun j same y waits => (barred.apart j ?_ y waits).1) fun p holds => ?_).refl, barred.entry, ?_⟩
    · rw [← portOf_of_table barred.table, ← portOf_of_table barred.table]
      exact same
    · rw [port, standing]
      obtain ⟨h, on, rfl⟩ := List.mem_map.1 holds
      obtain old | ⟨q, joined, rfl⟩ := turned.holder on
      · exact sole.holders h old
      · exact sole.joiners q joined
    · rw [port, standing]
      exact free
  exact ((eventsKeep_guarded bars' barred.held).landed released guarded).entry

end Sys2Proof.Machine
end

section
/-! `ChangeRuns`: the lines that a completion frees, and the obligation (sections 3.2, 3.5, 4.4 and 7.4). -/

namespace Sys2Proof.Machine

variable {s : State} {o : Operation} {l : Line} {e : WaitEntry} {es : List WaitEntry} {r : Route} {x : Holder}

/-! ## The lines freed -/

/-- The records on the line that the CHANGE `o` leaves. -/
abbrev State.keptOn (s : State) (o : Operation) (l : Line) : List Holder :=
  (s.recordsOn l).filter fun x => x.state ≠ .breaking || o.image.getLsbD (crosspointBit x.pos l)

theorem stays_landed (op : s.chain.op = some o) (x : Holder) : (x.landed (latchChange s)).stays = (x.state ≠ .breaking || o.closes x) := by
  have breaking : decide ((x.landed (latchChange s)).state = .breaking) = decide (x.state = .breaking) :=
    decide_eq_decide.2 (breaking_landed (latchChange s) x)
  rw [Holder.stays, breaking, closes_landed op, Bool.not_and, Bool.not_not, decide_not]

theorem recordsOn_landed (op : s.chain.op = some o) (keyed : s.AllocationKeyed) (l : Line) :
    (landedState s).recordsOn l = (s.keptOn o l).map (Holder.landed (latchChange s)) := by
  have same : (latchChange s).recordsOn l = s.recordsOn l := recordsOn_of_alloc (by rw [alloc_latchChange]) l
  rw [recordsOn_completionWork (keyed_latchChange keyed), same, List.filter_map]
  congr 1
  refine List.filter_congr fun x on => ?_
  rw [Function.comp, stays_landed op, Operation.closes, ((mem_recordsOn ..).1 on).2]

theorem freed_landed (op : s.chain.op = some o) (keyed : s.AllocationKeyed) (on : x ∈ s.recordsOn l) (out : x ∉ s.keptOn o l) :
    l ∈ (completionWork (latchChange s)).freed := by
  obtain ⟨mem, line⟩ := (mem_recordsOn ..).1 on
  refine line ▸ (completionWork_leaves (keyed_latchChange keyed)).freed x (by rw [alloc_latchChange]; exact mem) ?_
  rw [stays_landed op, Operation.closes, line]
  exact Bool.eq_false_iff.2 fun test => out (List.mem_filter.2 ⟨on, test⟩)

theorem still_landed (keyed : s.AllocationKeyed) (l : Line) : ((landedState s).listOf l).map WaitEntry.still = (s.listOf l).map WaitEntry.still :=
  ((completionWork_leaves (keyed_latchChange keyed)).lists l).trans (by rw [listOf_latchChange])

theorem keys_take (es : List WaitEntry) (r : Route) (n : Nat) :
    ((es.map WaitEntry.key).filter fun q => q.2 = r).take n = ((es.filter fun x => x.route = r).take n).map WaitEntry.key := by
  rw [List.filter_map, List.map_take]
  rfl

/-- Of those with the route, more than the first `n` wait where one of them is not among these. -/
theorem length_take_of_not_mem {xs : List WaitEntry} {n : Nat} (mem : e ∈ xs) (out : e ∉ xs.take n) : (xs.take n).length = n := by
  rw [List.length_take, Nat.min_eq_left]
  by_contra short
  rw [List.take_of_length_le (by omega)] at out
  exact out mem

/-- An entry that is none of `xs` has the position of none, where all wait in one list. -/
theorem pos_not_mem_keys {ys : List WaitEntry} (keyed : s.AllocationKeyed) (mem : e ∈ s.listOf l) (subset : ∀ y ∈ ys, y ∈ s.listOf l) (out : e ∉ ys) :
    e.pos ∉ (ys.map WaitEntry.key).map Prod.fst := by
  rw [List.map_map]
  intro own
  obtain ⟨y, among, pos⟩ := List.mem_map.1 own
  have one : y = e := List.inj_on_of_nodup_map (keyed.lists l) (subset y among) mem pos
  exact out (one ▸ among)

section

variable (op : s.chain.op = some o) (released : s.store.ready = .starting → s.store.restartRaw = false) (keyed : s.AllocationKeyed)

include op released keyed

/-- A line whose last record is removed admits the head of its list, and on an RX line those behind it with its route (R65). -/
theorem emptied_changed (held : s.recordsOn l ≠ []) (kept : s.keptOn o l = []) (list : s.listOf l = e :: es) :
    let same := es.filter fun x => s.portOf l = .aux && x.route = e.route
    (∀ x ∈ e :: same.take ((s.lineOf l).ports - 1), (s.standing x.pos (s.portOf l)).reclaim = none → (changed s o).Joined x.pos x.route l) ∧
      ((∀ y ∈ s.listOf l, (s.standing y.pos (s.portOf l)).reclaim = none) → ∀ x ∈ es, x ∉ same.take ((s.lineOf l).ports - 1) →
        ∃ y ∈ (changed s o).listOf l, y.key = x.key) := by
  intro same
  have table := table_landed keyed
  have port := portOf_of_table table l
  have line : (landedState s).lineOf l = s.lineOf l := by rw [State.lineOf, table]; rfl
  have empty : (landedState s).recordsOn l = [] := by rw [recordsOn_landed op keyed, kept]; rfl
  obtain ⟨x, on⟩ := List.exists_mem_of_ne_nil _ held
  have freed := freed_landed op keyed on (by rw [kept]; exact List.not_mem_nil)
  have keys := keys_of_still (still_landed keyed l)
  rw [list, List.map_cons] at keys
  obtain ⟨e', es', list', head, tail⟩ := List.map_eq_cons_iff.1 keys
  obtain ⟨n, v, eq, turned⟩ := turned_of_empty (keyed_landed keyed) freed empty list'
  have joiners : (landedState s).joiners l e' es' = (e :: same.take ((s.lineOf l).ports - 1)).map WaitEntry.key := by
    have route : e'.route = e.route := congrArg Prod.snd head
    rw [State.joiners, head, tail, port, line, route, keys_take, List.map_cons]
    congr 1
    by_cases aux : s.portOf l = .aux
    · simp [same, aux]
    · simp [same, aux]
  rw [joiners] at turned
  have subset : ∀ y ∈ e :: same.take ((s.lineOf l).ports - 1), y ∈ s.listOf l := fun y mem => by
    rw [list]
    obtain rfl | mem := List.mem_cons.1 mem
    · exact List.mem_cons_self
    · exact List.mem_cons_of_mem _ (List.mem_of_mem_filter (List.mem_of_mem_take mem))
  refine ⟨fun x mem free => joined_changed released keyed eq turned (List.mem_map_of_mem mem) free, fun free x mem out => ?_⟩
  have waits : x ∈ s.listOf l := list ▸ List.mem_cons_of_mem _ mem
  have once := keyed.lists l
  rw [list] at once
  have apart : x ∉ e :: same.take ((s.lineOf l).ports - 1) := by
    rw [List.mem_cons, not_or]
    exact ⟨fun own => (List.nodup_cons.1 once).1 (List.mem_map.2 ⟨x, mem, by rw [own]⟩), out⟩
  obtain ⟨x', mem', key⟩ := mem_key_of_still (still_landed keyed l) waits
  have pos : x'.pos = x.pos := congrArg Prod.fst key
  have route : x'.route = x.route := congrArg Prod.snd key
  have sole : (landedState s).Sole l e.route ((e :: same.take ((s.lineOf l).ports - 1)).map WaitEntry.key) := by
    refine ⟨by simp [State.Names, empty], fun q mem => ?_, by simp [empty], by simp [empty], .inr (by simp), by simp [empty], fun q mem => ?_⟩
    · obtain ⟨y, among, rfl⟩ := List.mem_map.1 mem
      obtain rfl | behind := List.mem_cons.1 among
      · rfl
      · have test := (List.mem_filter.1 (List.mem_of_mem_take behind)).2
        simp only [Bool.and_eq_true, decide_eq_true_eq] at test
        exact test.2
    · obtain ⟨y, among, rfl⟩ := List.mem_map.1 mem
      rw [standing_landed keyed, port]
      exact free y (subset y among)
  have full : (landedState s).portOf l = .main ∨ x'.route ≠ e.route ∨
      ((landedState s).lineOf l).ports ≤ ((landedState s).recordsOn l).length + ((e :: same.take ((s.lineOf l).ports - 1)).map WaitEntry.key).length := by
    rw [port, route, line, empty, List.length_map, List.length_cons]
    by_cases other : x.route = e.route
    · cases kind : s.portOf l with
      | main => exact .inl rfl
      | aux =>
        have own : x ∈ same := List.mem_filter.2 ⟨mem, by simp [kind, other]⟩
        rw [length_take_of_not_mem own out]
        exact .inr (.inr (by simp; omega))
    · exact .inr (.inl other)
  rw [← key]
  refine waits_changed released keyed eq turned sole mem' (pos ▸ pos_not_mem_keys keyed waits subset apart) full ?_
  rw [standing_landed keyed, port, pos]
  exact free x waits

/-- An RX line that keeps records of one route admits those with it, up to the splitter ports (R66). -/
theorem shared_changed (aux : s.portOf l = .aux) (some : s.keptOn o l ≠ []) (fewer : (s.keptOn o l).length < (s.recordsOn l).length)
    (manners : ∀ e ∈ s.listOf l, e.manner ≠ .take) (apart : ∀ x ∈ s.keptOn o l, ∀ m, s.portOf m = .aux → ∀ e ∈ s.listOf m, e.pos ≠ x.pos)
    (routes : ∀ x ∈ s.keptOn o l, x.route = r) :
    let same := (s.listOf l).filter fun x => x.route = r
    (∀ x ∈ same.take ((s.lineOf l).ports - (s.keptOn o l).length), (s.standing x.pos (s.portOf l)).reclaim = none →
        (changed s o).Joined x.pos x.route l) ∧
      ((∀ x ∈ s.keptOn o l, x.reroute = none ∧ (s.standing x.pos (s.portOf l)).reclaim = none) →
        (∀ y ∈ s.listOf l, (s.standing y.pos (s.portOf l)).reclaim = none) → ∀ x ∈ s.listOf l,
          x ∉ same.take ((s.lineOf l).ports - (s.keptOn o l).length) → ∃ y ∈ (changed s o).listOf l, y.key = x.key) := by
  intro same
  have table := table_landed keyed
  have port := portOf_of_table table
  have line : (landedState s).lineOf l = s.lineOf l := by rw [State.lineOf, table]; rfl
  have records := recordsOn_landed op keyed l
  have landed {h : Holder} (on : h ∈ (landedState s).recordsOn l) : ∃ x ∈ s.keptOn o l, h.pos = x.pos ∧ h.route = x.route ∧ h.reroute = x.reroute := by
    rw [records] at on
    obtain ⟨x, kept, rfl⟩ := List.mem_map.1 on
    obtain ⟨pos, -, -, route, reroute⟩ := landed_placed (latchChange s) x
    exact ⟨x, kept, pos, route, reroute⟩
  have alone : ∀ h ∈ (landedState s).recordsOn l, ∀ m, (landedState s).portOf m = (landedState s).portOf l →
      ∀ e ∈ (landedState s).listOf m, e.pos ≠ h.pos := fun h on m kind e mem own => by
    obtain ⟨x, kept, pos, -, -⟩ := landed on
    obtain ⟨e', was, same, -⟩ := mem_landed_of_mem keyed mem
    exact apart x kept m (by rw [← port, kind, port, aux]) e' was (same.trans (own.trans pos))
  have held : (landedState s).recordsOn l ≠ [] := by
    rw [records, Ne, List.map_eq_nil_iff]
    exact some
  have names : (landedState s).Names l r := fun h on => by
    obtain ⟨x, kept, -, route, -⟩ := landed on
    exact route.trans (routes x kept)
  obtain ⟨x, on, gone⟩ := List.length_filter_lt_length_iff_exists.1 fewer
  have freed := freed_landed op keyed on fun kept => gone (List.mem_filter.1 kept).2
  have waiting : ∀ e ∈ (landedState s).listOf l, e.manner ≠ .take := fun e mem => by
    obtain ⟨e', was, still⟩ := mem_still (still_landed keyed l) mem
    exact (pos_of_still still).2.2.1 ▸ manners e' was
  obtain ⟨n, v, eq, turned⟩ := turned_of_shared (keyed_landed keyed) freed ((port l).trans aux) held names waiting alone
  have room : (landedState s).roomFor l r ((landedState s).listOf l) = (same.take ((s.lineOf l).ports - (s.keptOn o l).length)).map WaitEntry.key := by
    rw [State.roomFor, keys_of_still (still_landed keyed l), line, records, List.length_map, keys_take]
  rw [room] at turned
  have subset : ∀ y ∈ same.take ((s.lineOf l).ports - (s.keptOn o l).length), y ∈ s.listOf l := fun y mem =>
    List.mem_of_mem_filter (List.mem_of_mem_take mem)
  refine ⟨fun x mem free => joined_changed released keyed eq turned (List.mem_map_of_mem mem) free, fun bare free x waits out => ?_⟩
  obtain ⟨x', mem', key⟩ := mem_key_of_still (still_landed keyed l) waits
  have pos : x'.pos = x.pos := congrArg Prod.fst key
  have route : x'.route = x.route := congrArg Prod.snd key
  have sole : (landedState s).Sole l r ((same.take ((s.lineOf l).ports - (s.keptOn o l).length)).map WaitEntry.key) := by
    refine ⟨names, fun q mem => ?_, fun h on => ?_, alone, .inl held, fun h on => ?_, fun q mem => ?_⟩
    · obtain ⟨y, among, rfl⟩ := List.mem_map.1 mem
      simpa using (List.mem_filter.1 (List.mem_of_mem_take among)).2
    · obtain ⟨x, kept, -, -, reroute⟩ := landed on
      exact reroute.trans (bare x kept).1
    · obtain ⟨x, kept, pos, -, -⟩ := landed on
      rw [standing_landed keyed, port, pos]
      exact (bare x kept).2
    · obtain ⟨y, among, rfl⟩ := List.mem_map.1 mem
      rw [standing_landed keyed, port]
      exact free y (subset y among)
  have full : (landedState s).portOf l = .main ∨ x'.route ≠ r ∨ ((landedState s).lineOf l).ports ≤
      ((landedState s).recordsOn l).length + ((same.take ((s.lineOf l).ports - (s.keptOn o l).length)).map WaitEntry.key).length := by
    rw [route, line, records, List.length_map, List.length_map]
    by_cases other : x.route = r
    · have own : x ∈ same := List.mem_filter.2 ⟨waits, decide_eq_true other⟩
      rw [length_take_of_not_mem own out]
      exact .inr (.inr (by omega))
    · exact .inr (.inl other)
  rw [← key]
  refine waits_changed released keyed eq turned sole mem' (pos ▸ pos_not_mem_keys keyed waits subset out) full ?_
  rw [standing_landed keyed, port, pos]
  exact free x waits

end

/-! ## The obligation -/

/-- The end of a CHANGE's shift (R142). -/
theorem exec_changeShiftEnd (powered : s.powered = true) (op : s.chain.op = some o) (kind : o.kind = .change) (phase : o.phase = .shifting)
    (out : s.safe = false) : exec .changeShiftEnd s = .next { s with chain := { s.chain with
      content := some o.image, op := some { o with phase := .settling }, settleTimer := some s.policy.tSettle } } := by
  have inPhase : s.inPhase .change .shifting = true := (inPhase_iff s _ _).2 ⟨o, op, kind, phase⟩
  have shifted : exec .changeShiftEnd s = .next (if s.powered then
      if s.inPhase .change .shifting && !s.safe then
        s.mapChain fun c => { c with
          content := c.op.map (·.image), op := c.op.map fun o => { o with phase := .settling }, settleTimer := some s.policy.settleMs }
      else s
    else s) := rfl
  rw [shifted, if_pos powered, inPhase, out, if_pos (by decide), State.mapChain, op]
  rfl

/-- Settles O58: from the completion's own work every later event of the step leaves the records of positions that await no line, keeps those
admitted to a freed line and bars those behind them, and makes each re-claim once. -/
theorem changeRuns : Obligations.ChangeRuns := by
  unfold Obligations.ChangeRuns
  refine ⟨fun s o powered op kind phase out => exec_changeShiftEnd powered op kind phase out, fun s o powered op kind phase settles keyed released => ?_⟩
  obtain ⟨v, ends, closed⟩ := closed_of_released (s := s) (u := afterChange (some o.purpose) (completed s))
    (by rw [restartRaw_afterChange]; exact released)
  have left : ChangeLeft s o (changed s o) := by
    rw [changed, ends]
    exact changeLeft_of_closed op closed
  refine ⟨changed s o, exec_change powered op kind phase settles, left.moved, left.latches.latched, fun q g => ?_, left.latches.refreshDue,
    left.latches.content, left.attempt, left.latches.settle, left.latches.restartHold, left.restarted, left.verifies, left.ended, fun l => ⟨?_, ?_⟩,
    fun x mem breaking opens named => ?_, fun x mem awaits => ?_⟩
  · rw [State.filterOf, left.latches.filters q]
    exact latchedFilter_iff o.image q g
  · intro held kept e es list
    obtain ⟨joined, waits⟩ := emptied_changed op released keyed held kept list
    have admitted {x : WaitEntry} (mem : x ∈ e :: (es.filter fun x => s.portOf l = .aux && x.route = e.route).take ((s.lineOf l).ports - 1))
        (free : (s.standing x.pos (s.portOf l)).reclaim = none) := joined x mem free
    refine ⟨fun free => ?_, fun x mem free => ?_, fun x mem out _ free => ?_⟩
    · exact ⟨(admitted List.mem_cons_self free).record, (admitted List.mem_cons_self free).out⟩
    · exact ⟨(admitted (List.mem_cons_of_mem _ mem) free).record, (admitted (List.mem_cons_of_mem _ mem) free).out⟩
    · obtain ⟨y, mem', key⟩ := waits free x mem out
      exact ⟨y, mem', congrArg Prod.fst key, congrArg Prod.snd key⟩
  · intro aux some fewer manners apart r routes
    obtain ⟨joined, waits⟩ := shared_changed op released keyed aux some fewer manners apart routes
    refine ⟨fun x mem free => ⟨(joined x mem free).record, (joined x mem free).out⟩, fun x mem out bare free => ?_⟩
    obtain ⟨y, mem', key⟩ := waits bare free x mem out
    exact ⟨y, mem', congrArg Prod.fst key, congrArg Prod.snd key⟩
  · obtain ⟨freed, due, served⟩ := reclaimed_changed op released keyed mem breaking opens named
    refine ⟨freed, due, fun out ready alone => followed_of_servedOn fun b band present => served out ready alone b ?_ ?_⟩
    · rw [State.freqOf, left.moved.freq (by decide)] at band
      exact band
    · exact (left.moved.links x.pos).present.symm.trans present
  · have own := ownChanged op released keyed mem awaits
    exact ⟨fun making _ fits => ⟨own.connected making fits, own.told making fits⟩, own.unmade, own.removed, own.breaks, own.stands, own.waits⟩

end Sys2Proof.Machine
end
